-- ==== Sys2Proof/Word.lean ====
section
/-!
DEFINITION. The words of the KX9: byte, halfword, word, doubleword (spec/00_scope.md R4) and their plainest arithmetic.
-/
namespace Sys2Proof

/-- A byte, 8 bits (R4). -/
abbrev Byte := BitVec 8

/-- A doubleword, 64 bits (R4): the width of a scalar register (R47). -/
abbrev DW := BitVec 64

/-- An instruction word, 32 bits (R29). -/
abbrev IWord := BitVec 32

/-- A vector register, 1,024 bits (R47, R48). -/
abbrev VWord := BitVec 1024

end Sys2Proof
end

