-- ==== Sys2Proof/Machine/Bits.lean ====
section
/-! DEFINITION. Sys2Proof/Machine/Bits.lean: little-endian bytes, integers of a width, elements of vector registers, and the
list helpers that the other files share. -/
namespace Sys2Proof.Machine

/-! ### Bytes and integers -/

/-- The `n` bytes of a number, least significant first (00 R4). -/
def leBytes : Nat → Nat → List Byte
  | 0, _ => []
  | n + 1, v => BitVec.ofNat 8 v :: leBytes n (v / 256)

/-- The number that bytes hold, least significant first (00 R4). -/
def ofLe : List Byte → Nat
  | [] => 0
  | b :: bs => b.toNat + 256 * ofLe bs

/-- A two's complement field of width `w` as an integer (00 R12 SignExt). -/
def signed (w : Nat) (x : Nat) : Int :=
  let y := x % 2 ^ w
  if y < 2 ^ (w - 1) then (y : Int) else (y : Int) - (2 ^ w : Nat)

/-- The low `w` bits of an integer (00 R12 Trunc). -/
def wrap (w : Nat) (x : Int) : Nat := (x % (2 ^ w : Nat)).toNat

/-- An integer held between two bounds. -/
def clampInt (lo hi x : Int) : Int := if x < lo then lo else if hi < x then hi else x

/-- Division that rounds toward zero (00 R10 div). -/
def divZero (a b : Int) : Int := Int.tdiv a b

/-- Bits [lo+n-1:lo] of a number. -/
def bitsOf (x lo n : Nat) : Nat := (x / 2 ^ lo) % 2 ^ n

/-- One bit of a number. -/
def bitOf (x i : Nat) : Bool := (x / 2 ^ i) % 2 == 1

/-- One bits of the low `n` bits. -/
def popCount : Nat → Nat → Nat
  | 0, _ => 0
  | n + 1, x => x % 2 + popCount n (x / 2)

/-- Index of the lowest one bit among the low `n` bits, or `n`. -/
def lowestOne : Nat → Nat → Nat
  | 0, _ => 0
  | n + 1, x => if x % 2 = 1 then 0 else 1 + lowestOne n (x / 2)

/-- Leading zero bits of a `w`-bit number. -/
def leadingZeros (w x : Nat) : Nat := if x % 2 ^ w = 0 then w else w - 1 - Nat.log2 (x % 2 ^ w)

/-- A number from its parts, least significant first, each `w` bits wide. -/
def packList (w : Nat) : List Nat → Nat
  | [] => 0
  | x :: xs => x % 2 ^ w + 2 ^ w * packList w xs

/-! ### Elements of vector registers (02 R48) -/

/-- Element `e` of width `w`. -/
def vElem (w : Nat) (x : VWord) (e : Nat) : Nat := bitsOf x.toNat (w * e) w

/-- The register whose `n` elements of width `w` are given; bits above them are 0. -/
def vBuild (w n : Nat) (f : Nat → Nat) : VWord := BitVec.ofNat 1024 (packList w ((List.range n).map f))

/-- Which mask bit governs element `e` of width `w`: the element's own for 32 and 64 bits, its lane's below (02 R48). -/
def maskBit (w : Nat) (m : BitVec 32) (e : Nat) : Bool :=
  if w = 64 then decide (e < 16) && m.getLsbD e else m.getLsbD (e * w / 32)

/-- The masked update of a register: element `e` takes `f e` where the mask is 1 and keeps its value elsewhere (08 R178). -/
def vMasked (w : Nat) (m : BitVec 32) (old : VWord) (f : Nat → Nat) : VWord :=
  vBuild w (1024 / w) fun e => if maskBit w m e then f e else vElem w old e

/-! ### Lists -/

/-- The element at a place, changed. -/
def modAt {α : Type} (f : α → α) : Nat → List α → List α
  | _, [] => []
  | 0, x :: xs => f x :: xs
  | n + 1, x :: xs => x :: modAt f n xs

/-- The list without the element at a place. -/
def dropAt {α : Type} : Nat → List α → List α
  | _, [] => []
  | 0, _ :: xs => xs
  | n + 1, x :: xs => x :: dropAt n xs

/-- Replace the first element that a test accepts, or add one at the end. -/
def upsert {α : Type} (p : α → Bool) (f : Option α → α) : List α → List α
  | [] => [f none]
  | x :: xs => if p x then f (some x) :: xs else x :: upsert p f xs

/-- Replace the first element that a test accepts. -/
def modFirst {α : Type} (p : α → Bool) (f : α → α) : List α → List α
  | [] => []
  | x :: xs => if p x then f x :: xs else x :: modFirst p f xs

/-- Remove the first element that a test accepts. -/
def dropFirst {α : Type} (p : α → Bool) : List α → List α
  | [] => []
  | x :: xs => if p x then xs else x :: dropFirst p xs

/-- Insert a number once, in rising order. -/
def insertNat (a : Nat) : List Nat → List Nat
  | [] => [a]
  | x :: xs => if a < x then a :: x :: xs else if a = x then x :: xs else x :: insertNat a xs

/-- The first `n` elements, filled up with `d`. -/
def takePad {α : Type} (n : Nat) (d : α) (l : List α) : List α :=
  (l ++ List.replicate (n - l.length) d).take n

end Sys2Proof.Machine
end

