-- ==== Sys2Proof/Machine/Float.lean ====
section
/-! DEFINITION. Sys2Proof/Machine/Float.lean: the float formats of 07 R152 and exact arithmetic with one rounding at the end
(07 R176, R429; 08 R179). A finite value is a sign, a significand and an exponent; a sticky bit stands for a nonzero amount
below the significand. -/
namespace Sys2Proof.Machine

/-! ### Sticky flags (02 R53) -/

abbrev Flags := BitVec 11
def flNV : Flags := 0x001
def flDZ : Flags := 0x002
def flOF : Flags := 0x004
def flUF : Flags := 0x008
def flNX : Flags := 0x010
def flSAT : Flags := 0x020
def flSqClamp : Flags := 0x040
def flSqNan : Flags := 0x080
def flSqNf : Flags := 0x100
def flAicLoss : Flags := 0x200
def flScaleSat : Flags := 0x400

/-- A flag, when a condition holds. -/
def flagIf (c : Bool) (f : Flags) : Flags := if c then f else 0

/-! ### Formats -/

/-- A float format: exponent bits, mantissa bits, bias, and whether it has infinities and NaNs (07 R152). -/
structure Fmt where
  x : Nat
  y : Nat
  bias : Int
  hasInf : Bool
  hasNan : Bool
  deriving DecidableEq, Repr

def fp64 : Fmt := { x := 11, y := 52, bias := 1023, hasInf := true, hasNan := true }
def fp32 : Fmt := { x := 8, y := 23, bias := 127, hasInf := true, hasNan := true }
def fp16 : Fmt := { x := 5, y := 10, bias := 15, hasInf := true, hasNan := true }
def bf16 : Fmt := { x := 8, y := 7, bias := 127, hasInf := true, hasNan := true }
def e4m3 : Fmt := { x := 4, y := 3, bias := 7, hasInf := false, hasNan := true }
def e5m2 : Fmt := { x := 5, y := 2, bias := 15, hasInf := true, hasNan := true }
def e2m1 : Fmt := { x := 2, y := 1, bias := 1, hasInf := false, hasNan := false }

/-- Width of a code. -/
def Fmt.width (g : Fmt) : Nat := 1 + g.x + g.y
/-- Exponent of the smallest normal value. -/
def Fmt.emin (g : Fmt) : Int := 1 - g.bias
/-- Code of the largest finite magnitude (07 R152). -/
def Fmt.maxCode (g : Fmt) : Nat :=
  if g.hasInf then (2 ^ g.x - 1) * 2 ^ g.y - 1
  else if g.hasNan then 2 ^ (g.x + g.y) - 2
  else 2 ^ (g.x + g.y) - 1
/-- Code of +∞ (07 R152). -/
def Fmt.infCode (g : Fmt) : Nat := (2 ^ g.x - 1) * 2 ^ g.y
/-- Canonical quiet NaN with sign 0 (07 R152). -/
def Fmt.nanCode (g : Fmt) : Nat :=
  if g.hasInf then g.infCode + 2 ^ (g.y - 1) else 2 ^ (g.x + g.y) - 1
/-- The sign bit of a code. -/
def Fmt.signBit (g : Fmt) (neg : Bool) : Nat := if neg then 2 ^ (g.x + g.y) else 0

/-- The value of a code: a NaN with its sign and whether it signals, an infinity, or (-1)^neg × m × 2^e. -/
inductive FVal where
  | nan (neg signalling : Bool)
  | inf (neg : Bool)
  | fin (neg : Bool) (m : Nat) (e : Int)
  deriving DecidableEq, Repr

/-- DecodeFmt of 07 R152, with the quiet bit of R153. -/
def decodeFmt (g : Fmt) (code : Nat) : FVal :=
  let neg := bitOf code (g.x + g.y)
  let e := bitsOf code g.y g.x
  let f := bitsOf code 0 g.y
  if g.hasInf && e == 2 ^ g.x - 1 then
    if f = 0 then .inf neg else .nan neg (f < 2 ^ (g.y - 1))
  else if !g.hasInf && g.hasNan && e == 2 ^ g.x - 1 && f == 2 ^ g.y - 1 then .nan neg false
  else if e = 0 then .fin neg f (g.emin - g.y)
  else .fin neg (2 ^ g.y + f) ((e : Int) - g.bias - g.y)

def FVal.isNan : FVal → Bool
  | .nan _ _ => true
  | _ => false
def FVal.isSig : FVal → Bool
  | .nan _ s => s
  | _ => false
def FVal.neg? : FVal → Bool
  | .nan n _ => n
  | .inf n => n
  | .fin n _ _ => n
def FVal.isZero : FVal → Bool
  | .fin _ 0 _ => true
  | _ => false
def FVal.isFin : FVal → Bool
  | .fin _ _ _ => true
  | _ => false
def FVal.negate : FVal → FVal
  | .nan n s => .nan n s
  | .inf n => .inf (!n)
  | .fin n m e => .fin (!n) m e

/-! ### Rounding -/

/-- Rounding directions: SR_FPCTL.RM of 02 R54. -/
inductive RMode where
  | near | zero | up | down
  deriving DecidableEq, Repr

def RMode.ofBits (b : BitVec 2) : RMode :=
  match b.toNat with
  | 0 => .near
  | 1 => .zero
  | 2 => .up
  | _ => .down

/-- Shift a significand to a quantum: the integer part, the rest above half, at half, and anything nonzero. -/
def splitAt (m : Nat) (e q : Int) : Nat × Nat × Nat :=
  if q ≤ e then (m * 2 ^ (e - q).toNat, 0, 1)
  else
    let k := (q - e).toNat
    (m / 2 ^ k, m % 2 ^ k, 2 ^ k)

/-- Whether rounding goes away from zero: `n` integer part, `r` of `d` the rest, `st` more below it. -/
def roundsUp (rm : RMode) (neg : Bool) (n r d : Nat) (st : Bool) : Bool :=
  match rm with
  | .near => decide (d < 2 * r) || (decide (2 * r = d) && (st || n % 2 == 1))
  | .zero => false
  | .up => !neg && (decide (r ≠ 0) || st)
  | .down => neg && (decide (r ≠ 0) || st)

/-- The code of n × 2^q, for an n of at most y + 1 bits (or exactly 2^(y+1)), where q is not below the format's least
quantum. -/
def codeOf (g : Fmt) (n : Nat) (q : Int) : Nat :=
  if n < 2 ^ g.y then n
  else if n < 2 ^ (g.y + 1) then (q + g.y + g.bias).toNat * 2 ^ g.y + (n - 2 ^ g.y)
  else (q + 1 + g.y + g.bias).toNat * 2 ^ g.y

/-- Whether n × 2^q exceeds the largest finite magnitude. -/
def aboveMax (g : Fmt) (n : Nat) (q : Int) : Bool :=
  match decodeFmt g g.maxCode with
  | .fin _ m e => if e ≤ q then decide (m < n * 2 ^ (q - e).toNat) else decide (m * 2 ^ (e - q).toNat < n)
  | _ => false

/-- Round (-1)^neg × m × 2^e, m > 0, plus a nonzero amount of the same sign below every bit when `st` holds, to a code of g,
with its flags: overflow tested after rounding, tininess before (07 R429, 08 R179). -/
def roundFin (g : Fmt) (rm : RMode) (neg : Bool) (m : Nat) (e : Int) (st : Bool) : Nat × Flags :=
  let top : Int := (Nat.log2 m : Int) + e
  let tiny := decide (top < g.emin)
  let q : Int := (if tiny then g.emin else top) - g.y
  let (n, r, d) := splitAt m e q
  let inexact := decide (r ≠ 0) || st
  let n' := if roundsUp rm neg n r d st then n + 1 else n
  if aboveMax g n' q then
    let toInf := g.hasInf && (match rm with
      | .near => true
      | .zero => false
      | .up => !neg
      | .down => neg)
    (g.signBit neg + (if toInf then g.infCode else g.maxCode), flOF ||| flNX)
  else (g.signBit neg + codeOf g n' q, flagIf inexact flNX ||| flagIf (tiny && inexact) flUF)

/-- A code for a value that may be zero (its sign is given), finite. -/
def roundVal (g : Fmt) (rm : RMode) (neg : Bool) (m : Nat) (e : Int) (st : Bool) : Nat × Flags :=
  if m = 0 then (g.signBit neg, flagIf st flNX) else roundFin g rm neg m e st

/-- The canonical quiet NaN with a sign (07 R153). -/
def nanWith (g : Fmt) (neg : Bool) : Nat := g.signBit neg + g.nanCode

/-- An infinity of g. -/
def infWith (g : Fmt) (neg : Bool) : Nat := g.signBit neg + g.infCode

/-- RoundSto of 07 R166 on (-1)^neg × m × 2^e, m > 0, with the random word u. -/
def roundSto (g : Fmt) (neg : Bool) (m : Nat) (e : Int) (u : Nat) : Nat × Flags :=
  let near := roundFin g .near neg m e false
  let lo := roundFin g .zero neg m e false
  if lo.2 = 0 then lo
  else
    let top : Int := (Nat.log2 m : Int) + e
    let q : Int := (if top < g.emin then g.emin else top) - g.y
    let (n, r, d) := splitAt m e q
    if aboveMax g n q || (decide (r ≠ 0) && aboveMax g (n + 1) q) then near
    else
      let n' := if u * d < r * 2 ^ 32 then n + 1 else n
      (g.signBit neg + codeOf g n' q, flagIf (decide (r ≠ 0)) flNX ||| flagIf (decide (r ≠ 0) && decide (top < g.emin)) flUF)

/-! ### Exact operations -/

/-- A finite value as an integer multiple of 2^q, q not above its exponent. -/
def scaled (neg : Bool) (m : Nat) (e q : Int) : Int :=
  let v : Int := (m * 2 ^ (e - q).toNat : Nat)
  if neg then -v else v

/-- The exact sum of two finite values: its sign when nonzero, significand and exponent. -/
def addExact (n1 : Bool) (m1 : Nat) (e1 : Int) (n2 : Bool) (m2 : Nat) (e2 : Int) : Int × Int :=
  let q := min e1 e2
  (scaled n1 m1 e1 q + scaled n2 m2 e2 q, q)

/-- Round an exact integer multiple of 2^q; an exact zero is +0, or −0 toward −∞ (08 R179). -/
def roundInt (g : Fmt) (rm : RMode) (v q : Int) (st : Bool) : Nat × Flags :=
  if v = 0 then (g.signBit (rm == .down), flagIf st flNX) else roundFin g rm (decide (v < 0)) v.natAbs q st

/-- The first NaN of a list gives the result's sign; a signalling one sets NV (08 R179). -/
def nanResult (g : Fmt) (xs : List FVal) : Option (Nat × Flags) :=
  match xs.find? FVal.isNan with
  | none => none
  | some v => some (nanWith g v.neg?, flagIf (xs.any FVal.isSig) flNV)

/-- An invalid operation: NaN with sign 0 and NV (08 R179). -/
def invalid (g : Fmt) : Nat × Flags := (nanWith g false, flNV)

/-- x + y, rounded once (08 R182, R183). -/
def fAdd (g : Fmt) (rm : RMode) (x y : FVal) : Nat × Flags :=
  match nanResult g [x, y] with
  | some r => r
  | none =>
    match x, y with
    | .inf a, .inf b => if a = b then (infWith g a, 0) else invalid g
    | .inf a, _ => (infWith g a, 0)
    | _, .inf b => (infWith g b, 0)
    | .fin n1 m1 e1, .fin n2 m2 e2 =>
      if m1 = 0 ∧ m2 = 0 ∧ n1 = n2 then (g.signBit n1, 0)
      else
        let (v, q) := addExact n1 m1 e1 n2 m2 e2
        roundInt g rm v q false
    | _, _ => (0, 0)

/-- x × y, rounded once. -/
def fMul (g : Fmt) (rm : RMode) (x y : FVal) : Nat × Flags :=
  match nanResult g [x, y] with
  | some r => r
  | none =>
    let s := x.neg? != y.neg?
    match x, y with
    | .inf _, .inf _ => (infWith g s, 0)
    | .inf _, v => if v.isZero then invalid g else (infWith g s, 0)
    | v, .inf _ => if v.isZero then invalid g else (infWith g s, 0)
    | .fin _ m1 e1, .fin _ m2 e2 => roundVal g rm s (m1 * m2) (e1 + e2) false
    | _, _ => (0, 0)

/-- x × y + z, rounded once; ∞ × 0 is invalid even beside a NaN addend (08 R183). -/
def fFma (g : Fmt) (rm : RMode) (x y z : FVal) : Nat × Flags :=
  let badMul := match x, y with
    | .inf _, v => v.isZero
    | v, .inf _ => v.isZero
    | _, _ => false
  if badMul then invalid g
  else match nanResult g [x, y, z] with
  | some r => r
  | none =>
    let s := x.neg? != y.neg?
    match x, y, z with
    | .fin _ m1 e1, .fin _ m2 e2, .fin n3 m3 e3 =>
      if m1 * m2 = 0 ∧ m3 = 0 ∧ s = n3 then (g.signBit s, 0)
      else
        let (v, q) := addExact s (m1 * m2) (e1 + e2) n3 m3 e3
        roundInt g rm v q false
    | .fin _ _ _, .fin _ _ _, .inf c => (infWith g c, 0)
    | _, _, .inf c => if s = c then (infWith g c, 0) else invalid g
    | _, _, _ => (infWith g s, 0)

/-- Bits of quotient and root kept below the leading one: more than any format has. -/
def extraBits : Nat := 130

/-- x / y, rounded once (08 R183). -/
def fDiv (g : Fmt) (rm : RMode) (x y : FVal) : Nat × Flags :=
  match nanResult g [x, y] with
  | some r => r
  | none =>
    let s := x.neg? != y.neg?
    match x, y with
    | .inf _, .inf _ => invalid g
    | .inf _, _ => (infWith g s, 0)
    | _, .inf _ => (g.signBit s, 0)
    | .fin _ m1 e1, .fin _ m2 e2 =>
      if m2 = 0 then (if m1 = 0 then invalid g else (infWith g s, flDZ))
      else if m1 = 0 then (g.signBit s, 0)
      else
        let k := extraBits + Nat.log2 m2
        let t := m1 * 2 ^ k
        roundVal g rm s (t / m2) (e1 - e2 - k) (decide (t % m2 ≠ 0))
    | _, _ => (0, 0)

/-- Bit by bit, the largest r + d with square not above n, where d takes `k` more bits. -/
def isqrtGo (n : Nat) : Nat → Nat → Nat
  | 0, r => r
  | k + 1, r =>
    let c := r + 2 ^ k
    isqrtGo n k (if c * c ≤ n then c else r)

/-- The integer square root. -/
def isqrt (n : Nat) : Nat := isqrtGo n (Nat.log2 n / 2 + 1) 0

/-- √x, rounded once (08 R183). -/
def fSqrt (g : Fmt) (rm : RMode) (x : FVal) : Nat × Flags :=
  match nanResult g [x] with
  | some r => r
  | none =>
    match x with
    | .inf true => invalid g
    | .inf false => (infWith g false, 0)
    | .fin n m e =>
      if m = 0 then (g.signBit n, 0)
      else if n then invalid g
      else
        let odd := (e % 2).toNat
        let t := m * 2 ^ (2 * extraBits + odd)
        let r := isqrt t
        roundVal g rm false r ((e - odd) / 2 - extraBits) (decide (r * r ≠ t))
    | .nan _ _ => (0, 0)

/-- 1 / √x, rounded once (08 R183). -/
def fRsqrt (g : Fmt) (rm : RMode) (x : FVal) : Nat × Flags :=
  match nanResult g [x] with
  | some r => r
  | none =>
    match x with
    | .inf true => invalid g
    | .inf false => (0, 0)
    | .fin n m e =>
      if m = 0 then (infWith g n, flDZ)
      else if n then invalid g
      else
        let odd := (e % 2).toNat
        let mm := m * 2 ^ odd
        let k := extraBits + Nat.log2 mm
        let r := isqrt (2 ^ (2 * k) / mm)
        roundVal g rm false r (-((e - odd) / 2) - k) (decide (r * r * mm ≠ 2 ^ (2 * k)))
    | .nan _ _ => (0, 0)

/-- A value below another, both not NaN; −0 is below +0 when `zeros` holds. -/
def fLess (zeros : Bool) (x y : FVal) : Bool :=
  match x, y with
  | .inf a, .inf b => a && !b
  | .inf a, _ => a
  | _, .inf b => !b
  | .fin n1 m1 e1, .fin n2 m2 e2 =>
    if m1 = 0 ∧ m2 = 0 then zeros && n1 && !n2
    else
      let q := min e1 e2
      decide (scaled n1 m1 e1 q < scaled n2 m2 e2 q)
  | _, _ => false

/-- minimumNumber or maximumNumber of two codes; NaNs and −0 < +0 as 08 R183 says. -/
def fMinMax (g : Fmt) (mx : Bool) (cx cy : Nat) : Nat × Flags :=
  let x := decodeFmt g cx
  let y := decodeFmt g cy
  let nv := flagIf (x.isSig || y.isSig) flNV
  match x.isNan, y.isNan with
  | true, true => (nanWith g x.neg?, nv)
  | true, false => (cy, nv)
  | false, true => (cx, nv)
  | false, false => ((if fLess true x y != mx then cx else cy), nv)

end Sys2Proof.Machine
end

