-- ==== Sys2Proof/Machine/Cipher.lean ====
section
/-! DEFINITION. Sys2Proof/Machine/Cipher.lean: the published ciphers that 03 R75, 17 R376 and R388 name: AES-256, XTS over one
32-byte data unit, the key unwrap of RFC 3394, and SHA-384 (log 8). A block is 16 bytes, column by column. -/
namespace Sys2Proof.Machine

/-! ### The byte field of AES -/

/-- Multiplication by x, modulo x^8 + x^4 + x^3 + x + 1. -/
def gfDouble (a : Byte) : Byte := (a <<< 1) ^^^ (if a.getLsbD 7 then 0x1B else 0)

/-- The product of two field elements, over the bits of the second that are left. -/
def gfMulGo : Nat → Byte → Byte → Byte
  | 0, _, _ => 0
  | n + 1, a, b => (if b.getLsbD 0 then a else 0) ^^^ gfMulGo n (gfDouble a) (b >>> 1)

def gfMul (a b : Byte) : Byte := gfMulGo 8 a b

/-- The inverse, 0 for 0: the 254th power, from the chain 3, 12, 15, 240, 252, 254. -/
def gfInv (a : Byte) : Byte :=
  let sq := fun x => gfMul x x
  let a2 := sq a
  let a3 := gfMul a2 a
  let a12 := sq (sq a3)
  let a15 := gfMul a12 a3
  let a240 := sq (sq (sq (sq a15)))
  gfMul (gfMul a240 a12) a2

/-- SubBytes of one byte, and its inverse. -/
def subByte (a : Byte) : Byte :=
  let i := gfInv a
  i ^^^ i.rotateLeft 1 ^^^ i.rotateLeft 2 ^^^ i.rotateLeft 3 ^^^ i.rotateLeft 4 ^^^ 0x63
def unsubByte (a : Byte) : Byte := gfInv (a.rotateLeft 1 ^^^ a.rotateLeft 3 ^^^ a.rotateLeft 6 ^^^ 0x05)

/-! ### AES-256 -/

/-- Exclusive-or byte by byte. -/
def xorBytes (a b : List Byte) : List Byte := List.zipWith (· ^^^ ·) a b

/-- The bytes of a list at given places. -/
def pick (l : List Byte) (places : List Nat) : List Byte := places.map fun i => l.getD i 0

/-- Key words after the first eight: word i from words i - 1 and i - 8, `ws` the words so far, latest first. -/
def expandGo : Nat → Nat → Byte → List (List Byte) → List (List Byte)
  | 0, _, _, ws => ws
  | n + 1, i, rc, ws =>
    let w := ws.headD []
    let back := ws.getD 7 []
    let t := if i % 8 = 0 then xorBytes ((pick w [1, 2, 3, 0]).map subByte) [rc, 0, 0, 0]
      else if i % 8 = 4 then w.map subByte else w
    expandGo n (i + 1) (if i % 8 = 0 then gfDouble rc else rc) (xorBytes back t :: ws)

/-- The 15 round keys of a 32-byte key. -/
def roundKeys (key : List Byte) : List (List Byte) :=
  let first := (List.range 8).map fun i => pick key ((List.range 4).map (· + 4 * i))
  let ws := (expandGo 52 8 1 first.reverse).reverse
  (List.range 15).map fun r => (List.range 4).flatMap fun c => ws.getD (4 * r + c) []

/-- ShiftRows and its inverse. -/
def shiftRows (b : List Byte) : List Byte := pick b [0, 5, 10, 15, 4, 9, 14, 3, 8, 13, 2, 7, 12, 1, 6, 11]
def unshiftRows (b : List Byte) : List Byte := pick b [0, 13, 10, 7, 4, 1, 14, 11, 8, 5, 2, 15, 12, 9, 6, 3]

/-- One column times the circulant matrix whose first row is given. -/
def mixColumn (m : List Byte) (col : List Byte) : List Byte :=
  (List.range 4).map fun r =>
    (List.range 4).foldl (fun x c => x ^^^ gfMul (m.getD ((c + 4 - r) % 4) 0) (col.getD c 0)) 0

/-- MixColumns with a matrix. -/
def mixColumns (m : List Byte) (b : List Byte) : List Byte :=
  (List.range 4).flatMap fun c => mixColumn m (pick b ((List.range 4).map (· + 4 * c)))

/-- AES-256 of a block. -/
def aesEncrypt (key block : List Byte) : List Byte :=
  let ks := roundKeys key
  let mid := (List.range 13).foldl (fun b r =>
    xorBytes (mixColumns [2, 3, 1, 1] (shiftRows (b.map subByte))) (ks.getD (r + 1) [])) (xorBytes block (ks.getD 0 []))
  xorBytes (shiftRows (mid.map subByte)) (ks.getD 14 [])

/-- The inverse of `aesEncrypt`. -/
def aesDecrypt (key block : List Byte) : List Byte :=
  let ks := roundKeys key
  let mid := (List.range 13).foldl (fun b r =>
    mixColumns [14, 11, 13, 9] (xorBytes ((unshiftRows b).map unsubByte) (ks.getD (13 - r) [])))
    (xorBytes block (ks.getD 14 []))
  xorBytes ((unshiftRows mid).map unsubByte) (ks.getD 0 [])

/-! ### XTS of a granule (03 R75) -/

/-- The mask of the second block of a data unit: the first one times x, in the field of 2^128 elements. -/
def xtsDouble (t : List Byte) : List Byte :=
  let n := ofLe t
  leBytes 16 (2 * n % 2 ^ 128 ^^^ (if n < 2 ^ 127 then 0 else 0x87))

/-- Both blocks of a data unit: masked, ciphered by `f` under the first half of the key, masked again. The tweak is the granule's
number, encrypted under the second half. -/
def xtsUnit (f : List Byte → List Byte → List Byte) (key : List Byte) (tweak : Nat) (unit : List Byte) : List Byte :=
  let t0 := aesEncrypt (key.drop 32) (leBytes 16 tweak)
  let block := fun (t b : List Byte) => xorBytes (f (key.take 32) (xorBytes b t)) t
  block t0 (unit.take 16) ++ block (xtsDouble t0) (unit.drop 16)

/-- AES-256-XTS of one 32-byte data unit under a 64-byte key, and its inverse. -/
def xtsEncrypt (key : List Byte) (tweak : Nat) (unit : List Byte) : List Byte := xtsUnit aesEncrypt key tweak unit
def xtsDecrypt (key : List Byte) (tweak : Nat) (unit : List Byte) : List Byte := xtsUnit aesDecrypt key tweak unit

/-! ### Key unwrap of RFC 3394 (17 R376) -/

/-- Steps of the unwrap, from step t down to 1: register A, and the n registers R. -/
def unwrapGo (kek : List Byte) (n : Nat) : Nat → List Byte → List (List Byte) → List Byte × List (List Byte)
  | 0, a, rs => (a, rs)
  | t + 1, a, rs =>
    let i := t % n
    let b := aesDecrypt kek (xorBytes a (leBytes 8 (t + 1)).reverse ++ rs.getD i [])
    unwrapGo kek n t (b.take 8) (rs.set i (b.drop 8))

/-- The key that wrapped bytes hold, unless their check value is wrong. -/
def aesUnwrap (kek wrapped : List Byte) : Option (List Byte) :=
  let n := wrapped.length / 8 - 1
  let rs := (List.range n).map fun i => (wrapped.drop (8 * (i + 1))).take 8
  let r := unwrapGo kek n (6 * n) (wrapped.take 8) rs
  if r.1 = List.replicate 8 0xA6 then some r.2.flatten else none

/-! ### SHA-384 (17 R388) -/

/-- The greatest number below 2^`bits` whose `k`-th power is at most `n`, found bit by bit from the highest. -/
def rootBelow (k n bits : Nat) : Nat :=
  (List.range bits).foldr (fun b r => if (r + 2 ^ b) ^ k ≤ n then r + 2 ^ b else r) 0

/-- The first 64 bits of the fraction of the `k`-th root of `p`. -/
def rootFraction (k p : Nat) : DW := BitVec.ofNat 64 (rootBelow k (p * 2 ^ (64 * k)) 72)

/-- The first eighty primes. -/
def shaPrimes : List Nat := (List.range 410).filter fun p => 1 < p && (List.range p).all fun d => d < 2 || p % d != 0

/-- A message with its padding: a one bit, zeros, and its length in bits as 16 bytes, to a whole number of 128-byte blocks. -/
def shaPad (m : List Byte) : List Byte :=
  m ++ 0x80 :: List.replicate ((239 - m.length % 128) % 128) 0 ++ (leBytes 16 (8 * m.length)).reverse

/-- The message schedule: `n` words, from a window of the next sixteen. -/
def shaSchedule : Nat → List DW → List DW
  | 0, _ => []
  | n + 1, w =>
    let x := fun i => w.getD i 0
    let s0 := fun (v : DW) => v.rotateRight 1 ^^^ v.rotateRight 8 ^^^ v >>> 7
    let s1 := fun (v : DW) => v.rotateRight 19 ^^^ v.rotateRight 61 ^^^ v >>> 6
    x 0 :: shaSchedule n (w.drop 1 ++ [s1 (x 14) + x 9 + s0 (x 1) + x 0])

/-- One round over the eight working words. -/
def shaRound (v : List DW) (kw : DW) : List DW :=
  let x := fun i => v.getD i 0
  let a := x 0
  let e := x 4
  let t := x 7 + (e.rotateRight 14 ^^^ e.rotateRight 18 ^^^ e.rotateRight 41) + (e &&& x 5 ^^^ ~~~e &&& x 6) + kw
  let u := (a.rotateRight 28 ^^^ a.rotateRight 34 ^^^ a.rotateRight 39) + (a &&& x 1 ^^^ a &&& x 2 ^^^ x 1 &&& x 2)
  [t + u, a, x 1, x 2, x 3 + t, e, x 5, x 6]

/-- The blocks of a padded message, folded into the hash words. -/
def shaBlocks : Nat → List DW → List Byte → List DW
  | 0, h, _ => h
  | n + 1, h, bs =>
    let w := (List.range 16).map fun i => BitVec.ofNat 64 (ofLe ((bs.drop (8 * i)).take 8).reverse)
    let kws := List.zipWith (· + ·) (shaPrimes.map (rootFraction 3)) (shaSchedule 80 w)
    shaBlocks n (List.zipWith (· + ·) h (kws.foldl shaRound h)) (bs.drop 128)

/-- SHA-384 of a message: 48 bytes. -/
def sha384 (m : List Byte) : List Byte :=
  let p := shaPad m
  let h := shaBlocks (p.length / 128) (((shaPrimes.drop 8).take 8).map (rootFraction 2)) p
  (h.take 6).flatMap fun x => (leBytes 8 x.toNat).reverse

end Sys2Proof.Machine
end

