-- ==== Sys2Proof/Config.lean ====
section
/-! DEFINITION. Sys2Proof/Config.lean: what the manual leaves open (free values, 00 R2; log 4), the keys and signatures
whose formats it does not give (log 7), and the sizes that are fixed for the part. A constant without a body can be proved to
have no particular value: a statement about it holds for every value. -/
namespace Sys2Proof.Config

/-! ### Free values: an undefined value is drawn at the state's `free` counter (log 4) -/

/-- An undefined 64-bit value. -/
opaque freeWord : Nat → BitVec 64
/-- An undefined vector register. -/
opaque freeVec : Nat → BitVec 1024
/-- An undefined byte of a range; the second argument is the byte's place in the range. -/
opaque freeByte : Nat → Nat → BitVec 8

/-! ### Keys and signatures (log 7) -/

/-- The monitor's own key, in slot 0 (03 R76). -/
opaque monitorKey : Nat → List (BitVec 8)
/-- The wrap key of a paddock, derived from the key-hierarchy roots (17 R376). -/
opaque wrapKey : List (BitVec 8) → BitVec 5 → List (BitVec 8)
/-- The RSA-3072 key that key-hierarchy roots name: modulus and exponent (17 R388). -/
opaque rsaKey : List (BitVec 8) → Nat × Nat
/-- The SLH-DSA-SHA2-192s public key that they name (17 R388). -/
opaque slhKey : List (BitVec 8) → List (BitVec 8)
/-- The bytes of the two signatures of the package's identity keys over attestation evidence (17 R390). -/
opaque identitySign : List (BitVec 8) → Nat → BitVec 8

/-! ### What this package does not hold -/

/-- The MAC address of a VF's network device, and the size of its console (17 R378). -/
opaque deviceMac : Nat → BitVec 48
opaque consoleSize : Nat → BitVec 32

/-- A tile of another package, by its global id, lies in a paddock (11 R256, 16 R369; log 27). -/
opaque foreignMember : BitVec 5 → Nat → Bool
/-- A switch has an IO-die port: it stands next to a Pambiri die (10 R228). -/
opaque ioSwitch : Nat → Bool

/-! ### Sizes of the part (01 R13, R20) -/

/-- Logical tiles of a package. -/
def tileCount : Nat := 1024
/-- Bytes of a tile's scratchpad (06 R131). -/
def spadSize : Nat := 0x100000
/-- Bytes of main memory (03 R64). -/
def mainSize : Nat := 0xB400000000
/-- Bytes of one channel index's range (03 R64). -/
def chanSpan : Nat := 0x5A0000000
/-- Start of the monitor window in a channel index's range (04 R90). -/
def windowStart : Nat := 0x590000000
/-- First byte of the second tier (04 R90). -/
def tier2Base : Nat := 0x100000000000
/-- Byte past the second tier (04 R90). -/
def tier2End : Nat := 0x200000000000
/-- AGE_LIMIT of the scheduler (15 R336). -/
def ageLimit : Nat := 16

end Sys2Proof.Config
end

