-- ==== Sys2Proof/Syntax.lean ====
section
/-! DEFINITION. Sys2Proof/Syntax.lean: the instructions and the events of the opcode table, one constructor per row of
spec/opcode_table.json. Register fields are the numbers of the files they name (02 R33, R47); immediates are the bits of
their field, before ximm widens them (02 R40). A row without an encoding is an event of the machine (a base-die action, an
engine step, an arrival, a host request); a request carries its body as its argument, and the object any other event
happens to stands in the state's `input` (Machine/State.lean). Constructors with arguments stand first: word rows in the
table's order, then the rows that carry an input; then the rows without arguments, in the table's order. -/
namespace Sys2Proof

/-- A scalar register number, `s0`-`s31` (02 R33). -/
abbrev SReg := BitVec 5
/-- A vector register number, `v0`-`v31` (02 R33). -/
abbrev VReg := BitVec 5
/-- A mask register number, `k0`-`k7` (02 R33). -/
abbrev KReg := BitVec 3
/-- An accumulator tile number, `a0`-`a15` (02 R33). -/
abbrev AReg := BitVec 4
/-- A queue endpoint number, `q0`-`q15` (02 R33). -/
abbrev QReg := BitVec 4
/-- A timeline counter number, `c0`-`c3` (02 R33). -/
abbrev CReg := BitVec 2
/-- A memory-request tag number, `tag0`-`tag7` (02 R33). -/
abbrev TReg := BitVec 3

/-- The two strands of a tile's control core (01 R17). -/
inductive StrandId where
  | main | handler
  deriving DecidableEq, Repr

/-- The states the monitor gives a memory channel (03 R69). -/
inductive ChanState where
  | healthy | degraded | lost
  deriving DecidableEq, Repr

/-- One 256-byte flit as it arrives at a Kyxus link's receiver (11 R261): the header word, 244 bytes of packet beats
and the CRC. -/
structure Flit where
  header : BitVec 32
  body : List Byte
  crc : BitVec 64
  deriving DecidableEq, Repr

/-- A virtqueue: a virtual function, one of its three devices and a queue of that device (17 R378, R380). -/
structure VqId where
  vf : Nat
  dev : Nat
  vq : Nat
  deriving DecidableEq, Repr

/-- The notify write of a driver that makes one buffer available (17 R380): the chain, its descriptors, its driver-readable bytes, its
device-writable size. -/
structure NotifyReq where
  vq : VqId
  chain : BitVec 16
  descs : Nat
  readable : List Byte
  writable : Nat
  deriving DecidableEq, Repr

/-- The header of a service-protocol request, the VF whose driver sends it, and the selector or handle of its body (17 R381, R382). -/
structure SvcReq where
  vf : Nat
  /-- The connection: the requester's vsock port. -/
  conn : BitVec 32
  status : BitVec 16
  len : BitVec 32
  reqId : BitVec 64
  sel : BitVec 64
  deriving DecidableEq, Repr

/-- Input mode of a context (15 R326). -/
inductive InMode where
  | any | all | round
  deriving DecidableEq, Repr

/-- An endpoint that a context declares (02 R60 `.queue`). -/
structure EpDecl where
  ep : QReg
  input : Bool
  itemUnits : Nat
  logCap : Nat
  window : Option Nat
  ring : Option Nat
  rate : Nat
  deriving DecidableEq, Repr

/-- A context that an image declares (02 R60 `.context`, `.entry`, `.fallow_entry`), with the ACT_BUDGET and the level that
the request gives it (18 R396, 16 R361). Entry points are byte offsets in the code section. -/
structure CtxDecl where
  num : BitVec 2
  prio : Nat
  mode : InMode
  entry : Nat
  fallow : Option Nat
  endpoints : List EpDecl
  level : BitVec 2
  budget : BitVec 32
  deriving DecidableEq, Repr

/-- What the `meta` section of an image declares (18 R396). -/
structure ImageMeta where
  spadOrg : Nat
  spadBytes : Nat
  /-- The totals of `.resources`: what the bind reserves, whether or not the image lists as many. -/
  ctxTotal : Nat
  epTotal : Nat
  handlerTotal : Nat
  contexts : List CtxDecl
  accMask : BitVec 16
  handlers : List (Nat × BitVec 2 × Nat)
  banks : List (BitVec 4 × BitVec 5)
  kxCores : Option (Nat × Nat)
  kxRoutes : Option (Nat × Nat)
  deriving DecidableEq, Repr

/-- One queue of a bind request's placement (15 R318): where its control block is, its privileged fields, its members and
its producers. -/
structure QueueDecl where
  qcb : Nat
  fmt : BitVec 4
  logCap : Nat
  itemUnits : Nat
  qprio : Nat
  gring : Bool
  agent : Nat
  ringAddr : Option Nat
  window : Option Nat
  members : List (Nat × QReg)
  producers : List (Nat × QReg)
  seeds : Nat
  external : Bool
  deriving DecidableEq, Repr

/-- One image of a bind request, its declarations and its tiles, with the bases at which the loader maps its code and places its global
section (18 R394). The spec gives no byte layout for the `meta` section (02 R62, 18 R396): the model takes its declarations as fields of
their own and never decodes the section's bytes (DESIGN CHOICE, log 50). -/
structure ImagePlace where
  image : List Byte
  decls : ImageMeta
  tiles : List Nat
  codeBase : Nat
  globalBase : Nat
  deriving DecidableEq, Repr

/-- The body of a BIND request (17 R382, 19 R406): the images and their placement, the queues, and the translation of the contexts, with
the table entries that the loader writes for it, by physical address. -/
structure BindReq where
  svc : SvcReq
  images : List ImagePlace
  queues : List QueueDecl
  maps : List (Nat × BitVec 64)
  rootPa : Nat
  rootKey : BitVec 13
  asid : BitVec 16
  key : BitVec 13
  routes : List (BitVec 16)
  deriving DecidableEq, Repr

/-- The body of an UNBIND request: contexts by logical tile and number (17 R382). -/
structure UnbindReq where
  svc : SvcReq
  contexts : List (Nat × BitVec 2)
  deriving DecidableEq, Repr

/-- The body of an INJECT request: the queue and the items' payloads (17 R382). -/
structure InjectReq where
  svc : SvcReq
  qcb : Nat
  items : List (List Byte)
  deriving DecidableEq, Repr

/-- A paddock's configuration record (17 R372). -/
structure PaddockCfg where
  pnum : BitVec 5
  rows : BitVec 32
  chans : BitVec 32
  vfs : BitVec 64
  svc0 : BitVec 10
  svc1 : BitVec 10
  kbase : BitVec 13
  kcount : BitVec 13
  barBase : BitVec 12
  barCount : BitVec 13
  t2Base : BitVec 8
  t2Count : BitVec 9
  links : BitVec 16
  featMask : BitVec 9
  weight : BitVec 7
  faultQ : BitVec 64
  pagerQ : BitVec 64
  gleanQ : BitVec 64
  deriving DecidableEq, Repr

/-- One signed image presented at boot (17 R388, R389): which kind it is, its bytes, its two signatures and its security
version. -/
structure BootImage where
  kind : Nat
  bytes : List Byte
  rsa : List Byte
  slh : List Byte
  version : BitVec 32
  deriving DecidableEq, Repr

/-- What the secure boot block reads from flash at package reset (17 R388-R392): the images in load order (the monitor's
first, the configuration image second), what the configuration image says, the logical tiles that fail their self-test, and the binds of
the paddocks' service programs. -/
structure BootInput where
  images : List BootImage
  roots : List Byte
  minVersions : List (Nat × BitVec 32)
  paddocks : List PaddockCfg
  spareMap : List (Nat × Nat)
  timeBase : BitVec 64
  pkg : BitVec 12
  regime : Bool
  timeRoot : Bool
  failedTiles : List Nat
  services : List BindReq
  deriving DecidableEq, Repr

/-- The instructions and events of spec/opcode_table.json, one constructor per row. -/
inductive Instr where
  /-- ADD -/
  | add (d a b : SReg)
  /-- SUB -/
  | sub (d a b : SReg)
  /-- MUL -/
  | mul (d a b : SReg)
  /-- MULH_I -/
  | mulhI (d a b : SReg)
  /-- MULH_N -/
  | mulhN (d a b : SReg)
  /-- DIV_I -/
  | divI (d a b : SReg)
  /-- DIV_N -/
  | divN (d a b : SReg)
  /-- REM_I -/
  | remI (d a b : SReg)
  /-- REM_N -/
  | remN (d a b : SReg)
  /-- AND -/
  | and (d a b : SReg)
  /-- OR -/
  | or (d a b : SReg)
  /-- XOR -/
  | xor (d a b : SReg)
  /-- ANDN -/
  | andn (d a b : SReg)
  /-- SHL -/
  | shl (d a b : SReg)
  /-- SHR_N -/
  | shrN (d a b : SReg)
  /-- SHR_I -/
  | shrI (d a b : SReg)
  /-- ROTR -/
  | rotr (d a b : SReg)
  /-- SLT_I -/
  | sltI (d a b : SReg)
  /-- SLT_N -/
  | sltN (d a b : SReg)
  /-- SEQ -/
  | seq (d a b : SReg)
  /-- MIN_I -/
  | minI (d a b : SReg)
  /-- MAX_I -/
  | maxI (d a b : SReg)
  /-- MIN_N -/
  | minN (d a b : SReg)
  /-- MAX_N -/
  | maxN (d a b : SReg)
  /-- ADDS_I -/
  | addsI (d a b : SReg)
  /-- SUBS_I -/
  | subsI (d a b : SReg)
  /-- CLZ -/
  | clz (d a : SReg)
  /-- CTZ -/
  | ctz (d a : SReg)
  /-- POP -/
  | pop (d a : SReg)
  /-- SEXT_I8 -/
  | sextI8 (d a : SReg)
  /-- SEXT_I16 -/
  | sextI16 (d a : SReg)
  /-- SEXT_I32 -/
  | sextI32 (d a : SReg)
  /-- ZEXT_N8 -/
  | zextN8 (d a : SReg)
  /-- ZEXT_N16 -/
  | zextN16 (d a : SReg)
  /-- ZEXT_N32 -/
  | zextN32 (d a : SReg)
  /-- BSWAP -/
  | bswap (d a : SReg)
  /-- ADDSC_1 -/
  | addsc1 (d a b : SReg)
  /-- ADDSC_2 -/
  | addsc2 (d a b : SReg)
  /-- ADDSC_3 -/
  | addsc3 (d a b : SReg)
  /-- ADDI -/
  | addi (d a : SReg) (i : BitVec 16)
  /-- ANDI -/
  | andi (d a : SReg) (i : BitVec 16)
  /-- ORI -/
  | ori (d a : SReg) (i : BitVec 16)
  /-- XORI -/
  | xori (d a : SReg) (i : BitVec 16)
  /-- SLTI -/
  | slti (d a : SReg) (i : BitVec 16)
  /-- SLTNI -/
  | sltni (d a : SReg) (i : BitVec 16)
  /-- SHLI -/
  | shli (d a : SReg) (i : BitVec 16)
  /-- SHRI_N -/
  | shriN (d a : SReg) (i : BitVec 16)
  /-- SHRI_I -/
  | shriI (d a : SReg) (i : BitVec 16)
  /-- ADDHI -/
  | addhi (d a : SReg) (i : BitVec 16)
  /-- LD_N -/
  | ldN (sz : BitVec 2) (d base : SReg) (off : BitVec 11)
  /-- LD_I -/
  | ldI (sz : BitVec 2) (d base : SReg) (off : BitVec 11)
  /-- ST -/
  | st (sz : BitVec 2) (d base : SReg) (off : BitVec 11)
  /-- ST_K -/
  | stK (sz : BitVec 2) (d base : SReg) (off : BitVec 11)
  /-- VLD -/
  | vld (d : VReg) (base : SReg) (off : BitVec 11)
  /-- VLD_M -/
  | vldM (d : VReg) (base : SReg) (off : BitVec 8) (m : KReg)
  /-- VLD_G_32 -/
  | vldG32 (d : VReg) (base : SReg) (idx : VReg) (m : KReg) (sc : BitVec 3)
  /-- VLD_G_64 -/
  | vldG64 (d : VReg) (base : SReg) (idx : VReg) (m : KReg) (sc : BitVec 3)
  /-- VLD_CVT_F32 -/
  | vldCvtF32 (d : VReg) (base : SReg) (off : BitVec 11)
  /-- VLD_CVT_F64 -/
  | vldCvtF64 (d : VReg) (base : SReg) (off : BitVec 11)
  /-- VST -/
  | vst (d : VReg) (base : SReg) (off : BitVec 11)
  /-- VST_M -/
  | vstM (d : VReg) (base : SReg) (off : BitVec 8) (m : KReg)
  /-- VST_S_32 -/
  | vstS32 (d : VReg) (base : SReg) (idx : VReg) (m : KReg) (sc : BitVec 3)
  /-- VST_S_64 -/
  | vstS64 (d : VReg) (base : SReg) (idx : VReg) (m : KReg) (sc : BitVec 3)
  /-- MRQ_RD -/
  | mrqRd (sz : BitVec 2) (t : TReg) (a d : SReg) (off : BitVec 6)
  /-- MRQ_WR -/
  | mrqWr (sz : BitVec 2) (t : TReg) (a d : SReg) (off : BitVec 6)
  /-- MRQ_WRM -/
  | mrqWrm (t : TReg) (a d : SReg) (mask : BitVec 8)
  /-- MRQ_WAIT -/
  | mrqWait (d : SReg) (t : TReg)
  /-- MRQ_POLL -/
  | mrqPoll (d : SReg) (t : TReg)
  /-- BEQ -/
  | beq (a b : SReg) (off : BitVec 11)
  /-- BNE -/
  | bne (a b : SReg) (off : BitVec 11)
  /-- BLT -/
  | blt (a b : SReg) (off : BitVec 11)
  /-- BGE -/
  | bge (a b : SReg) (off : BitVec 11)
  /-- BLTN -/
  | bltn (a b : SReg) (off : BitVec 11)
  /-- BGEN -/
  | bgen (a b : SReg) (off : BitVec 11)
  /-- JMP -/
  | jmp (off : BitVec 26)
  /-- JMPR -/
  | jmpr (a : SReg) (i : BitVec 16)
  /-- LOOP -/
  | loop (lvl : BitVec 1) (a : SReg) (len : BitVec 11)
  /-- LOOPI -/
  | loopi (lvl : BitVec 1) (cnt : BitVec 13) (len : BitVec 11)
  /-- SEL -/
  | sel (c : BitVec 3) (d a b : SReg)
  /-- CMOV -/
  | cmov (c : BitVec 3) (d a b : SReg)
  /-- VADD_FP -/
  | vaddFp (ty : BitVec 1) (d a b : VReg) (k : KReg)
  /-- VSUB_FP -/
  | vsubFp (ty : BitVec 1) (d a b : VReg) (k : KReg)
  /-- VMUL_FP -/
  | vmulFp (ty : BitVec 1) (d a b : VReg) (k : KReg)
  /-- VFMA -/
  | vfma (ty : BitVec 1) (d a b : VReg) (k : KReg)
  /-- VFMS -/
  | vfms (ty : BitVec 1) (d a b : VReg) (k : KReg)
  /-- VDIV -/
  | vdiv (ty : BitVec 1) (d a b : VReg) (k : KReg)
  /-- VSQRT -/
  | vsqrt (ty : BitVec 1) (d a : VReg) (k : KReg)
  /-- VMIN_FP -/
  | vminFp (ty : BitVec 1) (d a b : VReg) (k : KReg)
  /-- VMAX_FP -/
  | vmaxFp (ty : BitVec 1) (d a b : VReg) (k : KReg)
  /-- VABS_FP -/
  | vabsFp (ty : BitVec 1) (d a : VReg) (k : KReg)
  /-- VNEG_FP -/
  | vnegFp (ty : BitVec 1) (d a : VReg) (k : KReg)
  /-- VRCP -/
  | vrcp (ty : BitVec 1) (d a : VReg) (k : KReg)
  /-- VRSQ -/
  | vrsq (ty : BitVec 1) (d a : VReg) (k : KReg)
  /-- VADD_INT -/
  | vaddInt (es : BitVec 2) (sg : BitVec 1) (d a b : VReg) (k : KReg)
  /-- VSUB_INT -/
  | vsubInt (es : BitVec 2) (sg : BitVec 1) (d a b : VReg) (k : KReg)
  /-- VADDS -/
  | vadds (es : BitVec 2) (sg : BitVec 1) (d a b : VReg) (k : KReg)
  /-- VSUBS -/
  | vsubs (es : BitVec 2) (sg : BitVec 1) (d a b : VReg) (k : KReg)
  /-- VMUL_INT -/
  | vmulInt (es : BitVec 2) (sg : BitVec 1) (d a b : VReg) (k : KReg)
  /-- VMULH -/
  | vmulh (es : BitVec 2) (sg : BitVec 1) (d a b : VReg) (k : KReg)
  /-- VMIN_INT -/
  | vminInt (es : BitVec 2) (sg : BitVec 1) (d a b : VReg) (k : KReg)
  /-- VMAX_INT -/
  | vmaxInt (es : BitVec 2) (sg : BitVec 1) (d a b : VReg) (k : KReg)
  /-- VAND -/
  | vand (es : BitVec 2) (sg : BitVec 1) (d a b : VReg) (k : KReg)
  /-- VOR -/
  | vor (es : BitVec 2) (sg : BitVec 1) (d a b : VReg) (k : KReg)
  /-- VXOR -/
  | vxor (es : BitVec 2) (sg : BitVec 1) (d a b : VReg) (k : KReg)
  /-- VSHL -/
  | vshl (es : BitVec 2) (sg : BitVec 1) (d a b : VReg) (k : KReg)
  /-- VSHR -/
  | vshr (es : BitVec 2) (sg : BitVec 1) (d a b : VReg) (k : KReg)
  /-- VABS_INT -/
  | vabsInt (es : BitVec 2) (d a : VReg) (k : KReg)
  /-- VCMP_EQ -/
  | vcmpEq (ty : BitVec 3) (d : KReg) (a b : VReg) (k : KReg)
  /-- VCMP_NE -/
  | vcmpNe (ty : BitVec 3) (d : KReg) (a b : VReg) (k : KReg)
  /-- VCMP_LT -/
  | vcmpLt (ty : BitVec 3) (d : KReg) (a b : VReg) (k : KReg)
  /-- VCMP_LE -/
  | vcmpLe (ty : BitVec 3) (d : KReg) (a b : VReg) (k : KReg)
  /-- VCMP_UN -/
  | vcmpUn (ty : BitVec 3) (d : KReg) (a b : VReg) (k : KReg)
  /-- VCVT -/
  | vcvt (g f : BitVec 4) (d a : VReg)
  /-- VLOG2 -/
  | vlog2 (d a : VReg) (k : KReg)
  /-- VEXP2 -/
  | vexp2 (d a : VReg) (k : KReg)
  /-- VRAND -/
  | vrand (d : VReg) (k : KReg)
  /-- VRAND_F32 -/
  | vrandF32 (d : VReg) (k : KReg)
  /-- VSUM -/
  | vsum (ty : BitVec 3) (d : SReg) (a : VReg) (k : KReg)
  /-- VMAXI -/
  | vmaxi (ty : BitVec 3) (d : SReg) (a : VReg) (b : SReg) (k : KReg)
  /-- VMINI -/
  | vmini (ty : BitVec 3) (d : SReg) (a : VReg) (b : SReg) (k : KReg)
  /-- VPERM -/
  | vperm (d a b : VReg) (k : KReg)
  /-- VROT -/
  | vrot (d a : VReg) (b : SReg) (k : KReg)
  /-- VBCAST_32 -/
  | vbcast32 (d : VReg) (a : SReg) (k : KReg)
  /-- VBCAST_64 -/
  | vbcast64 (d : VReg) (a : SReg) (k : KReg)
  /-- VINS_32 -/
  | vins32 (d : VReg) (a : SReg) (n : BitVec 5)
  /-- VEXT_32 -/
  | vext32 (d : SReg) (a : VReg) (n : BitVec 5)
  /-- VLANE -/
  | vlane (d : VReg) (k : KReg)
  /-- VSEL_32 -/
  | vsel32 (d a b : VReg) (k : KReg)
  /-- VMOV_32 -/
  | vmov32 (d a : VReg) (k : KReg)
  /-- VINS_64 -/
  | vins64 (d : VReg) (a : SReg) (n : BitVec 4)
  /-- VEXT_64 -/
  | vext64 (d : SReg) (a : VReg) (n : BitVec 4)
  /-- VSEL_64 -/
  | vsel64 (d a b : VReg) (k : KReg)
  /-- VMOV_64 -/
  | vmov64 (d a : VReg) (k : KReg)
  /-- KAND -/
  | kand (d a b : KReg)
  /-- KOR -/
  | kor (d a b : KReg)
  /-- KXOR -/
  | kxor (d a b : KReg)
  /-- KANDN -/
  | kandn (d a b : KReg)
  /-- KSET -/
  | kset (d : KReg) (a : SReg)
  /-- KGET -/
  | kget (d : SReg) (a : KReg)
  /-- KPOP -/
  | kpop (d : SReg) (a : KReg)
  /-- KFFS -/
  | kffs (d : SReg) (a : KReg)
  /-- MMA -/
  | mma (acc : AReg) (a b n : SReg) (c : CReg)
  /-- MMA_Z -/
  | mmaZ (acc : AReg) (a b n : SReg) (c : CReg)
  /-- MMA_T -/
  | mmaT (acc : AReg) (a b n : SReg) (c : CReg)
  /-- MMA_T_Z -/
  | mmaTZ (acc : AReg) (a b n : SReg) (c : CReg)
  /-- ACC_ZERO -/
  | accZero (acc : AReg) (n : BitVec 5) (c : CReg)
  /-- ACC_LD -/
  | accLd (acc : AReg) (d : SReg) (c : CReg)
  /-- ACC_ST -/
  | accSt (d : SReg) (acc : AReg) (c : CReg)
  /-- ACC_CVT -/
  | accCvt (f : BitVec 1) (d : SReg) (acc : AReg) (c : CReg)
  /-- SQ_QUANT -/
  | sqQuant (f : BitVec 1) (d : SReg) (acc : AReg) (a b : SReg) (c : CReg)
  /-- SQ_DEQ -/
  | sqDeq (f : BitVec 1) (acc : AReg) (d b : SReg) (c : CReg)
  /-- SQ_ALIGN -/
  | sqAlign (d a b : SReg) (c : CReg)
  /-- SQ_SCALE -/
  | sqScale (d a b : SReg) (c : CReg)
  /-- BFMT_SET -/
  | bfmtSet (n : BitVec 4) (a : SReg)
  /-- BFMT_GET -/
  | bfmtGet (d : SReg) (n : BitVec 4)
  /-- CP -/
  | cp (dl sl : BitVec 1) (c : CReg) (d a b : SReg)
  /-- CP_Z -/
  | cpZ (dl : BitVec 1) (c : CReg) (d b : SReg)
  /-- CP_PF -/
  | cpPf (c : CReg) (a b : SReg)
  /-- CP2 -/
  | cp2 (dl sl : BitVec 1) (c : CReg) (d a b : SReg)
  /-- CP_SQ -/
  | cpSq (dl sl : BitVec 1) (c : CReg) (d a b : SReg)
  /-- CP_SQT -/
  | cpSqt (dl sl : BitVec 1) (c : CReg) (d a b : SReg)
  /-- CP_FILL -/
  | cpFill (c : CReg) (d a b : SReg)
  /-- CP_WAIT -/
  | cpWait (c : CReg) (a : SReg)
  /-- CP_WAITQ -/
  | cpWaitq (d : SReg) (c : CReg) (a : SReg)
  /-- CP_RDC -/
  | cpRdc (d : SReg) (c : CReg) (sel : BitVec 2)
  /-- AMO_ADD -/
  | amoAdd (w aq rl : BitVec 1) (sc : BitVec 3) (d a b : SReg)
  /-- AMO_AND -/
  | amoAnd (w aq rl : BitVec 1) (sc : BitVec 3) (d a b : SReg)
  /-- AMO_OR -/
  | amoOr (w aq rl : BitVec 1) (sc : BitVec 3) (d a b : SReg)
  /-- AMO_XOR -/
  | amoXor (w aq rl : BitVec 1) (sc : BitVec 3) (d a b : SReg)
  /-- AMO_SWAP -/
  | amoSwap (w aq rl : BitVec 1) (sc : BitVec 3) (d a b : SReg)
  /-- AMO_MIN -/
  | amoMin (w aq rl : BitVec 1) (sc : BitVec 3) (d a b : SReg)
  /-- AMO_MAX -/
  | amoMax (w aq rl : BitVec 1) (sc : BitVec 3) (d a b : SReg)
  /-- AMO_MINN -/
  | amoMinn (w aq rl : BitVec 1) (sc : BitVec 3) (d a b : SReg)
  /-- AMO_MAXN -/
  | amoMaxn (w aq rl : BitVec 1) (sc : BitVec 3) (d a b : SReg)
  /-- AMO_CAS -/
  | amoCas (w aq rl : BitVec 1) (sc : BitVec 3) (d a b : SReg)
  /-- AMO_FADD -/
  | amoFadd (w aq rl : BitVec 1) (sc : BitVec 3) (d a b : SReg)
  /-- LAMO_ADD -/
  | lamoAdd (w aq rl : BitVec 1) (sc : BitVec 3) (d a b : SReg)
  /-- LAMO_AND -/
  | lamoAnd (w aq rl : BitVec 1) (sc : BitVec 3) (d a b : SReg)
  /-- LAMO_OR -/
  | lamoOr (w aq rl : BitVec 1) (sc : BitVec 3) (d a b : SReg)
  /-- LAMO_XOR -/
  | lamoXor (w aq rl : BitVec 1) (sc : BitVec 3) (d a b : SReg)
  /-- LAMO_SWAP -/
  | lamoSwap (w aq rl : BitVec 1) (sc : BitVec 3) (d a b : SReg)
  /-- LAMO_MIN -/
  | lamoMin (w aq rl : BitVec 1) (sc : BitVec 3) (d a b : SReg)
  /-- LAMO_MAX -/
  | lamoMax (w aq rl : BitVec 1) (sc : BitVec 3) (d a b : SReg)
  /-- LAMO_MINN -/
  | lamoMinn (w aq rl : BitVec 1) (sc : BitVec 3) (d a b : SReg)
  /-- LAMO_MAXN -/
  | lamoMaxn (w aq rl : BitVec 1) (sc : BitVec 3) (d a b : SReg)
  /-- LAMO_CAS -/
  | lamoCas (w aq rl : BitVec 1) (sc : BitVec 3) (d a b : SReg)
  /-- LAMO_FADD -/
  | lamoFadd (w aq rl : BitVec 1) (sc : BitVec 3) (d a b : SReg)
  /-- FUT_RES -/
  | futRes (d a b : SReg)
  /-- FUT_REG -/
  | futReg (d a b : SReg)
  /-- FUT_ON -/
  | futOn (a b : SReg) (c : CReg)
  /-- FUT_RST -/
  | futRst (d a : SReg)
  /-- BAR_ARR -/
  | barArr (d a : SReg)
  /-- BAR_WAIT -/
  | barWait (d a b : SReg)
  /-- BAR_POLL -/
  | barPoll (d a b : SReg)
  /-- BAR_JOIN -/
  | barJoin (a : SReg)
  /-- BAR_LEAVE -/
  | barLeave (a : SReg)
  /-- BAR_CFG -/
  | barCfg (a b : SReg)
  /-- FENCE -/
  | fence (sc : BitVec 3) (p q : BitVec 4)
  /-- QPUSH -/
  | qpush (q : QReg) (a : SReg)
  /-- QPUSH_AT -/
  | qpushAt (q : QReg) (a b : SReg)
  /-- QMARK -/
  | qmark (q : QReg)
  /-- QMARK_F -/
  | qmarkF (q : QReg)
  /-- QPOP -/
  | qpop (d : SReg) (q : QReg)
  /-- QPOPM -/
  | qpopm (d : SReg) (q : QReg) (b : SReg)
  /-- QPEEK -/
  | qpeek (d : SReg) (q : QReg)
  /-- QSTAT -/
  | qstat (d : SReg) (q : QReg) (sel : BitVec 4)
  /-- AM_SEND -/
  | amSend (d a b : SReg)
  /-- AM_REPLY -/
  | amReply (a b : SReg)
  /-- AM_STAT -/
  | amStat (d : SReg) (sel : BitVec 8)
  /-- SH_TAG -/
  | shTag (d a b : SReg)
  /-- SH_CHK -/
  | shChk (d a b : SReg)
  /-- SH_RED -/
  | shRed (a b : SReg)
  /-- SH_ACK -/
  | shAck (a b : SReg)
  /-- SH_REL -/
  | shRel (d a b : SReg)
  /-- TRAP -/
  | trap (n : BitVec 10)
  /-- BRK -/
  | brk (n : BitVec 10)
  /-- SRD -/
  | srd (d : SReg) (r : BitVec 12)
  /-- SWR -/
  | swr (r : BitVec 12) (a : SReg)
  /-- SWR_BFMT -/
  | swrBfmt (n : BitVec 4) (a : SReg)
  /-- SWR_LOOP_REG -/
  | swrLoopReg (r : BitVec 12) (a : SReg)
  /-- SWR_PHILOX -/
  | swrPhilox (r : BitVec 12) (a : SReg)
  /-- IFL -/
  | ifl (a b n : SReg)
  /-- TLBINV -/
  | tlbinv (a b : SReg)
  /-- TBRD -/
  | tbrd (d : SReg)
  /-- TBRD_ST -/
  | tbrdSt (d : SReg)
  /-- WAITT -/
  | waitt (a : SReg)
  /-- HINT_BR -/
  | hintBr (lk : BitVec 2)
  /-- HINT_PF -/
  | hintPf (a : SReg) (off : BitVec 16)
  /-- HINT_PG -/
  | hintPg (a : SReg) (n : BitVec 16)
  /-- HINT_BANK -/
  | hintBank (n : BitVec 4)
  /-- XIMM -/
  | ximm (e : BitVec 26)
  /-- FLIT -/
  | flit (l : Nat) (f : Flit)
  /-- NOTIFY -/
  | notify (r : NotifyReq)
  /-- BIND -/
  | bind (r : BindReq)
  /-- UNBIND -/
  | unbind (r : UnbindReq)
  /-- INJECT -/
  | inject (r : InjectReq)
  /-- STATUS -/
  | status (r : SvcReq)
  /-- SUMMARY -/
  | summary (r : SvcReq)
  /-- RECONFIG -/
  | reconfig (r : SvcReq) (recs : List PaddockCfg)
  /-- EXPORT_REQUEST -/
  | exportRequest (r : SvcReq) (arg : DW) (records : List Byte)
  /-- IMPORT_REQUEST -/
  | importRequest (r : SvcReq) (arg : DW) (records : List Byte)
  /-- ATTEST_REQUEST -/
  | attestRequest (r : SvcReq) (nonce : List Byte)
  /-- PACKAGE_RESET -/
  | packageReset (r : BootInput)
  /-- UNASSIGNED_ENCODING -/
  | unassignedEncoding (w : IWord)
  /-- COMMIT -/
  | commit
  /-- ABORT -/
  | abort
  /-- YIELD -/
  | yield
  /-- AM_END -/
  | amEnd
  /-- ERET -/
  | eret
  /-- WFI -/
  | wfi
  /-- HALT -/
  | halt
  /-- INFO -/
  | info
  /-- CTX_PARK -/
  | ctxPark
  /-- CTX_RESUME -/
  | ctxResume
  /-- CTX_KILL -/
  | ctxKill
  /-- QUARANTINE -/
  | quarantine
  /-- REGION_SET -/
  | regionSet
  /-- KEY_LOAD -/
  | keyLoad
  /-- KEY_CLEAR -/
  | keyClear
  /-- ROUTE_SET -/
  | routeSet
  /-- ROUTE_CLEAR -/
  | routeClear
  /-- VQ_BIND -/
  | vqBind
  /-- EXPORT -/
  | exportCall
  /-- IMPORT -/
  | importCall
  /-- ATTEST -/
  | attest
  /-- HINT_NOP -/
  | hintNop
  /-- MRQ_REPLY_ARRIVAL -/
  | mrqReplyArrival
  /-- THRESHER_STEP -/
  | thresherStep
  /-- THRESHER_STOP -/
  | thresherStop
  /-- THRESHER_COMMAND_COMPLETE -/
  | thresherCommandComplete
  /-- TAIL_FAULT -/
  | tailFault
  /-- WAIN_COMMAND_START -/
  | wainCommandStart
  /-- WAIN_TRANSFER -/
  | wainTransfer
  /-- WAIN_COMMAND_COMPLETE -/
  | wainCommandComplete
  /-- ATOMIC_AT_HOME_SLICE -/
  | atomicAtHomeSlice
  /-- GLOBAL_ATOMIC_REPLY -/
  | globalAtomicReply
  /-- ASYNC_ATOMIC_FAULT -/
  | asyncAtomicFault
  /-- ATOMIC_REPLAY -/
  | atomicReplay
  /-- ATOMIC_GIVE_UP -/
  | atomicGiveUp
  /-- JOIN_DECREMENT -/
  | joinDecrement
  /-- BARRIER_TIMEOUT -/
  | barrierTimeout
  /-- SH_RED_DEPARTURE -/
  | shRedDeparture
  /-- MEMORY_WAIT_END -/
  | memoryWaitEnd
  /-- ENGINE_WAIT_END -/
  | engineWaitEnd
  /-- QUEUE_WAIT_END -/
  | queueWaitEnd
  /-- TIME_WAIT_END -/
  | timeWaitEnd
  /-- FAULT_RECORD_PLACED -/
  | faultRecordPlaced
  /-- BUDGET_EXPIRY -/
  | budgetExpiry
  /-- REMAP -/
  | remap
  /-- RD -/
  | rd
  /-- WR -/
  | wr
  /-- WRM -/
  | wrm
  /-- SQRD -/
  | sqrd
  /-- SQWR -/
  | sqwr
  /-- ATOMWB -/
  | atomwb
  /-- WALK -/
  | walk
  /-- PDELTA -/
  | pdelta
  /-- MEMORY_EVENT_FORWARD -/
  | memoryEventForward
  /-- SCRUB -/
  | scrub
  /-- CHANNEL_STATE_CHANGE -/
  | channelStateChange
  /-- HOME_SLICE_READ -/
  | homeSliceRead
  /-- HOME_SLICE_WRITE -/
  | homeSliceWrite
  /-- BASE_DIE_REPLY -/
  | baseDieReply
  /-- PAGE_EVENT_OPEN -/
  | pageEventOpen
  /-- PAGE_EVENT_TIMEOUT -/
  | pageEventTimeout
  /-- PAGE_RESUME -/
  | pageResume
  /-- AGENT_PUSH_RETRY -/
  | agentPushRetry
  /-- SWITCH_ARRIVAL -/
  | switchArrival
  /-- REDUCTION_EMIT -/
  | reductionEmit
  /-- REDTIMEOUT -/
  | redtimeout
  /-- MESSAGE_ARRIVAL -/
  | messageArrival
  /-- HANDLER_START -/
  | handlerStart
  /-- ACCEPTANCE -/
  | acceptance
  /-- REFUSAL -/
  | refusal
  /-- MESSAGE_RESEND -/
  | messageResend
  /-- REJECT -/
  | reject
  /-- REMOTE_STORE -/
  | remoteStore
  /-- REMOTE_LOAD -/
  | remoteLoad
  /-- LOAD_REPLY -/
  | loadReply
  /-- REMOTE_ATOMIC -/
  | remoteAtomic
  /-- ATOMIC_REPLY -/
  | atomicReply
  /-- SHEAF_RESEND -/
  | sheafResend
  /-- ACK_DELIVERY -/
  | ackDelivery
  /-- NAK -/
  | nak
  /-- REPLAY_TIMEOUT -/
  | replayTimeout
  /-- LINK_RETRAIN -/
  | linkRetrain
  /-- LINK_DOWN -/
  | linkDown
  /-- TIME_EXCHANGE -/
  | timeExchange
  /-- SYNC_TIMEOUT -/
  | syncTimeout
  /-- ITEM_ARRIVAL -/
  | itemArrival
  /-- BIND_MARKER_ARRIVAL -/
  | bindMarkerArrival
  /-- NBT_REACHED -/
  | nbtReached
  /-- CREDIT_RETURN -/
  | creditReturn
  /-- SCHEDULER_BOUNDARY -/
  | schedulerBoundary
  /-- FALLOW_STEPS -/
  | fallowSteps
  /-- VIRTQUEUE_COMPLETION -/
  | virtqueueCompletion
  /-- FLR -/
  | flr
  /-- FLR_COMPLETE -/
  | flrComplete
  /-- DEVICE_RESET -/
  | deviceReset
  /-- FEATURES_OK -/
  | featuresOk
  /-- IO_DIE_FAILOVER -/
  | ioDieFailover
  /-- DROOP -/
  | droop
  /-- POWER_CAP -/
  | powerCap
  /-- THERMAL_LIMIT -/
  | thermalLimit
  /-- ITEM_REFUSAL -/
  | itemRefusal
  /-- LINK_RETRAIN_COMPLETE -/
  | linkRetrainComplete
  /-- DROOP_RECOVERY -/
  | droopRecovery
  /-- PARITY_ACK -/
  | parityAck
  /-- DRIVER_OK -/
  | driverOk
  /-- ATOMIC_ENTRY_EXPIRY -/
  | atomicEntryExpiry
  deriving DecidableEq, Repr

end Sys2Proof
end

