-- ==== Sys2Proof/WellFormed.lean ====
section
/-! DEFINITION. Sys2Proof/WellFormed.lean: which instruction terms stand for a word of the instruction set (every field in
the range its owning chapter gives it), and which event terms name an object that exists. -/
namespace Sys2Proof

/-- A comparison that `sel` and `cmov` may name: 6 and 7 raise ILL (14 R303). -/
def condOk (c : BitVec 3) : Bool := decide (c.toNat < 6)

/-- A scope code that is assigned: 5-7 raise ILL (12 R270, 13 R282). -/
def scopeOk (sc : BitVec 3) : Bool := decide (sc.toNat < 5)

/-- A destination that writes two registers lies in 1-30 (08 R191, 15 R343). -/
def pairDest (d : SReg) : Bool := decide (d ≠ 0) && decide (d ≠ 31)

/-- With F = 1 an accumulator names a pair and must be even (09 R212). -/
def pairOk (f : BitVec 1) (acc : AReg) : Bool := decide (f = 0) || decide (acc.toNat % 2 = 0)

/-- The monitor-call numbers that have a row of their own (16 R358, 17 R376). -/
def monitorCallNumbers : List (BitVec 10) :=
  [0x001, 0x010, 0x011, 0x012, 0x013, 0x015, 0x020, 0x021, 0x030, 0x031, 0x040, 0x050, 0x051, 0x060]

/-- The loop registers LC0, LS0, LE0, LC1, LS1, LE1 (02 R50). -/
def isLoopReg (r : BitVec 12) : Bool := decide (0x010 ≤ r.toNat) && decide (r.toNat ≤ 0x015)

/-- The Philox registers SR_PHKEY, SR_PHCTRL, SR_PHCTRH (02 R50). -/
def isPhiloxReg (r : BitVec 12) : Bool := decide (0x040 ≤ r.toNat) && decide (r.toNat ≤ 0x042)

/-- The bank-format registers BFMT0-BFMT15 (02 R50). -/
def isBfmtReg (r : BitVec 12) : Bool := decide (0x100 ≤ r.toNat) && decide (r.toNat ≤ 0x10F)

/-- The assigned system register numbers outside the three groups above (02 R50). -/
def plainSysRegs : List (BitVec 12) :=
  [0x000, 0x001, 0x002, 0x003, 0x004, 0x008, 0x009, 0x00A, 0x018, 0x020, 0x021, 0x030, 0x031, 0x200]

/-- A system register number that R50 assigns. -/
def sysRegAssigned (r : BitVec 12) : Bool :=
  plainSysRegs.contains r || isLoopReg r || isPhiloxReg r || isBfmtReg r

/-- The term stands for a word of the instruction set, or for an event on an object that exists. -/
def wellFormed : Instr → Bool
  | .add _ _ _ => true
  | .sub _ _ _ => true
  | .mul _ _ _ => true
  | .mulhI _ _ _ => true
  | .mulhN _ _ _ => true
  | .divI _ _ _ => true
  | .divN _ _ _ => true
  | .remI _ _ _ => true
  | .remN _ _ _ => true
  | .and _ _ _ => true
  | .or _ _ _ => true
  | .xor _ _ _ => true
  | .andn _ _ _ => true
  | .shl _ _ _ => true
  | .shrN _ _ _ => true
  | .shrI _ _ _ => true
  | .rotr _ _ _ => true
  | .sltI _ _ _ => true
  | .sltN _ _ _ => true
  | .seq _ _ _ => true
  | .minI _ _ _ => true
  | .maxI _ _ _ => true
  | .minN _ _ _ => true
  | .maxN _ _ _ => true
  | .addsI _ _ _ => true
  | .subsI _ _ _ => true
  | .clz _ _ => true
  | .ctz _ _ => true
  | .pop _ _ => true
  | .sextI8 _ _ => true
  | .sextI16 _ _ => true
  | .sextI32 _ _ => true
  | .zextN8 _ _ => true
  | .zextN16 _ _ => true
  | .zextN32 _ _ => true
  | .bswap _ _ => true
  | .addsc1 _ _ _ => true
  | .addsc2 _ _ _ => true
  | .addsc3 _ _ _ => true
  | .addi _ _ _ => true
  | .andi _ _ _ => true
  | .ori _ _ _ => true
  | .xori _ _ _ => true
  | .slti _ _ _ => true
  | .sltni _ _ _ => true
  | .shli _ _ i => decide (i.toNat < 64)
  | .shriN _ _ i => decide (i.toNat < 64)
  | .shriI _ _ i => decide (i.toNat < 64)
  | .addhi _ _ _ => true
  | .ldN _ _ _ _ => true
  | .ldI sz _ _ _ => decide (sz ≠ 3)
  | .st _ _ _ _ => true
  | .stK _ _ _ _ => true
  | .vld _ _ _ => true
  | .vldM _ _ _ _ => true
  | .vldG32 _ _ _ _ _ => true
  | .vldG64 _ _ _ _ _ => true
  | .vldCvtF32 _ _ _ => true
  | .vldCvtF64 _ _ _ => true
  | .vst _ _ _ => true
  | .vstM _ _ _ _ => true
  | .vstS32 _ _ _ _ _ => true
  | .vstS64 _ _ _ _ _ => true
  | .mrqRd sz _ _ d _ => decide (sz ≠ 0) || decide (d = 0)
  | .mrqWr _ _ _ _ _ => true
  | .mrqWrm _ _ _ mask => decide (mask ≠ 0)
  | .mrqWait _ _ => true
  | .mrqPoll _ _ => true
  | .beq _ _ _ => true
  | .bne _ _ _ => true
  | .blt _ _ _ => true
  | .bge _ _ _ => true
  | .bltn _ _ _ => true
  | .bgen _ _ _ => true
  | .jmp _ => true
  | .jmpr _ _ => true
  | .loop _ _ len => decide (len ≠ 0)
  | .loopi _ _ len => decide (len ≠ 0)
  | .sel c _ _ _ => condOk c
  | .cmov c _ _ _ => condOk c
  | .vaddFp _ _ _ _ _ => true
  | .vsubFp _ _ _ _ _ => true
  | .vmulFp _ _ _ _ _ => true
  | .vfma _ _ _ _ _ => true
  | .vfms _ _ _ _ _ => true
  | .vdiv _ _ _ _ _ => true
  | .vsqrt _ _ _ _ => true
  | .vminFp _ _ _ _ _ => true
  | .vmaxFp _ _ _ _ _ => true
  | .vabsFp _ _ _ _ => true
  | .vnegFp _ _ _ _ => true
  | .vrcp _ _ _ _ => true
  | .vrsq _ _ _ _ => true
  | .vaddInt _ _ _ _ _ _ => true
  | .vsubInt _ _ _ _ _ _ => true
  | .vadds _ _ _ _ _ _ => true
  | .vsubs _ _ _ _ _ _ => true
  | .vmulInt _ _ _ _ _ _ => true
  | .vmulh _ _ _ _ _ _ => true
  | .vminInt _ _ _ _ _ _ => true
  | .vmaxInt _ _ _ _ _ _ => true
  | .vand _ _ _ _ _ _ => true
  | .vor _ _ _ _ _ _ => true
  | .vxor _ _ _ _ _ _ => true
  | .vshl _ _ _ _ _ _ => true
  | .vshr _ _ _ _ _ _ => true
  | .vabsInt _ _ _ _ => true
  | .vcmpEq ty d _ _ _ => decide (d ≠ 0) && decide (ty.toNat < 6)
  | .vcmpNe ty d _ _ _ => decide (d ≠ 0) && decide (ty.toNat < 6)
  | .vcmpLt ty d _ _ _ => decide (d ≠ 0) && decide (ty.toNat < 6)
  | .vcmpLe ty d _ _ _ => decide (d ≠ 0) && decide (ty.toNat < 6)
  | .vcmpUn ty d _ _ _ => decide (d ≠ 0) && decide (ty.toNat < 2)
  | .vcvt g f _ _ => decide (g ≠ 15) && decide (f ≠ 15)
  | .vlog2 _ _ _ => true
  | .vexp2 _ _ _ => true
  | .vrand _ _ => true
  | .vrandF32 _ _ => true
  | .vsum ty _ _ _ => decide (ty.toNat < 4)
  | .vmaxi ty d _ _ _ => pairDest d && decide (ty.toNat < 4)
  | .vmini ty d _ _ _ => pairDest d && decide (ty.toNat < 4)
  | .vperm _ _ _ _ => true
  | .vrot _ _ _ _ => true
  | .vbcast32 _ _ _ => true
  | .vbcast64 _ _ _ => true
  | .vins32 _ _ _ => true
  | .vext32 _ _ _ => true
  | .vlane _ _ => true
  | .vsel32 _ _ _ _ => true
  | .vmov32 _ _ _ => true
  | .vins64 _ _ _ => true
  | .vext64 _ _ _ => true
  | .vsel64 _ _ _ _ => true
  | .vmov64 _ _ _ => true
  | .kand _ _ _ => true
  | .kor _ _ _ => true
  | .kxor _ _ _ => true
  | .kandn _ _ _ => true
  | .kset _ _ => true
  | .kget _ _ => true
  | .kpop _ _ => true
  | .kffs _ _ => true
  | .mma _ _ _ _ _ => true
  | .mmaZ _ _ _ _ _ => true
  | .mmaT _ _ _ _ _ => true
  | .mmaTZ _ _ _ _ _ => true
  | .accZero acc n _ => decide (acc.toNat + n.toNat ≤ 15)
  | .accLd _ _ _ => true
  | .accSt _ _ _ => true
  | .accCvt f _ acc _ => pairOk f acc
  | .sqQuant f _ acc _ _ _ => pairOk f acc
  | .sqDeq f acc _ _ _ => pairOk f acc
  | .sqAlign _ _ _ _ => true
  | .sqScale _ _ _ _ => true
  | .bfmtSet _ _ => true
  | .bfmtGet _ _ => true
  | .cp _ _ _ _ _ _ => true
  | .cpZ _ _ _ _ => true
  | .cpPf _ _ _ => true
  | .cp2 _ _ _ _ _ b => decide (b ≠ 31)
  | .cpSq _ _ _ _ _ _ => true
  | .cpSqt _ _ _ _ _ _ => true
  | .cpFill _ _ _ _ => true
  | .cpWait _ _ => true
  | .cpWaitq _ _ _ => true
  | .cpRdc _ _ _ => true
  | .amoAdd _ _ _ sc _ _ _ => scopeOk sc
  | .amoAnd _ _ _ sc _ _ _ => scopeOk sc
  | .amoOr _ _ _ sc _ _ _ => scopeOk sc
  | .amoXor _ _ _ sc _ _ _ => scopeOk sc
  | .amoSwap _ _ _ sc _ _ _ => scopeOk sc
  | .amoMin _ _ _ sc _ _ _ => scopeOk sc
  | .amoMax _ _ _ sc _ _ _ => scopeOk sc
  | .amoMinn _ _ _ sc _ _ _ => scopeOk sc
  | .amoMaxn _ _ _ sc _ _ _ => scopeOk sc
  | .amoCas _ _ _ sc _ _ _ => scopeOk sc
  | .amoFadd _ _ _ sc _ _ _ => scopeOk sc
  | .lamoAdd _ _ _ sc _ _ _ => scopeOk sc
  | .lamoAnd _ _ _ sc _ _ _ => scopeOk sc
  | .lamoOr _ _ _ sc _ _ _ => scopeOk sc
  | .lamoXor _ _ _ sc _ _ _ => scopeOk sc
  | .lamoSwap _ _ _ sc _ _ _ => scopeOk sc
  | .lamoMin _ _ _ sc _ _ _ => scopeOk sc
  | .lamoMax _ _ _ sc _ _ _ => scopeOk sc
  | .lamoMinn _ _ _ sc _ _ _ => scopeOk sc
  | .lamoMaxn _ _ _ sc _ _ _ => scopeOk sc
  | .lamoCas _ _ _ sc _ _ _ => scopeOk sc
  | .lamoFadd _ _ _ sc _ _ _ => scopeOk sc
  | .futRes _ _ _ => true
  | .futReg _ _ _ => true
  | .futOn _ _ _ => true
  | .futRst _ _ => true
  | .barArr _ _ => true
  | .barWait _ _ _ => true
  | .barPoll _ _ _ => true
  | .barJoin _ => true
  | .barLeave _ => true
  | .barCfg _ _ => true
  | .fence sc _ _ => scopeOk sc
  | .qpush _ _ => true
  | .qpushAt _ _ _ => true
  | .qmark _ => true
  | .qmarkF _ => true
  | .qpop d _ => pairDest d
  | .qpopm d _ _ => pairDest d
  | .qpeek d _ => pairDest d
  | .qstat _ _ sel => decide (sel.toNat < 5)
  | .amSend _ _ _ => true
  | .amReply _ _ => true
  | .amStat _ sel => decide (sel.toNat < 5)
  | .shTag _ _ _ => true
  | .shChk _ _ _ => true
  | .shRed _ _ => true
  | .shAck _ _ => true
  | .shRel _ _ _ => true
  | .trap n => !(monitorCallNumbers.contains n)
  | .brk _ => true
  | .srd _ r => sysRegAssigned r
  | .swr r _ => sysRegAssigned r && !(isBfmtReg r) && !(isLoopReg r) && !(isPhiloxReg r)
  | .swrBfmt _ _ => true
  | .swrLoopReg r _ => isLoopReg r
  | .swrPhilox r _ => isPhiloxReg r
  | .ifl _ _ _ => true
  | .tlbinv _ _ => true
  | .tbrd _ => true
  | .tbrdSt _ => true
  | .waitt _ => true
  | .hintBr lk => decide (lk ≠ 3)
  | .hintPf _ _ => true
  | .hintPg _ _ => true
  | .hintBank _ => true
  | .ximm _ => true
  | .flit l _ => decide (l < 16)
  | .notify _ => true
  | .bind _ => true
  | .unbind _ => true
  | .inject _ => true
  | .status _ => true
  | .summary _ => true
  | .reconfig _ _ => true
  | .exportRequest _ _ _ => true
  | .importRequest _ _ _ => true
  | .attestRequest _ _ => true
  | .packageReset _ => true
  | .unassignedEncoding _ => true
  | .commit => true
  | .abort => true
  | .yield => true
  | .amEnd => true
  | .eret => true
  | .wfi => true
  | .halt => true
  | .info => true
  | .ctxPark => true
  | .ctxResume => true
  | .ctxKill => true
  | .quarantine => true
  | .regionSet => true
  | .keyLoad => true
  | .keyClear => true
  | .routeSet => true
  | .routeClear => true
  | .vqBind => true
  | .exportCall => true
  | .importCall => true
  | .attest => true
  | .hintNop => true
  | .mrqReplyArrival => true
  | .thresherStep => true
  | .thresherStop => true
  | .thresherCommandComplete => true
  | .tailFault => true
  | .wainCommandStart => true
  | .wainTransfer => true
  | .wainCommandComplete => true
  | .atomicAtHomeSlice => true
  | .globalAtomicReply => true
  | .asyncAtomicFault => true
  | .atomicReplay => true
  | .atomicGiveUp => true
  | .joinDecrement => true
  | .barrierTimeout => true
  | .shRedDeparture => true
  | .memoryWaitEnd => true
  | .engineWaitEnd => true
  | .queueWaitEnd => true
  | .timeWaitEnd => true
  | .faultRecordPlaced => true
  | .budgetExpiry => true
  | .remap => true
  | .rd => true
  | .wr => true
  | .wrm => true
  | .sqrd => true
  | .sqwr => true
  | .atomwb => true
  | .walk => true
  | .pdelta => true
  | .memoryEventForward => true
  | .scrub => true
  | .channelStateChange => true
  | .homeSliceRead => true
  | .homeSliceWrite => true
  | .baseDieReply => true
  | .pageEventOpen => true
  | .pageEventTimeout => true
  | .pageResume => true
  | .agentPushRetry => true
  | .switchArrival => true
  | .reductionEmit => true
  | .redtimeout => true
  | .messageArrival => true
  | .handlerStart => true
  | .acceptance => true
  | .refusal => true
  | .messageResend => true
  | .reject => true
  | .remoteStore => true
  | .remoteLoad => true
  | .loadReply => true
  | .remoteAtomic => true
  | .atomicReply => true
  | .sheafResend => true
  | .ackDelivery => true
  | .nak => true
  | .replayTimeout => true
  | .linkRetrain => true
  | .linkDown => true
  | .timeExchange => true
  | .syncTimeout => true
  | .itemArrival => true
  | .bindMarkerArrival => true
  | .nbtReached => true
  | .creditReturn => true
  | .schedulerBoundary => true
  | .fallowSteps => true
  | .virtqueueCompletion => true
  | .flr => true
  | .flrComplete => true
  | .deviceReset => true
  | .featuresOk => true
  | .ioDieFailover => true
  | .droop => true
  | .powerCap => true
  | .thermalLimit => true
  | .itemRefusal => true
  | .linkRetrainComplete => true
  | .droopRecovery => true
  | .parityAck => true
  | .driverOk => true
  | .atomicEntryExpiry => true

end Sys2Proof
end

