-- ==== Sys2Proof/Decode.lean ====
section
/-! DEFINITION. Sys2Proof/Decode.lean: the decoder of one 32-bit instruction word, total, refusing by name, and the encoder
written from the same encoding tables (02 R31-R37 and the owning chapters). An `ximm` changes no word's own decoding: it
only changes the value of the immediate (02 R40). -/
namespace Sys2Proof

/-- Why a word is no instruction. Each of them raises ILL (02 R34). -/
inductive Reject where
  /-- Fewer than four bytes are left. -/
  | short
  /-- Major 0x00, reserved for ever (02 R34). -/
  | permanentIll
  /-- A major that the opcode map does not assign (02 R35). -/
  | major
  /-- A func, sub-operation, cond, mode or hop value that the owning chapter does not assign. -/
  | selector
  /-- A field that the owning chapter shows as zero, or marks reserved, is not zero. -/
  | reserved
  /-- A register field beyond its file, or a destination the form does not allow (02 R33). -/
  | register
  /-- An operand field outside the range the owning chapter gives it. -/
  | operand
  deriving DecidableEq, Repr

/-! ### Fields of a word (02 R31) -/

/-- Major opcode, bits [31:26]. -/
def fMaj (w : IWord) : BitVec 6 := w.extractLsb' 26 6
/-- Bits [25:21]. -/
def fD (w : IWord) : BitVec 5 := w.extractLsb' 21 5
/-- Bits [20:16]. -/
def fA (w : IWord) : BitVec 5 := w.extractLsb' 16 5
/-- Bits [15:11]. -/
def fB (w : IWord) : BitVec 5 := w.extractLsb' 11 5
/-- Bits [10:0]. -/
def fLo (w : IWord) : BitVec 11 := w.extractLsb' 0 11
/-- imm16, bits [15:0]. -/
def fImm16 (w : IWord) : BitVec 16 := w.extractLsb' 0 16
/-- off26 or ext, bits [25:0]. -/
def fOff26 (w : IWord) : BitVec 26 := w.extractLsb' 0 26
/-- imm11 of the MEM format, bits [15:5]. -/
def fMemImm (w : IWord) : BitVec 11 := w.extractLsb' 5 11
/-- sf of the MEM format, bits [4:0]. -/
def fSf (w : IWord) : BitVec 5 := w.extractLsb' 0 5
/-- Bit [25], the op of `loop` and `loopi` (14 R308). -/
def fBit25 (w : IWord) : BitVec 1 := w.extractLsb' 25 1
/-- Bit [24], the level of `loop` and `loopi` (14 R308). -/
def fBit24 (w : IWord) : BitVec 1 := w.extractLsb' 24 1
/-- cnt of `loopi`, bits [23:11] (14 R308). -/
def fCnt13 (w : IWord) : BitVec 13 := w.extractLsb' 11 13
/-- The number of `trap` and `brk`, bits [20:11] (16 R365). -/
def fTrapN (w : IWord) : BitVec 10 := w.extractLsb' 11 10

/-! ### Building a word -/

/-- A REG or ENG word. -/
def wReg (maj : BitVec 6) (d a b : BitVec 5) (lo : BitVec 11) : IWord := maj ++ d ++ a ++ b ++ lo
/-- An IMM or HNT word. -/
def wImm (maj : BitVec 6) (d a : BitVec 5) (i : BitVec 16) : IWord := maj ++ d ++ a ++ i
/-- A MEM word. -/
def wMem (maj : BitVec 6) (d a : BitVec 5) (i : BitVec 11) (sf : BitVec 5) : IWord := maj ++ d ++ a ++ i ++ sf
/-- A JMP or XT word. -/
def wJmp (maj : BitVec 6) (o : BitVec 26) : IWord := maj ++ o
/-- A `loopi` word (14 R308). -/
def wLoopi (lvl : BitVec 1) (cnt : BitVec 13) (len : BitVec 11) : IWord := 0x14#6 ++ 1#1 ++ lvl ++ cnt ++ len
/-- A `trap` or `brk` word (16 R365). -/
def wTrap (maj : BitVec 6) (n : BitVec 10) (lo : BitVec 11) : IWord := maj ++ 0#5 ++ n ++ lo

/-- A 3-bit register number in a 5-bit field. -/
def r3 (x : BitVec 3) : BitVec 5 := 0#2 ++ x
/-- A 4-bit register number in a 5-bit field. -/
def r4 (x : BitVec 4) : BitVec 5 := 0#1 ++ x

/-- k and func. -/
def loK (k : BitVec 3) (f : BitVec 8) : BitVec 11 := k ++ f
/-- op, sz and imm6 of `mrq` (03 R85). -/
def loM (op : BitVec 3) (sz : BitVec 2) (i : BitVec 6) : BitVec 11 := op ++ sz ++ i
/-- op and cond of `sel` and `cmov` (14 R303). -/
def loSel (op : BitVec 1) (c : BitVec 3) : BitVec 11 := 0#7 ++ op ++ c
/-- k, ty and op of the floating-point vector group (08 R182). -/
def loVf (k : BitVec 3) (ty : BitVec 1) (op : BitVec 5) : BitVec 11 := k ++ ty ++ 0#2 ++ op
/-- k, es, S and op of the integer vector group (08 R184). -/
def loVi (k : BitVec 3) (es : BitVec 2) (sg : BitVec 1) (op : BitVec 5) : BitVec 11 := k ++ es ++ sg ++ op
/-- k, ty and cond of the compares (08 R185). -/
def loVc (k ty c : BitVec 3) : BitVec 11 := k ++ ty ++ 0#2 ++ c
/-- k, ty and op of the reductions (08 R191). -/
def loVs (k ty : BitVec 3) (op : BitVec 5) : BitVec 11 := k ++ ty ++ op
/-- acc, c, Z or F, and op of the thresher groups (09 R207, R212). -/
def loT (acc : BitVec 4) (c : BitVec 2) (z : BitVec 1) (op : BitVec 4) : BitVec 11 := acc ++ c ++ z ++ op
/-- c, op, DL and SL of the copies (05 R113). -/
def loCp (c : BitVec 2) (op : BitVec 3) (dl sl : BitVec 1) : BitVec 11 := c ++ op ++ dl ++ sl ++ 0#4
/-- c, op and sel of the counter instructions (05 R127). -/
def loCc (c : BitVec 2) (op : BitVec 3) (sel : BitVec 2) : BitVec 11 := c ++ op ++ 0#4 ++ sel
/-- op, W, aq, rl and scope of the atomics (13 R282). -/
def loA (op : BitVec 4) (w aq rl : BitVec 1) (sc : BitVec 3) : BitVec 11 := op ++ w ++ aq ++ rl ++ sc ++ 0#1
/-- op and c of the futures (13 R290). -/
def loF (op : BitVec 3) (c : BitVec 2) : BitVec 11 := op ++ 0#1 ++ c ++ 0#5
/-- q, op and sel of the queue group (15 R343). -/
def loQ (q : BitVec 4) (op : BitVec 3) (sel : BitVec 4) : BitVec 11 := q ++ op ++ sel
/-- The d field of `loop`: op, lvl and three zero bits (14 R308). -/
def dLoop (op lvl : BitVec 1) : BitVec 5 := op ++ lvl ++ 0#3
/-- sf of the scalar loads and stores: X or K, and sz (06 R140). -/
def sfLd (x : BitVec 1) (sz : BitVec 2) : BitVec 5 := 0#2 ++ x ++ sz
/-- imm11 of `vld.m` and `vst.m` (06 R144). -/
def immM (off : BitVec 8) (m : BitVec 3) : BitVec 11 := off ++ m
/-- imm11 of gathers and scatters (06 R144). -/
def immG (idx : BitVec 5) (m sc : BitVec 3) : BitVec 11 := idx ++ m ++ sc
/-- imm16 of `srd` and `swr` (16 R368). -/
def sysImm (hi : BitVec 4) (r : BitVec 12) : BitVec 16 := hi ++ r

/-! ### Sub-fields of bits [10:0] and of the other packed fields -/

/-- k, bits [10:8]. -/
def sK (l : BitVec 11) : BitVec 3 := l.extractLsb' 8 3
/-- func, bits [7:0]. -/
def sF (l : BitVec 11) : BitVec 8 := l.extractLsb' 0 8
/-- Bits [n+len-1:n] of the low field. -/
def sBits (l : BitVec 11) (n len : Nat) : BitVec len := l.extractLsb' n len

/-- A decoded instruction, when a condition on its fields holds. -/
def need (c : Bool) (r : Reject) (x : Except Reject Instr) : Except Reject Instr := if c then x else .error r

/-- A mask register named in a 5-bit field: 8 or more raises ILL (02 R33, 08 R195). -/
def low3 (x : BitVec 5) : BitVec 3 := x.extractLsb' 0 3
/-- The field names one of eight registers. -/
def is3 (x : BitVec 5) : Bool := decide (x.toNat < 8)
/-- A number in 0-15 held in a 5-bit field. -/
def low4 (x : BitVec 5) : BitVec 4 := x.extractLsb' 0 4
/-- The field names one of sixteen registers, banks or elements. -/
def is4 (x : BitVec 5) : Bool := decide (x.toNat < 16)

/-- Major 0x01: register-register operations (14 R300). -/
def decScalar (d a b : BitVec 5) (l : BitVec 11) : Except Reject Instr :=
  need (sK l == 0) .reserved <|
  match (sF l).toNat with
  | 0 => .ok (.add d a b)
  | 1 => .ok (.sub d a b)
  | 2 => .ok (.mul d a b)
  | 3 => .ok (.mulhI d a b)
  | 4 => .ok (.mulhN d a b)
  | 5 => .ok (.divI d a b)
  | 6 => .ok (.divN d a b)
  | 7 => .ok (.remI d a b)
  | 8 => .ok (.remN d a b)
  | 9 => .ok (.and d a b)
  | 10 => .ok (.or d a b)
  | 11 => .ok (.xor d a b)
  | 12 => .ok (.andn d a b)
  | 13 => .ok (.shl d a b)
  | 14 => .ok (.shrN d a b)
  | 15 => .ok (.shrI d a b)
  | 16 => .ok (.rotr d a b)
  | 17 => .ok (.sltI d a b)
  | 18 => .ok (.sltN d a b)
  | 19 => .ok (.seq d a b)
  | 20 => .ok (.minI d a b)
  | 21 => .ok (.maxI d a b)
  | 22 => .ok (.minN d a b)
  | 23 => .ok (.maxN d a b)
  | 24 => .ok (.addsI d a b)
  | 25 => .ok (.subsI d a b)
  | 26 => need (b == 0) .reserved (.ok (.clz d a))
  | 27 => need (b == 0) .reserved (.ok (.ctz d a))
  | 28 => need (b == 0) .reserved (.ok (.pop d a))
  | 29 => need (b == 0) .reserved (.ok (.sextI8 d a))
  | 30 => need (b == 0) .reserved (.ok (.sextI16 d a))
  | 31 => need (b == 0) .reserved (.ok (.sextI32 d a))
  | 32 => need (b == 0) .reserved (.ok (.zextN8 d a))
  | 33 => need (b == 0) .reserved (.ok (.zextN16 d a))
  | 34 => need (b == 0) .reserved (.ok (.zextN32 d a))
  | 35 => need (b == 0) .reserved (.ok (.bswap d a))
  | 36 => .ok (.addsc1 d a b)
  | 37 => .ok (.addsc2 d a b)
  | 38 => .ok (.addsc3 d a b)
  | _ => .error .selector

/-- Majors 0x0C and 0x0D: scalar loads and stores (06 R140). -/
def decLdSt (store : Bool) (d a : BitVec 5) (i : BitVec 11) (sf : BitVec 5) : Except Reject Instr :=
  let sz : BitVec 2 := sf.extractLsb' 0 2
  need (sf.toNat < 8) .reserved <|
  match store, (sf.extractLsb' 2 1 == 1) with
  | false, false => .ok (.ldN sz d a i)
  | false, true => need (sz ≠ 3) .selector (.ok (.ldI sz d a i))
  | true, false => .ok (.st sz d a i)
  | true, true => .ok (.stK sz d a i)

/-- Major 0x0E: vector loads (06 R144). -/
def decVld (d a : BitVec 5) (i : BitVec 11) (sf : BitVec 5) : Except Reject Instr :=
  match sf.toNat with
  | 0 => .ok (.vld d a i)
  | 4 => .ok (.vldM d a (sBits i 3 8) (sBits i 0 3))
  | 8 => .ok (.vldG32 d a (sBits i 6 5) (sBits i 3 3) (sBits i 0 3))
  | 9 => .ok (.vldG64 d a (sBits i 6 5) (sBits i 3 3) (sBits i 0 3))
  | 12 => .ok (.vldCvtF32 d a i)
  | 13 => .ok (.vldCvtF64 d a i)
  | _ => .error .selector

/-- Major 0x0F: vector stores (06 R144). -/
def decVst (d a : BitVec 5) (i : BitVec 11) (sf : BitVec 5) : Except Reject Instr :=
  match sf.toNat with
  | 0 => .ok (.vst d a i)
  | 4 => .ok (.vstM d a (sBits i 3 8) (sBits i 0 3))
  | 8 => .ok (.vstS32 d a (sBits i 6 5) (sBits i 3 3) (sBits i 0 3))
  | 9 => .ok (.vstS64 d a (sBits i 6 5) (sBits i 3 3) (sBits i 0 3))
  | _ => .error .selector

/-- Major 0x10: tagged requests (03 R85). -/
def decMrq (d a t : BitVec 5) (l : BitVec 11) : Except Reject Instr :=
  need (is3 t) .register <|
  match (sK l).toNat with
  | 0 => need (sBits l 6 2 ≠ 0 || d == 0) .reserved (.ok (.mrqRd (sBits l 6 2) (low3 t) a d (sBits l 0 6)))
  | 1 => .ok (.mrqWr (sBits l 6 2) (low3 t) a d (sBits l 0 6))
  | 2 => need (sF l ≠ 0) .operand (.ok (.mrqWrm (low3 t) a d (sF l)))
  | 3 => need (a == 0 && sF l == 0) .reserved (.ok (.mrqWait d (low3 t)))
  | 4 => need (a == 0 && sF l == 0) .reserved (.ok (.mrqPoll d (low3 t)))
  | _ => .error .selector

/-- Major 0x11: conditional branches (02 R32). -/
def decBranch (c a b : BitVec 5) (off : BitVec 11) : Except Reject Instr :=
  match c.toNat with
  | 0 => .ok (.beq a b off)
  | 1 => .ok (.bne a b off)
  | 2 => .ok (.blt a b off)
  | 3 => .ok (.bge a b off)
  | 4 => .ok (.bltn a b off)
  | 5 => .ok (.bgen a b off)
  | _ => .error .selector

/-- Major 0x14: hardware loops (14 R308). -/
def decLoop (w : IWord) : Except Reject Instr :=
  need (fLo w ≠ 0) .operand <|
  if fBit25 w = 0 then
    need ((fD w).extractLsb' 0 3 == 0 && fB w == 0) .reserved (.ok (.loop (fBit24 w) (fA w) (fLo w)))
  else .ok (.loopi (fBit24 w) (fCnt13 w) (fLo w))

/-- Major 0x15: select and conditional move (14 R303). -/
def decSel (d a b : BitVec 5) (l : BitVec 11) : Except Reject Instr :=
  need (sBits l 4 7 == 0) .reserved <|
  need (condOk (sBits l 0 3)) .selector <|
  if sBits l 3 1 = 0 then .ok (.sel (sBits l 0 3) d a b) else .ok (.cmov (sBits l 0 3) d a b)

/-- Major 0x18: floating-point vector arithmetic (08 R182). -/
def decVf (d a b : BitVec 5) (l : BitVec 11) : Except Reject Instr :=
  need (sBits l 5 2 == 0) .reserved <|
  match (sBits l 0 5).toNat with
  | 0 => .ok (.vaddFp (sBits l 7 1) d a b (sK l))
  | 1 => .ok (.vsubFp (sBits l 7 1) d a b (sK l))
  | 2 => .ok (.vmulFp (sBits l 7 1) d a b (sK l))
  | 3 => .ok (.vfma (sBits l 7 1) d a b (sK l))
  | 4 => .ok (.vfms (sBits l 7 1) d a b (sK l))
  | 5 => .ok (.vdiv (sBits l 7 1) d a b (sK l))
  | 6 => need (b == 0) .reserved (.ok (.vsqrt (sBits l 7 1) d a (sK l)))
  | 7 => .ok (.vminFp (sBits l 7 1) d a b (sK l))
  | 8 => .ok (.vmaxFp (sBits l 7 1) d a b (sK l))
  | 9 => need (b == 0) .reserved (.ok (.vabsFp (sBits l 7 1) d a (sK l)))
  | 10 => need (b == 0) .reserved (.ok (.vnegFp (sBits l 7 1) d a (sK l)))
  | 11 => need (b == 0) .reserved (.ok (.vrcp (sBits l 7 1) d a (sK l)))
  | 12 => need (b == 0) .reserved (.ok (.vrsq (sBits l 7 1) d a (sK l)))
  | _ => .error .selector

/-- Major 0x19: integer vector arithmetic (08 R184). -/
def decVi (d a b : BitVec 5) (l : BitVec 11) : Except Reject Instr :=
  match (sBits l 0 5).toNat with
  | 0 => .ok (.vaddInt (sBits l 6 2) (sBits l 5 1) d a b (sK l))
  | 1 => .ok (.vsubInt (sBits l 6 2) (sBits l 5 1) d a b (sK l))
  | 2 => .ok (.vadds (sBits l 6 2) (sBits l 5 1) d a b (sK l))
  | 3 => .ok (.vsubs (sBits l 6 2) (sBits l 5 1) d a b (sK l))
  | 4 => .ok (.vmulInt (sBits l 6 2) (sBits l 5 1) d a b (sK l))
  | 5 => .ok (.vmulh (sBits l 6 2) (sBits l 5 1) d a b (sK l))
  | 6 => .ok (.vminInt (sBits l 6 2) (sBits l 5 1) d a b (sK l))
  | 7 => .ok (.vmaxInt (sBits l 6 2) (sBits l 5 1) d a b (sK l))
  | 8 => .ok (.vand (sBits l 6 2) (sBits l 5 1) d a b (sK l))
  | 9 => .ok (.vor (sBits l 6 2) (sBits l 5 1) d a b (sK l))
  | 10 => .ok (.vxor (sBits l 6 2) (sBits l 5 1) d a b (sK l))
  | 11 => .ok (.vshl (sBits l 6 2) (sBits l 5 1) d a b (sK l))
  | 12 => .ok (.vshr (sBits l 6 2) (sBits l 5 1) d a b (sK l))
  | 13 => need (b == 0) .reserved (need (sBits l 5 1 == 1) .selector (.ok (.vabsInt (sBits l 6 2) d a (sK l))))
  | _ => .error .selector

/-- Major 0x1A: vector compares (08 R185). -/
def decVc (d a b : BitVec 5) (l : BitVec 11) : Except Reject Instr :=
  need (sBits l 3 2 == 0) .reserved <|
  need (is3 d && d ≠ 0) .register <|
  need ((sBits l 5 3).toNat < 6) .selector <|
  match (sBits l 0 3).toNat with
  | 0 => .ok (.vcmpEq (sBits l 5 3) (low3 d) a b (sK l))
  | 1 => .ok (.vcmpNe (sBits l 5 3) (low3 d) a b (sK l))
  | 2 => .ok (.vcmpLt (sBits l 5 3) (low3 d) a b (sK l))
  | 3 => .ok (.vcmpLe (sBits l 5 3) (low3 d) a b (sK l))
  | 4 => need ((sBits l 5 3).toNat < 2) .selector (.ok (.vcmpUn (sBits l 5 3) (low3 d) a b (sK l)))
  | _ => .error .selector

/-- Major 0x1B: conversions (08 R186). -/
def decVcvt (d a b : BitVec 5) (l : BitVec 11) : Except Reject Instr :=
  need (b == 0 && sK l == 0) .reserved <|
  need (sBits l 4 4 ≠ 15 && sBits l 0 4 ≠ 15) .selector <|
  .ok (.vcvt (sBits l 4 4) (sBits l 0 4) d a)

/-- Major 0x1C: logarithm, exponential and random words (08 R187). -/
def decVe (d a b : BitVec 5) (l : BitVec 11) : Except Reject Instr :=
  need (b == 0) .reserved <|
  match (sF l).toNat with
  | 0 => .ok (.vlog2 d a (sK l))
  | 1 => .ok (.vexp2 d a (sK l))
  | 2 => need (a == 0) .reserved (.ok (.vrand d (sK l)))
  | 3 => need (a == 0) .reserved (.ok (.vrandF32 d (sK l)))
  | _ => .error .selector

/-- Major 0x1D: reductions (08 R191). -/
def decVs (d a b : BitVec 5) (l : BitVec 11) : Except Reject Instr :=
  need ((sBits l 5 3).toNat < 4) .selector <|
  match (sBits l 0 5).toNat with
  | 0 => need (b == 0) .reserved (.ok (.vsum (sBits l 5 3) d a (sK l)))
  | 1 => need (pairDest d) .register (.ok (.vmaxi (sBits l 5 3) d a b (sK l)))
  | 2 => need (pairDest d) .register (.ok (.vmini (sBits l 5 3) d a b (sK l)))
  | _ => .error .selector

/-- Major 0x1E: permutes and moves (08 R194). -/
def decVp (d a b : BitVec 5) (l : BitVec 11) : Except Reject Instr :=
  match (sF l).toNat with
  | 0 => .ok (.vperm d a b (sK l))
  | 1 => .ok (.vrot d a b (sK l))
  | 2 => need (b == 0) .reserved (.ok (.vbcast32 d a (sK l)))
  | 3 => need (b == 0) .reserved (.ok (.vbcast64 d a (sK l)))
  | 4 => need (sK l == 0) .reserved (.ok (.vins32 d a b))
  | 5 => need (sK l == 0) .reserved (.ok (.vext32 d a b))
  | 6 => need (a == 0 && b == 0) .reserved (.ok (.vlane d (sK l)))
  | 7 => .ok (.vsel32 d a b (sK l))
  | 8 => need (b == 0) .reserved (.ok (.vmov32 d a (sK l)))
  | 9 => need (sK l == 0) .reserved (need (is4 b) .register (.ok (.vins64 d a (low4 b))))
  | 10 => need (sK l == 0) .reserved (need (is4 b) .register (.ok (.vext64 d a (low4 b))))
  | 11 => .ok (.vsel64 d a b (sK l))
  | 12 => need (b == 0) .reserved (.ok (.vmov64 d a (sK l)))
  | _ => .error .selector

/-- Major 0x1F: mask instructions (08 R195). -/
def decMask (d a b : BitVec 5) (l : BitVec 11) : Except Reject Instr :=
  need (sK l == 0) .reserved <|
  match (sF l).toNat with
  | 0 => need (is3 d && is3 a && is3 b) .register (.ok (.kand (low3 d) (low3 a) (low3 b)))
  | 1 => need (is3 d && is3 a && is3 b) .register (.ok (.kor (low3 d) (low3 a) (low3 b)))
  | 2 => need (is3 d && is3 a && is3 b) .register (.ok (.kxor (low3 d) (low3 a) (low3 b)))
  | 3 => need (is3 d && is3 a && is3 b) .register (.ok (.kandn (low3 d) (low3 a) (low3 b)))
  | 4 => need (b == 0) .reserved (need (is3 d) .register (.ok (.kset (low3 d) a)))
  | 5 => need (b == 0) .reserved (need (is3 a) .register (.ok (.kget d (low3 a))))
  | 6 => need (b == 0) .reserved (need (is3 a) .register (.ok (.kpop d (low3 a))))
  | 7 => need (b == 0) .reserved (need (is3 a) .register (.ok (.kffs d (low3 a))))
  | _ => .error .selector

/-- Major 0x20: `mma`, `mma.t` (09 R207). -/
def decMma (a b n : BitVec 5) (l : BitVec 11) : Except Reject Instr :=
  match (sBits l 0 4).toNat, (sBits l 4 1).toNat with
  | 0, 0 => .ok (.mma (sBits l 7 4) a b n (sBits l 5 2))
  | 0, 1 => .ok (.mmaZ (sBits l 7 4) a b n (sBits l 5 2))
  | 1, 0 => .ok (.mmaT (sBits l 7 4) a b n (sBits l 5 2))
  | 1, 1 => .ok (.mmaTZ (sBits l 7 4) a b n (sBits l 5 2))
  | _, _ => .error .selector

/-- Major 0x21: accumulator instructions (09 R212, R213). -/
def decAcc (d a b : BitVec 5) (l : BitVec 11) : Except Reject Instr :=
  match (sBits l 0 4).toNat with
  | 0 => need (d == 0 && a == 0 && sBits l 4 1 == 0 && is4 b) .reserved
      (need ((sBits l 7 4).toNat + b.toNat ≤ 15) .register (.ok (.accZero (sBits l 7 4) b (sBits l 5 2))))
  | 1 => need (a == 0 && b == 0 && sBits l 4 1 == 0) .reserved (.ok (.accLd (sBits l 7 4) d (sBits l 5 2)))
  | 2 => need (a == 0 && b == 0 && sBits l 4 1 == 0) .reserved (.ok (.accSt d (sBits l 7 4) (sBits l 5 2)))
  | 3 => need (a == 0 && b == 0) .reserved (need (pairOk (sBits l 4 1) (sBits l 7 4)) .register
      (.ok (.accCvt (sBits l 4 1) d (sBits l 7 4) (sBits l 5 2))))
  | _ => .error .selector

/-- Major 0x22: square instructions (09 R214). -/
def decSq (d a b : BitVec 5) (l : BitVec 11) : Except Reject Instr :=
  match (sBits l 0 4).toNat with
  | 0 => need (pairOk (sBits l 4 1) (sBits l 7 4)) .register
      (.ok (.sqQuant (sBits l 4 1) d (sBits l 7 4) a b (sBits l 5 2)))
  | 1 => need (a == 0) .reserved (need (pairOk (sBits l 4 1) (sBits l 7 4)) .register
      (.ok (.sqDeq (sBits l 4 1) (sBits l 7 4) d b (sBits l 5 2))))
  | 2 => need (sBits l 7 4 == 0 && sBits l 4 1 == 0) .reserved (.ok (.sqAlign d a b (sBits l 5 2)))
  | 3 => need (sBits l 7 4 == 0 && sBits l 4 1 == 0) .reserved (.ok (.sqScale d a b (sBits l 5 2)))
  | _ => .error .selector

/-- Major 0x23: bank formats (06 R148). -/
def decBfmt (d a b : BitVec 5) (l : BitVec 11) : Except Reject Instr :=
  need (sK l == 0) .reserved <|
  need (is4 b) .register <|
  match (sF l).toNat with
  | 0 => need (d == 0) .reserved (.ok (.bfmtSet (low4 b) a))
  | 1 => need (a == 0) .reserved (.ok (.bfmtGet d (low4 b)))
  | _ => .error .selector

/-- Majors 0x28-0x2A: copies (05 R113). -/
def decCopy (m : Nat) (d a b : BitVec 5) (l : BitVec 11) : Except Reject Instr :=
  need (sBits l 0 4 == 0) .reserved <|
  match m, (sBits l 6 3).toNat with
  | 0x28, 0 => .ok (.cp (sBits l 5 1) (sBits l 4 1) (sBits l 9 2) d a b)
  | 0x28, 1 => need (a == 0 && sBits l 4 1 == 0) .reserved (.ok (.cpZ (sBits l 5 1) (sBits l 9 2) d b))
  | 0x28, 2 => need (d == 0 && sBits l 5 1 == 0 && sBits l 4 1 == 0) .reserved (.ok (.cpPf (sBits l 9 2) a b))
  | 0x29, 0 => need (b ≠ 31) .register (.ok (.cp2 (sBits l 5 1) (sBits l 4 1) (sBits l 9 2) d a b))
  | 0x2A, 0 => .ok (.cpSq (sBits l 5 1) (sBits l 4 1) (sBits l 9 2) d a b)
  | 0x2A, 1 => .ok (.cpSqt (sBits l 5 1) (sBits l 4 1) (sBits l 9 2) d a b)
  | 0x2A, 2 => need (sBits l 5 1 == 0 && sBits l 4 1 == 0) .reserved (.ok (.cpFill (sBits l 9 2) d a b))
  | _, _ => .error .selector

/-- Major 0x2B: counter instructions (05 R127). -/
def decCtr (d a b : BitVec 5) (l : BitVec 11) : Except Reject Instr :=
  need (b == 0 && sBits l 2 4 == 0) .reserved <|
  match (sBits l 6 3).toNat with
  | 0 => need (d == 0 && sBits l 0 2 == 0) .reserved (.ok (.cpWait (sBits l 9 2) a))
  | 1 => need (sBits l 0 2 == 0) .reserved (.ok (.cpWaitq d (sBits l 9 2) a))
  | 2 => need (a == 0) .reserved (.ok (.cpRdc d (sBits l 9 2) (sBits l 0 2)))
  | _ => .error .selector

/-- Major 0x2C: global atomics (13 R282). -/
def decAmo (d a b : BitVec 5) (l : BitVec 11) : Except Reject Instr :=
  need (sBits l 0 1 == 0) .reserved <|
  need (scopeOk (sBits l 1 3)) .selector <|
  match (sBits l 7 4).toNat with
  | 0 => .ok (.amoAdd (sBits l 6 1) (sBits l 5 1) (sBits l 4 1) (sBits l 1 3) d a b)
  | 1 => .ok (.amoAnd (sBits l 6 1) (sBits l 5 1) (sBits l 4 1) (sBits l 1 3) d a b)
  | 2 => .ok (.amoOr (sBits l 6 1) (sBits l 5 1) (sBits l 4 1) (sBits l 1 3) d a b)
  | 3 => .ok (.amoXor (sBits l 6 1) (sBits l 5 1) (sBits l 4 1) (sBits l 1 3) d a b)
  | 4 => .ok (.amoSwap (sBits l 6 1) (sBits l 5 1) (sBits l 4 1) (sBits l 1 3) d a b)
  | 5 => .ok (.amoMin (sBits l 6 1) (sBits l 5 1) (sBits l 4 1) (sBits l 1 3) d a b)
  | 6 => .ok (.amoMax (sBits l 6 1) (sBits l 5 1) (sBits l 4 1) (sBits l 1 3) d a b)
  | 7 => .ok (.amoMinn (sBits l 6 1) (sBits l 5 1) (sBits l 4 1) (sBits l 1 3) d a b)
  | 8 => .ok (.amoMaxn (sBits l 6 1) (sBits l 5 1) (sBits l 4 1) (sBits l 1 3) d a b)
  | 9 => .ok (.amoCas (sBits l 6 1) (sBits l 5 1) (sBits l 4 1) (sBits l 1 3) d a b)
  | 10 => .ok (.amoFadd (sBits l 6 1) (sBits l 5 1) (sBits l 4 1) (sBits l 1 3) d a b)
  | _ => .error .selector

/-- Major 0x2D: local atomics (13 R282). -/
def decLamo (d a b : BitVec 5) (l : BitVec 11) : Except Reject Instr :=
  need (sBits l 0 1 == 0) .reserved <|
  need (scopeOk (sBits l 1 3)) .selector <|
  match (sBits l 7 4).toNat with
  | 0 => .ok (.lamoAdd (sBits l 6 1) (sBits l 5 1) (sBits l 4 1) (sBits l 1 3) d a b)
  | 1 => .ok (.lamoAnd (sBits l 6 1) (sBits l 5 1) (sBits l 4 1) (sBits l 1 3) d a b)
  | 2 => .ok (.lamoOr (sBits l 6 1) (sBits l 5 1) (sBits l 4 1) (sBits l 1 3) d a b)
  | 3 => .ok (.lamoXor (sBits l 6 1) (sBits l 5 1) (sBits l 4 1) (sBits l 1 3) d a b)
  | 4 => .ok (.lamoSwap (sBits l 6 1) (sBits l 5 1) (sBits l 4 1) (sBits l 1 3) d a b)
  | 5 => .ok (.lamoMin (sBits l 6 1) (sBits l 5 1) (sBits l 4 1) (sBits l 1 3) d a b)
  | 6 => .ok (.lamoMax (sBits l 6 1) (sBits l 5 1) (sBits l 4 1) (sBits l 1 3) d a b)
  | 7 => .ok (.lamoMinn (sBits l 6 1) (sBits l 5 1) (sBits l 4 1) (sBits l 1 3) d a b)
  | 8 => .ok (.lamoMaxn (sBits l 6 1) (sBits l 5 1) (sBits l 4 1) (sBits l 1 3) d a b)
  | 9 => .ok (.lamoCas (sBits l 6 1) (sBits l 5 1) (sBits l 4 1) (sBits l 1 3) d a b)
  | 10 => .ok (.lamoFadd (sBits l 6 1) (sBits l 5 1) (sBits l 4 1) (sBits l 1 3) d a b)
  | _ => .error .selector

/-- Major 0x2E: futures (13 R290). -/
def decFut (d a b : BitVec 5) (l : BitVec 11) : Except Reject Instr :=
  need (sBits l 7 1 == 0 && sBits l 0 5 == 0) .reserved <|
  match (sBits l 8 3).toNat with
  | 0 => need (sBits l 5 2 == 0) .reserved (.ok (.futRes d a b))
  | 1 => need (sBits l 5 2 == 0) .reserved (.ok (.futReg d a b))
  | 2 => need (d == 0) .reserved (.ok (.futOn a b (sBits l 5 2)))
  | 3 => need (b == 0 && sBits l 5 2 == 0) .reserved (.ok (.futRst d a))
  | _ => .error .selector

/-- Major 0x2F: barriers (13 R294). -/
def decBar (d a b : BitVec 5) (l : BitVec 11) : Except Reject Instr :=
  need (sF l == 0) .reserved <|
  match (sK l).toNat with
  | 0 => need (b == 0) .reserved (.ok (.barArr d a))
  | 1 => .ok (.barWait d a b)
  | 2 => .ok (.barPoll d a b)
  | 3 => need (d == 0 && b == 0) .reserved (.ok (.barJoin a))
  | 4 => need (d == 0 && b == 0) .reserved (.ok (.barLeave a))
  | 5 => need (d == 0) .reserved (.ok (.barCfg a b))
  | _ => .error .selector

/-- Major 0x30: `fence` (12 R271). -/
def decFence (d a b : BitVec 5) (l : BitVec 11) : Except Reject Instr :=
  need (d == 0 && a == 0 && b == 0) .reserved <|
  need (scopeOk (sK l)) .selector <|
  .ok (.fence (sK l) (sBits l 4 4) (sBits l 0 4))


/-- Major 0x31: pushes (15 R343). -/
def decPush (d a b : BitVec 5) (l : BitVec 11) : Except Reject Instr :=
  need (d == 0 && sBits l 0 4 == 0) .reserved <|
  match (sBits l 4 3).toNat with
  | 0 => need (b == 0) .reserved (.ok (.qpush (sBits l 7 4) a))
  | 1 => .ok (.qpushAt (sBits l 7 4) a b)
  | 2 => need (a == 0 && b == 0) .reserved (.ok (.qmark (sBits l 7 4)))
  | 3 => need (a == 0 && b == 0) .reserved (.ok (.qmarkF (sBits l 7 4)))
  | _ => .error .selector

/-- Major 0x32: pops and queue status (15 R343). -/
def decPop (d a b : BitVec 5) (l : BitVec 11) : Except Reject Instr :=
  need (a == 0) .reserved <|
  match (sBits l 4 3).toNat with
  | 0 => need (b == 0 && sBits l 0 4 == 0) .reserved (need (pairDest d) .register (.ok (.qpop d (sBits l 7 4))))
  | 1 => need (sBits l 0 4 == 0) .reserved (need (pairDest d) .register (.ok (.qpopm d (sBits l 7 4) b)))
  | 2 => need (b == 0 && sBits l 0 4 == 0) .reserved (need (pairDest d) .register (.ok (.qpeek d (sBits l 7 4))))
  | 3 => need (b == 0) .reserved (need ((sBits l 0 4).toNat < 5) .operand (.ok (.qstat d (sBits l 7 4) (sBits l 0 4))))
  | _ => .error .selector

/-- Major 0x33: `commit`, `abort`, `yield` (15 R347). -/
def decEnd (d a b : BitVec 5) (l : BitVec 11) : Except Reject Instr :=
  need (d == 0 && a == 0 && b == 0 && sBits l 7 4 == 0 && sBits l 0 4 == 0) .reserved <|
  match (sBits l 4 3).toNat with
  | 0 => .ok .commit
  | 1 => .ok .abort
  | 2 => .ok .yield
  | _ => .error .selector

/-- Major 0x34: messages (11 R255). -/
def decAm (d a b : BitVec 5) (l : BitVec 11) : Except Reject Instr :=
  match (sK l).toNat with
  | 0 => need (sF l == 0) .reserved (.ok (.amSend d a b))
  | 1 => need (d == 0 && sF l == 0) .reserved (.ok (.amReply a b))
  | 2 => need (d == 0 && a == 0 && b == 0 && sF l == 0) .reserved (.ok .amEnd)
  | 3 => need (a == 0 && b == 0) .reserved (need ((sF l).toNat < 5) .operand (.ok (.amStat d (sF l))))
  | _ => .error .selector

/-- Major 0x35: sheaves (10 R238). -/
def decSh (d a b : BitVec 5) (l : BitVec 11) : Except Reject Instr :=
  need (sF l == 0) .reserved <|
  match (sK l).toNat with
  | 0 => .ok (.shTag d a b)
  | 1 => .ok (.shChk d a b)
  | 2 => need (d == 0) .reserved (.ok (.shRed a b))
  | 3 => need (d == 0) .reserved (.ok (.shAck a b))
  | 4 => .ok (.shRel d a b)
  | _ => .error .selector

/-- `trap n`: a number that names a monitor call reads as that call (16 R365, R366, 17 R376). -/
def decTrap (n : BitVec 10) : Instr :=
  match n.toNat with
  | 0x001 => .info
  | 0x010 => .ctxPark
  | 0x011 => .ctxResume
  | 0x012 => .ctxKill
  | 0x013 => .quarantine
  | 0x015 => .regionSet
  | 0x020 => .keyLoad
  | 0x021 => .keyClear
  | 0x030 => .routeSet
  | 0x031 => .routeClear
  | 0x040 => .vqBind
  | 0x050 => .exportCall
  | 0x051 => .importCall
  | 0x060 => .attest
  | _ => .trap n

/-- Major 0x38: system instructions (16 R365). -/
def decSys (w : IWord) : Except Reject Instr :=
  need (fD w == 0 && sK (fLo w) == 0) .reserved <|
  match (sF (fLo w)).toNat with
  | 0 => .ok (decTrap (fTrapN w))
  | 1 => need (fTrapN w == 0) .reserved (.ok .eret)
  | 2 => need (fTrapN w == 0) .reserved (.ok .wfi)
  | 3 => need (fTrapN w == 0) .reserved (.ok .halt)
  | 4 => .ok (.brk (fTrapN w))
  | _ => .error .selector

/-- The write form of a system register: bank formats, loop registers and Philox registers have rows of their own. -/
def decSwr (r : BitVec 12) (a : SReg) : Instr :=
  if isBfmtReg r then .swrBfmt (r.extractLsb' 0 4) a
  else if isLoopReg r then .swrLoopReg r a
  else if isPhiloxReg r then .swrPhilox r a
  else .swr r a

/-- Major 0x39: `srd` and `swr` (16 R368). -/
def decSr (d a : BitVec 5) (i : BitVec 16) : Except Reject Instr :=
  let r : BitVec 12 := i.extractLsb' 0 12
  match (i.extractLsb' 12 4 : BitVec 4).toNat with
  | 0 => need (a == 0) .reserved (need (sysRegAssigned r) .operand (.ok (.srd d r)))
  | 1 => need (d == 0) .reserved (need (sysRegAssigned r) .operand (.ok (decSwr r a)))
  | _ => .error .selector

/-- Major 0x3A: `ifl` and `tlbinv` (16 R369). -/
def decInv (n a b : BitVec 5) (l : BitVec 11) : Except Reject Instr :=
  need (sF l == 0) .reserved <|
  match (sK l).toNat with
  | 0 => .ok (.ifl a b n)
  | 1 => need (n == 0) .reserved (.ok (.tlbinv a b))
  | _ => .error .selector

/-- Major 0x3B: the time base (11 R266). -/
def decTime (d a b : BitVec 5) (l : BitVec 11) : Except Reject Instr :=
  need (b == 0 && sK l == 0) .reserved <|
  match (sF l).toNat with
  | 0 => need (a == 0) .reserved (.ok (.tbrd d))
  | 1 => need (a == 0) .reserved (.ok (.tbrdSt d))
  | 2 => need (d == 0) .reserved (.ok (.waitt a))
  | _ => .error .selector

/-- Major 0x3E: hints (02 R46). -/
def decHint (hop a : BitVec 5) (i : BitVec 16) : Except Reject Instr :=
  match hop.toNat with
  | 0 => need (a == 0 && i == 0) .reserved (.ok .hintNop)
  | 1 => need (a == 0 && i.extractLsb' 2 14 == 0) .reserved (need (i.extractLsb' 0 2 ≠ (3 : BitVec 2)) .operand (.ok (.hintBr (i.extractLsb' 0 2))))
  | 2 => .ok (.hintPf a i)
  | 3 => .ok (.hintPg a i)
  | 4 => need (a == 0 && i.extractLsb' 4 12 == 0) .reserved (.ok (.hintBank (i.extractLsb' 0 4)))
  | _ => .error .selector

/-- The instruction a word stands for (02 R34, R35). -/
def decodeWord (w : IWord) : Except Reject Instr :=
  match (fMaj w).toNat with
  | 0x00 => .error .permanentIll
  | 0x01 => decScalar (fD w) (fA w) (fB w) (fLo w)
  | 0x02 => .ok (.addi (fD w) (fA w) (fImm16 w))
  | 0x03 => .ok (.andi (fD w) (fA w) (fImm16 w))
  | 0x04 => .ok (.ori (fD w) (fA w) (fImm16 w))
  | 0x05 => .ok (.xori (fD w) (fA w) (fImm16 w))
  | 0x06 => .ok (.slti (fD w) (fA w) (fImm16 w))
  | 0x07 => .ok (.sltni (fD w) (fA w) (fImm16 w))
  | 0x08 => need ((fImm16 w).toNat < 64) .operand (.ok (.shli (fD w) (fA w) (fImm16 w)))
  | 0x09 => need ((fImm16 w).toNat < 64) .operand (.ok (.shriN (fD w) (fA w) (fImm16 w)))
  | 0x0A => need ((fImm16 w).toNat < 64) .operand (.ok (.shriI (fD w) (fA w) (fImm16 w)))
  | 0x0B => .ok (.addhi (fD w) (fA w) (fImm16 w))
  | 0x0C => decLdSt false (fD w) (fA w) (fMemImm w) (fSf w)
  | 0x0D => decLdSt true (fD w) (fA w) (fMemImm w) (fSf w)
  | 0x0E => decVld (fD w) (fA w) (fMemImm w) (fSf w)
  | 0x0F => decVst (fD w) (fA w) (fMemImm w) (fSf w)
  | 0x10 => decMrq (fD w) (fA w) (fB w) (fLo w)
  | 0x11 => decBranch (fD w) (fA w) (fB w) (fLo w)
  | 0x12 => .ok (.jmp (fOff26 w))
  | 0x13 => need (fD w == 0) .reserved (.ok (.jmpr (fA w) (fImm16 w)))
  | 0x14 => decLoop w
  | 0x15 => decSel (fD w) (fA w) (fB w) (fLo w)
  | 0x18 => decVf (fD w) (fA w) (fB w) (fLo w)
  | 0x19 => decVi (fD w) (fA w) (fB w) (fLo w)
  | 0x1A => decVc (fD w) (fA w) (fB w) (fLo w)
  | 0x1B => decVcvt (fD w) (fA w) (fB w) (fLo w)
  | 0x1C => decVe (fD w) (fA w) (fB w) (fLo w)
  | 0x1D => decVs (fD w) (fA w) (fB w) (fLo w)
  | 0x1E => decVp (fD w) (fA w) (fB w) (fLo w)
  | 0x1F => decMask (fD w) (fA w) (fB w) (fLo w)
  | 0x20 => decMma (fD w) (fA w) (fB w) (fLo w)
  | 0x21 => decAcc (fD w) (fA w) (fB w) (fLo w)
  | 0x22 => decSq (fD w) (fA w) (fB w) (fLo w)
  | 0x23 => decBfmt (fD w) (fA w) (fB w) (fLo w)
  | 0x28 => decCopy 0x28 (fD w) (fA w) (fB w) (fLo w)
  | 0x29 => decCopy 0x29 (fD w) (fA w) (fB w) (fLo w)
  | 0x2A => decCopy 0x2A (fD w) (fA w) (fB w) (fLo w)
  | 0x2B => decCtr (fD w) (fA w) (fB w) (fLo w)
  | 0x2C => decAmo (fD w) (fA w) (fB w) (fLo w)
  | 0x2D => decLamo (fD w) (fA w) (fB w) (fLo w)
  | 0x2E => decFut (fD w) (fA w) (fB w) (fLo w)
  | 0x2F => decBar (fD w) (fA w) (fB w) (fLo w)
  | 0x30 => decFence (fD w) (fA w) (fB w) (fLo w)
  | 0x31 => decPush (fD w) (fA w) (fB w) (fLo w)
  | 0x32 => decPop (fD w) (fA w) (fB w) (fLo w)
  | 0x33 => decEnd (fD w) (fA w) (fB w) (fLo w)
  | 0x34 => decAm (fD w) (fA w) (fB w) (fLo w)
  | 0x35 => decSh (fD w) (fA w) (fB w) (fLo w)
  | 0x38 => decSys w
  | 0x39 => decSr (fD w) (fA w) (fImm16 w)
  | 0x3A => decInv (fD w) (fA w) (fB w) (fLo w)
  | 0x3B => decTime (fD w) (fA w) (fB w) (fLo w)
  | 0x3E => decHint (fD w) (fA w) (fImm16 w)
  | 0x3F => .ok (.ximm (fOff26 w))
  | _ => .error .major

/-- The little-endian word of four bytes (02 R29). -/
def wordOfBytes (b0 b1 b2 b3 : Byte) : IWord := b3 ++ b2 ++ b1 ++ b0

/-- The four bytes of a word, lowest address first (02 R29). -/
def bytesOfWord (w : IWord) : List Byte :=
  [w.extractLsb' 0 8, w.extractLsb' 8 8, w.extractLsb' 16 8, w.extractLsb' 24 8]

/-- The instruction at the head of a list of bytes, with the bytes after it. -/
def decode : List Byte → Except Reject (Instr × List Byte)
  | b0 :: b1 :: b2 :: b3 :: rest =>
    match decodeWord (wordOfBytes b0 b1 b2 b3) with
    | .ok i => .ok (i, rest)
    | .error r => .error r
  | _ => .error .short

/-- The instruction the decoder reads from a word of the opcode table: its bits are laid out as bytes in memory order and
decoded. An instruction has one word of 32 bits (02 R29), so more bits than that are no instruction. -/
def decodeTableWord (nbits w : Nat) : Option Instr :=
  if 32 < nbits then none
  else match decode (bytesOfWord (BitVec.ofNat 32 (w % 2 ^ nbits))) with
    | .ok (i, _) => some i
    | .error _ => none

/-- The word of an instruction, from the encoding tables; an event has none. -/
def encode : Instr → Option IWord
  | .add d a b => some (wReg 0x01 d a b (loK 0 0x00))
  | .sub d a b => some (wReg 0x01 d a b (loK 0 0x01))
  | .mul d a b => some (wReg 0x01 d a b (loK 0 0x02))
  | .mulhI d a b => some (wReg 0x01 d a b (loK 0 0x03))
  | .mulhN d a b => some (wReg 0x01 d a b (loK 0 0x04))
  | .divI d a b => some (wReg 0x01 d a b (loK 0 0x05))
  | .divN d a b => some (wReg 0x01 d a b (loK 0 0x06))
  | .remI d a b => some (wReg 0x01 d a b (loK 0 0x07))
  | .remN d a b => some (wReg 0x01 d a b (loK 0 0x08))
  | .and d a b => some (wReg 0x01 d a b (loK 0 0x09))
  | .or d a b => some (wReg 0x01 d a b (loK 0 0x0A))
  | .xor d a b => some (wReg 0x01 d a b (loK 0 0x0B))
  | .andn d a b => some (wReg 0x01 d a b (loK 0 0x0C))
  | .shl d a b => some (wReg 0x01 d a b (loK 0 0x0D))
  | .shrN d a b => some (wReg 0x01 d a b (loK 0 0x0E))
  | .shrI d a b => some (wReg 0x01 d a b (loK 0 0x0F))
  | .rotr d a b => some (wReg 0x01 d a b (loK 0 0x10))
  | .sltI d a b => some (wReg 0x01 d a b (loK 0 0x11))
  | .sltN d a b => some (wReg 0x01 d a b (loK 0 0x12))
  | .seq d a b => some (wReg 0x01 d a b (loK 0 0x13))
  | .minI d a b => some (wReg 0x01 d a b (loK 0 0x14))
  | .maxI d a b => some (wReg 0x01 d a b (loK 0 0x15))
  | .minN d a b => some (wReg 0x01 d a b (loK 0 0x16))
  | .maxN d a b => some (wReg 0x01 d a b (loK 0 0x17))
  | .addsI d a b => some (wReg 0x01 d a b (loK 0 0x18))
  | .subsI d a b => some (wReg 0x01 d a b (loK 0 0x19))
  | .clz d a => some (wReg 0x01 d a 0 (loK 0 0x1A))
  | .ctz d a => some (wReg 0x01 d a 0 (loK 0 0x1B))
  | .pop d a => some (wReg 0x01 d a 0 (loK 0 0x1C))
  | .sextI8 d a => some (wReg 0x01 d a 0 (loK 0 0x1D))
  | .sextI16 d a => some (wReg 0x01 d a 0 (loK 0 0x1E))
  | .sextI32 d a => some (wReg 0x01 d a 0 (loK 0 0x1F))
  | .zextN8 d a => some (wReg 0x01 d a 0 (loK 0 0x20))
  | .zextN16 d a => some (wReg 0x01 d a 0 (loK 0 0x21))
  | .zextN32 d a => some (wReg 0x01 d a 0 (loK 0 0x22))
  | .bswap d a => some (wReg 0x01 d a 0 (loK 0 0x23))
  | .addsc1 d a b => some (wReg 0x01 d a b (loK 0 0x24))
  | .addsc2 d a b => some (wReg 0x01 d a b (loK 0 0x25))
  | .addsc3 d a b => some (wReg 0x01 d a b (loK 0 0x26))
  | .addi d a i => some (wImm 0x02 d a i)
  | .andi d a i => some (wImm 0x03 d a i)
  | .ori d a i => some (wImm 0x04 d a i)
  | .xori d a i => some (wImm 0x05 d a i)
  | .slti d a i => some (wImm 0x06 d a i)
  | .sltni d a i => some (wImm 0x07 d a i)
  | .shli d a i => some (wImm 0x08 d a i)
  | .shriN d a i => some (wImm 0x09 d a i)
  | .shriI d a i => some (wImm 0x0A d a i)
  | .addhi d a i => some (wImm 0x0B d a i)
  | .ldN sz d base off => some (wMem 0x0C d base off (sfLd 0 sz))
  | .ldI sz d base off => some (wMem 0x0C d base off (sfLd 1 sz))
  | .st sz d base off => some (wMem 0x0D d base off (sfLd 0 sz))
  | .stK sz d base off => some (wMem 0x0D d base off (sfLd 1 sz))
  | .vld d base off => some (wMem 0x0E d base off 0b00000)
  | .vldM d base off m => some (wMem 0x0E d base (immM off m) 0b00100)
  | .vldG32 d base idx m sc => some (wMem 0x0E d base (immG idx m sc) 0b01000)
  | .vldG64 d base idx m sc => some (wMem 0x0E d base (immG idx m sc) 0b01001)
  | .vldCvtF32 d base off => some (wMem 0x0E d base off 0b01100)
  | .vldCvtF64 d base off => some (wMem 0x0E d base off 0b01101)
  | .vst d base off => some (wMem 0x0F d base off 0b00000)
  | .vstM d base off m => some (wMem 0x0F d base (immM off m) 0b00100)
  | .vstS32 d base idx m sc => some (wMem 0x0F d base (immG idx m sc) 0b01000)
  | .vstS64 d base idx m sc => some (wMem 0x0F d base (immG idx m sc) 0b01001)
  | .mrqRd sz t a d off => some (wReg 0x10 d a (r3 t) (loM 0 sz off))
  | .mrqWr sz t a d off => some (wReg 0x10 d a (r3 t) (loM 1 sz off))
  | .mrqWrm t a d mask => some (wReg 0x10 d a (r3 t) (loK 2 mask))
  | .mrqWait d t => some (wReg 0x10 d 0 (r3 t) (loK 3 0))
  | .mrqPoll d t => some (wReg 0x10 d 0 (r3 t) (loK 4 0))
  | .beq a b off => some (wReg 0x11 0 a b off)
  | .bne a b off => some (wReg 0x11 1 a b off)
  | .blt a b off => some (wReg 0x11 2 a b off)
  | .bge a b off => some (wReg 0x11 3 a b off)
  | .bltn a b off => some (wReg 0x11 4 a b off)
  | .bgen a b off => some (wReg 0x11 5 a b off)
  | .jmp off => some (wJmp 0x12 off)
  | .jmpr a i => some (wImm 0x13 0 a i)
  | .loop lvl a len => some (wReg 0x14 (dLoop 0 lvl) a 0 len)
  | .loopi lvl cnt len => some (wLoopi lvl cnt len)
  | .sel c d a b => some (wReg 0x15 d a b (loSel 0 c))
  | .cmov c d a b => some (wReg 0x15 d a b (loSel 1 c))
  | .vaddFp ty d a b k => some (wReg 0x18 d a b (loVf k ty 0))
  | .vsubFp ty d a b k => some (wReg 0x18 d a b (loVf k ty 1))
  | .vmulFp ty d a b k => some (wReg 0x18 d a b (loVf k ty 2))
  | .vfma ty d a b k => some (wReg 0x18 d a b (loVf k ty 3))
  | .vfms ty d a b k => some (wReg 0x18 d a b (loVf k ty 4))
  | .vdiv ty d a b k => some (wReg 0x18 d a b (loVf k ty 5))
  | .vsqrt ty d a k => some (wReg 0x18 d a 0 (loVf k ty 6))
  | .vminFp ty d a b k => some (wReg 0x18 d a b (loVf k ty 7))
  | .vmaxFp ty d a b k => some (wReg 0x18 d a b (loVf k ty 8))
  | .vabsFp ty d a k => some (wReg 0x18 d a 0 (loVf k ty 9))
  | .vnegFp ty d a k => some (wReg 0x18 d a 0 (loVf k ty 10))
  | .vrcp ty d a k => some (wReg 0x18 d a 0 (loVf k ty 11))
  | .vrsq ty d a k => some (wReg 0x18 d a 0 (loVf k ty 12))
  | .vaddInt es sg d a b k => some (wReg 0x19 d a b (loVi k es sg 0))
  | .vsubInt es sg d a b k => some (wReg 0x19 d a b (loVi k es sg 1))
  | .vadds es sg d a b k => some (wReg 0x19 d a b (loVi k es sg 2))
  | .vsubs es sg d a b k => some (wReg 0x19 d a b (loVi k es sg 3))
  | .vmulInt es sg d a b k => some (wReg 0x19 d a b (loVi k es sg 4))
  | .vmulh es sg d a b k => some (wReg 0x19 d a b (loVi k es sg 5))
  | .vminInt es sg d a b k => some (wReg 0x19 d a b (loVi k es sg 6))
  | .vmaxInt es sg d a b k => some (wReg 0x19 d a b (loVi k es sg 7))
  | .vand es sg d a b k => some (wReg 0x19 d a b (loVi k es sg 8))
  | .vor es sg d a b k => some (wReg 0x19 d a b (loVi k es sg 9))
  | .vxor es sg d a b k => some (wReg 0x19 d a b (loVi k es sg 10))
  | .vshl es sg d a b k => some (wReg 0x19 d a b (loVi k es sg 11))
  | .vshr es sg d a b k => some (wReg 0x19 d a b (loVi k es sg 12))
  | .vabsInt es d a k => some (wReg 0x19 d a 0 (loVi k es 1 13))
  | .vcmpEq ty d a b k => some (wReg 0x1A (r3 d) a b (loVc k ty 0))
  | .vcmpNe ty d a b k => some (wReg 0x1A (r3 d) a b (loVc k ty 1))
  | .vcmpLt ty d a b k => some (wReg 0x1A (r3 d) a b (loVc k ty 2))
  | .vcmpLe ty d a b k => some (wReg 0x1A (r3 d) a b (loVc k ty 3))
  | .vcmpUn ty d a b k => some (wReg 0x1A (r3 d) a b (loVc k ty 4))
  | .vcvt g f d a => some (wReg 0x1B d a 0 (loK 0 (g ++ f)))
  | .vlog2 d a k => some (wReg 0x1C d a 0 (loK k 0))
  | .vexp2 d a k => some (wReg 0x1C d a 0 (loK k 1))
  | .vrand d k => some (wReg 0x1C d 0 0 (loK k 2))
  | .vrandF32 d k => some (wReg 0x1C d 0 0 (loK k 3))
  | .vsum ty d a k => some (wReg 0x1D d a 0 (loVs k ty 0))
  | .vmaxi ty d a b k => some (wReg 0x1D d a b (loVs k ty 1))
  | .vmini ty d a b k => some (wReg 0x1D d a b (loVs k ty 2))
  | .vperm d a b k => some (wReg 0x1E d a b (loK k 0))
  | .vrot d a b k => some (wReg 0x1E d a b (loK k 1))
  | .vbcast32 d a k => some (wReg 0x1E d a 0 (loK k 2))
  | .vbcast64 d a k => some (wReg 0x1E d a 0 (loK k 3))
  | .vins32 d a n => some (wReg 0x1E d a n (loK 0 4))
  | .vext32 d a n => some (wReg 0x1E d a n (loK 0 5))
  | .vlane d k => some (wReg 0x1E d 0 0 (loK k 6))
  | .vsel32 d a b k => some (wReg 0x1E d a b (loK k 7))
  | .vmov32 d a k => some (wReg 0x1E d a 0 (loK k 8))
  | .vins64 d a n => some (wReg 0x1E d a (r4 n) (loK 0 9))
  | .vext64 d a n => some (wReg 0x1E d a (r4 n) (loK 0 10))
  | .vsel64 d a b k => some (wReg 0x1E d a b (loK k 11))
  | .vmov64 d a k => some (wReg 0x1E d a 0 (loK k 12))
  | .kand d a b => some (wReg 0x1F (r3 d) (r3 a) (r3 b) (loK 0 0))
  | .kor d a b => some (wReg 0x1F (r3 d) (r3 a) (r3 b) (loK 0 1))
  | .kxor d a b => some (wReg 0x1F (r3 d) (r3 a) (r3 b) (loK 0 2))
  | .kandn d a b => some (wReg 0x1F (r3 d) (r3 a) (r3 b) (loK 0 3))
  | .kset d a => some (wReg 0x1F (r3 d) a 0 (loK 0 4))
  | .kget d a => some (wReg 0x1F d (r3 a) 0 (loK 0 5))
  | .kpop d a => some (wReg 0x1F d (r3 a) 0 (loK 0 6))
  | .kffs d a => some (wReg 0x1F d (r3 a) 0 (loK 0 7))
  | .mma acc a b n c => some (wReg 0x20 a b n (loT acc c 0 0))
  | .mmaZ acc a b n c => some (wReg 0x20 a b n (loT acc c 1 0))
  | .mmaT acc a b n c => some (wReg 0x20 a b n (loT acc c 0 1))
  | .mmaTZ acc a b n c => some (wReg 0x20 a b n (loT acc c 1 1))
  | .accZero acc n c => some (wReg 0x21 0 0 n (loT acc c 0 0))
  | .accLd acc d c => some (wReg 0x21 d 0 0 (loT acc c 0 1))
  | .accSt d acc c => some (wReg 0x21 d 0 0 (loT acc c 0 2))
  | .accCvt f d acc c => some (wReg 0x21 d 0 0 (loT acc c f 3))
  | .sqQuant f d acc a b c => some (wReg 0x22 d a b (loT acc c f 0))
  | .sqDeq f acc d b c => some (wReg 0x22 d 0 b (loT acc c f 1))
  | .sqAlign d a b c => some (wReg 0x22 d a b (loT 0 c 0 2))
  | .sqScale d a b c => some (wReg 0x22 d a b (loT 0 c 0 3))
  | .bfmtSet n a => some (wReg 0x23 0 a (r4 n) (loK 0 0))
  | .bfmtGet d n => some (wReg 0x23 d 0 (r4 n) (loK 0 1))
  | .cp dl sl c d a b => some (wReg 0x28 d a b (loCp c 0 dl sl))
  | .cpZ dl c d b => some (wReg 0x28 d 0 b (loCp c 1 dl 0))
  | .cpPf c a b => some (wReg 0x28 0 a b (loCp c 2 0 0))
  | .cp2 dl sl c d a b => some (wReg 0x29 d a b (loCp c 0 dl sl))
  | .cpSq dl sl c d a b => some (wReg 0x2A d a b (loCp c 0 dl sl))
  | .cpSqt dl sl c d a b => some (wReg 0x2A d a b (loCp c 1 dl sl))
  | .cpFill c d a b => some (wReg 0x2A d a b (loCp c 2 0 0))
  | .cpWait c a => some (wReg 0x2B 0 a 0 (loCc c 0 0))
  | .cpWaitq d c a => some (wReg 0x2B d a 0 (loCc c 1 0))
  | .cpRdc d c sel => some (wReg 0x2B d 0 0 (loCc c 2 sel))
  | .amoAdd w aq rl sc d a b => some (wReg 0x2C d a b (loA 0 w aq rl sc))
  | .amoAnd w aq rl sc d a b => some (wReg 0x2C d a b (loA 1 w aq rl sc))
  | .amoOr w aq rl sc d a b => some (wReg 0x2C d a b (loA 2 w aq rl sc))
  | .amoXor w aq rl sc d a b => some (wReg 0x2C d a b (loA 3 w aq rl sc))
  | .amoSwap w aq rl sc d a b => some (wReg 0x2C d a b (loA 4 w aq rl sc))
  | .amoMin w aq rl sc d a b => some (wReg 0x2C d a b (loA 5 w aq rl sc))
  | .amoMax w aq rl sc d a b => some (wReg 0x2C d a b (loA 6 w aq rl sc))
  | .amoMinn w aq rl sc d a b => some (wReg 0x2C d a b (loA 7 w aq rl sc))
  | .amoMaxn w aq rl sc d a b => some (wReg 0x2C d a b (loA 8 w aq rl sc))
  | .amoCas w aq rl sc d a b => some (wReg 0x2C d a b (loA 9 w aq rl sc))
  | .amoFadd w aq rl sc d a b => some (wReg 0x2C d a b (loA 10 w aq rl sc))
  | .lamoAdd w aq rl sc d a b => some (wReg 0x2D d a b (loA 0 w aq rl sc))
  | .lamoAnd w aq rl sc d a b => some (wReg 0x2D d a b (loA 1 w aq rl sc))
  | .lamoOr w aq rl sc d a b => some (wReg 0x2D d a b (loA 2 w aq rl sc))
  | .lamoXor w aq rl sc d a b => some (wReg 0x2D d a b (loA 3 w aq rl sc))
  | .lamoSwap w aq rl sc d a b => some (wReg 0x2D d a b (loA 4 w aq rl sc))
  | .lamoMin w aq rl sc d a b => some (wReg 0x2D d a b (loA 5 w aq rl sc))
  | .lamoMax w aq rl sc d a b => some (wReg 0x2D d a b (loA 6 w aq rl sc))
  | .lamoMinn w aq rl sc d a b => some (wReg 0x2D d a b (loA 7 w aq rl sc))
  | .lamoMaxn w aq rl sc d a b => some (wReg 0x2D d a b (loA 8 w aq rl sc))
  | .lamoCas w aq rl sc d a b => some (wReg 0x2D d a b (loA 9 w aq rl sc))
  | .lamoFadd w aq rl sc d a b => some (wReg 0x2D d a b (loA 10 w aq rl sc))
  | .futRes d a b => some (wReg 0x2E d a b (loF 0 0))
  | .futReg d a b => some (wReg 0x2E d a b (loF 1 0))
  | .futOn a b c => some (wReg 0x2E 0 a b (loF 2 c))
  | .futRst d a => some (wReg 0x2E d a 0 (loF 3 0))
  | .barArr d a => some (wReg 0x2F d a 0 (loK 0 0))
  | .barWait d a b => some (wReg 0x2F d a b (loK 1 0))
  | .barPoll d a b => some (wReg 0x2F d a b (loK 2 0))
  | .barJoin a => some (wReg 0x2F 0 a 0 (loK 3 0))
  | .barLeave a => some (wReg 0x2F 0 a 0 (loK 4 0))
  | .barCfg a b => some (wReg 0x2F 0 a b (loK 5 0))
  | .fence sc p q => some (wReg 0x30 0 0 0 (loK sc (p ++ q)))
  | .qpush q a => some (wReg 0x31 0 a 0 (loQ q 0 0))
  | .qpushAt q a b => some (wReg 0x31 0 a b (loQ q 1 0))
  | .qmark q => some (wReg 0x31 0 0 0 (loQ q 2 0))
  | .qmarkF q => some (wReg 0x31 0 0 0 (loQ q 3 0))
  | .qpop d q => some (wReg 0x32 d 0 0 (loQ q 0 0))
  | .qpopm d q b => some (wReg 0x32 d 0 b (loQ q 1 0))
  | .qpeek d q => some (wReg 0x32 d 0 0 (loQ q 2 0))
  | .qstat d q sel => some (wReg 0x32 d 0 0 (loQ q 3 sel))
  | .amSend d a b => some (wReg 0x34 d a b (loK 0 0))
  | .amReply a b => some (wReg 0x34 0 a b (loK 1 0))
  | .amStat d sel => some (wReg 0x34 d 0 0 (loK 3 sel))
  | .shTag d a b => some (wReg 0x35 d a b (loK 0 0))
  | .shChk d a b => some (wReg 0x35 d a b (loK 1 0))
  | .shRed a b => some (wReg 0x35 0 a b (loK 2 0))
  | .shAck a b => some (wReg 0x35 0 a b (loK 3 0))
  | .shRel d a b => some (wReg 0x35 d a b (loK 4 0))
  | .trap n => some (wTrap 0x38 n (loK 0 0))
  | .brk n => some (wTrap 0x38 n (loK 0 4))
  | .srd d r => some (wImm 0x39 d 0 (sysImm 0 r))
  | .swr r a => some (wImm 0x39 0 a (sysImm 1 r))
  | .swrBfmt n a => some (wImm 0x39 0 a (sysImm 1 (0x10#8 ++ n)))
  | .swrLoopReg r a => some (wImm 0x39 0 a (sysImm 1 r))
  | .swrPhilox r a => some (wImm 0x39 0 a (sysImm 1 r))
  | .ifl a b n => some (wReg 0x3A n a b (loK 0 0))
  | .tlbinv a b => some (wReg 0x3A 0 a b (loK 1 0))
  | .tbrd d => some (wReg 0x3B d 0 0 (loK 0 0))
  | .tbrdSt d => some (wReg 0x3B d 0 0 (loK 0 1))
  | .waitt a => some (wReg 0x3B 0 a 0 (loK 0 2))
  | .hintBr lk => some (wImm 0x3E 1 0 (0#14 ++ lk))
  | .hintPf a off => some (wImm 0x3E 2 a off)
  | .hintPg a n => some (wImm 0x3E 3 a n)
  | .hintBank n => some (wImm 0x3E 4 0 (0#12 ++ n))
  | .ximm e => some (wJmp 0x3F e)
  | .flit _ _ => none
  | .notify _ => none
  | .bind _ => none
  | .unbind _ => none
  | .inject _ => none
  | .status _ => none
  | .summary _ => none
  | .reconfig _ _ => none
  | .exportRequest _ _ _ => none
  | .importRequest _ _ _ => none
  | .attestRequest _ _ => none
  | .packageReset _ => none
  | .unassignedEncoding _ => none
  | .commit => some (wReg 0x33 0 0 0 (loQ 0 0 0))
  | .abort => some (wReg 0x33 0 0 0 (loQ 0 1 0))
  | .yield => some (wReg 0x33 0 0 0 (loQ 0 2 0))
  | .amEnd => some (wReg 0x34 0 0 0 (loK 2 0))
  | .eret => some (wTrap 0x38 0 (loK 0 1))
  | .wfi => some (wTrap 0x38 0 (loK 0 2))
  | .halt => some (wTrap 0x38 0 (loK 0 3))
  | .info => some (wTrap 0x38 0x001 (loK 0 0))
  | .ctxPark => some (wTrap 0x38 0x010 (loK 0 0))
  | .ctxResume => some (wTrap 0x38 0x011 (loK 0 0))
  | .ctxKill => some (wTrap 0x38 0x012 (loK 0 0))
  | .quarantine => some (wTrap 0x38 0x013 (loK 0 0))
  | .regionSet => some (wTrap 0x38 0x015 (loK 0 0))
  | .keyLoad => some (wTrap 0x38 0x020 (loK 0 0))
  | .keyClear => some (wTrap 0x38 0x021 (loK 0 0))
  | .routeSet => some (wTrap 0x38 0x030 (loK 0 0))
  | .routeClear => some (wTrap 0x38 0x031 (loK 0 0))
  | .vqBind => some (wTrap 0x38 0x040 (loK 0 0))
  | .exportCall => some (wTrap 0x38 0x050 (loK 0 0))
  | .importCall => some (wTrap 0x38 0x051 (loK 0 0))
  | .attest => some (wTrap 0x38 0x060 (loK 0 0))
  | .hintNop => some (wImm 0x3E 0 0 0)
  | .mrqReplyArrival => none
  | .thresherStep => none
  | .thresherStop => none
  | .thresherCommandComplete => none
  | .tailFault => none
  | .wainCommandStart => none
  | .wainTransfer => none
  | .wainCommandComplete => none
  | .atomicAtHomeSlice => none
  | .globalAtomicReply => none
  | .asyncAtomicFault => none
  | .atomicReplay => none
  | .atomicGiveUp => none
  | .joinDecrement => none
  | .barrierTimeout => none
  | .shRedDeparture => none
  | .memoryWaitEnd => none
  | .engineWaitEnd => none
  | .queueWaitEnd => none
  | .timeWaitEnd => none
  | .faultRecordPlaced => none
  | .budgetExpiry => none
  | .remap => none
  | .rd => none
  | .wr => none
  | .wrm => none
  | .sqrd => none
  | .sqwr => none
  | .atomwb => none
  | .walk => none
  | .pdelta => none
  | .memoryEventForward => none
  | .scrub => none
  | .channelStateChange => none
  | .homeSliceRead => none
  | .homeSliceWrite => none
  | .baseDieReply => none
  | .pageEventOpen => none
  | .pageEventTimeout => none
  | .pageResume => none
  | .agentPushRetry => none
  | .switchArrival => none
  | .reductionEmit => none
  | .redtimeout => none
  | .messageArrival => none
  | .handlerStart => none
  | .acceptance => none
  | .refusal => none
  | .messageResend => none
  | .reject => none
  | .remoteStore => none
  | .remoteLoad => none
  | .loadReply => none
  | .remoteAtomic => none
  | .atomicReply => none
  | .sheafResend => none
  | .ackDelivery => none
  | .nak => none
  | .replayTimeout => none
  | .linkRetrain => none
  | .linkDown => none
  | .timeExchange => none
  | .syncTimeout => none
  | .itemArrival => none
  | .bindMarkerArrival => none
  | .nbtReached => none
  | .creditReturn => none
  | .schedulerBoundary => none
  | .fallowSteps => none
  | .virtqueueCompletion => none
  | .flr => none
  | .flrComplete => none
  | .deviceReset => none
  | .featuresOk => none
  | .ioDieFailover => none
  | .droop => none
  | .powerCap => none
  | .thermalLimit => none
  | .itemRefusal => none
  | .linkRetrainComplete => none
  | .droopRecovery => none
  | .parityAck => none
  | .driverOk => none
  | .atomicEntryExpiry => none

/-- A word that 02 R34 does not refuse, of a form with an extensible immediate, whose own rule refuses it: a shift count of 64 or more
(14 R301), a loop of no words (14 R308), a system register that does not exist (16 R368), a tag beyond the file (03 R85). An `ximm`
before it takes no blame (02 R40). -/
def refusedLate (w : IWord) : Bool :=
  let m := (fMaj w).toNat
  match decodeWord w with
  | .error .operand => m == 0x08 || m == 0x09 || m == 0x0A || m == 0x39 || (m == 0x14 && fBit25 w == 1)
  | .error .register =>
    m == 0x10 && ((sK (fLo w)).toNat == 1 || ((sK (fLo w)).toNat == 0 && (sBits (fLo w) 6 2 != 0 || fD w == 0)))
  | _ => false

/-- Which words have an extensible immediate (02 R39): the IMM, BR, JMP and MEM formats, `mrq.rd`, `mrq.wr` and `loopi`;
of the vector loads and stores the forms that 06 R144 lists. -/
def hasExtImm : Instr → Bool
  | .addi .. | .andi .. | .ori .. | .xori .. | .slti .. | .sltni .. | .shli .. | .shriN .. | .shriI .. | .addhi .. => true
  | .ldN .. | .ldI .. | .st .. | .stK .. | .vld .. | .vst .. | .vldCvtF32 .. | .vldCvtF64 .. => true
  | .mrqRd .. | .mrqWr .. | .beq .. | .bne .. | .blt .. | .bge .. | .bltn .. | .bgen .. => true
  | .jmp .. | .jmpr .. | .loopi .. | .srd .. | .swr .. | .swrBfmt .. | .swrLoopReg .. | .swrPhilox .. => true
  | .unassignedEncoding w => refusedLate w
  | _ => false

/-- A hint word (02 R46). -/
def isHint : Instr → Bool
  | .hintNop | .hintBr .. | .hintPf .. | .hintPg .. | .hintBank .. => true
  | _ => false

end Sys2Proof
end

