-- ==== Sys2Proof/Machine/State.lean ====
section
/-! DEFINITION. Sys2Proof/Machine/State.lean: everything the manual gives the machine, as plain data, and the machine right
after reset. State is one package: the tile whose turn it is, the other logical tiles, and what the package shares.
INVENTORY.md lists every piece with its rule and its reset value. -/
namespace Sys2Proof.Machine

/-- Sparse bytes in canonical form: addresses strictly rising, no byte listed that equals what an unlisted address reads as
(Machine/Mem.lean). -/
abbrev Memory := List Host.Cell

/-! ### Small parts -/

/-- The causes of traps (16 R349). -/
inductive Cause where
  | none | ill | priv | align | page | prot | bankfmt | qfault | futdbl | budget | uncorr | sheaf | brk | trap | mcall | killed
  deriving DecidableEq, Repr

/-- The four kinds of wait of 02 R44, where the stalled word is executed again when the wait ends. -/
inductive WaitKind where
  | memory | engine | queue
  deriving DecidableEq, Repr

/-- What a strand waits for. -/
inductive Wait where
  /-- A stall that ends when a condition on other agents holds: the word is executed again. -/
  | retry (k : WaitKind)
  /-- The reply of the strand's own atomic in a lane (13 R284). -/
  | reply (lane : BitVec 3)
  /-- A thresher command holds the strand (09 R198). -/
  | thresher
  /-- A page event (04 R99). -/
  | page
  /-- `waitt` (11 R266). -/
  | time (target : DW)
  /-- `wfi`, issued at a time (16 R367). -/
  | event (since : DW)
  /-- A monitor call that cannot end yet: its cycles are the monitor's (16 R360). -/
  | monitor
  deriving DecidableEq, Repr

/-- One hardware loop level (14 R308-R311). -/
structure LoopLevel where
  lc : BitVec 32
  ls : DW
  le : DW
  active : Bool
  pendLc : Option (BitVec 32)
  pendLs : Option DW
  pendLe : Option DW
  deriving DecidableEq, Repr

/-- A cause that is raised at the strand's next issue boundary (16 R352 step 1). -/
structure AsyncFault where
  cause : Cause
  epc : DW
  fval : DW
  addr : DW
  info : BitVec 32
  step : Option (BitVec 16)
  localSrc : Bool
  deriving DecidableEq, Repr

/-- One strand of the control core. -/
structure Strand where
  regs : Vector DW 32
  pc : DW
  /-- Address of the first word of the issue unit in progress (02 R38). -/
  unit : DW
  /-- A hint already issued for the unit in progress. -/
  hint : Option Instr
  /-- ext of an `ximm` already issued for the unit in progress. -/
  ximm : Option (BitVec 26)
  /-- SR_STATUS.LVL, ACT; the context whose translation and registers the strand uses (02 R51). -/
  lvl : BitVec 2
  act : Bool
  ctx : BitVec 2
  cause : BitVec 5
  epc : DW
  fval : DW
  mstep : BitVec 16
  mstepValid : Bool
  loop0 : LoopLevel
  loop1 : LoopLevel
  /-- The level a monitor call came from (16 R366). -/
  callerLvl : Option (BitVec 2)
  wait : Option Wait
  /-- A value sampled at the first issue of a stalled word (05 R127). -/
  sample : Option DW
  /-- Cycles the watchdog has counted in this run (16 R360). -/
  cycles : Nat
  /-- The watchdog has raised BUDGET for the next issue boundary (16 R360). -/
  budgetDue : Bool
  asyncFaults : List AsyncFault
  deriving DecidableEq, Repr

/-- State of a request tag (03 R85, R86). -/
inductive TagPhase where
  | idle | busy | done
  deriving DecidableEq, Repr

/-- A reply status (03 R79). -/
inductive Status where
  | ok | poison | keyErr | ownErr | rebuiltOk
  deriving DecidableEq, Repr

/-- A request tag. -/
structure Tag where
  phase : TagPhase
  status : Status
  data : DW
  dest : Option Nat
  deriving DecidableEq, Repr

/-- The activation or handler that issued an engine command (05 R114). -/
structure RunRef where
  strand : StrandId
  run : Nat
  deriving DecidableEq, Repr

/-- ERR of a counter (05 R125), with the full number and the owner of the failed command. -/
structure ErrRec where
  valid : Bool
  cause : BitVec 5
  detail : BitVec 4
  unit : BitVec 16
  num : Nat
  owner : RunRef
  /-- A scratchpad word that the tile consumed was uncorrectable: the local-source flag of the trap record (16 R350). -/
  localSrc : Bool
  deriving DecidableEq, Repr

/-- A timeline counter (05 R125). -/
structure Counter where
  issue : Nat
  done : Nat
  /-- Numbers above `done` that have completed. -/
  ahead : List Nat
  err : ErrRec
  deriving DecidableEq, Repr

/-- The translation a request runs under: a context's root, its level and its address space (04 R92). -/
structure XCtx where
  ctx : BitVec 2
  strand : StrandId
  rootPa : Nat
  rootKey : BitVec 13
  asid : BitVec 16
  lvl : BitVec 2
  deriving DecidableEq, Repr

/-- The spaces of the interval table (05 R128). -/
inductive Space where
  | loc | virt (asid : BitVec 16) | phys
  deriving DecidableEq, Repr

/-- A byte interval `[lo, hi)` of a space (05 R128). -/
structure Range where
  space : Space
  lo : Nat
  hi : Nat
  deriving DecidableEq, Repr

/-- What a copy moves (05 R113). -/
inductive CopyForm where
  | plain | convert | zero | prefetch | square (transposed : Bool) | fill
  deriving DecidableEq, Repr

/-- How far a square record whose ends are global has come (05 R121). -/
inductive PieceStage where
  /-- The SQRD is on its way. -/
  | reading
  /-- The SQWR is on its way. -/
  | writing
  /-- The piece waits on a page event (04 R99). -/
  | paged
  /-- A fill unit has failed; its 64 KiB are still to become undefined (04 R106). -/
  | failed
  /-- The line pieces of a record below this offset are over (05 R121). -/
  | lines (next : Nat)
  deriving DecidableEq, Repr

/-- A wain command in flight (05 R112-R130). -/
structure WainCmd where
  form : CopyForm
  dl : Bool
  sl : Bool
  dst : DW
  src : DW
  rows : Nat
  rowLen : Nat
  dStride : Int
  sStride : Int
  cnt : Nat
  fmtSrc : BitVec 4
  fmtDst : BitVec 4
  /-- Record format, once known (05 R120). -/
  fmt : Option (BitVec 4)
  key : BitVec 13
  ctr : CReg
  num : Nat
  owner : RunRef
  xc : XCtx
  order : Nat
  reads : List Range
  writes : List Range
  started : Bool
  /-- All pieces; the first `moves` move data, the others leave undefined bytes where the source meets the destination (05 R115). -/
  pieces : Nat
  moves : Nat
  done : List Nat
  /-- Pieces that are over without having written their destination (05 R115). -/
  unwritten : List Nat
  stages : List (Nat × PieceStage)
  flags : BitVec 11
  deriving DecidableEq, Repr

/-- The thresher operations (09 R207, R212, R214). -/
inductive ThrOp where
  | mma (transposed : Bool) | accZero | accLd | accSt | accCvt | quant | deq | align | scale
  deriving DecidableEq, Repr

/-- A thresher command in flight (09 R197-R204). -/
structure ThrCmd where
  op : ThrOp
  z : Bool
  f64 : Bool
  addrA : DW
  addrB : DW
  addrD : DW
  ctl : DW
  acc : Nat
  steps : Nat
  next : Nat
  ctr : CReg
  num : Nat
  owner : RunRef
  ctx : BitVec 2
  unit : DW
  word : DW
  order : Nat
  c0 : Option (BitVec 128)
  sto : Bool
  rm : BitVec 2
  /-- Common exponent of `sq.align`, once its headers are read (09 R217). -/
  el : Option Nat
  /-- A mismatch found in the tail, and the address of its block (09 R201, 16 R354). -/
  fault : Option (Cause × DW)
  flags : BitVec 11
  deriving DecidableEq, Repr

/-- A trigger entry (13 R292). -/
structure Trigger where
  ctr : CReg
  n : Nat
  pa : Nat
  key : BitVec 13
  deriving DecidableEq, Repr

/-- A cached leaf translation (04 R96). -/
structure TlbEntry where
  paddock : BitVec 5
  asid : BitVec 16
  page : Nat
  lvl : Nat
  pte : BitVec 64
  deriving DecidableEq, Repr

/-- Context states (15 R334). -/
inductive CtxState where
  | unbound | binding | idle | running | final | parked
  deriving DecidableEq, Repr

/-- A registration of a context on a barrier object, and whether its absence token is out (13 R296). -/
structure BarReg where
  obj : Nat
  token : Bool
  deriving DecidableEq, Repr

/-- A program context of a tile (15 R317, R334; 02 R50). -/
structure Ctx where
  state : CtxState
  entry : DW
  fallow : Option DW
  mode : InMode
  prio : Nat
  boost : Nat
  waitB : Nat
  /-- When it was last started, in starts of the tile; none since bind (15 R335). -/
  lastStart : Option Nat
  lvl : BitVec 2
  accMask : BitVec 16
  rootPa : Nat
  rootKey : BitVec 13
  asid : BitVec 16
  budget : BitVec 32
  cbase : DW
  clim : DW
  flags : BitVec 11
  /-- Flags of instructions whose latency is not over, with the cycles left of it (08 R180). -/
  due : List (Nat × BitVec 11)
  rm : BitVec 2
  sto : Bool
  carry : Vector DW 8
  cround : BitVec 16
  /-- The number of the bind that made the context (16 R363). -/
  image : Nat
  /-- Consecutive ending traps on the same first item, and that item's ID (16 R354). -/
  runs : Nat
  runsId : BitVec 32
  /-- Input endpoints whose bind marker has arrived (15 R341). -/
  bindSeen : List Nat
  barriers : List BarReg
  /-- The barrier objects at which the context has arrived since its bind, and the phase of its last arrival at each (13 R296). -/
  arrivals : List (Nat × BitVec 32)
  parkPending : Bool
  killPending : Bool
  /-- Outputs on which the fallow steps have still to emit a marker (15 R338). -/
  fallowOut : Option (List Nat)
  /-- Endpoints, and how many items of each the last activation that a trap ended held (16 R358). -/
  lastHeld : List (Nat × Nat)
  deriving DecidableEq, Repr

/-- Role of a queue endpoint (15 R318). -/
inductive EpRole where
  | unbound | input | output
  deriving DecidableEq, Repr

/-- An item or marker in a ring, with its metadata (15 R321). -/
structure RingItem where
  kind : BitVec 2
  round : BitVec 16
  nbt : DW
  id : BitVec 32
  slot : Nat
  held : Bool
  agent : Bool
  deriving DecidableEq, Repr

/-- A queue endpoint of a tile (15 R318-R326, R346). -/
structure Endpoint where
  role : EpRole
  ctx : BitVec 2
  qcb : Nat
  ringAddr : Nat
  ring : List RingItem
  /-- Items popped and consumed, and items placed, since bind (17 R386). -/
  head : Nat
  tail : Nat
  credits : Nat
  oround : BitVec 16
  /-- Items that an activation of the context pops or releases, as its image declares (15 R342). -/
  rate : Nat
  closed : Bool
  /-- A discard after the last unbind has been reported (15 R323). -/
  discardTold : Bool
  deriving DecidableEq, Repr

/-- One entry of an activation's commit buffer (06 R142). -/
structure Staged where
  addr : Nat
  size : Nat
  data : DW
  deriving DecidableEq, Repr

/-- A 64-byte message (11 R244). -/
structure Msg where
  entry : Nat
  kind : BitVec 2
  len : Nat
  lane : BitVec 3
  paddock : BitVec 5
  l1 : Bool
  redel : Nat
  id : BitVec 32
  source : BitVec 22
  dest : BitVec 22
  payload : Vector DW 6
  deriving DecidableEq, Repr

/-- A buffered output of an activation (15 R329). -/
inductive Output where
  | push (q : QReg) (kind : BitVec 2) (round : BitVec 16) (nbt : DW) (addr : Nat) (payload : List Byte)
  | msg (m : Msg)
  | red (addr : Nat) (auto : Bool)
  | ack (ident : BitVec 48) (route : BitVec 16) (gen : BitVec 8)
  deriving DecidableEq, Repr

/-- The running activation (15 R328-R331). -/
structure Activation where
  run : Nat
  final : Bool
  /-- Endpoints popped at start, and the ID of the `s1` item. -/
  popped : BitVec 16
  firstId : BitVec 32
  staged : List Staged
  outputs : List Output
  recFlags : BitVec 11
  recCtrl : DW
  recCtrh : DW
  recCarry : Vector DW 8
  recOround : List (Nat × BitVec 16)
  recCround : BitVec 16
  deriving DecidableEq, Repr

/-- The running handler; its message is the mailbox's first slot (11 R247-R250). -/
structure HandlerRun where
  run : Nat
  msgs : List Msg
  replied : Bool
  /-- `am.end` has released the messages and waits in its fence (11 R258 step 4). -/
  ending : Bool
  deriving DecidableEq, Repr

/-- A handler-table entry that is valid (11 R246). -/
structure HandlerEntry where
  idx : Nat
  /-- The number of the bind that made the entry (16 R363). -/
  image : Nat
  ctx : BitVec 2
  pc : DW
  deriving DecidableEq, Repr

/-- Where a message of the send queue stands (11 R251). -/
inductive SendPhase where
  | waiting | sent | backoff
  deriving DecidableEq, Repr

/-- An entry of the send queue. -/
structure SendEntry where
  msg : Msg
  /-- The strand that released it; none for a built-in reply (11 R253). -/
  strand : Option StrandId
  /-- Its place among the messages and acks that the tile has released (11 R254, 12 R278). -/
  rel : Nat
  phase : SendPhase
  refusals : Nat
  /-- Cycles left until it may be sent again (11 R251). -/
  backoff : Nat
  deriving DecidableEq, Repr

/-- State of a retention entry (10 R234). -/
inductive RetState where
  | sent | acked | failed
  deriving DecidableEq, Repr

/-- A retention entry (10 R234). -/
structure Retention where
  chunk : BitVec 24
  tensor : BitVec 24
  gen : BitVec 8
  addr : Nat
  auto : Bool
  st : RetState
  deriving DecidableEq, Repr

/-- A sheaf send that commit released and that has not left yet (10 R240). -/
structure ShSend where
  addr : Nat
  auto : Bool
  /-- Send again for the gleaner: the retention entry exists (10 R236). -/
  resend : Bool
  deriving DecidableEq, Repr

/-- What a strand still sees of a scratchpad doubleword that the other strand has stored to since (12 R276): its own bytes there, and
those that a fence of the storing strand has made ready for this one. -/
structure EarlyWord where
  strand : StrandId
  word : Nat
  view : List Byte
  ready : Option (List Byte)
  deriving DecidableEq, Repr

/-- A bound image on a tile (15 R319, 16 R363): its claimed range, the place of its `spad` section, and its `.resources` totals (02
R60). -/
structure BoundImage where
  id : Nat
  spadOrg : Nat
  spadBytes : Nat
  spadAt : Nat × Nat
  ctxTotal : Nat
  epTotal : Nat
  handlerTotal : Nat
  ctxs : List (BitVec 2)
  accMask : BitVec 16
  region : Option Nat
  banks : List (BitVec 4 × BitVec 5)
  vf : Nat
  deriving DecidableEq, Repr

/-- A logical tile. -/
structure Tile where
  ltn : Nat
  main : Strand
  handler : Strand
  v : Vector VWord 32
  k : Vector (BitVec 32) 8
  acc : Memory
  spad : Memory
  /-- Doublewords of which a strand's loads see earlier bytes (12 R276). -/
  early : List EarlyWord
  /-- 64-bit words with an uncorrectable error (16 R350): scratchpad, accumulator store. -/
  spadBad : List Nat
  accBad : List Nat
  bfmt : Vector (BitVec 5) 16
  phKey : DW
  phCtrl : DW
  phCtrh : DW
  feat : BitVec 9
  paddock : BitVec 5
  tags : Vector Tag 8
  ctrs : Vector Counter 4
  wain : List WainCmd
  thresher : List ThrCmd
  /-- The command stopped on a page event; its counter number and C0 are the stop record (09 R202). -/
  stop : Option ThrCmd
  /-- Next place in the interval table's issue order (05 R128). -/
  orderNo : Nat
  triggers : List Trigger
  tlb : List TlbEntry
  /-- Instruction cache: words by physical address (14 R314). -/
  icache : List (Nat × IWord)
  /-- Cached words with an uncorrectable error (16 R350). -/
  codeBad : List Nat
  regions0 : Vector DW 16
  regions1 : Vector DW 16
  ctxs : Vector Ctx 4
  eps : Vector Endpoint 16
  act : Option Activation
  handlerRun : Option HandlerRun
  /-- Traps of handlers of the message at the head of the mailbox whose cause is local (16 R356). -/
  handlerLocal : Nat
  mailbox : List Msg
  handlers : List HandlerEntry
  msgSeq : BitVec 32
  /-- Messages and acks released (11 R254, 12 R278). -/
  relNo : Nat
  sendQ : List SendEntry
  refusals : Nat
  shSends : List ShSend
  retention : List Retention
  /-- Sheaf records delivered whole to the tile's network interface (10 R226, R228). -/
  delivered : List (List Byte)
  amoSeq : Vector (BitVec 32) 8
  images : List BoundImage
  lastIssued : StrandId
  halted : Bool
  /-- Activations started, for the tie rule (15 R335). -/
  starts : Nat
  runs : Nat
  remapAsked : Bool
  /-- The remap has begun; contexts that a local corruption or the remap itself has parked (16 R356, R357). -/
  remapping : Bool
  remapCtxs : List (BitVec 2)
  deriving DecidableEq, Repr

/-! ### The package -/

/-- The kinds of request packet (03 R79). -/
inductive ReqKind where
  | rd | wr | wrm | sqrd | sqwr | atomwb | walk | pdelta
  deriving DecidableEq, Repr

/-- Who a reply goes to. -/
inductive Handle where
  | tag (t : TReg)
  | wainRead (ctr : CReg) (num piece : Nat)
  | wainWrite (ctr : CReg) (num piece : Nat)
  /-- A write that waits for this delta's acknowledgement, by its serial number. -/
  | delta (serial : Nat)
  /-- A walk of a die's walkers, by its serial number (04 R95). -/
  | walker (serial : Nat)
  | none
  deriving DecidableEq, Repr

/-- Where a request is on its path (03 R78-R80). -/
inductive ReqPhase where
  | toSlice | toBase | parity | fromBase | toTile
  deriving DecidableEq, Repr

/-- A request packet and its reply (03 R79). -/
structure MemReq where
  serial : Nat
  kind : ReqKind
  handle : Handle
  /-- The strand whose request it is; engines' and walkers' requests are no strand's. -/
  strand : StrandId
  source : Nat
  paddock : BitVec 5
  l2 : Bool
  pa : Nat
  key : BitVec 13
  len : Nat
  bmask : BitVec 64
  data : List Byte
  phase : ReqPhase
  status : Status
  version : BitVec 16
  /-- A home slice has refused the SQWR, whose sheaf was BAD (10 R226). -/
  refused : Bool
  deriving DecidableEq, Repr

/-- A line of a home granary slice (05 R108). -/
structure GranLine where
  pa : Nat
  key : BitVec 13
  data : List Byte
  deriving DecidableEq, Repr

/-- What an XTS key slot holds (03 R75). -/
inductive KeyMaterial where
  | monitor | loaded (bytes : List Byte)
  deriving DecidableEq, Repr

/-- A key slot that has been written, and its contents (03 R75). -/
structure KeySlot where
  id : BitVec 13
  contents : Option KeyMaterial
  deriving DecidableEq, Repr

/-- A channel of a stack whose state or rebuild count differs from reset (03 R69, R70). -/
structure Channel where
  stack : Nat
  ch : Nat
  state : ChanState
  rebuilds : List Nat
  deriving DecidableEq, Repr

/-- A memory-event record on its way to the monitor (03 R74). -/
structure MemEvent where
  kind : BitVec 8
  stack : Nat
  ch : Nat
  stripe : Nat
  offset : Nat
  source : Nat
  scrub : Bool
  count : Nat
  time : Nat
  deriving DecidableEq, Repr

/-- What an atomic request does at the home slice (13 R282, R290). -/
inductive AtomOp where
  | amo (op : Nat) (wide : Bool)
  | futRes (value : BitVec 32) (fail : Bool)
  | futReg (join : Nat)
  | futRst
  deriving DecidableEq, Repr

/-- A global atomic or future request (12 R281, 13 R284). -/
structure AtomicReq where
  /-- Its place in issue order among all requests. -/
  serial : Nat
  tile : Nat
  strand : StrandId
  run : Nat
  ctx : BitVec 2
  op : AtomOp
  lane : BitVec 3
  seq : BitVec 32
  /-- The virtual address, which a fault's record names (16 R354). -/
  va : DW
  pa : Nat
  key : BitVec 13
  x : DW
  c : DW
  d : SReg
  hold : Bool
  /-- Its reply orders what the strand issues after it, beyond the strand itself (12 R274). -/
  aq : Bool
  /-- The firing of a trigger (13 R292). -/
  trigger : Bool
  unit : DW
  word : DW
  paddock : BitVec 5
  /-- Issued at L2, which the owner check lets pass (03 R65, R79). -/
  l2 : Bool
  sentAt : Nat
  lastSent : Nat
  /-- It has reached its home slice at least once. -/
  atSlice : Bool
  reply : Option (DW × Status × Cause)
  deriving DecidableEq, Repr

/-- An identifier-table entry of a home slice (12 R281). -/
structure IdEntry where
  slice : Nat
  source : BitVec 23
  lane : BitVec 3
  seq : BitVec 32
  old : DW
  cause : Cause
  lastUse : Nat
  deriving DecidableEq, Repr

/-- A decrement on its way to a join (13 R289). -/
structure JoinDec where
  slice : Nat
  lane : BitVec 3
  seq : BitVec 32
  pa : Nat
  key : BitVec 13
  paddock : BitVec 5
  fail : Bool
  deriving DecidableEq, Repr

/-- Who waits on a translation (04 R99). -/
inductive Agent where
  | fetch (st : StrandId) | mrq (st : StrandId) | atomic (st : StrandId) | wain (ctr : CReg) (num piece : Nat)
  | joined (st : StrandId)
  /-- An access of a strand's monitor call. -/
  | call (st : StrandId)
  /-- A `hint.pf`, which waits for nothing (02 R46). -/
  | prefetch
  /-- The queue unit at a slot in global memory, which tries again by itself (15 R322). -/
  | slot
  deriving DecidableEq, Repr

/-- An agent that waits on a non-resident entry (04 R99). -/
structure PageWait where
  tile : Nat
  agent : Agent
  access : Nat
  lvl : Nat
  va : DW
  ptePa : Nat
  pte : DW
  asid : BitVec 16
  ctx : BitVec 2
  onHandler : Bool
  paddock : BitVec 5
  /-- The open event it has joined (04 R100). -/
  event : Option (BitVec 16)
  deriving DecidableEq, Repr

/-- A requester of a walk: what it translates, for which access (04 R97). -/
structure WalkAsker where
  tile : Nat
  agent : Agent
  access : Nat
  xc : XCtx
  va : DW
  deriving DecidableEq, Repr

/-- A walk of a die's walkers: the level it is at, its table, and the requesters merged into it (04 R95, R97). -/
structure Walk where
  serial : Nat
  die : Nat
  paddock : BitVec 5
  /-- The 64 KiB page of the address that missed. -/
  page : Nat
  /-- The requester that came first: its translation is walked. -/
  first : WalkAsker
  lvl : Nat
  table : Nat
  key : BitVec 13
  /-- The walk waits for a walker (04 R97). -/
  queued : Bool
  askers : List WalkAsker
  deriving DecidableEq, Repr

/-- An open page event of a die (04 R100). -/
structure PageEvent where
  die : Nat
  id : BitVec 16
  paddock : BitVec 5
  ptePa : Nat
  postedAt : Nat
  deriving DecidableEq, Repr

/-- A barrier object (13 R293). -/
structure Barrier where
  obj : Nat
  members : BitVec 11
  timeout : BitVec 24
  arrived : BitVec 11
  absent : BitVec 11
  broken : Bool
  gen : BitVec 32
  cfgGen : BitVec 32
  /-- Nanoseconds left of a running timer, and the time at which it last ran. -/
  timer : Option Nat
  since : Nat
  deriving DecidableEq, Repr

/-- What a barrier request asks of its object (13 R294). -/
inductive BarOp where
  | arr | wait (gen : BitVec 32) | poll (gen : BitVec 32) | cfg (members : BitVec 11) (timeout : BitVec 24)
  deriving DecidableEq, Repr

/-- Where a barrier request stands (13 R294, R295, R297). -/
inductive BarPhase where
  /-- In its die's request queue. -/
  | queued
  /-- Applied: a wait that is pending at its object. -/
  | pending
  /-- Its reply is there: a number, or none for QFAULT. -/
  | done (r : Option Nat)
  deriving DecidableEq, Repr

/-- A barrier request of a strand (13 R294, R297). -/
structure BarReq where
  tile : Nat
  strand : StrandId
  /-- The run that waits for the reply, and its context. -/
  run : Nat
  ctx : BitVec 2
  paddock : BitVec 5
  obj : Nat
  op : BarOp
  /-- Its identifier, with the tile and the object (12 R281, 13 R294). -/
  seq : BitVec 32
  sentAt : Nat
  /-- The network interface has sent it again. -/
  copy : Bool
  phase : BarPhase
  deriving DecidableEq, Repr

/-- The last request of a tile that an object has applied (12 R281, 13 R294), and the number of requests the tile has made of it. -/
structure BarId where
  tile : Nat
  obj : Nat
  sent : BitVec 32
  applied : Option (BitVec 32)
  deriving DecidableEq, Repr

/-- An `ifl` under way: the bytes it names and the strands that have still to pass their invalidation point (14 R314). -/
structure Ifl where
  tile : Nat
  strand : StrandId
  /-- The run that waits. -/
  run : Nat
  /-- Physical ranges; none names every line. -/
  ranges : Option (List (Nat × Nat))
  targets : List (Nat × StrandId)
  deriving DecidableEq, Repr

/-- The cached privileged fields of a queue control block (15 R318, R320). -/
structure Qcb where
  fmt : BitVec 4
  logCap : Nat
  isize : Nat
  qprio : Nat
  paddock : BitVec 5
  gring : Bool
  agent : Nat
  ringAddr : DW
  window : Nat
  nprod : Nat
  members : List (Nat × Nat)
  deriving DecidableEq, Repr

/-- A bound queue (15 R318). -/
structure Queue where
  pa : Nat
  key : BitVec 13
  qcb : Qcb
  producers : List (Nat × Nat)
  /-- Seed items declared for it (15 R342). -/
  seeds : Nat
  frozen : Bool
  bindGen : BitVec 32
  released : Nat
  etime : DW
  deriving DecidableEq, Repr

/-- Where an item or marker comes from (15 R323, R324). -/
inductive ItemSource where
  | producer (tile ep : Nat)
  /-- A join, by its physical address (13 R289). -/
  | join (pa : Nat)
  | walker | hintPg | record | bindMarker | virtqueue (vf dev vq : Nat) | inject | quarantine
  deriving DecidableEq, Repr

/-- An item on its way to one member (15 R322). -/
structure ItemFlight where
  qcb : Nat
  tile : Nat
  ep : Nat
  src : ItemSource
  kind : BitVec 2
  round : BitVec 16
  nbt : DW
  id : BitVec 32
  payload : List Byte
  refusals : Nat
  refused : Bool
  /-- A square item that is still on its way through the switches, and its record as it has arrived (10 R225, R228). -/
  travel : Bool
  arrived : Option (List Byte)
  deriving DecidableEq, Repr

/-- A credit that is out: how many members have not consumed the item yet (15 R323). -/
structure CreditOut where
  qcb : Nat
  tile : Nat
  ep : Nat
  id : BitVec 32
  left : Nat
  deriving DecidableEq, Repr

/-- The three queues a record can go to (16 R354, 04 R101, 10 R233). -/
inductive RecordQueue where
  | fault | pager | gleaner
  deriving DecidableEq, Repr

/-- A 64-byte record that waits at its source (16 R354, R355). -/
structure RecordWait where
  paddock : BitVec 5
  queue : RecordQueue
  bytes : List Byte
  /-- The context a trap record holds PARKED. -/
  holds : Option (Nat × BitVec 2)
  deriving DecidableEq, Repr

/-- Where a message stands between sender and receiver (11 R245, R251). -/
inductive MsgPhase where
  | toDest | accepted | refused | rejected (reason : BitVec 8)
  deriving DecidableEq, Repr

/-- A message on its way. -/
structure MsgFlight where
  msg : Msg
  /-- Its place among what its source tile has released (12 R278). -/
  rel : Nat
  phase : MsgPhase
  deriving DecidableEq, Repr

/-- A valid route-table entry of a switch (10 R229). -/
structure RouteEntry where
  switch : Nat
  idx : Nat
  route : BitVec 16
  paddock : BitVec 5
  inMask : BitVec 6
  outMask : BitVec 6
  red : Bool
  deriving DecidableEq, Repr

/-- What a packet of the network carries: a sheaf record of 64 + n bytes, an ack, or the record of a square queue item with its
queue, its number and its source (10 R228, R241). -/
inductive PacketBody where
  | sheaf (record : List Byte) | ack (m : Msg) (rel : Nat) | item (qcb : Nat) (id : BitVec 32) (src : ItemSource) (record : List Byte)
  deriving DecidableEq, Repr

/-- A packet at a switch input (10 R230). -/
structure Packet where
  switch : Nat
  port : Nat
  route : BitVec 16
  paddock : BitVec 5
  dest : Nat
  /-- The global tile ids of the tiles that sent it; a sum that a switch forms has those of its inputs. -/
  sources : List Nat
  body : PacketBody
  deriving DecidableEq, Repr

/-- A sheaf or an ack that has left for another package and that its destination there has not accepted (12 R270): the tiles that sent
it; for an ack its place among what its tile has released, and its lane. -/
structure FarSheaf where
  paddock : BitVec 5
  sources : List Nat
  ack : Option (Nat × BitVec 3)
  deriving DecidableEq, Repr

/-- An open reduction slot of a switch (10 R231). -/
structure RedSlot where
  switch : Nat
  route : BitVec 16
  paddock : BitVec 5
  chunk : BitVec 24
  tensor : BitVec 24
  gen : BitVec 8
  inputs : List (Nat × Packet)
  openedAt : Nat
  deriving DecidableEq, Repr

/-- State of a Kyxus link (11 R261-R263). -/
inductive LinkState where
  | up | training | down
  deriving DecidableEq, Repr

/-- A weighted round-robin arbiter: the paddock whose turn it is, and the grants it has had in this round (17 R375). -/
structure Arbiter where
  turn : Nat
  used : Nat
  deriving DecidableEq, Repr

/-- One flit's worth of beats that waits in a paddock's send queue of a link; beats of no paddock are time and control (17 R374; 11
R261). -/
structure LinkBeats where
  paddock : Option (BitVec 5)
  vc : BitVec 2
  body : List Byte
  deriving DecidableEq, Repr

/-- A flit that has been sent, and the paddock whose beats it carries. -/
structure SentFlit where
  paddock : Option (BitVec 5)
  flit : Flit
  deriving DecidableEq, Repr

/-- A Kyxus link. -/
structure Link where
  state : LinkState
  expected : BitVec 12
  nextSeq : BitVec 12
  /-- Sent flits that the far end has not acknowledged, oldest first. -/
  retained : List SentFlit
  /-- Replays since the far end last acknowledged a flit, and nanoseconds since then. -/
  replays : Nat
  sinceAck : Nat
  /-- Nanoseconds since the last exchange of times with the neighbour there (11 R265). -/
  sinceExchange : Nat
  /-- The links that took over when this one went down (11 R263). -/
  reroute : BitVec 16
  /-- Bodies accepted in order, with their virtual channel. -/
  received : List (BitVec 2 × List Byte)
  /-- The send queues of the paddocks, in one list, and the arbiter of the transmitter (17 R374, R375). -/
  sendQ : List LinkBeats
  arb : Arbiter
  deriving DecidableEq, Repr

/-- What the driver has set up for a virtqueue in its device's common structure: size, enable, vector, areas (17 R378, R386). -/
structure VqConf where
  size : BitVec 16
  enabled : Bool
  vector : BitVec 16
  desc : DW
  driver : DW
  device : DW
  deriving DecidableEq, Repr

/-- A descriptor chain given to the program: its id, its descriptors, the writable bytes offered, its buffer and the buffer's size (17
R380). -/
structure Chain where
  id : BitVec 16
  descs : Nat
  writable : Nat
  buf : DW
  bytes : Nat
  deriving DecidableEq, Repr

/-- A copy into the pool that is under way: its place there, and the bytes copied (17 R375). -/
structure VqMove where
  off : Nat
  done : Nat
  deriving DecidableEq, Repr

/-- A virtqueue that VQ_BIND has bound (17 R380). -/
structure Virtqueue where
  id : VqId
  itemQ : Nat
  compQ : Nat
  pool : DW
  poolBytes : Nat
  /-- The caller of VQ_BIND: its tile and the translation of the pool's addresses. -/
  tile : Nat
  xc : XCtx
  /-- Notifies accepted whose items have not been pushed. -/
  pending : List NotifyReq
  /-- The copy of the oldest notify's bytes, once it has begun; bytes of the oldest completion copied to the host. -/
  moving : Option VqMove
  back : Nat
  /-- An import has set its NOTIFY bit: the IO die looks at the ring (17 R387). -/
  notified : Bool
  /-- Chains given to the program. -/
  outstanding : List Chain
  /-- Places in the available and the used ring, and their wrap counters (17 R386). -/
  lastAvail : Nat
  used : Nat
  availWrap : Bool
  usedWrap : Bool
  deriving DecidableEq, Repr

/-- One virtio device of a VF, with what its driver has written into its common structure (17 R378). -/
structure Device where
  vf : Nat
  dev : Nat
  status : BitVec 8
  /-- The features negotiated at FEATURES_OK, and those the driver has written so far. -/
  features : BitVec 64
  driverFeatures : BitVec 64
  /-- Which half of the features each of the two windows shows, the vector of configuration changes, the virtqueue that is selected. -/
  featSel : BitVec 32
  driverSel : BitVec 32
  cfgVector : BitVec 16
  queueSel : BitVec 16
  /-- The virtqueues that the driver has set up. -/
  confs : List (Nat × VqConf)
  epoch : BitVec 32
  /-- Between the reset point and the end of a function-level reset (17 R384). -/
  resetting : Bool
  deriving DecidableEq, Repr

/-- An open vsock connection between a guest's port and a port of the paddock (17 R379). -/
structure VsockConn where
  vf : Nat
  guest : BitVec 32
  port : BitVec 32
  seqpacket : Bool
  deriving DecidableEq, Repr

/-- The bitmaps of a VF that is being migrated (17 R387). -/
structure VfBitmaps where
  vf : Nat
  dirty : List Nat
  notify : List (Nat × Nat)
  deriving DecidableEq, Repr

/-- What the machine sends out to a host or a link's far end. -/
inductive HostOut where
  | reply (cid port : Nat) (conn : BitVec 32) (bytes : List Byte)
  | buffer (vq : VqId) (chain : BitVec 16) (offset : Nat) (bytes : List Byte)
  | used (vq : VqId) (chain : BitVec 16) (len : Nat)
  | interrupt (vq : VqId)
  | connectionsReset (vf : Nat) (dev : Option Nat)
  | nak (link : Nat) (seq : BitVec 12)
  | flit (link : Nat) (f : Flit)
  | pfReport (what : Nat)
  deriving DecidableEq, Repr

/-- A SUMMARY that is being taken: the administrator's or a paddock's, its start, its number, and the tile entries so far (17 R383). -/
structure SummaryWork where
  admin : Bool
  start : DW
  seq : DW
  entries : List (Nat × List Byte)
  deriving DecidableEq, Repr

/-- What a service request that has not ended is still to do. -/
inductive SvcWork where
  | bind (r : BindReq)
  | summary (w : SummaryWork)
  | reconfig (recs : List PaddockCfg)
  | exportState (sel arg : Nat)
  deriving DecidableEq, Repr

/-- How far a service request has come. -/
inductive SvcStage where
  | waiting (w : SvcWork)
  | answered (status : Nat) (body : List Byte)
  deriving DecidableEq, Repr

/-- A request of the service protocol that is outstanding: its reply has not gone out (17 R381). -/
structure SvcJob where
  vf : Nat
  conn : BitVec 32
  op : Nat
  reqId : DW
  stage : SvcStage
  /-- Its connection is closed: it completes, and its reply is discarded (17 R384). -/
  closed : Bool
  deriving DecidableEq, Repr

/-- A handle that BIND gave a VF: the contexts of the request (17 R382, 15 R341). -/
structure BindHandle where
  handle : Nat
  vf : Nat
  contexts : List (Nat × BitVec 2)
  queues : List Nat
  deriving DecidableEq, Repr

/-- Which object an event happens to: its place in the list the event is about, a second number, a strand, and the few
values that the outside world gives it. An event constructor of Instr takes it from the state. -/
structure EventInput where
  k : Nat
  j : Nat
  strand : StrandId
  chan : ChanState
  bits : DW
  offset : Int
  deriving DecidableEq, Repr

/-- One turn of the agenda: which agent moves next (log 5). -/
inductive Turn where
  /-- The strand of a tile issues its next word. -/
  | issue (tile : Nat) (st : StrandId)
  /-- An event of the opcode table happens, at a tile. -/
  | event (tile : Nat) (e : Instr) (inp : EventInput)
  /-- Tile cycles and nanoseconds pass. -/
  | elapse (cycles ns : Nat)
  /-- A granary slice, a TLB, an instruction cache or a die cache replaces an entry (log 6). -/
  | evictLine (k : Nat)
  | evictTlb (tile k : Nat)
  | evictCode (tile k : Nat)
  | evictDie (k : Nat)
  /-- A granule of data suffers an error that the code corrects (`soft`) or only detects (03 R71). -/
  | upset (granule : Nat) (soft : Bool)
  /-- The same for a parity granule, by its place (03 R63). -/
  | upsetParity (granule : Nat) (soft : Bool)
  /-- A word of scratchpad, accumulator store or instruction cache suffers an uncorrectable error (16 R350). -/
  | upsetSpad (tile word : Nat)
  | upsetAcc (tile word : Nat)
  | upsetCode (tile pa : Nat)
  /-- A message from another package reaches the switches (11 R244). -/
  | inbound (m : Msg)
  /-- A Kyxus link transmits the next flit of a paddock's send queue (11 R261, 17 R375). -/
  | transmit (link : Nat)
  /-- The oldest reply of a service connection goes out (17 R381). -/
  | sendReply (vf : Nat) (conn : BitVec 32)
  /-- A service request whose OP is none of the nine operations (17 R382). -/
  | unknownRequest (r : SvcReq) (op : BitVec 16)
  /-- The service goes on with outstanding request `k` (17 R381). -/
  | serviceWork (k : Nat)
  /-- A driver writes bytes into the common structure of a device (17 R378). -/
  | barWrite (vf dev off : Nat) (bytes : List Byte)
  /-- The IO die finds a buffer, the last one if so marked, in the ring of a virtqueue that an import has notified (17 R387). -/
  | available (r : NotifyReq) (last : Bool)
  /-- A strand passes the invalidation point of an `ifl` (14 R314). -/
  | passPoint (k : Nat)
  /-- A strand's load of a scratchpad doubleword is performed early, or is so no longer (12 R276). -/
  | early (tile : Nat) (st : StrandId) (word : Nat)
  /-- A sheaf or an ack that has left for another package is accepted there (12 R270). -/
  | acceptedAbroad (k : Nat)
  /-- A barrier request is applied at its object; one without a reply is sent again (13 R294, R295). -/
  | barrier (k : Nat)
  | barrierResend (k : Nat)
  deriving DecidableEq, Repr

/-- The machine: one package. -/
structure State where
  /-- The tile whose turn it is, and the other logical tiles that differ from reset, by LTN. -/
  tile : Tile
  others : List (Nat × Tile)
  pkg : BitVec 12
  -- Main memory, base dies, granary (03, 05).
  mem : Memory
  parity : Memory
  poison : List Nat
  /-- Granules with an error that the next read only detects, or corrects (03 R71). -/
  eccBad : List Nat
  eccSoft : List Nat
  /-- The same for parity granules, and those whose stripe was written without parity (03 R69). -/
  parityBad : List Nat
  paritySoft : List Nat
  parityStale : List Nat
  /-- The key slot and the key that a granule was last written under (03 R75). -/
  granKeys : List (Nat × BitVec 13 × KeyMaterial)
  keySlots : List KeySlot
  chanOwner : List (Nat × BitVec 5)
  channels : List Channel
  lines : List GranLine
  reqs : List MemReq
  reqSerial : Nat
  memEvents : List MemEvent
  /-- When a channel's last record of correctable events was forwarded (03 R74). -/
  corrSent : List (Nat × Nat × Nat)
  -- Atomics, futures, barriers (12, 13).
  atomics : List AtomicReq
  idTable : List IdEntry
  joins : List JoinDec
  sliceSeq : List (Nat × BitVec 3 × BitVec 32)
  barriers : List Barrier
  barReqs : List BarReq
  barIds : List BarId
  -- Translation and paging (04).
  dieCache : List (Nat × TlbEntry)
  walks : List Walk
  pageWaits : List PageWait
  pageEvents : List PageEvent
  nextEvent : BitVec 16
  ifls : List Ifl
  -- Queues and records (15, 16).
  queues : List Queue
  flight : List ItemFlight
  credits : List CreditOut
  records : List RecordWait
  lost : List (BitVec 5 × Nat)
  -- Messages, switches, links, time (10, 11).
  msgs : List MsgFlight
  routes : List RouteEntry
  packets : List Packet
  slots : List RedSlot
  farSheaves : List FarSheaf
  links : Vector Link 16
  large : Bool
  tb : DW
  synced : Bool
  hops : BitVec 8
  sinceSync : Nat
  /-- This package is the time root; nanoseconds still to be slewed, and the part of one that is under way (11 R265). -/
  timeRoot : Bool
  slew : Int
  slewPart : Nat
  -- Paddocks, hosts, firmware (17).
  paddocks : List PaddockCfg
  virtqueues : List Virtqueue
  devices : List Device
  bitmaps : List VfBitmaps
  summarySeq : DW
  /-- Open vsock connections, and the outstanding requests of the service protocol, in request order (17 R379, R381). -/
  vsock : List VsockConn
  svcJobs : List SvcJob
  /-- The arbiters of the two IO dies' monitor-call queues and DMA engines, and of the eight CXL ports (17 R375). -/
  callArbs : Vector Arbiter 2
  dmaArbs : Vector Arbiter 2
  cxlArbs : Vector Arbiter 8
  handles : List BindHandle
  imageNo : Nat
  hostOut : List HostOut
  /-- Spares that hold a logical tile: LTN and slot of its die; spares that have failed: die and slot (01 R21-R23). -/
  spareMap : List (Nat × Nat)
  deadSpares : List (Nat × Nat)
  retired : List Nat
  /-- Tile clock of each compute die, in MHz (17 R391). -/
  clocks : Vector Nat 8
  droop : Bool
  watts : Nat
  temps : List (Nat × Nat)
  halted : Bool
  ioInCharge : Nat
  bootFailed : Bool
  images : List (List Byte)
  roots : List Byte
  minVersions : List (Nat × BitVec 32)
  -- The model's own (log 4, 5).
  input : EventInput
  agenda : List Turn
  free : Nat
  deriving DecidableEq, Repr

/-- Why the machine stops. -/
inductive Fault where
  /-- Raised by step: the agenda gives a turn to a logical tile that does not exist (01 R7). Safe: no hardware does it. -/
  | noSuchTile (ltn : Nat)
  deriving DecidableEq, Repr

/-- Why an instruction has no meaning. -/
inductive Refusal where
  /-- Raised by an arm of exec whose meaning is not written. Safe. -/
  | notModelled (mnemonic : String)
  /-- Raised by step: the agenda offers an instruction word as an event. Safe: words reach the machine by fetch only. -/
  | wordAsEvent
  deriving DecidableEq, Repr

/-! ### Reset -/

/-- LCn, LSn and LEn are undefined after reset (02 R50, 00 R9): 0 is the model's choice (log 1). -/
def LoopLevel.reset : LoopLevel :=
  { lc := 0, ls := 0, le := 0, active := false, pendLc := none, pendLs := none, pendLe := none }

def Strand.reset : Strand :=
  { regs := Vector.replicate 32 0, pc := 0, unit := 0, hint := none, ximm := none, lvl := 0, act := false, ctx := 0,
    cause := 0, epc := 0, fval := 0, mstep := 0, mstepValid := false, loop0 := LoopLevel.reset, loop1 := LoopLevel.reset,
    callerLvl := none, wait := none, sample := none, cycles := 0, budgetDue := false, asyncFaults := [] }

def Tag.reset : Tag := { phase := .idle, status := .ok, data := 0, dest := none }

def Counter.reset : Counter :=
  { issue := 0, done := 0, ahead := [],
    err := { valid := false, cause := 0, detail := 0, unit := 0, num := 0, owner := { strand := .main, run := 0 }, localSrc := false } }

def Ctx.reset : Ctx :=
  { state := .unbound, entry := 0, fallow := none, mode := .any, prio := 0, boost := 0, waitB := 0, lastStart := none,
    lvl := 0, accMask := 0, rootPa := 0, rootKey := 0, asid := 0, budget := 0, cbase := 0, clim := 0, flags := 0, due := [], rm := 0,
    sto := false, carry := Vector.replicate 8 0, cround := 0, image := 0, runs := 0, runsId := 0, bindSeen := [], barriers := [], arrivals := [],
    parkPending := false, killPending := false, fallowOut := none, lastHeld := [] }

def Endpoint.reset : Endpoint :=
  { role := .unbound, ctx := 0, qcb := 0, ringAddr := 0, ring := [], head := 0, tail := 0, credits := 0, oround := 0,
    rate := 0, closed := false, discardTold := false }

/-- A logical tile right after reset (01 R17, 02 R50-R57, 03 R88, 05 R125, 15 R334). -/
def Tile.reset (ltn : Nat) : Tile :=
  { ltn := ltn, main := Strand.reset, handler := Strand.reset, v := Vector.replicate 32 0, k := Vector.replicate 8 0,
    acc := [], spad := [], early := [], spadBad := [], accBad := [], bfmt := Vector.replicate 16 0, phKey := 0, phCtrl := 0, phCtrh := 0,
    feat := 0x1FF, paddock := 0, tags := Vector.replicate 8 Tag.reset, ctrs := Vector.replicate 4 Counter.reset,
    wain := [], thresher := [], stop := none, orderNo := 0, triggers := [], tlb := [], icache := [], codeBad := [],
    regions0 := Vector.replicate 16 0, regions1 := Vector.replicate 16 0, ctxs := Vector.replicate 4 Ctx.reset,
    eps := Vector.replicate 16 Endpoint.reset, act := none, handlerRun := none, handlerLocal := 0, mailbox := [], handlers := [], msgSeq := 0, relNo := 0,
    sendQ := [], refusals := 0, shSends := [], retention := [], delivered := [], amoSeq := Vector.replicate 8 0, images := [],
    lastIssued := .handler, halted := false, starts := 0, runs := 0, remapAsked := false,
    remapping := false, remapCtxs := [] }

def Arbiter.reset : Arbiter := { turn := 0, used := 0 }

def Link.reset : Link :=
  { state := .up, expected := 0, nextSeq := 0, retained := [], replays := 0, sinceAck := 0, sinceExchange := 0, reroute := 0, received := [],
    sendQ := [], arb := Arbiter.reset }

def EventInput.reset : EventInput :=
  { k := 0, j := 0, strand := .main, chan := .healthy, bits := 0, offset := 0 }

/-- The package right after reset, with tile 0 at turn (00 R9, 17 R392). The spec gives no reset value for the general, vector and
mask registers, the loop registers and the contents of any memory: the zeros here are the model's choice (logs 1, 2), as is the
start of the model's own fields `input`, `agenda` and `free` (logs 4, 5). -/
def State.reset : State :=
  { tile := Tile.reset 0, others := [], pkg := 0, mem := [], parity := [], poison := [], eccBad := [], eccSoft := [], parityBad := [],
    paritySoft := [], parityStale := [], granKeys := [], keySlots := [{ id := 0, contents := some .monitor }], chanOwner := [], channels := [], lines := [],
    reqs := [], reqSerial := 0, memEvents := [], corrSent := [], atomics := [], idTable := [], joins := [], sliceSeq := [], barriers := [], barReqs := [], barIds := [],
    dieCache := [], walks := [], pageWaits := [], pageEvents := [], nextEvent := 0, ifls := [], queues := [], flight := [], credits := [],
    records := [], lost := [], msgs := [], routes := [], packets := [], slots := [], farSheaves := [],
    links := Vector.replicate 16 Link.reset, large := false, tb := 0, synced := true, hops := 0, sinceSync := 0, timeRoot := true, slew := 0, slewPart := 0,
    paddocks := [], virtqueues := [], devices := [], bitmaps := [], summarySeq := 0, vsock := [], svcJobs := [], callArbs := Vector.replicate 2 Arbiter.reset,
    dmaArbs := Vector.replicate 2 Arbiter.reset, cxlArbs := Vector.replicate 8 Arbiter.reset, handles := [], imageNo := 0,
    hostOut := [], spareMap := [], deadSpares := [], retired := [], clocks := Vector.replicate 8 800, droop := false, watts := 0, temps := [], halted := false,
    ioInCharge := 0, bootFailed := false, images := [], roots := [], minVersions := [], input := EventInput.reset,
    agenda := [], free := 0 }

end Sys2Proof.Machine
end

