-- ==== Sys2Proof/Machine/Mem.lean ====
section
/-! DEFINITION. Sys2Proof/Machine/Mem.lean: sparse memory in its one canonical form. An unlisted byte reads as 0 (log 2). -/
namespace Sys2Proof.Machine

/-- What an unlisted address reads as (log 2). -/
def emptyByte : Byte := 0

/-- The byte at an address. -/
def Memory.read : Memory → Nat → Byte
  | [], _ => emptyByte
  | (k, v) :: r, a => if a = k then v else Memory.read r a

/-- Memory with one byte written, in canonical form. -/
def Memory.write : Memory → Nat → Byte → Memory
  | [], a, v => if v = emptyByte then [] else [(a, v)]
  | (k, w) :: r, a, v =>
    if a < k then (if v = emptyByte then (k, w) :: r else (a, v) :: (k, w) :: r)
    else if a = k then (if v = emptyByte then r else (a, v) :: r)
    else (k, w) :: Memory.write r a v

/-- The canonical form, above a bound: addresses strictly rise, and no entry equals what an unlisted address reads as. -/
def Memory.wfFrom : Nat → Memory → Bool
  | _, [] => true
  | lo, (k, v) :: r => decide (lo ≤ k) && decide (v ≠ emptyByte) && Memory.wfFrom (k + 1) r

/-- The memory is in canonical form. -/
def Memory.wf (m : Memory) : Bool := Memory.wfFrom 0 m

/-- `n` bytes from an address upward. -/
def Memory.readBytes (m : Memory) (a : Nat) : Nat → List Byte
  | 0 => []
  | n + 1 => m.read a :: Memory.readBytes m (a + 1) n

/-- Bytes written from an address upward. -/
def Memory.writeBytes (m : Memory) (a : Nat) : List Byte → Memory
  | [] => m
  | b :: bs => Memory.writeBytes (m.write a b) (a + 1) bs

/-- Bytes written where a test on their place holds. -/
def Memory.writeWhere (m : Memory) (a : Nat) (en : Nat → Bool) : Nat → List Byte → Memory
  | _, [] => m
  | i, b :: bs => Memory.writeWhere (if en i then m.write (a + i) b else m) a en (i + 1) bs

/-- The little-endian number in `n` bytes (00 R4). -/
def Memory.readLe (m : Memory) (a n : Nat) : Nat := ofLe (m.readBytes a n)

/-- The low `n` bytes of a number, written little-endian (00 R4). -/
def Memory.writeLe (m : Memory) (a n v : Nat) : Memory := m.writeBytes a (leBytes n v)

end Sys2Proof.Machine
end

