-- ==== Sys2Proof/Machine/Path.lean ====
section
/-! DEFINITION. Sys2Proof/Machine/Path.lean: main memory below the home slice: the address map, owner and key checks, ECC,
rebuild and poison, plaintext under a key, parity deltas, and one line access at the home slice (03 R63-R84, 05 R108-R110). -/
namespace Sys2Proof.Machine

/-! ### Names and free values -/

/-- The global tile id of an LTN of this package (01 R7). -/
def State.gid (s : State) (l : Nat) : Nat := s.pkg.toNat * 1024 + l

/-- The next free value's number; the counter advances (log 4). -/
def State.takeFree (s : State) : State := { s with free := s.free + 1 }

/-- A status that passes a test for OK (03 R79). -/
def Status.good : Status → Bool
  | .ok => true
  | .rebuiltOk => true
  | _ => false

/-! ### The address map (03 R64, R67) -/

/-- Stack, channel, offset in the channel and parity stack of a main-memory address. -/
structure MainPlace where
  stack : Nat
  ch : Nat
  stripe : Nat
  offset : Nat
  parity : Nat
  deriving DecidableEq, Repr

/-- MainMap (03 R64). -/
def mainMap (pa : Nat) : MainPlace :=
  let g := pa / 4096
  let j := g % 5898240
  let s := j / 15
  let p := j % 15
  let par := s % 16
  { stack := if p < par then p else p + 1, ch := g / 5898240, stripe := s, offset := s * 4096 + pa % 4096, parity := par }

/-- The home slice of an address: die × 32 + channel index (05 R108). -/
def sliceOf (pa : Nat) : Nat := (mainMap pa).stack / 2 * 32 + (mainMap pa).ch

/-- The channel index of an address. -/
def chanOf (pa : Nat) : Nat := pa / Config.chanSpan

/-- The address lies in the monitor window (04 R90). -/
def inWindow (pa : Nat) : Bool := decide (Config.windowStart ≤ pa % Config.chanSpan)

/-- Parity granules are kept by channel index and offset: stripe s has one, on stack s mod 16 (03 R63). -/
def parityAddr (p : MainPlace) : Nat := p.ch * 2 ^ 31 + p.offset

/-! ### Who asks -/

/-- The identity a request carries (03 R79). -/
structure Asker where
  source : Nat
  paddock : BitVec 5
  l2 : Bool
  key : BitVec 13
  deriving DecidableEq, Repr

/-- A key slot that has been written (03 R75). -/
def State.keySlot (s : State) (k : BitVec 13) : Option KeySlot := s.keySlots.find? fun x => x.id == k

/-- What a key slot holds; none where it is empty. -/
def State.keyOf (s : State) (k : BitVec 13) : Option KeyMaterial := (s.keySlot k).bind KeySlot.contents

/-- The bytes of key material (03 R76). -/
def KeyMaterial.bytes : KeyMaterial → List Byte
  | .monitor => Config.monitorKey 0
  | .loaded b => b

/-- The requester's paddock owns the channel, or the request is the monitor's (03 R65). -/
def State.ownerOk (s : State) (a : Asker) (pa : Nat) : Bool :=
  a.l2 || (s.chanOwner.find? (fun p => p.1 == chanOf pa)).map (·.2) == some a.paddock

/-- Owner check, then key-slot check (03 R65, R76). -/
def State.askCheck (s : State) (a : Asker) (pa : Nat) : Status :=
  if !(s.ownerOk a pa) then .ownErr
  else if (s.keyOf a.key).isNone then .keyErr
  else .ok

/-- State of a channel of a stack (03 R69). -/
def State.chanState (s : State) (stack ch : Nat) : ChanState :=
  ((s.channels.find? fun c => c.stack == stack && c.ch == ch).map Channel.state).getD .healthy

/-- Some other stack has failed at the channel index, so nothing can be rebuilt on this one (03 R69, R71). -/
def State.otherFailed (s : State) (stack ch : Nat) : Bool :=
  s.channels.any fun c => c.ch == ch && c.stack != stack && c.state != .healthy

/-- The 32-byte granules that a range covers (03 R71). -/
def granulesOf (pa n : Nat) : List Nat :=
  if n = 0 then [] else (List.range ((pa + n - 1) / 32 - pa / 32 + 1)).map (· + pa / 32)

/-- A memory-event record (03 R74) on its way to the monitor, about a place of a stack. -/
def State.memEventAt (s : State) (kind stack ch stripe offset source : Nat) (scrub : Bool) : State :=
  { s with memEvents := s.memEvents ++
    [{ kind := BitVec.ofNat 8 kind, stack := stack, ch := ch, stripe := stripe, offset := offset, source := source, scrub := scrub,
       count := 1, time := s.tb.toNat }] }

/-- A memory-event record about an address. -/
def State.memEvent (s : State) (kind : Nat) (pa source : Nat) (scrub : Bool) : State :=
  let p := mainMap pa
  s.memEventAt kind p.stack p.ch p.stripe (pa % 4096) source scrub

/-! ### Channel states (03 R69, R70) -/

/-- A channel in which nothing has happened. -/
def Channel.fresh (stack ch : Nat) : Channel := { stack := stack, ch := ch, state := .healthy, rebuilds := [] }

/-- Change a channel of a stack. -/
def State.modChannel (s : State) (stack ch : Nat) (f : Channel → Channel) : State :=
  { s with channels := upsert (fun c => c.stack == stack && c.ch == ch) (fun o => f (o.getD (Channel.fresh stack ch))) s.channels }

/-- A channel of a stack changes its state, with a memory-event record. -/
def State.setChannel (s : State) (stack ch : Nat) (x : ChanState) : State :=
  (s.modChannel stack ch fun c => { c with state := x }).memEventAt (if x = .lost then 5 else 4) stack ch 0 0 0 false

/-- A stack fails at a channel index: DEGRADED, or LOST when another has failed there, which then is LOST too (03 R69). -/
def State.failChannel (s : State) (stack ch : Nat) : State :=
  if s.chanState stack ch ≠ .healthy then s
  else if s.otherFailed stack ch then
    let before := s.channels.filter fun c => c.ch == ch && c.state == .degraded
    before.foldl (fun s c => s.setChannel c.stack ch .lost) (s.setChannel stack ch .lost)
  else s.setChannel stack ch .degraded

/-- One hour of the time base, in nanoseconds. -/
def hourNs : Nat := 3600 * 10 ^ 9

/-- A rebuild event on a channel: the sixteenth within one hour degrades it (03 R70). -/
def State.noteRebuild (s : State) (stack ch : Nat) : State :=
  let s1 := s.modChannel stack ch fun c =>
    { c with rebuilds := c.rebuilds.filter (fun t => decide (s.tb.toNat < t + hourNs)) ++ [s.tb.toNat] }
  let count : Nat := ((s1.channels.find? fun c => c.stack == stack && c.ch == ch).map fun c => c.rebuilds.length).getD 0
  if 16 ≤ count then s1.failChannel stack ch else s1

/-! ### Plaintext and ciphertext (03 R75-R77) -/

/-- The data of a granule cannot be supplied: poisoned, or on a LOST channel (03 R69, R72). -/
def State.granuleBad (s : State) (g : Nat) : Bool :=
  s.poison.contains g || s.chanState (mainMap (g * 32)).stack (mainMap (g * 32)).ch == .lost

def State.rangeBad (s : State) (pa n : Nat) : Bool := (granulesOf pa n).any s.granuleBad

/-- The granule was last written under another key than the one that the slot holds now. -/
def State.granuleStale (s : State) (k : BitVec 13) (g : Nat) : Bool :=
  match s.granKeys.find? fun p => p.1 == g with
  | none => false
  | some (_, _, m) => s.keyOf k != some m

def State.rangeStale (s : State) (k : BitVec 13) (pa n : Nat) : Bool := (granulesOf pa n).any (s.granuleStale k)

/-- The ciphertext of a granule: its plaintext under the key of its last write (03 R75). A granule that nothing has written
counts as zero (log 2). -/
def State.cipher (s : State) (g : Nat) : List Byte :=
  match s.granKeys.find? fun p => p.1 == g with
  | none => List.replicate 32 0
  | some (_, _, m) => xtsEncrypt m.bytes g (s.mem.readBytes (g * 32) 32)

/-- A byte of a granule read under another key than the one it was written under. Where the slot itself has been loaded with another
key since, the value is undefined (03 R77); under another slot it is what the cipher gives (R75). -/
def State.staleByte (s : State) (k : BitVec 13) (g i : Nat) : Byte :=
  match s.granKeys.find? fun p => p.1 == g with
  | none => 0
  | some (_, k', _) =>
    if k' = k then Config.freeByte s.free (g * 32 + i)
    else (xtsDecrypt (((s.keyOf k).map KeyMaterial.bytes).getD []) g (s.cipher g)).getD i 0

/-- Plaintext bytes under a key. -/
def State.plainBytes (s : State) (k : BitVec 13) (pa n : Nat) : List Byte :=
  (List.range n).map fun i =>
    if s.granuleStale k ((pa + i) / 32) then s.staleByte k ((pa + i) / 32) ((pa + i) % 32) else s.mem.read (pa + i)

/-! ### Stripes, rebuild and poison (03 R63, R69, R71, R72) -/

/-- The parity granule of a data granule, by its place. -/
def parityOf (g : Nat) : Nat := parityAddr (mainMap (g * 32)) / 32

/-- The 15 data granules whose exclusive-or a parity granule holds. -/
def stripeGranules (p : Nat) : List Nat :=
  let off := p % 2 ^ 26 * 32
  (List.range 15).map fun j => ((p / 2 ^ 26 * 5898240 + off / 4096 * 15 + j) * 4096 + off % 4096) / 32

/-- The stack and the channel of a parity granule. -/
def parityStack (p : Nat) : Nat := p % 2 ^ 26 / 128 % 16
def parityChan (p : Nat) : Nat := p / 2 ^ 26

/-- A granule can be read as it stands. -/
def State.sound (s : State) (g : Nat) : Bool :=
  !(s.poison.contains g) && !(s.eccBad.contains g) && s.chanState (mainMap (g * 32)).stack (mainMap (g * 32)).ch == .healthy

/-- A parity granule can be read, and its stripe is protected. -/
def State.paritySound (s : State) (p : Nat) : Bool :=
  !(s.parityBad.contains p) && !(s.parityStale.contains p) && s.chanState (parityStack p) (parityChan p) == .healthy

/-- The 15 survivors of a granule's stripe can be read, so it can be rebuilt (03 R69, R71). -/
def State.canRebuild (s : State) (g : Nat) : Bool :=
  s.paritySound (parityOf g) && (stripeGranules (parityOf g)).all fun h => h == g || s.sound h

/-- The exclusive-or of the ciphertexts of granules. -/
def State.xorCiphers (s : State) (gs : List Nat) : List Byte :=
  gs.foldl (fun x g => xorBytes x (s.cipher g)) (List.replicate 32 0)

/-- The exclusive-or of the 15 survivors of a granule's stripe: its ciphertext, unless a delta of the stripe is still on its way (03 R68,
R69). -/
def State.survivors (s : State) (g : Nat) : List Byte :=
  xorBytes (s.parity.readBytes (parityOf g * 32) 32) (s.xorCiphers ((stripeGranules (parityOf g)).filter (· != g)))

/-- A granule takes what rebuild gives. One that nothing has written stays as log 2 has it. -/
def State.rebuild (s : State) (g : Nat) : State :=
  if s.survivors g = s.cipher g then s
  else match s.granKeys.find? fun p => p.1 == g with
  | none => s
  | some (_, _, m) => { s with mem := s.mem.writeBytes (g * 32) (xtsDecrypt m.bytes g (s.survivors g)) }

/-- A granule that can be neither corrected nor rebuilt is poisoned (03 R72). -/
def State.poisonGranule (s : State) (source : Nat) (scrub : Bool) (g : Nat) : State :=
  ({ s with poison := insertNat g s.poison, eccBad := s.eccBad.filter (· != g) } : State).memEvent 3 (g * 32) source scrub

/-- One granule is read from DRAM. In a DEGRADED channel it is rebuilt from its stripe; an error is corrected, or rebuilt, and the
granule written back, or it is poisoned (03 R69, R71-R73). Answers whether a rebuild happened. -/
def State.meetEcc (s : State) (source : Nat) (scrub : Bool) (g : Nat) : Bool × State :=
  let p := mainMap (g * 32)
  match s.chanState p.stack p.ch with
  | .lost => (false, s)
  | .degraded =>
    if s.poison.contains g then (false, s)
    else if s.canRebuild g then (true, s.rebuild g)
    else (false, s.poisonGranule source scrub g)
  | .healthy =>
    if s.eccBad.contains g then
      if s.canRebuild g then
        let s1 : State := { s.rebuild g with eccBad := s.eccBad.filter (· != g) }
        (true, (s1.memEvent 2 (g * 32) source scrub).noteRebuild p.stack p.ch)
      else (false, s.poisonGranule source scrub g)
    else if s.eccSoft.contains g then
      (false, ({ s with eccSoft := s.eccSoft.filter (· != g) } : State).memEvent 1 (g * 32) source scrub)
    else (false, s)

/-- Granules are read from DRAM. -/
def State.meetEccs (s : State) (source : Nat) (scrub : Bool) (gs : List Nat) : Bool × State :=
  gs.foldl (fun a g =>
    let r := a.2.meetEcc source scrub g
    (a.1 || r.1, r.2)) (false, s)

/-! ### Parity (03 R68, R69) -/

/-- A parity granule is read: an error is corrected, or the granule is formed anew from its stripe, or it stays unreadable. -/
def State.meetParity (s : State) (source : Nat) (scrub : Bool) (p : Nat) : State :=
  let st := parityStack p
  let ch := parityChan p
  let told := fun (s : State) (kind : Nat) => s.memEventAt kind st ch (p % 2 ^ 26 / 128) (p % 128 * 32) source scrub
  if s.chanState st ch ≠ .healthy then s
  else if s.parityBad.contains p then
    if (stripeGranules p).all s.sound then
      let s1 : State :=
        { s with parityBad := s.parityBad.filter (· != p), parity := s.parity.writeBytes (p * 32) (s.xorCiphers (stripeGranules p)) }
      (told s1 2).noteRebuild st ch
    else told s 3
  else if s.paritySoft.contains p then told { s with paritySoft := s.paritySoft.filter (· != p) } 1
  else s

/-- The parity die takes the delta of a data granule. Parity on a failed stack is not written, and the stripe is unprotected. For data
on a failed stack it forms the parity from the survivors and the new data; where a survivor cannot be read, the data are lost. Parity
that cannot be read is formed anew from the stripe, the new data in it. -/
def State.takeDelta (s : State) (source g : Nat) (delta : List Byte) : State :=
  let p := parityOf g
  let m := mainMap (g * 32)
  if s.chanState (parityStack p) (parityChan p) ≠ .healthy then { s with parityStale := insertNat p s.parityStale }
  else if s.chanState m.stack m.ch = .degraded then
    if (stripeGranules p).all fun h => h == g || s.sound h then
      { s with parity := s.parity.writeBytes (p * 32) (s.xorCiphers (stripeGranules p)),
               parityBad := s.parityBad.filter (· != p), parityStale := s.parityStale.filter (· != p) }
    else s.poisonGranule source false g
  else if s.parityBad.contains p then s.meetParity source false p
  else
    let s1 := s.meetParity source false p
    { s1 with parity := s1.parity.writeBytes (p * 32) (xorBytes (s1.parity.readBytes (p * 32) 32) delta) }

/-- The deltas of consecutive granules from an address on. -/
def State.applyDelta (s : State) (source pa : Nat) : Nat → List Byte → State
  | 0, _ => s
  | n + 1, delta => (s.takeDelta source (pa / 32) (delta.take 32)).applyDelta source (pa + 32) n (delta.drop 32)

/-! ### Writes -/

/-- Which bytes of a granule a write of n bytes at an address enables: some, or all of them (03 R68, R81). -/
def byteIn (pa n : Nat) (en : Nat → Bool) (a : Nat) : Bool := decide (pa ≤ a) && decide (a < pa + n) && en (a - pa)
def touches (pa n : Nat) (en : Nat → Bool) (g : Nat) : Bool := (List.range 32).any fun i => byteIn pa n en (g * 32 + i)
def coversAll (pa n : Nat) (en : Nat → Bool) (g : Nat) : Bool := (List.range 32).all fun i => byteIn pa n en (g * 32 + i)

/-- The granules that a write covers. -/
def writtenGranules (pa n : Nat) (en : Nat → Bool) : List Nat := (granulesOf pa n).filter (touches pa n en)

/-- Old exclusive-or new ciphertext of granules (03 R68). -/
def deltaBytes (old new : State) (gs : List Nat) : List Byte := gs.flatMap fun g => xorBytes (old.cipher g) (new.cipher g)

/-- Bytes written under a key where enabled. A granule covered whole takes the new key and loses its poison; one covered in
part is decrypted and merged (03 R72, R77, R81). -/
def State.putPlain (s : State) (k : BitVec 13) (pa : Nat) (bytes : List Byte) (en : Nat → Bool) : State :=
  let gs := writtenGranules pa bytes.length en
  let whole := fun g => gs.contains g && coversAll pa bytes.length en g
  let s0 := gs.foldl (fun (s : State) g =>
    if !(coversAll pa bytes.length en g) && s.granuleStale k g then
      { s with mem := s.mem.writeBytes (g * 32) ((List.range 32).map (s.staleByte k g)), free := s.free + 1 }
    else s) s
  { s0 with mem := s0.mem.writeWhere pa en 0 bytes,
            poison := s0.poison.filter fun g => !(whole g), eccBad := s0.eccBad.filter fun g => !(whole g),
            eccSoft := s0.eccSoft.filter fun g => !(gs.contains g),
            granKeys := match s.keyOf k with
              | some m => gs.foldl (fun l g => upsert (fun p => p.1 == g) (fun _ => (g, k, m)) l) s0.granKeys
              | none => s0.granKeys }

/-! ### The base die on one request (03 R80-R83) -/

/-- A read at the base die: checks, ECC, decryption. -/
def State.baseRead (s : State) (a : Asker) (pa n : Nat) : Status × List Byte × State :=
  match s.askCheck a pa with
  | .ok =>
    let (reb, s1) := s.meetEccs a.source false (granulesOf pa n)
    if s1.rangeBad pa n then (.poison, [], s1)
    else
      (if reb then .rebuiltOk else .ok, s1.plainBytes a.key pa n,
        if s1.rangeStale a.key pa n then s1.takeFree else s1)
  | .ownErr => (.ownErr, [], s.memEvent 6 pa a.source false)
  | e => (e, [], s.memEvent 7 pa a.source false)

/-- A write at the base die: checks, merge, poison rules. A granule whose data cannot be supplied and that the write does not cover
whole keeps its bytes, and the write answers POISON. Answers the delta for the parity die too. -/
def State.baseWrite (s : State) (a : Asker) (pa : Nat) (bytes : List Byte) (en : Nat → Bool) :
    Status × List Byte × State :=
  match s.askCheck a pa with
  | .ok =>
    let gs := writtenGranules pa bytes.length en
    let s1 := (s.meetEccs a.source false gs).2
    let blocked := fun g => s1.granuleBad g && !(coversAll pa bytes.length en g)
    let s2 := s1.putPlain a.key pa bytes fun i => en i && !(blocked ((pa + i) / 32))
    (if gs.any blocked then .poison else .ok, deltaBytes s1 s2 gs, s2)
  | .ownErr => (.ownErr, [], s.memEvent 6 pa a.source false)
  | e => (e, [], s.memEvent 7 pa a.source false)

/-- A square record may be at an address: 64-byte aligned, wholly in one 4 KiB granule (03 R82). -/
def squarePlaceOk (pa n : Nat) : Bool := decide (pa % 64 = 0) && decide (pa % 4096 + n ≤ 4096)

/-! ### The home slice (03 R78, 05 R108-R110) -/

/-- Requests that a slice has taken and whose reply has not passed back over a line. -/
def MemReq.taken (r : MemReq) : Bool := r.phase == .toBase || r.phase == .parity || r.phase == .fromBase

/-- Two byte ranges overlap. -/
def overlaps (a n b m : Nat) : Bool := decide (a < b + m) && decide (b < a + n)

/-- A write request's bytes lie over a line and are still pending at its slice. -/
def MemReq.writes (r : MemReq) : Bool :=
  match r.kind with
  | .wr | .wrm | .sqwr | .atomwb => true
  | _ => false

/-- A line has a taken request outstanding. -/
def State.lineBusy (s : State) (pa : Nat) : Bool :=
  s.reqs.any fun r => r.taken && overlaps r.pa r.len (pa / 64 * 64) 64

/-- A byte enable of a request. -/
def MemReq.enabled (r : MemReq) (i : Nat) : Bool := r.kind != .wrm || r.bmask.getLsbD i

/-- Pending writes of the slice laid over bytes read at an address (03 R78). A square write is not among them: what its record will
read as is known only once its base die has stored the version (R83). -/
def State.overlay (s : State) (pa : Nat) (bytes : List Byte) : List Byte :=
  s.reqs.foldl (fun bs r =>
    if r.taken && r.writes && r.kind != .sqwr && r.status.good && overlaps r.pa r.len pa bs.length then
      bs.zipIdx.map fun p =>
        let a := pa + p.2
        if r.pa ≤ a ∧ a < r.pa + r.len ∧ r.enabled (a - r.pa) then r.data.getD (a - r.pa) p.1 else p.1
    else bs) bytes

/-- The line a slice holds for an address under a key. -/
def State.lineHit (s : State) (pa : Nat) (k : BitVec 13) : Option GranLine :=
  s.lines.find? fun l => l.pa == pa / 64 * 64 && l.key == k

/-- Lines of a home slice: 1 MiB (05 R108). -/
def sliceLines : Nat := 16384

/-- A reply that is OK fills its line, in place of any line of the address; another reply removes the line (05 R109). A full slice
gives up its oldest line (log 6). -/
def State.fillLine (s : State) (pa : Nat) (k : BitVec 13) (ok : Bool) (data : List Byte) : State :=
  let here := fun (l : GranLine) => sliceOf l.pa == sliceOf pa
  let kept := s.lines.filter fun l => l.pa != pa / 64 * 64
  let rest := if (kept.filter here).length < sliceLines then kept else dropFirst here kept
  { s with lines := if ok && data.length == 64 then rest ++ [{ pa := pa / 64 * 64, key := k, data := data }] else rest }

/-- A performed write updates any line the slice holds for its address (05 R110). -/
def State.updateLines (s : State) (pa : Nat) (bytes : List Byte) (en : Nat → Bool) : State :=
  { s with lines := s.lines.map fun l =>
      if overlaps l.pa 64 pa bytes.length then
        { l with data := l.data.zipIdx.map fun p =>
            let a := l.pa + p.2
            if pa ≤ a ∧ a < pa + bytes.length ∧ en (a - pa) then bytes.getD (a - pa) p.1 else p.1 }
      else l }

/-- The whole line, when every granule of it can be supplied, to fill the slice. -/
def State.wholeLine (s : State) (k : BitVec 13) (pa : Nat) : List Byte :=
  let b := pa / 64 * 64
  if s.rangeBad b 64 || s.rangeStale k b 64 then [] else s.plainBytes k b 64

/-- A reply that is OK fills its slice: both granules of the line are read from DRAM for it, each with its ECC (05 R109; 03 R69, R71,
R72). -/
def State.fillWhole (s : State) (source : Nat) (k : BitVec 13) (pa : Nat) : State :=
  let s1 := (s.meetEccs source false (granulesOf (pa / 64 * 64) 64)).2
  s1.fillLine pa k true (s1.wholeLine k pa)

/-- One read within a line, at its home slice, all in one step: a walk, a fetch, an atomic or a wain line read. -/
def State.sliceRead (s : State) (a : Asker) (pa n : Nat) : Status × List Byte × State :=
  match s.lineHit pa a.key with
  | some l => (.ok, s.overlay pa ((l.data.drop (pa % 64)).take n), s)
  | none =>
    let (st, bytes, s1) := s.baseRead a pa n
    if st.good then (st, s1.overlay pa bytes, s1.fillWhole a.source a.key pa)
    else (st, [], s1.fillLine pa a.key false [])

/-- One write within a line, through the slice to the base die and its parity die, all in one step: a wain line write. A write that
answers POISON has written its other granule, whose parity follows (03 R68, R72). -/
def State.sliceWrite (s : State) (a : Asker) (pa : Nat) (bytes : List Byte) : Status × State :=
  let (st, delta, s1) := s.baseWrite a pa bytes (fun _ => true)
  let s2 := s1.applyDelta a.source (pa / 32 * 32) (delta.length / 32) delta
  if st.good then (st, s2.updateLines pa bytes (fun _ => true)) else (st, s2)

/-! ### Requests in flight -/

/-- Add a request packet. -/
def State.addReq (s : State) (r : MemReq) : State :=
  { s with reqs := s.reqs ++ [{ r with serial := s.reqSerial }], reqSerial := s.reqSerial + 1 }

/-- A request without data. -/
def MemReq.blank (kind : ReqKind) (h : Handle) (a : Asker) (pa n : Nat) : MemReq :=
  { serial := 0, kind := kind, handle := h, strand := .main, source := a.source, paddock := a.paddock, l2 := a.l2, pa := pa, key := a.key,
    len := n, bmask := 0, data := [], phase := .toSlice, status := .ok, version := 0,
    refused := false }

/-- The identity of a tile's requests: its paddock, or paddock 31 with the L2 bit where they are the monitor's (03 R65). -/
def State.askerOf (s : State) (tile : Nat) (p : BitVec 5) (l2 : Bool) (key : BitVec 13) : Asker :=
  { source := s.gid tile, paddock := if l2 then 31 else p, l2 := l2, key := key }

/-- The hardware's own write of a state field: a request of the monitor for a tile, which nothing waits for. It takes its turn at the
home slice like every other (03 R78). -/
def State.postWrite (s : State) (tile : Nat) (key : BitVec 13) (pa : Nat) (bytes : List Byte) : State :=
  s.addReq { MemReq.blank .wr .none (s.askerOf tile 31 true key) pa bytes.length with data := bytes }

/-- An unapplied request of a tile to a slice is older than the one of a serial number: a tile's requests to one slice are
performed in issue order (03 R78, 12 R269). -/
def State.olderWaits (s : State) (source slice serial : Nat) : Bool :=
  (s.reqs.any fun q => q.phase == .toSlice && q.kind != .walk && q.source == source && sliceOf q.pa == slice && decide (q.serial < serial)) ||
  (s.atomics.any fun a => !a.atSlice && s.gid a.tile == source && sliceOf a.pa == slice && decide (a.serial < serial))

def MemReq.asker (r : MemReq) : Asker := { source := r.source, paddock := r.paddock, l2 := r.l2, key := r.key }

end Sys2Proof.Machine
end

