-- ==== Sys2Proof/Machine/Ops.lean ====
section
/-! DEFINITION. Sys2Proof/Machine/Ops.lean: the named operations over tiles, strands, registers, contexts, counters, barriers
and records; the issue unit and its retirement; taking a trap and returning from a monitor call. -/
namespace Sys2Proof.Machine

/-! ### Tiles -/

/-- Put a tile into the list of the other tiles, by LTN. -/
def insertTile (l : Nat) (t : Tile) : List (Nat × Tile) → List (Nat × Tile)
  | [] => [(l, t)]
  | (k, u) :: r => if l < k then (l, t) :: (k, u) :: r else if l = k then (l, t) :: r else (k, u) :: insertTile l t r

/-- The tile of an LTN; one that nothing has changed is as reset leaves it. -/
def State.getTile (s : State) (l : Nat) : Tile :=
  if s.tile.ltn = l then s.tile
  else match s.others.find? (fun p => p.1 == l) with
    | some p => p.2
    | none => Tile.reset l

/-- Replace the tile of an LTN. -/
def State.putTile (s : State) (l : Nat) (t : Tile) : State :=
  if s.tile.ltn = l then { s with tile := t } else { s with others := insertTile l t s.others }

/-- Change the tile of an LTN. -/
def State.modTile (s : State) (l : Nat) (f : Tile → Tile) : State := s.putTile l (f (s.getTile l))

/-- Give the turn to the tile of an LTN. -/
def State.switchTo (s : State) (l : Nat) : State :=
  if s.tile.ltn = l then s
  else { s with tile := s.getTile l, others := insertTile s.tile.ltn s.tile (s.others.filter fun p => p.1 != l) }

/-- Change the tile at turn. -/
def State.onTile (s : State) (f : Tile → Tile) : State := { s with tile := f s.tile }

/-- The compute die of an LTN (01 R21). -/
def dieOf (l : Nat) : Nat := 4 * (l / 32 / 16) + (l % 32) / 8

/-! ### Strands and registers -/

def Tile.strand (t : Tile) : StrandId → Strand
  | .main => t.main
  | .handler => t.handler

def Tile.setStrand (t : Tile) (i : StrandId) (x : Strand) : Tile :=
  match i with
  | .main => { t with main := x }
  | .handler => { t with handler := x }

def Tile.modStrand (t : Tile) (i : StrandId) (f : Strand → Strand) : Tile := t.setStrand i (f (t.strand i))

/-- The strand that issues: step records it as the one that issued last (01 R17). -/
def State.cur (s : State) : StrandId := s.tile.lastIssued

/-- The issuing strand. -/
def State.st (s : State) : Strand := s.tile.strand s.cur

/-- Change the issuing strand. -/
def State.onSt (s : State) (f : Strand → Strand) : State := s.onTile fun t => t.modStrand s.cur f

/-- Read a scalar register; s0 reads 0 (02 R47). -/
def State.reg (s : State) (r : SReg) : DW := if r = 0 then 0 else s.st.regs[r.toNat]'(r.isLt)

/-- Write a scalar register; a write to s0 is ignored (02 R47). -/
def State.setReg (s : State) (r : SReg) (v : DW) : State :=
  if r = 0 then s else s.onSt fun x => { x with regs := x.regs.set r.toNat v r.isLt }

/-- Write the pair sD, sD+1 (08 R193, 15 R345). -/
def State.setPair (s : State) (r : SReg) (v w : DW) : State := (s.setReg r v).setReg (r + 1) w

/-- Read a vector register. -/
def State.vreg (s : State) (r : VReg) : VWord := s.tile.v[r.toNat]'(r.isLt)

/-- Write a vector register. -/
def State.setV (s : State) (r : VReg) (v : VWord) : State := s.onTile fun t => { t with v := t.v.set r.toNat v r.isLt }

/-- Read a mask; k0 reads all ones (02 R47). -/
def State.kreg (s : State) (r : KReg) : BitVec 32 := if r = 0 then BitVec.allOnes 32 else s.tile.k[r.toNat]'(r.isLt)

/-- Write a mask; a write to k0 is ignored (02 R47). -/
def State.setK (s : State) (r : KReg) (v : BitVec 32) : State :=
  if r = 0 then s else s.onTile fun t => { t with k := t.k.set r.toNat v r.isLt }

/-- The context whose registers, level and translation the issuing strand uses (02 R50, 11 R246). -/
def State.cx (s : State) : Ctx := s.tile.ctxs[s.st.ctx.toNat]'(s.st.ctx.isLt)

/-- Change a context of the tile at turn. -/
def Tile.modCtx (t : Tile) (c : BitVec 2) (f : Ctx → Ctx) : Tile :=
  { t with ctxs := t.ctxs.set c.toNat (f (t.ctxs[c.toNat]'(c.isLt))) c.isLt }

def State.onCx (s : State) (f : Ctx → Ctx) : State := s.onTile fun t => t.modCtx s.st.ctx f

/-- The running level is L0. -/
def State.atL0 (s : State) : Bool := s.st.lvl == 0

/-- Flags that an instruction of the issuing strand raises: they are ORed into the context's SR_FLAGS at the end of its latency of n
cycles (02 R53, 08 R180). -/
def State.orFlags (s : State) (n : Nat) (f : Flags) : State :=
  s.onCx fun c => { c with due := if f = 0 then c.due else c.due ++ [(n, f)] }

/-- Flags whose latency is over after n more cycles are ORed into SR_FLAGS. -/
def Ctx.ageFlags (n : Nat) (c : Ctx) : Ctx :=
  { c with flags := (c.due.filter fun x => decide (x.1 ≤ n)).foldl (fun f x => f ||| x.2) c.flags,
           due := (c.due.filter fun x => decide (n < x.1)).map fun x => (x.1 - n, x.2) }

/-- Cycles pass for the flags of a tile's contexts. -/
def Tile.ageFlags (n : Nat) (t : Tile) : Tile := { t with ctxs := t.ctxs.map (Ctx.ageFlags n) }

/-- Every instruction has completed: its flags are in SR_FLAGS. -/
def Ctx.landFlags (c : Ctx) : Ctx := { c with flags := c.due.foldl (fun f x => f ||| x.2) c.flags, due := [] }

/-- SR_FPCTL.STO as it reads: 0 while FEAT0.STOCH is clear (07 R167). -/
def State.sto (s : State) : Bool := s.cx.sto && s.tile.feat.getLsbD 3

/-- The rounding mode of SR_FPCTL (02 R54). -/
def State.rm (s : State) : RMode := RMode.ofBits s.cx.rm

/-- The 128-bit Philox counter of a tile (07 R165). -/
def Tile.philoxC (t : Tile) : Nat := t.phCtrl.toNat + t.phCtrh.toNat * 2 ^ 64
def Tile.setPhiloxC (t : Tile) (c : Nat) : Tile :=
  { t with phCtrl := BitVec.ofNat 64 c, phCtrh := BitVec.ofNat 64 (c / 2 ^ 64) }

/-- The run of the issuing strand: its activation or its handler (05 R114). -/
def State.runRef (s : State) : RunRef :=
  { strand := s.cur,
    run := match s.cur with
      | .main => (s.tile.act.map Activation.run).getD 0
      | .handler => (s.tile.handlerRun.map HandlerRun.run).getD 0 }

/-- Translation under the running context (04 R95). -/
def State.xc (s : State) : XCtx :=
  { ctx := s.st.ctx, strand := s.cur, rootPa := s.cx.rootPa, rootKey := s.cx.rootKey, asid := s.cx.asid, lvl := s.st.lvl }

/-- A run that is still live (05 R125); a handler that has released its messages is not (11 R258). -/
def Tile.live (t : Tile) (r : RunRef) : Bool :=
  match r.strand with
  | .main => (t.act.map Activation.run) == some r.run
  | .handler => t.handlerRun.any fun h => h.run == r.run && !h.ending

/-! ### The issue unit (02 R38-R43) -/

/-- The first word of a new unit is at an address. -/
def Strand.startUnit (x : Strand) (pc : DW) : Strand :=
  { x with pc := pc, unit := pc, hint := none, ximm := none, sample := none, wait := none }

/-- Install the pending writes of a loop level (14 R309). -/
def LoopLevel.install (l : LoopLevel) : LoopLevel :=
  { l with lc := l.pendLc.getD l.lc, ls := l.pendLs.getD l.ls, le := l.pendLe.getD l.le,
           pendLc := none, pendLs := none, pendLe := none }

/-- EndTest of 14 R309: the level after the test, and the address of a back edge. -/
def LoopLevel.endTest (l : LoopLevel) (x : DW) : LoopLevel × Option DW :=
  let l := l.install
  if l.le.toNat < x.toNat then ({ l with active := false, lc := 0 }, none)
  else if l.lc.toNat ≤ 1 then ({ l with active := false, lc := 0 }, none)
  else ({ l with lc := l.lc - 1 }, some l.ls)

/-- A unit completes in sequential flow: the loop tests of its word, then the next unit (14 R309). -/
def Strand.retire (x : Strand) : Strand :=
  let a := x.pc
  let (l1, b1) := if x.loop1.active && x.loop1.le == a then x.loop1.endTest a else (x.loop1, none)
  match b1 with
  | some t => ({ x with loop1 := l1 }).startUnit t
  | none =>
    let (l0, b0) := if x.loop0.active && x.loop0.le == a then x.loop0.endTest a else (x.loop0, none)
    ({ x with loop0 := l0, loop1 := l1 }).startUnit (b0.getD (a + 4))

/-- An event of 16 R367 ends a `wfi` of either strand whose time of issue meets a test. -/
def Tile.wakeSince (ok : DW → Bool) (t : Tile) : Tile :=
  let f := fun (x : Strand) => (match x.wait with
    | some (.event since) => if ok since then x.retire else x
    | _ => x)
  { t with main := f t.main, handler := f t.handler }

/-- An event of 16 R367 ends a `wfi` of either strand. -/
def Tile.wake (t : Tile) : Tile := t.wakeSince fun _ => true

/-! ### Configuration of paddocks -/

/-- The configuration record of a paddock (17 R372). -/
def State.pcfg (s : State) (p : BitVec 5) : Option PaddockCfg := s.paddocks.find? fun c => c.pnum == p

/-- The logical row of an LTN belongs to a paddock (17 R371). -/
def cfgHasTile (c : PaddockCfg) (l : Nat) : Bool := decide (l < 1024) && c.rows.getLsbD (l / 32)

/-- A tile of this package that belongs to a paddock. -/
def State.inPaddock (s : State) (p : BitVec 5) (l : Nat) : Bool :=
  match s.pcfg p with
  | some c => cfgHasTile c l
  | none => false

/-! ### Records (16 R354, R355) -/

/-- A 64-byte record from its fields: first byte, number of bytes, value. -/
def recordBytesOf (fs : List (Nat × Nat × Nat)) : List Byte :=
  leBytes 64 (fs.foldl (fun a f => a + (f.2.2 % 2 ^ (8 * f.2.1)) * 2 ^ (8 * f.1)) 0)

/-- A record waits at its source until it is placed (15 R324). -/
def State.post (s : State) (p : BitVec 5) (q : RecordQueue) (bytes : List Byte) (holds : Option (Nat × BitVec 2)) : State :=
  { s with records := s.records ++ [{ paddock := p, queue := q, bytes := bytes, holds := holds }] }

/-- A record of a type of 16 R355 to the fault queue of a paddock. -/
def State.postFault (s : State) (p : BitVec 5) (tile type : Nat) (cause : Nat) (fs : List (Nat × Nat × Nat)) : State :=
  s.post p .fault
    (recordBytesOf ([(0, 1, type), (1, 1, cause), (32, 4, s.gid tile), (36, 8, s.tb.toNat)] ++ fs)) none

/-- The code of a cause (16 R349). -/
def Cause.code : Cause → BitVec 5
  | .none => 0x00
  | .ill => 0x01
  | .priv => 0x02
  | .align => 0x03
  | .page => 0x04
  | .prot => 0x05
  | .bankfmt => 0x06
  | .qfault => 0x07
  | .futdbl => 0x08
  | .budget => 0x09
  | .uncorr => 0x0A
  | .sheaf => 0x0B
  | .brk => 0x0C
  | .trap => 0x0D
  | .mcall => 0x0E
  | .killed => 0x0F

/-- The cause of a code. -/
def Cause.ofCode (c : BitVec 5) : Cause :=
  match c.toNat with
  | 1 => .ill
  | 2 => .priv
  | 3 => .align
  | 4 => .page
  | 5 => .prot
  | 6 => .bankfmt
  | 7 => .qfault
  | 8 => .futdbl
  | 9 => .budget
  | 10 => .uncorr
  | 11 => .sheaf
  | 12 => .brk
  | 13 => .trap
  | 14 => .mcall
  | 15 => .killed
  | _ => .none

/-- The cause that consuming a status raises: UNCORR for POISON, PROT for KEYERR and OWNERR (03 R86). -/
def Status.cause : Status → Option Cause
  | .ok => none
  | .rebuiltOk => none
  | .poison => some .uncorr
  | .keyErr => some .prot
  | .ownErr => some .prot

/-! ### Timeline counters (05 R125) -/

/-- DONE after number n completes. -/
def absorb : Nat → Nat → List Nat → Nat × List Nat
  | 0, d, a => (d, a)
  | k + 1, d, a => if a.contains (d + 1) then absorb k (d + 1) (a.filter (· != d + 1)) else (d, a)

def Counter.complete (c : Counter) (n : Nat) : Counter :=
  let (d, a) := absorb (c.ahead.length + 1) c.done (insertNat n c.ahead)
  { c with done := d, ahead := a }

def Tile.ctr (t : Tile) (c : CReg) : Counter := t.ctrs[c.toNat]'(c.isLt)
def Tile.modCtr (t : Tile) (c : CReg) (f : Counter → Counter) : Tile :=
  { t with ctrs := t.ctrs.set c.toNat (f (t.ctr c)) c.isLt }

/-- The 64-bit ERR field (05 R125). -/
def ErrRec.word (e : ErrRec) : DW :=
  BitVec.ofNat 64 (e.cause.toNat + (if e.valid then 32 else 0) + e.detail.toNat * 2 ^ 8 + e.unit.toNat * 2 ^ 16
    + (e.num % 2 ^ 32) * 2 ^ 32)

/-- INFO of a record for a cause from ERR (16 R354). -/
def ErrRec.info (e : ErrRec) (c : CReg) : BitVec 32 :=
  BitVec.ofNat 32 (c.toNat + e.detail.toNat * 2 ^ 8 + e.unit.toNat * 2 ^ 16)

/-- An engine trap record: counter, number, cause, DETAIL (05 R125, 16 R355 type 17). -/
def State.engineRecord (s : State) (tile : Nat) (c : CReg) (e : ErrRec) : State :=
  s.postFault (s.getTile tile).paddock tile 17 e.cause.toNat [(44, 8, e.num), (52, 4, (e.info c).toNat)]

/-- Clear the failures of a run that ends, each with an engine trap record (05 R126). -/
def State.clearErrs (s : State) (tile : Nat) (r : RunRef) : State :=
  [0, 1, 2, 3].foldl (fun (s : State) (c : CReg) =>
    let e := ((s.getTile tile).ctr c).err
    if e.valid && e.owner == r then
      (s.modTile tile fun t => t.modCtr c fun k => { k with err := { k.err with valid := false } }).engineRecord tile c e
    else s) s

/-- The lowest counter with an undelivered failure of a run (05 R126). -/
def Tile.firstErr (t : Tile) (r : RunRef) : Option (CReg × ErrRec) :=
  ([0, 1, 2, 3] : List CReg).findSome? fun c =>
    let e := (t.ctr c).err
    if e.valid && e.owner == r then some (c, e) else none

/-! ### Triggers (13 R292) -/

/-- The atomic lane of an address (12 R281). -/
def laneOf (pa : Nat) : BitVec 3 := BitVec.ofNat 3 (pa / 64)

/-- A tile has an atomic outstanding in a lane. -/
def State.laneBusy (s : State) (tile : Nat) (lane : BitVec 3) : Bool :=
  s.atomics.any fun a => a.tile == tile && a.lane == lane

/-- The trigger that fires next: of one counter the entry of least n first, its lane free. -/
def Tile.readyTrigger (s : State) (t : Tile) : Option (Nat × Trigger) :=
  (t.triggers.zipIdx.findSome? fun p =>
    let g := p.1
    if g.n ≤ (t.ctr g.ctr).done && !(s.laneBusy t.ltn (laneOf g.pa))
        && t.triggers.all (fun h => h.ctr != g.ctr || decide (g.n ≤ h.n)) then some (p.2, g) else none)

/-- Fire the triggers of a tile whose counters have reached them: each resolves its future as `fut.res` does. -/
def State.fireTriggers (s : State) (tile : Nat) : Nat → State
  | 0 => s
  | n + 1 =>
    let t := s.getTile tile
    match Tile.readyTrigger s t with
    | none => s
    | some (i, g) =>
      let e := (t.ctr g.ctr).err
      let bad := e.valid && decide (e.num ≤ g.n)
      let lane := laneOf g.pa
      let req : AtomicReq :=
        { serial := s.reqSerial, tile := tile, strand := .main, run := 0, ctx := 0,
          op := .futRes (if bad then BitVec.ofNat 32 (e.cause.toNat + e.detail.toNat * 2 ^ 8) else 0) bad,
          lane := lane, seq := t.amoSeq[lane.toNat]'(lane.isLt), va := 0, pa := g.pa, key := g.key, x := 0, c := 0, d := 0,
          hold := false, aq := false, trigger := true, unit := 0, word := 0, paddock := t.paddock, l2 := false, sentAt := s.tb.toNat,
          lastSent := s.tb.toNat, atSlice := false, reply := none }
      let s := { s with atomics := s.atomics ++ [req], reqSerial := s.reqSerial + 1 }
      let s := s.modTile tile fun t =>
        { t with triggers := dropAt i t.triggers,
                 amoSeq := t.amoSeq.set lane.toNat (t.amoSeq[lane.toNat]'(lane.isLt) + 1) lane.isLt }
      (s.modTile tile Tile.wake).fireTriggers tile n

/-- A command number of a counter completes: DONE may pass it, which ends a `wfi`, and triggers fire (05 R125, 16 R367). -/
def State.completeNum (s : State) (tile : Nat) (c : CReg) (n : Nat) : State :=
  (s.modTile tile fun t =>
    let u := t.modCtr c fun k => k.complete n
    if (u.ctr c).done = (t.ctr c).done then u else u.wake).fireTriggers tile 17

/-! ### Barrier objects (13 R293-R296) -/

def Barrier.blank (obj : Nat) : Barrier :=
  { obj := obj, members := 0, timeout := 0, arrived := 0, absent := 0, broken := false, gen := 0, cfgGen := 0,
    timer := none, since := 0 }

def State.barrier (s : State) (obj : Nat) : Barrier :=
  (s.barriers.find? fun b => b.obj == obj).getD (Barrier.blank obj)

def State.modBarrier (s : State) (obj : Nat) (f : Barrier → Barrier) : State :=
  { s with barriers := upsert (fun b => b.obj == obj) (fun o => f (o.getD (Barrier.blank obj))) s.barriers }

/-- An absence token arrives: the timer stops and keeps its remaining time (13 R296). -/
def Barrier.addAbsent (now : Nat) (b : Barrier) : Barrier :=
  { b with absent := b.absent + 1,
           timer := if b.absent = 0 then b.timer.map (fun r => r - (now - b.since)) else b.timer, since := now }

/-- An absence token is withdrawn (13 R296). -/
def Barrier.dropAbsent (now : Nat) (b : Barrier) : Barrier :=
  { b with absent := if b.absent = 0 then 0 else b.absent - 1, since := if b.absent = 1 then now else b.since }

/-- A registered context is switched out: an absence token for each barrier in whose phase it has not arrived (13 R296). -/
def State.switchOut (s : State) (tile : Nat) (c : BitVec 2) : State :=
  let cx := (s.getTile tile).ctxs[c.toNat]'(c.isLt)
  let due := fun (s : State) (r : BarReg) =>
    !r.token && !(cx.arrivals.contains (r.obj, (s.barrier r.obj).gen))
  let s' := cx.barriers.foldl (fun (t : State) r =>
    if due s r then t.modBarrier r.obj (Barrier.addAbsent s.tb.toNat) else t) s
  s'.modTile tile fun t => t.modCtx c fun x =>
    { x with barriers := x.barriers.map fun r => if due s r then { r with token := true } else r }

/-- The tokens of a context are withdrawn: its next activation starts, or it is unbound (13 R296). -/
def State.switchIn (s : State) (tile : Nat) (c : BitVec 2) : State :=
  let cx := (s.getTile tile).ctxs[c.toNat]'(c.isLt)
  let s' := cx.barriers.foldl (fun (t : State) r =>
    if r.token then t.modBarrier r.obj (Barrier.dropAbsent s.tb.toNat) else t) s
  s'.modTile tile fun t => t.modCtx c fun x => { x with barriers := x.barriers.map fun r => { r with token := false } }

/-! ### Items held by an activation (15 R331, R333) -/

/-- Every held item goes back to its place in its ring, where it is deliverable again (16 R367). -/
def Tile.unhold (t : Tile) : Tile :=
  let u : Tile := { t with eps := t.eps.map fun e => { e with ring := e.ring.map fun i => { i with held := false } } }
  if t.eps.toList.any fun e => e.ring.any RingItem.held then u.wake else u

/-- One member has consumed an item: its credit is one step nearer to its producer (15 R323). -/
def State.consumed (s : State) (qcb : Nat) (id : BitVec 32) : State :=
  { s with credits := s.credits.map fun c => if c.qcb == qcb && c.id == id && decide (0 < c.left) then
      { c with left := c.left - 1 } else c }

/-- The held items of a tile are consumed (15 R330). -/
def State.consumeHeld (s : State) (tile : Nat) : State :=
  let t := s.getTile tile
  let s' := t.eps.toList.foldl (fun s e =>
    (e.ring.filter RingItem.held).foldl (fun s i => s.consumed e.qcb i.id) s) s
  s'.modTile tile fun t => { t with eps := t.eps.map fun e =>
    { e with ring := e.ring.filter (fun i => !i.held), head := e.head + (e.ring.filter RingItem.held).length } }

/-- Change an endpoint by number. -/
def Tile.modEp (t : Tile) (q : Nat) (f : Endpoint → Endpoint) : Tile :=
  match t.eps[q]? with
  | some e => { t with eps := t.eps.setIfInBounds q (f e) }
  | none => t

def Tile.ep (t : Tile) (q : QReg) : Endpoint := t.eps[q.toNat]'(q.isLt)

/-- The credits of discarded outputs return at once (15 R331). -/
def Tile.returnCredits (t : Tile) (os : List Output) : Tile :=
  os.foldl (fun t o => match o with
    | .push q _ _ _ _ _ => t.modEp q.toNat fun e => { e with credits := e.credits + 1 }
    | _ => t) t

/-! ### Unbinding (15 R318, R334; 16 R363) -/

/-- The state fields of a queue control block, bytes [127:96] (15 R318), as the hardware writes them. -/
def State.writeQueueState (s : State) (q : Queue) (qstate : Nat) : State :=
  let bs := leBytes 4 qstate ++ leBytes 4 q.bindGen.toNat ++ leBytes 8 q.released ++ leBytes 8 q.etime.toNat ++ leBytes 8 0
  s.postWrite 0 q.key (q.pa + 96) bs

/-- An endpoint of a tile is bound to a queue. -/
def State.epBound (s : State) (qcb : Nat) (m : Nat × Nat) : Bool :=
  ((s.getTile m.1).eps[m.2]?).any fun e => e.role != .unbound && e.qcb == qcb

/-- A queue that no endpoint is bound to any more is UNBOUND. -/
def State.closeQueue (s : State) (qcb : Nat) : State :=
  match s.queues.find? fun q => q.pa == qcb with
  | none => s
  | some q =>
    if (q.qcb.members ++ q.producers).any (s.epBound qcb) then s
    else
      let s1 := s.writeQueueState q 0
      { s1 with queues := dropFirst (fun x => x.pa == qcb) s1.queues, credits := s1.credits.filter fun c => c.qcb != qcb }

/-- The images of a tile after a context is unbound: one whose contexts are all unbound is gone, with its L0 region descriptor and
its handler entries (16 R363; log 28). -/
def Tile.dropImages (t : Tile) : Tile :=
  let gone := fun (i : BoundImage) => t.ctxs.toList.all fun c => c.state == .unbound || c.image != i.id
  let dead := t.images.filter gone
  { t with images := t.images.filter fun i => !(gone i),
           handlers := t.handlers.filter fun h => !(dead.any fun i => i.id == h.image),
           regions0 := dead.foldl (fun v i => match i.region with
             | some n => v.setIfInBounds n 0
             | none => v) t.regions0 }

/-- A context becomes UNBOUND: its tokens are withdrawn, its endpoints are free, the items in its rings are consumed. -/
def State.unbind (s : State) (tile : Nat) (c : BitVec 2) : State :=
  let s1 := s.switchIn tile c
  let mine := (s1.getTile tile).eps.toList.filter fun e => e.role != .unbound && e.ctx == c
  let s2 := mine.foldl (fun s e => e.ring.foldl (fun s i => s.consumed e.qcb i.id) s) s1
  let s3 := s2.modTile tile fun t =>
    ({ (t.modCtx c fun _ => Ctx.reset) with
        eps := t.eps.map fun e => if e.role != .unbound && e.ctx == c then Endpoint.reset else e } : Tile).dropImages
  mine.foldl (fun s e => s.closeQueue e.qcb) s3

/-! ### Ending a run -/

/-- A loop level at the start of a run: inactive, LCn, LSn and LEn free values, bits [1:0] of the addresses zero (14 R311, 02 R50). -/
def LoopLevel.start (free : Nat) : LoopLevel :=
  { lc := (Config.freeWord free).setWidth 32, ls := Config.freeWord (free + 1) &&& ~~~3, le := Config.freeWord (free + 2) &&& ~~~3,
    active := false, pendLc := none, pendLs := none, pendLe := none }

/-- A strand that runs nothing: its wait, unit and pending faults are gone, its loops are inactive (14 R311). The loop registers of a
run that has ended are read by nothing: the next run starts with free values (`beginRun`). -/
def Strand.clearRun (x : Strand) : Strand :=
  { x with hint := none, ximm := none, lvl := 0, act := false, ctx := 0, mstep := 0, mstepValid := false,
           loop0 := { x.loop0 with active := false, pendLc := none, pendLs := none, pendLe := none },
           loop1 := { x.loop1 with active := false, pendLc := none, pendLs := none, pendLe := none },
           callerLvl := none, wait := none, sample := none, cycles := 0, budgetDue := false, asyncFaults := [] }

/-- A run begins on a strand: its registers and level given, the loop registers free values, the first unit at its entry (14 R311, 15
R328, 11 R247). -/
def Strand.beginRun (x : Strand) (regs : Vector DW 32) (lvl : BitVec 2) (ctx : BitVec 2) (free : Nat) (pc : DW) : Strand :=
  ({ x.clearRun with regs := regs, lvl := lvl, act := true, ctx := ctx, loop0 := LoopLevel.start free,
                     loop1 := LoopLevel.start (free + 3) } : Strand).startUnit pc

/-- The thresher commands of an ended activation that have steps left end at their step boundary and count as completed;
those whose operands are all read run on (09 R204). -/
def State.endThresher (s : State) (tile : Nat) : State :=
  let cut := (s.getTile tile).thresher.filter fun c => decide (c.next < c.steps)
  let stop := (s.getTile tile).stop
  let s := s.modTile tile fun t =>
    { t with thresher := t.thresher.filter (fun c => decide (c.steps ≤ c.next)), stop := none }
  let s := cut.foldl (fun s c => s.completeNum tile c.ctr c.num) s
  match stop with
  | some r => s.completeNum tile r.ctr r.num
  | none => s

/-- Act as another tile, whose turn it is meanwhile. -/
def State.atTile (s : State) (l : Nat) (f : State → State) : State := (f (s.switchTo l)).switchTo s.tile.ltn

/-- Cycles that the watchdog counts: those of a run that neither waits on a page event nor is in the monitor (16 R360). -/
def Strand.counts (x : Strand) : Bool := x.act && x.wait != some .page && x.wait != some .monitor

/-- The strand that an agent is. -/
def Agent.strand : Agent → Option StrandId
  | .fetch x => some x
  | .mrq x => some x
  | .atomic x => some x
  | .joined x => some x
  | .call x => some x
  | .wain _ _ _ => none
  | .prefetch => none
  | .slot => none

/-- A strand waits for no walk any more: the result of one that it asked for is nothing to it (04 R97). -/
def State.dropAskers (s : State) (tile : Nat) (st : StrandId) : State :=
  { s with walks := s.walks.map fun w =>
      { w with askers := w.askers.filter fun a => !(a.tile == tile && a.agent.strand == some st) } }

/-- The replies of a run that has ended are awaited by no strand, and no walk or page event is asked for by one. A barrier request of it
that is still on its way goes on (13 R294). -/
def State.dropAwait (s : State) (tile : Nat) (st : StrandId) : State :=
  { s with atomics := s.atomics.map (fun a => if a.tile == tile && a.strand == st then { a with hold := false, d := 0 } else a),
           pageWaits := s.pageWaits.filter (fun w => !(w.tile == tile && w.agent.strand == some st)),
           barReqs := s.barReqs.filter (fun r => !(r.tile == tile && r.strand == st && r.phase != .queued)),
           walks := (s.dropAskers tile st).walks }

/-- What `abort` and an ending trap undo (15 R331, R333): items back to their heads, credits returned, the recorded flags,
Philox counter, carry set, OROUND and CROUND restored. -/
def State.rollback (s : State) (tile : Nat) (c : BitVec 2) (a : Activation) : State :=
  s.modTile tile fun t =>
    let t := (t.unhold).returnCredits a.outputs
    let t := a.recOround.foldl (fun t p => t.modEp p.1 fun e => { e with oround := p.2 }) t
    let t := { t with phCtrl := a.recCtrl, phCtrh := a.recCtrh }
    t.modCtx c fun x => { x with flags := a.recFlags, due := [], carry := a.recCarry, cround := a.recCround }

/-- A context that leaves its last run becomes IDLE or PARKED; a pending park or kill is carried out (15 R334, 16 R358). -/
def State.leaveRun (s : State) (tile : Nat) (c : BitVec 2) (park : Bool) : State :=
  let cx := (s.getTile tile).ctxs[c.toNat]'(c.isLt)
  let parked := park || cx.parkPending
  let s := s.modTile tile fun t => { t.modCtx c (fun x =>
    { x.landFlags with state := if parked then .parked else .idle, parkPending := false }) with act := none }
  if cx.killPending then s.unbind tile c
  else if parked then s.switchOut tile c
  else s

/-- The carry set of the main strand, s24-s31 (02 R47). -/
def Strand.carry (x : Strand) : Vector DW 8 :=
  Vector.ofFn fun (i : Fin 8) => x.regs[24 + i.val]'(by omega)

/-! ### Traps (16 R351-R356) -/

/-- A cause that an instruction raises, with what its record carries. -/
structure TrapReq where
  cause : Cause
  addr : DW := 0
  info : BitVec 32 := 0
  localSrc : Bool := false
  step : Option (BitVec 16) := none
  /-- SR_FVAL names the word before: the `ximm` (02 R40). -/
  back : Bool := false
  deriving DecidableEq, Repr

/-- A cause without more. -/
def raise (c : Cause) : TrapReq := { cause := c }

/-- The trap record of 16 R354. -/
def trapRecord (gid : Nat) (now : Nat) (t : TrapReq) (hnd final dropped parked : Bool) (lvl : Nat) (runs ctx : Nat)
    (epc fval : DW) (id : BitVec 32) (qset : BitVec 16) : List Byte :=
  recordBytesOf [(0, 1, 16), (1, 1, t.cause.code.toNat),
    (2, 1, (if hnd then 1 else 0) + (if final then 2 else 0) + (if dropped then 4 else 0)
      + (if t.step.isSome then 8 else 0) + (if t.localSrc then 16 else 0) + (if parked then 32 else 0) + lvl * 64),
    (3, 1, runs), (4, 1, ctx), (6, 2, (t.step.getD 0).toNat), (8, 8, epc.toNat), (16, 8, fval.toNat),
    (24, 4, id.toNat), (28, 2, qset.toNat), (32, 4, gid), (36, 8, now), (44, 8, t.addr.toNat), (52, 4, t.info.toNat)]

/-- A cause that is re-run on the spot (16 R356). -/
def TrapReq.isLocal (t : TrapReq) : Bool := t.cause == .sheaf || (t.cause == .uncorr && t.localSrc)

/-- A trap on the main strand of a tile: it ends the activation as `abort` does, writes the trap record and parks the
context, or returns it to IDLE (16 R353, R356; 15 R331). -/
def State.mainTrap (s : State) (tile : Nat) (t : TrapReq) (epc fval : DW) : State :=
  let ti := s.getTile tile
  let x := ti.main
  let c := x.ctx
  let cx := ti.ctxs[c.toNat]'(c.isLt)
  let fid := (ti.act.map Activation.firstId).getD 0
  let qset : BitVec 16 := BitVec.ofNat 16 (packList 1 (ti.eps.toList.map fun e => if e.ring.any RingItem.held then 1 else 0))
  let runs := if cx.runs ≠ 0 ∧ cx.runsId = fid then min 255 (cx.runs + 1) else 1
  let park := !(t.isLocal && decide (runs ≤ 2))
  let ref : RunRef := { strand := .main, run := (ti.act.map Activation.run).getD 0 }
  let final := (ti.act.map Activation.final).getD false
  let step := match t.step with
    | some v => some v
    | none => ((ti.stop.toList ++ ti.thresher).find? fun k => decide (k.next < k.steps)).map fun k => BitVec.ofNat 16 k.next
  let rec' := trapRecord (s.gid tile) s.tb.toNat { t with step := step } false final false park x.lvl.toNat runs c.toNat
    epc fval fid qset
  let s := match ti.act with
    | some a => s.rollback tile c a
    | none => s
  let s := (s.endThresher tile).clearErrs tile ref
  let s := s.dropAwait tile .main
  let held := (ti.eps.toList.zipIdx.map fun p => (p.2, (p.1.ring.filter RingItem.held).length)).filter fun p => p.2 != 0
  let s := s.modTile tile fun u =>
    { (u.modCtx c fun y => { y with runs := runs, runsId := fid, lastHeld := held })
      with main := { u.main.clearRun with cause := t.cause.code, epc := epc, fval := fval },
           remapAsked := u.remapAsked || (t.isLocal && park),
           remapCtxs := if t.isLocal && park then c :: u.remapCtxs else u.remapCtxs }
  let s := s.post ti.paddock .fault rec' (if park then some (tile, c) else none)
  s.leaveRun tile c park

/-- A trap on the handler strand of a tile: it ends the handler; its message stays in its slot with REDEL increased, or is
dropped at the third trap; when all three have a local cause the tile asks for its remap (11 R250, 16 R353, R356). -/
def State.handlerTrap (s : State) (tile : Nat) (t : TrapReq) (epc fval : DW) : State :=
  let ti := s.getTile tile
  let x := ti.handler
  let c := x.ctx
  let m := ti.mailbox.head?
  let redel := (m.map Msg.redel).getD 0
  let drop := decide (2 ≤ redel)
  let ref : RunRef := { strand := .handler, run := (ti.handlerRun.map HandlerRun.run).getD 0 }
  let rec' := trapRecord (s.gid tile) s.tb.toNat t true false drop false x.lvl.toNat (redel + 1) c.toNat epc fval
    ((m.map Msg.id).getD 0) 0
  let s := s.clearErrs tile ref
  let s := s.dropAwait tile .handler
  let s := s.modTile tile fun u =>
    { u with handlerRun := none,
             handler := { u.handler.clearRun with cause := t.cause.code, epc := epc, fval := fval },
             mailbox := if drop then u.mailbox.drop 1 else modAt (fun m => { m with redel := m.redel + 1 }) 0 u.mailbox,
             handlerLocal := if drop then 0 else u.handlerLocal + (if t.isLocal then 1 else 0),
             remapAsked := u.remapAsked || (drop && t.isLocal && decide (2 ≤ u.handlerLocal)) }
  s.post ti.paddock .fault rec' none

/-- TAKING A TRAP: the one operation every cause goes through (16 R351-R353). -/
def State.trapStrand (s : State) (tile : Nat) (st : StrandId) (t : TrapReq) (epc fval : DW) : State :=
  match st with
  | .main => s.mainTrap tile t epc fval
  | .handler => s.handlerTrap tile t epc fval

/-- A trap of the issuing strand: SR_EPC is the unit's first word, SR_FVAL the word that caused it (02 R41). -/
def State.takeTrap (s : State) (t : TrapReq) : State :=
  s.trapStrand s.tile.ltn s.cur t s.st.unit (if t.back then s.st.pc - 4 else s.st.pc)

/-! ### How a word ends -/

/-- The issuing strand goes on with the next unit. -/
def State.retire (s : State) : State := s.onSt Strand.retire

/-- Why a word does not complete in sequential flow. -/
inductive Stop where
  /-- A cause is raised; the state holds what the word had changed before (00 R11). -/
  | trap (t : TrapReq) (s : State)
  /-- The strand waits (02 R44). -/
  | wait (w : Wait) (s : State)
  /-- The unit is over and the program counter already placed: a taken branch, the end of a run, a monitor call. -/
  | ended (s : State)

/-- The effect of a word: the state in which it completes, or why it does not. -/
abbrev Exec := Except Stop State

/-- Raise a cause in a state. -/
def State.trap {α : Type} (s : State) (c : Cause) : Except Stop α := .error (.trap (raise c) s)
/-- Raise a cause with the address that its record carries. -/
def State.trapAt {α : Type} (s : State) (c : Cause) (a : DW) : Except Stop α :=
  .error (.trap { cause := c, addr := a } s)
/-- Wait and execute the word again. -/
def State.stall {α : Type} (s : State) (k : WaitKind) : Except Stop α := .error (.wait (.retry k) s)
/-- Raise a cause unless a condition holds. -/
def State.check (s : State) (ok : Bool) (c : Cause) : Except Stop Unit := if ok then .ok () else s.trap c

/-- The immediate of a signed field: an `ximm` supplies the bits above it (02 R40). -/
def State.imm (s : State) {n : Nat} (f : BitVec n) : DW :=
  match s.st.ximm with
  | none => f.signExtend 64
  | some e => (e ++ f).signExtend 64

/-- The immediate of an unsigned field (02 R40). -/
def State.immU (s : State) {n : Nat} (f : BitVec n) : DW :=
  match s.st.ximm with
  | none => f.zeroExtend 64
  | some e => (e ++ f).zeroExtend 64

/-- Which strand may execute an instruction (02 R36, 06 R140, 11 R255, 13 R294). -/
def strandMay (st : StrandId) (i : Instr) : Bool :=
  match st with
  | .main => (match i with
    | .amReply .. | .amEnd => false
    | _ => true)
  | .handler => (match i with
    | .stK .. | .barJoin .. | .barLeave .. => false
    | .vld .. | .vldM .. | .vldG32 .. | .vldG64 .. | .vldCvtF32 .. | .vldCvtF64 .. => false
    | .vst .. | .vstM .. | .vstS32 .. | .vstS64 .. => false
    | .vaddFp .. | .vsubFp .. | .vmulFp .. | .vfma .. | .vfms .. | .vdiv .. | .vsqrt .. | .vminFp .. | .vmaxFp .. => false
    | .vabsFp .. | .vnegFp .. | .vrcp .. | .vrsq .. => false
    | .vaddInt .. | .vsubInt .. | .vadds .. | .vsubs .. | .vmulInt .. | .vmulh .. | .vminInt .. | .vmaxInt .. => false
    | .vand .. | .vor .. | .vxor .. | .vshl .. | .vshr .. | .vabsInt .. => false
    | .vcmpEq .. | .vcmpNe .. | .vcmpLt .. | .vcmpLe .. | .vcmpUn .. | .vcvt .. => false
    | .vlog2 .. | .vexp2 .. | .vrand .. | .vrandF32 .. | .vsum .. | .vmaxi .. | .vmini .. => false
    | .vperm .. | .vrot .. | .vbcast32 .. | .vbcast64 .. | .vins32 .. | .vext32 .. | .vlane .. | .vsel32 .. => false
    | .vmov32 .. | .vins64 .. | .vext64 .. | .vsel64 .. | .vmov64 .. => false
    | .kand .. | .kor .. | .kxor .. | .kandn .. | .kset .. | .kget .. | .kpop .. | .kffs .. => false
    | .mma .. | .mmaZ .. | .mmaT .. | .mmaTZ .. | .accZero .. | .accLd .. | .accSt .. | .accCvt .. => false
    | .sqQuant .. | .sqDeq .. | .sqAlign .. | .sqScale .. | .bfmtSet .. | .bfmtGet .. => false
    | .qpush .. | .qpushAt .. | .qmark .. | .qmarkF .. | .qpop .. | .qpopm .. | .qpeek .. | .qstat .. => false
    | .commit | .abort | .yield => false
    | .shTag .. | .shChk .. | .shRed .. | .shAck .. | .shRel .. => false
    | _ => true)

/-- Forms that belong to a feature FEAT0 reports absent (16 R364); forms that depend on a bank format or an operand value
are tested by their own meanings. -/
def featureMasked (f : BitVec 9) (i : Instr) : Bool :=
  let f64 := fun (ty : BitVec 1) => ty == 1 && !f.getLsbD 0
  let t64 := fun (ty : BitVec 3) => ty == 1 && !f.getLsbD 0
  match i with
  | .vaddFp ty .. | .vsubFp ty .. | .vmulFp ty .. | .vfma ty .. | .vfms ty .. | .vdiv ty .. | .vminFp ty .. => f64 ty
  | .vmaxFp ty .. | .vsqrt ty .. | .vabsFp ty .. | .vnegFp ty .. | .vrcp ty .. | .vrsq ty .. => f64 ty
  | .vcmpEq ty .. | .vcmpNe ty .. | .vcmpLt ty .. | .vcmpLe ty .. | .vcmpUn ty .. => t64 ty
  | .vsum ty .. | .vmaxi ty .. | .vmini ty .. => t64 ty
  | .vcvt g k .. => (g == 6 || k == 6) && !f.getLsbD 0
  | .shRed .. => !f.getLsbD 5
  | .hintPg .. => !f.getLsbD 6
  | _ => false

/-- What stops a word before its own checks: ILL under 02 R36, R37, R40. -/
def gate (i : Instr) (s : State) : Option TrapReq :=
  if s.st.ximm.isSome && !(hasExtImm i) then some { cause := .ill, back := true }
  else if s.st.hint.isSome && isHint i then some (raise .ill)
  else if !(strandMay s.cur i) then some (raise .ill)
  else if featureMasked s.tile.feat i then some (raise .ill)
  else none

/-- BUDGET at the issue boundary of the strand's unit: SR_EPC and SR_FVAL are both the unit's first word, where the boundary is (16 R352,
R360; DEDUCED, log 49). -/
def State.takeBudget (s : State) : State := s.trapStrand s.tile.ltn s.cur (raise .budget) s.st.unit s.st.unit

/-- How a word ends: BUDGET that has fallen due is raised when the word raises no cause of its own (16 R352, R360). -/
def finish (s : State) (r : Exec) : State :=
  match r with
  | .error (.trap t s') => s'.takeTrap t
  | .ok s' => if s.st.budgetDue then s.takeBudget else s'.retire
  | .error (.ended s') => if s.st.budgetDue then s.takeBudget else s'
  | .error (.wait w s') =>
    if s.st.budgetDue then s.takeBudget else s'.onSt fun x => { x with wait := some w }

/-- The meaning of a word: what stops it first, then its body, then how it ends. -/
def run (i : Instr) (s : State) (body : State → Exec) : Host.Outcome State Fault Refusal :=
  .next (match gate i s with
    | some t => s.takeTrap t
    | none => finish s (body s))

/-- The meaning of an event is total. -/
def event (s : State) : Host.Outcome State Fault Refusal := .next s

/-- BranchTo of 14 R304. -/
def State.branchTo (s : State) (t : DW) : Exec :=
  if t.toNat % 4 ≠ 0 then s.trapAt .align t
  else if t.toNat < s.cx.cbase.toNat ∨ s.cx.clim.toNat ≤ t.toNat then s.trapAt .prot t
  else .error (.ended (s.onSt fun x => x.startUnit t))

/-! ### Monitor calls and return (16 R366) -/

/-- `trap n` at L1: the level is recorded and becomes 2; SR_CAUSE, SR_EPC and SR_FVAL name the call. -/
def State.enterMonitor (s : State) : State :=
  s.onSt fun x => { x with cause := Cause.mcall.code, epc := x.unit, fval := x.pc, callerLvl := some x.lvl, lvl := 2 }

/-- `eret`: the recorded level, and the word after SR_FVAL. -/
def State.exitMonitor (s : State) : State :=
  s.onSt fun x => ({ x with lvl := x.callerLvl.getD x.lvl, callerLvl := none }).startUnit (x.fval + 4)

end Sys2Proof.Machine
end

