-- ==== Sys2Proof/Machine/Arbiter.lean ====
section
/-! DEFINITION. Sys2Proof/Machine/Arbiter.lean: weighted round-robin among paddocks, and what waits at a Kyxus link (17 R374, R375; 11
R261, R263). -/
namespace Sys2Proof.Machine

/-! ### Weighted round-robin (17 R375) -/

/-- WEIGHT of a paddock; one that is not configured has none. -/
def State.weight (s : State) (p : Nat) : Nat := ((s.pcfg (BitVec.ofNat 5 p)).map fun c => c.weight.toNat).getD 0

/-- The next grant of an arbiter. The paddock whose turn it is goes on while it waits and has grants left; then the turn passes, in
ascending paddock number and round again, to the next paddock that waits. -/
def Arbiter.grant (w : Nat → Nat) (waits : Nat → Bool) (a : Arbiter) : Option (Nat × Arbiter) :=
  if waits a.turn && decide (a.used < w a.turn) then some (a.turn, { a with used := a.used + 1 })
  else (((List.range 32).map fun i => (a.turn + 1 + i) % 32).find? fun p => waits p && decide (0 < w p)).map fun p =>
    (p, { turn := p, used := 1 })

/-- The arbiter as it stands after granting a paddock, if the next grant is that paddock's. -/
def Arbiter.grants (w : Nat → Nat) (waits : Nat → Bool) (a : Arbiter) (p : Nat) : Option Arbiter :=
  match a.grant w waits with
  | some (q, b) => if q = p then some b else none
  | none => none

/-- CXL port of a second-tier address: the eight ports are interleaved at 4 KiB (04 R91; all of them populated, log 45). -/
def cxlPort (pa : Nat) : Nat := (pa - Config.tier2Base) / 4096 % 8

/-- A paddock's 64-byte request to a CXL port is granted. Which other paddocks have requests waiting there is an input of the event:
`bits` has their bits set (log 45). -/
def State.cxlTurn (s : State) (p : BitVec 5) (pa : Nat) : Option State :=
  (((s.cxlArbs[cxlPort pa]?).getD Arbiter.reset).grants s.weight (fun q => q == p.toNat || s.input.bits.getLsbD q) p.toNat).map fun b =>
    { s with cxlArbs := s.cxlArbs.setIfInBounds (cxlPort pa) b }

/-! ### Links -/

def State.link (s : State) (l : Nat) : Link := (s.links[l]?).getD Link.reset

def State.modLink (s : State) (l : Nat) (f : Link → Link) : State := { s with links := s.links.setIfInBounds l (f (s.link l)) }

/-- The lowest link that a paddock may send on and that is not down (11 R263, 17 R374). -/
def State.linkFor (s : State) (p : BitVec 5) : Option Nat :=
  match s.pcfg p with
  | none => none
  | some c => (List.range 16).find? fun l => c.links.getLsbD l && (s.link l).state != .down

/-- A link that a paddock may send on is not down (11 R263, 17 R374). -/
def State.canLeave (s : State) (p : BitVec 5) : Bool := (s.linkFor p).isSome

/-- Beats of one flit. -/
def flitBeats : Nat := 244

/-- Bytes as the bodies of flits, the last one filled up with zeros. -/
def bodiesOf : Nat → List Byte → List (List Byte)
  | 0, _ => []
  | n + 1, bs => if bs.isEmpty then [] else leBytes flitBeats (ofLe (bs.take flitBeats)) :: bodiesOf n (bs.drop flitBeats)

/-- A packet enters its paddock's send queue of the link that leads on; where no link does, it is dropped at the IO die (11 R263, 17
R374). What a packet looks like on a link is the model's choice (log 40). -/
def State.toLink (s : State) (p : BitVec 5) (vc : BitVec 2) (bytes : List Byte) : State :=
  match s.linkFor p with
  | none => s
  | some l => s.modLink l fun k =>
    { k with sendQ := k.sendQ ++ (bodiesOf (bytes.length / flitBeats + 1) bytes).map fun b => { paddock := some p, vc := vc, body := b } }

end Sys2Proof.Machine
end

