-- ==== Sys2Proof/Machine/Operands.lean ====
section
/-! DEFINITION. Sys2Proof/Machine/Operands.lean: the values of scalar operations, the scalar comparison, and the operand forms
of addresses, branch targets and immediates. -/
namespace Sys2Proof.Machine

/-! ### The scalar comparison (14 R299) -/

/-- ScalarCond for the six comparisons that are assigned. -/
def scalarCond (c : Nat) (x y : DW) : Bool :=
  match c with
  | 0 => x == y
  | 1 => x != y
  | 2 => x.slt y
  | 3 => !(x.slt y)
  | 4 => x.ult y
  | _ => !(x.ult y)

/-- 1 where a comparison holds, else 0. -/
def boolDW (b : Bool) : DW := if b then 1 else 0

/-! ### Values of the register operations (14 R300) -/

/-- The shift count y mod 64. -/
def shiftCount (y : DW) : Nat := y.toNat % 64

/-- The upper half of a signed product. -/
def mulHighI (x y : DW) : DW := BitVec.ofInt 64 (x.toInt * y.toInt / (2 ^ 64 : Nat))
/-- The upper half of an unsigned product. -/
def mulHighN (x y : DW) : DW := BitVec.ofNat 64 (x.toNat * y.toNat / 2 ^ 64)
/-- Signed division that rounds toward zero; by zero it gives −1. -/
def divI (x y : DW) : DW := if y = 0 then BitVec.allOnes 64 else BitVec.ofInt 64 (divZero x.toInt y.toInt)
/-- Unsigned division; by zero it gives all ones. -/
def divN (x y : DW) : DW := if y = 0 then BitVec.allOnes 64 else BitVec.ofNat 64 (x.toNat / y.toNat)
/-- Signed remainder; by zero it gives x. -/
def remI (x y : DW) : DW := if y = 0 then x else BitVec.ofInt 64 (x.toInt - y.toInt * divZero x.toInt y.toInt)
/-- Unsigned remainder; by zero it gives x. -/
def remN (x y : DW) : DW := if y = 0 then x else BitVec.ofNat 64 (x.toNat - y.toNat * (x.toNat / y.toNat))
/-- A signed value saturated to 64 bits. -/
def satI64 (v : Int) : DW := BitVec.ofInt 64 (clampInt (-(2 ^ 63 : Nat)) ((2 ^ 63 : Nat) - 1) v)
/-- Bytes in reverse order. -/
def bswap64 (x : DW) : DW := BitVec.ofNat 64 (ofLe (leBytes 8 x.toNat).reverse)

/-! ### Forms of the register and immediate operations -/

/-- `op sD, sA, sB`. -/
def scalarOp (i : Instr) (d a b : SReg) (f : DW → DW → DW) (s : State) : Host.Outcome State Fault Refusal :=
  run i s fun s => .ok (s.setReg d (f (s.reg a) (s.reg b)))

/-- `op sD, sA`. -/
def scalarUn (i : Instr) (d a : SReg) (f : DW → DW) (s : State) : Host.Outcome State Fault Refusal :=
  run i s fun s => .ok (s.setReg d (f (s.reg a)))

/-- `op sD, sA, i` with a signed immediate. -/
def scalarImm (i : Instr) (d a : SReg) (m : BitVec 16) (f : DW → DW → DW) (s : State) : Host.Outcome State Fault Refusal :=
  run i s fun s => .ok (s.setReg d (f (s.reg a) (s.imm m)))

/-- `op sD, sA, i` with a shift count: 64 or more raises ILL (14 R301). -/
def scalarShift (i : Instr) (d a : SReg) (m : BitVec 16) (f : DW → Nat → DW) (s : State) : Host.Outcome State Fault Refusal :=
  run i s fun s =>
    if 64 ≤ (s.immU m).toNat then s.trap .ill else .ok (s.setReg d (f (s.reg a) (s.immU m).toNat))

/-! ### Branch targets (14 R305-R307) -/

/-- w + offset × 4, w the address of the branch word. -/
def State.target (s : State) {n : Nat} (off : BitVec n) : DW := s.st.pc + s.imm off * 4

/-- A conditional branch. -/
def condBranch (i : Instr) (c : Nat) (a b : SReg) (off : BitVec 11) (s : State) : Host.Outcome State Fault Refusal :=
  run i s fun s => if scalarCond c (s.reg a) (s.reg b) then s.branchTo (s.target off) else .ok s

end Sys2Proof.Machine
end

