-- ==== Sys2Proof/Machine/Convert.lean ====
section
/-! DEFINITION. Sys2Proof/Machine/Convert.lean: the format codes of 07 R150 and the conversion of one element between any two
of them (05 R117, 08 R186). Codes 13 and 14 name `.n64` and `.i64` here, as `vcvt` uses them. -/
namespace Sys2Proof.Machine

/-- The float format of a format code. -/
def fmtOf (c : Nat) : Option Fmt :=
  match c with
  | 6 => some fp64
  | 7 => some fp32
  | 8 => some fp16
  | 9 => some bf16
  | 10 => some e4m3
  | 11 => some e5m2
  | 12 => some e2m1
  | _ => none

/-- The width and signedness of an integer format code. -/
def intOf (c : Nat) : Option (Nat × Bool) :=
  match c with
  | 0 => some (8, false)
  | 1 => some (8, true)
  | 2 => some (16, false)
  | 3 => some (16, true)
  | 4 => some (32, false)
  | 5 => some (32, true)
  | 13 => some (64, false)
  | 14 => some (64, true)
  | _ => none

/-- Bits of a code of a `vcvt` format. -/
def cvtWidth (c : Nat) : Nat :=
  match fmtOf c, intOf c with
  | some g, _ => g.width
  | none, some (w, _) => w
  | none, none => 8

/-- Bits of an element of a bank format (07 R150): 13 and 14 are the squares there. -/
def bankWidth (c : Nat) : Nat :=
  match c with
  | 13 => 8
  | 14 => 4
  | 15 => 32
  | _ => cvtWidth c

/-- The plane-capable formats (06 R136, 07 R150). -/
def planeCapable (c : Nat) : Bool := decide (6 ≤ c) && decide (c ≤ 14)

/-- Smallest and largest value of an integer format. -/
def intRange (w : Nat) (sg : Bool) : Int × Int :=
  if sg then (-(2 ^ (w - 1) : Nat), (2 ^ (w - 1) : Nat) - 1) else (0, (2 ^ w : Nat) - 1)

/-- An integer, saturated to a format (05 R117). -/
def satInt (w : Nat) (sg : Bool) (v : Int) : Nat × Flags :=
  let (lo, hi) := intRange w sg
  let c := clampInt lo hi v
  (wrap w c, flagIf (decide (c ≠ v)) flSAT)

/-- A finite value rounded to an integer. -/
def roundToInt (rm : RMode) (neg : Bool) (m : Nat) (e : Int) : Int × Bool :=
  let (n, r, d) := splitAt m e 0
  let n' := if roundsUp rm neg n r d false then n + 1 else n
  ((if neg then -(n' : Int) else n'), decide (r ≠ 0))

/-- CvtElem of 05 R117 for a value that comes from a float, an infinity or a NaN. -/
def cvtFromVal (v : FVal) (g : Nat) (rm : RMode) : Nat × Flags :=
  match fmtOf g, intOf g with
  | some gf, _ =>
    match v with
    | .nan n sg => if gf.hasNan then (nanWith gf n, flagIf sg flNV) else (0, flNV)
    | .inf n => if gf.hasInf then (infWith gf n, 0) else (gf.signBit n + gf.maxCode, flOF)
    | .fin n m e => roundVal gf rm n m e false
  | none, some (w, sg) =>
    match v with
    | .nan _ _ => (0, flNV)
    | .inf n => ((wrap w (if n then (intRange w sg).1 else (intRange w sg).2)), flSAT)
    | .fin n m e =>
      let (i, nx) := roundToInt rm n m e
      let (c, fl) := satInt w sg i
      (c, fl ||| flagIf nx flNX)
  | none, none => (0, 0)

/-- The value of a code of a `vcvt` format, an integer as an exact value. -/
def cvtValue (f : Nat) (code : Nat) : FVal :=
  match fmtOf f, intOf f with
  | some ff, _ => decodeFmt ff code
  | none, some (w, sg) =>
    let i : Int := if sg then signed w code else code
    .fin (decide (i < 0)) i.natAbs 0
  | none, none => .fin false 0 0

/-- CvtElem of 05 R117, with the rounding mode `vcvt` gives it (08 R186); the same format copies the code. -/
def cvtElem (f g : Nat) (rm : RMode) (code : Nat) : Nat × Flags :=
  if f = g then (code, 0)
  else match intOf f, intOf g with
  | some (w, sg), some (w', sg') =>
    satInt w' sg' (if sg then signed w code else (code : Int))
  | _, _ => cvtFromVal (cvtValue f code) g rm

end Sys2Proof.Machine
end

