-- ==== Sys2Proof/Machine/Philox.lean ====
section
/-! DEFINITION. Sys2Proof/Machine/Philox.lean: the Philox4x32-10 generator (07 R164) and the words an instruction draws
(R165). -/
namespace Sys2Proof.Machine

/-- One round on the counter words under the key words (07 R164). -/
def philoxRound (k0 k1 x0 x1 x2 x3 : Nat) : Nat × Nat × Nat × Nat :=
  let p := 0xD2511F53 * x0
  let q := 0xCD9E8D57 * x2
  (((q / 2 ^ 32).xor x1).xor k0, q % 2 ^ 32, ((p / 2 ^ 32).xor x3).xor k1, p % 2 ^ 32)

/-- The rounds that are left, the key bumped before each but the first. -/
def philoxGo : Nat → Nat → Nat → Nat × Nat × Nat × Nat → Nat × Nat × Nat × Nat
  | 0, _, _, x => x
  | n + 1, k0, k1, (x0, x1, x2, x3) =>
    philoxGo n ((k0 + 0x9E3779B9) % 2 ^ 32) ((k1 + 0xBB67AE85) % 2 ^ 32) (philoxRound k0 k1 x0 x1 x2 x3)

/-- Philox(K, C): key and counter as 64- and 128-bit numbers, four words (07 R164). -/
def philox (key c : Nat) : Nat × Nat × Nat × Nat :=
  philoxGo 10 (bitsOf key 0 32) (bitsOf key 32 32) (bitsOf c 0 32, bitsOf c 32 32, bitsOf c 64 32, bitsOf c 96 32)

/-- Draw(k) under a key and a first counter value (07 R165). -/
def draw (key c0 k : Nat) : Nat :=
  let (a, b, c, d) := philox key ((c0 + k / 4) % 2 ^ 128)
  match k % 4 with
  | 0 => a
  | 1 => b
  | 2 => c
  | _ => d

/-- The counter after n words (07 R165). -/
def advance (c n : Nat) : Nat := (c + (n + 3) / 4) % 2 ^ 128

end Sys2Proof.Machine
end

