-- ==== Sys2Proof/Machine/Squares.lean ====
section
/-! DEFINITION. Sys2Proof/Machine/Squares.lean: the square record (07 R154-R159), quantising (R160-R163), AIC32 (R169-R172),
reduced-precision reads (R173), one accumulation step (R174-R176), and the residue of a payload (10 R223). A header is the
number its 64 bytes hold. -/
namespace Sys2Proof.Machine

/-! ### Header fields (07 R154) -/

def hE (h : Nat) : Nat := bitsOf h 0 8
def hSpecial (h : Nat) : Nat := bitsOf h 8 8
def hFormat (h : Nat) : Nat := bitsOf h 16 8
def hVersion (h : Nat) : Nat := bitsOf h 32 16
def hRow (h i : Nat) : Nat := bitsOf h (64 + 2 * i) 2
def hCol (h j : Nat) : Nat := bitsOf h (128 + 2 * j) 2
def hRowX (h : Nat) : Nat := bitsOf h 64 64
def hColX (h : Nat) : Nat := bitsOf h 128 64
def hChunk (h : Nat) : Nat := bitsOf h 192 24
def hTensor (h : Nat) : Nat := bitsOf h 216 24
def hTag (h : Nat) : Nat := bitsOf h 256 64

/-- A number with one field replaced. -/
def setBits (h lo n v : Nat) : Nat := h - bitsOf h lo n * 2 ^ lo + (v % 2 ^ n) * 2 ^ lo

/-! Fields of a tag (10 R222). -/
def tagResidue (t : Nat) : Nat := bitsOf t 0 31
def tagRoute (t : Nat) : Nat := bitsOf t 31 16
def tagHop (t : Nat) : Nat := bitsOf t 47 6
def tagGen (t : Nat) : Nat := bitsOf t 53 8
def tagBad (t : Nat) : Bool := bitOf t 62
def tagPlain (t : Nat) : Bool := bitOf t 63

/-- Record length in bytes (07 R154; 02 R61). -/
def recordBytes (fmt : Nat) : Nat := if fmt = 13 then 1088 else if fmt = 14 then 576 else 4160

/-- A square format code. -/
def isSquareFmt (c : Nat) : Bool := decide (13 ≤ c) && decide (c ≤ 15)

/-! ### Decoding -/

/-- A value times a power of two. -/
def FVal.scale (v : FVal) (k : Int) : FVal :=
  match v with
  | .fin n m e => .fin n m (e + k)
  | w => w

/-- Element (i, j) of a square of a format (07 R156, R158). -/
def squareValue (fmt h i j code : Nat) : FVal :=
  if fmt = 15 then
    let x := signed 32 code
    .fin (decide (x < 0)) x.natAbs ((hE h : Int) - 151)
  else if fmt = 14 ∧ code = 8 then (decodeFmt e5m2 (hSpecial h)).scale ((hE h : Int) - 127)
  else
    (decodeFmt (if fmt = 13 then e4m3 else e2m1) code).scale ((hE h : Int) - 127 + hRow h i + hCol h j)

/-- AlignedInt (07 R159). -/
def alignedInt (fmt h i j code : Nat) : Int :=
  if fmt = 15 then signed 32 code
  else if fmt = 14 ∧ code = 8 then 0
  else
    match decodeFmt (if fmt = 13 then e4m3 else e2m1) code with
    | .fin n m e =>
      let k : Int := e + (if fmt = 13 then 9 else 1) + hRow h i + hCol h j
      let v : Int := ((m * 2 ^ k.toNat : Nat) : Int)
      if n then -v else v
    | _ => 0

/-- Sum over the 1,024 elements in row-major order. -/
def sumElems (f : Nat → Nat → Int) : Int :=
  (List.range 1024).foldl (fun s k => s + f (k / 32) (k % 32)) 0

/-- Codes among the 1,024 that a test accepts. -/
def countElems (f : Nat → Nat → Bool) : Nat :=
  (List.range 1024).foldl (fun s k => if f (k / 32) (k % 32) then s + 1 else s) 0

/-- 2^31 − 1. -/
def resP : Int := 2147483647

/-- Residue31 of a block (10 R223); a plain format takes raw codes. -/
def residue31 (fmt h : Nat) (code : Nat → Nat → Nat) : Nat :=
  let val : Nat → Nat → Int := fun i j => if isSquareFmt fmt then alignedInt fmt h i j (code i j) else (code i j : Int)
  let s : Int := sumElems fun i j => ((32 * i + j + 1 : Nat) : Int) * val i j
  let s := if fmt = 14 then s + 1025 * hSpecial h + 1026 * countElems (fun i j => code i j == 8) else s
  let s := if fmt = 13 then s + 1026 * countElems (fun i j => code i j % 128 == 127) else s
  (s % resP).toNat

/-! ### Quantising (07 R160-R163) -/

/-- The exponent an element needs: the least m with |x| ≤ maxP × 2^(m − 127) (07 R160). -/
def needExp (fmt : Nat) (v : FVal) : Option Int :=
  match v with
  | .fin _ m e =>
    if m = 0 then none
    else
      let l := Nat.log2 m
      let (c, lc, s) : Nat × Nat × Nat := if fmt = 13 then (7, 2, 6) else (3, 1, 1)
      let t : Int := (l : Int) + e - s - lc
      some ((if m * 2 ^ lc ≤ c * 2 ^ l then t else t + 1) + 127)
  | _ => none

/-- Maximum of exponents, none where every element is zero or not finite. -/
def maxExp (f : Nat → Option Int) (n : Nat) : Option Int :=
  (List.range n).foldl (fun a i => match a, f i with
    | none, b => b
    | some x, none => some x
    | some x, some y => some (max x y)) none

/-- ElemCode of 07 R161 at scale 2^k, with the random word of the element when it rounds stochastically. -/
def elemCode (fmt : Nat) (v : FVal) (k : Int) (u : Option Nat) : Nat × Flags :=
  let g := if fmt = 13 then e4m3 else e2m1
  match v with
  | .fin n m e =>
    if m = 0 then ((if fmt = 13 then g.signBit n else 0), 0)
    else
      let e' := e - k
      let maxC := g.maxCode
      let high := match decodeFmt g maxC with
        | .fin _ mm me => decide (0 < scaled false m e' (min e' me) - scaled false mm me (min e' me))
        | _ => false
      if high then (g.signBit n + maxC, flOF ||| flNX)
      else
        let c := match u with
          | some w => (roundSto g n m e' w).1
          | none => (roundFin g .near n m e' false).1
        let zero := decide (c % 2 ^ (g.width - 1) = 0)
        let c' := if zero && decide (fmt = 14) then 0 else c
        let exact := match decodeFmt g c' with
          | .fin n2 m2 e2 => decide (scaled n m e' (min e' e2) = scaled n2 m2 e2 (min e' e2))
          | _ => false
        (c', flagIf (!exact) flNX ||| flagIf zero flUF)
  | w => if fmt = 14 then (8, 0) else (g.signBit w.neg? + g.maxCode, flSqNf)

/-- SPECIAL of an sq4 block and its flag (07 R162); 0 for sq8 (R163). -/
def specialOf (fmt : Nat) (x : Nat → Nat → FVal) : Nat × Flags :=
  if fmt = 13 then (0, 0)
  else
    let nans := countElems fun i j => (x i j).isNan
    let pos := countElems fun i j => x i j == .inf false
    let neg := countElems fun i j => x i j == .inf true
    if nans ≠ 0 ∨ (pos ≠ 0 ∧ neg ≠ 0) then (0x7E, flSqNan)
    else if pos ≠ 0 then (0x7C, 0)
    else if neg ≠ 0 then (0xFC, 0)
    else (0, 0)

/-- The number whose 32 two-bit fields are given (07 R154). -/
def pack2 (f : Nat → Nat) : Nat := packList 2 ((List.range 32).map f)

/-- SquareQuant (07 R160): header without identity, codes in row-major order, flags. `u` gives the random word of an element
when the rounding is stochastic. -/
def squareQuant (fmt : Nat) (x : Nat → Nat → FVal) (u : Option (Nat → Nat)) : Nat × List Nat × Flags :=
  let m := fun i j => needExp fmt (x i j)
  let top := maxExp (fun k => m (k / 32) (k % 32)) 1024
  let (e, f1) : Int × Flags := match top with
    | none => (0, 0)
    | some t => (clampInt 0 255 (t - 6), flagIf (decide (t - 6 < 0 ∨ 255 < t - 6)) flSqClamp)
  let rs : List Nat := (List.range 32).map fun i => match maxExp (m i) 32 with
    | none => 0
    | some r => (clampInt 0 3 (r - e - 3)).toNat
  let r : Nat → Nat := fun i => rs.getD i 0
  let cs : List Nat := (List.range 32).map fun j =>
    match maxExp (fun i => (m i j).map (fun v => v - (r i : Int))) 32 with
    | none => 0
    | some v => (clampInt 0 3 (v - e)).toNat
  let c : Nat → Nat := fun j => cs.getD j 0
  let (sp, f2) := specialOf fmt x
  let codes := (List.range 1024).map fun k =>
    let i := k / 32
    let j := k % 32
    elemCode fmt (x i j) (e - 127 + r i + c j) (u.map fun f => f k)
  (e.toNat + sp * 2 ^ 8 + fmt * 2 ^ 16 + pack2 r * 2 ^ 64 + pack2 c * 2 ^ 128,
    codes.map Prod.fst, codes.foldl (fun a p => a ||| p.2) (f1 ||| f2))

/-! ### AIC32 (07 R169-R172) -/

/-- ToAic of 07 R169. -/
def toAic (v : FVal) (en : Nat) : Int × Flags :=
  match v with
  | .nan _ _ => (0, flNV)
  | .inf n => ((if n then -2147483647 else 2147483647), flOF)
  | .fin n m e =>
    let (x, r, _) := splitAt m (e + 151 - en) 0
    let big := decide (2147483647 < x)
    let y : Int := if big then 2147483647 else x
    ((if n then -y else y), flagIf (decide (r ≠ 0)) flAicLoss ||| flagIf big flSAT)

/-- The natural exponent of a square, and whether it was clamped (07 R169). -/
def naturalExp (fmt h : Nat) : Nat × Flags :=
  if fmt = 15 then (hE h, 0)
  else
    let en := hE h + (if fmt = 13 then 8 else 2)
    if 255 < en then (255, flScaleSat) else (en, 0)

/-- An AIC32 integer aligned to a larger exponent: truncated toward zero, with the remainder (07 R170). -/
def alignAic (x : Int) (sh : Nat) : Int × Int :=
  if 32 ≤ sh then (0, x) else (divZero x (2 ^ sh : Nat), x - divZero x (2 ^ sh : Nat) * (2 ^ sh : Nat))

/-- ScaleE of 07 R172: the new header and its flag. -/
def scaleE (h : Nat) (n : Int) : Nat × Flags :=
  let e := (hE h : Int) + n
  (setBits h 0 8 (clampInt 0 255 e).toNat, flagIf (decide (e < 0 ∨ 255 < e)) flScaleSat)

/-- The sum of AIC32 elements modulo 2^32 as `.i32` (07 R171). -/
def aicAdd (x y : Int) : Int := signed 32 (wrap 32 (x + y))

/-! ### Thresher arithmetic (07 R168, R173-R176) -/

/-- Mantissa planes of a float format, the implicit bit counted (01 R26). -/
def fullPlanes (g : Fmt) : Nat := g.y + 1

/-- A code with the explicit mantissa bits after the first q − 1 set to zero; NaN and infinity stay (07 R173). -/
def planeRead (g : Fmt) (q code : Nat) : FVal :=
  let v := decodeFmt g code
  if fullPlanes g ≤ q then v
  else match v with
  | .fin n m e => .fin n (m / 2 ^ (fullPlanes g - q) * 2 ^ (fullPlanes g - q)) e
  | w => w

/-- The value an operand element is read as with q planes (07 R173); q = 0 reads every plane (09 R208). -/
def operandValue (fmt h q i j code : Nat) : FVal :=
  let rd := fun (g : Fmt) => planeRead g (if q = 0 then fullPlanes g else q) code
  if fmt = 14 ∧ code = 8 then squareValue 14 h i j code
  else if fmt = 13 then (rd e4m3).scale ((hE h : Int) - 127 + hRow h i + hCol h j)
  else if fmt = 14 then (rd e2m1).scale ((hE h : Int) - 127 + hRow h i + hCol h j)
  else match fmtOf fmt with
  | some g => rd g
  | none => .fin false 0 0

/-- An exact product, and whether the multiplication is invalid: ∞ × 0, or a signalling NaN (07 R168, IEEE 754-2019;
DEDUCED, log 35). -/
def exactMul (a b : FVal) : FVal × Bool :=
  let s := a.neg? != b.neg?
  if a.isNan || b.isNan then (.nan false false, a.isSig || b.isSig)
  else match a, b with
  | .inf _, v => if v.isZero then (.nan false false, true) else (.inf s, false)
  | v, .inf _ => if v.isZero then (.nan false false, true) else (.inf s, false)
  | .fin _ m1 e1, .fin _ m2 e2 => (.fin s (m1 * m2) (e1 + e2), false)
  | _, _ => (.nan false false, false)

/-- The window width of an operand format (07 R174). -/
def windowOf (fmt : Nat) : Nat :=
  match fmt with
  | 6 => 160
  | 7 => 80
  | 8 | 9 => 64
  | _ => 48

/-- Floor of the base-2 logarithm of the largest nonzero magnitude. -/
def maxTop : List FVal → Option Int
  | [] => none
  | .fin _ m e :: r =>
    if m = 0 then maxTop r
    else match maxTop r with
      | none => some ((Nat.log2 m : Int) + e)
      | some t => some (max t ((Nat.log2 m : Int) + e))
  | _ :: r => maxTop r

/-- A finite value truncated toward zero to a multiple of 2^q, in units of 2^q, and whether it lost bits. -/
def truncUnits (q : Int) : FVal → Int × Bool
  | .fin n m e =>
    let (x, r, _) := splitAt m e q
    ((if n then -(x : Int) else x), decide (r ≠ 0))
  | _ => (0, false)

/-- AccumulateStep (07 R175, R176): the new code of the accumulator element. Where the accumulator is a NaN and the products hold an
infinity, the NaN keeps the accumulator's sign (DESIGN CHOICE, log 78). -/
def accumulateStep (g : Fmt) (w : Nat) (acc : Nat) (ps : List (FVal × Bool)) : Nat × Flags :=
  let p := ps.map Prod.fst
  let pInf := p.any (· == .inf false)
  let nInf := p.any (· == .inf true)
  let a := decodeFmt g acc
  if p.any FVal.isNan || (pInf && nInf) then
    (g.nanCode, flagIf (ps.any Prod.snd || (pInf && nInf)) flNV)
  else if pInf || nInf then fAdd g .near a (.inf nInf)
  else match a with
  | .nan n _ => (nanWith g n, 0)
  | .inf n => (infWith g n, 0)
  | .fin an am ae =>
    match maxTop p with
    | none =>
      if am = 0 then (g.signBit (an && p.all FVal.neg?), 0) else (acc, 0)
    | some top =>
      let q := top + 1 - w
      let ts := p.map (truncUnits q)
      let st := ts.any Prod.snd
      let sum := ts.foldl (fun s t => s + t.1) 0
      let (v, q') := addExact an am ae (decide (sum < 0)) sum.natAbs q
      if v = 0 then (0, flagIf st flNX)
      else roundFin g .near (decide (v < 0)) v.natAbs q' st

end Sys2Proof.Machine
end

