-- ==== Sys2Proof/Machine/LocalAccess.lean ====
section
/-! DEFINITION. Sys2Proof/Machine/LocalAccess.lean: local addresses and their checks, bank formats and plane-major slots,
scratchpad bytes, and the scalar and vector loads and stores (06 R131-R147; 16 R350, R361, R362). -/
namespace Sys2Proof.Machine

/-! ### Checks (06 R131, 16 R361, R362) -/

/-- A region descriptor is valid and permits an access of a kind to bytes [a, a + n). -/
def regionHolds (d : DW) (a n : Nat) (wr : Bool) : Bool :=
  d.getLsbD 0 && d.getLsbD (if wr then 2 else 1) && decide (bitsOf d.toNat 6 14 * 64 ≤ a) &&
  decide (a + n ≤ bitsOf d.toNat 26 14 * 64 + 64)

/-- RegionCheck (16 R362) at a level. -/
def Tile.regionOk (t : Tile) (lvl : BitVec 2) (a n : Nat) (wr : Bool) : Bool :=
  lvl == 2 || (if lvl = 0 then t.regions0 else t.regions1).toList.any fun d => regionHolds d a n wr

/-- LocalCheck (06 R131) for a level: the cause, if any. -/
def Tile.localCheck (t : Tile) (lvl : BitVec 2) (a : DW) (n : Nat) (wr : Bool) : Option Cause :=
  if a.toNat % n ≠ 0 then some .align
  else if Config.spadSize < a.toNat + n then some .prot
  else if t.regionOk lvl a.toNat n wr then none
  else some .prot

/-- LocalCheck for the issuing strand. -/
def State.localCheck (s : State) (a : DW) (n : Nat) (wr : Bool) : Except Stop Unit :=
  match s.tile.localCheck s.st.lvl a n wr with
  | some c => s.trapAt c a
  | none => .ok ()

/-- Raise a cause with an address unless a condition holds. -/
def State.checkAt (s : State) (ok : Bool) (c : Cause) (a : DW) : Except Stop Unit := if ok then .ok () else s.trapAt c a

/-! ### Scratchpad bytes (16 R350) -/

/-- A 64-bit word of a byte range has an uncorrectable error. -/
def wordsBad (bad : List Nat) (a n : Nat) : Bool := n != 0 && bad.any fun w => overlaps8 w a n
where
  /-- Word `w` meets the bytes [a, a + n). -/
  overlaps8 (w a n : Nat) : Bool := decide (w * 8 < a + n) && decide (a < w * 8 + 8)

/-- Words written whole are good again (log 12). -/
def healWords (bad : List Nat) (a n : Nat) : List Nat :=
  bad.filter fun w => !(decide (a ≤ w * 8) && decide (w * 8 + 8 ≤ a + n))

def Tile.readSpad (t : Tile) (a n : Nat) : List Byte := t.spad.readBytes a n

/-- The bytes `bs` at `a`, those of them that lie in the bytes `cs` at `b` replaced by these. -/
def laidOver (a : Nat) (bs : List Byte) (b : Nat) (cs : List Byte) : List Byte :=
  bs.zipIdx.map fun p => if b ≤ a + p.2 then (cs[a + p.2 - b]?).getD p.1 else p.1

/-- A write is seen in an early doubleword. -/
def EarlyWord.write (a : Nat) (bs : List Byte) (e : EarlyWord) : EarlyWord :=
  { e with view := laidOver (8 * e.word) e.view a bs, ready := e.ready.map fun r => laidOver (8 * e.word) r a bs }

/-- Bytes are written that both strands see. -/
def Tile.writeSpad (t : Tile) (a : Nat) (bs : List Byte) : Tile :=
  { t with spad := t.spad.writeBytes a bs, early := t.early.map (EarlyWord.write a bs), spadBad := healWords t.spadBad a bs.length }

/-- A strand stores bytes: what the other strand sees early stays as it was (12 R276). -/
def Tile.storeBy (t : Tile) (st : StrandId) (a : Nat) (bs : List Byte) : Tile :=
  { t.writeSpad a bs with early := t.early.map fun e => if e.strand = st then e.write a bs else e }

/-- The scratchpad as a strand's loads see it (06 R141, 12 R276). -/
def Tile.seenBy (t : Tile) (st : StrandId) : Memory :=
  t.early.foldl (fun m e => if e.strand = st then m.writeBytes (8 * e.word) e.view else m) t.spad

/-- A load of a strand from a doubleword is performed early: the strand goes on seeing the bytes that are there now. One that sees
earlier bytes already sees the doubleword as it is again (12 R276; log 64). -/
def Tile.lookEarly (t : Tile) (st : StrandId) (w : Nat) : Tile :=
  if 131072 ≤ w then t
  else if t.early.any fun e => e.strand == st && e.word == w then { t with early := t.early.filter fun e => !(e.strand == st && e.word == w) }
  else { t with early := t.early ++ [{ strand := st, word := w, view := t.readSpad (8 * w) 8, ready := none }] }

/-- A strand has seen bytes as they are: it goes on seeing them so. -/
def Tile.lookNow (t : Tile) (st : StrandId) (a n : Nat) : Tile :=
  { t with early := t.early.map fun e => if e.strand = st then e.write a (t.readSpad a n) else e }

/-- A tile-scope fence of a strand with W in its predecessor set: what it has stored is ready for the other strand (12 R276). -/
def Tile.publish (t : Tile) (st : StrandId) : Tile :=
  { t with early := t.early.map fun e => if e.strand = st then e else { e with ready := some (t.readSpad (8 * e.word) 8) } }

/-- A tile-scope fence of a strand with R in its successor set: it sees what the other strand has made ready (12 R276). -/
def Tile.acquire (t : Tile) (st : StrandId) : Tile :=
  { t with early := t.early.map fun e => if e.strand = st then { e with view := e.ready.getD e.view, ready := none } else e }

/-- What a fence of the issuing strand does between the strands of its tile: `w` for W before it, `r` for R after it, none at strand scope
(12 R270, R276). -/
def State.localFence (s : State) (sc : BitVec 3) (w r : Bool) : State :=
  if sc = 0 then s
  else s.onTile fun t =>
    let t := if w then t.publish s.cur else t
    if r then t.acquire s.cur else t

/-- The scratchpad as the issuing strand's loads see it. -/
def State.seen (s : State) : Memory := s.tile.seenBy s.cur

/-- The core consumes bytes of the scratchpad: an uncorrectable word raises UNCORR with the local-source flag. -/
def State.loadLocal (s : State) (a n : Nat) : Except Stop (List Byte) :=
  if wordsBad s.tile.spadBad a n then
    .error (.trap { cause := .uncorr, addr := BitVec.ofNat 64 a, localSrc := true } s)
  else .ok (s.seen.readBytes a n)

/-- The issuing strand stores bytes. -/
def State.storeLocal (s : State) (a : Nat) (bs : List Byte) : State := s.onTile fun t => t.storeBy s.cur a bs

/-- An engine, or a reply that arrives, writes bytes: both strands see them (06 R141, 12 R276). -/
def State.engineStore (s : State) (a : Nat) (bs : List Byte) : State := s.onTile fun t => t.writeSpad a bs

/-! ### Bank formats (02 R55, 06 R136) -/

/-- Bank of a local address. -/
def bankOf (a : Nat) : Nat := a / 0x10000 % 16

/-- BFMTn. -/
def Tile.bank (t : Tile) (n : Nat) : BitVec 5 := t.bfmt.toList.getD (n % 16) 0

/-- FMT and LAYOUT of a BFMT value. -/
def bankFmt (b : BitVec 5) : Nat := b.toNat % 16
def bankPlane (b : BitVec 5) : Bool := b.getLsbD 4

/-- Bytes of a plane-major slot: P = 128 w. -/
def slotBytes (fmt : Nat) : Nat := 128 * bankWidth fmt

/-- Slots of a plane-major bank: N. -/
def slotCount (fmt : Nat) : Nat :=
  if fmt = 13 ∨ fmt = 14 then 65536 / (slotBytes fmt + 64) else 65536 / slotBytes fmt

/-- Local address of the header of a slot in the side area. -/
def sideAddr (fmt bank slot : Nat) : Nat := bank * 65536 + 65536 - 64 * slotCount fmt + 64 * slot

/-- Local address of the word that holds row `i` of plane `j`. -/
def planeWord (fmt bank slot j i : Nat) : Nat := bank * 65536 + slot * slotBytes fmt + 128 * j + 4 * i

/-- The row words of every plane of a slot, plane 0 first. -/
def Memory.planeRow (m : Memory) (fmt bank slot i : Nat) : List Nat :=
  (List.range (bankWidth fmt)).map fun j => m.readLe (planeWord fmt bank slot j i) 4

/-- The code of column `c` from the row words of a slot's planes: plane j holds bit w − 1 − j. -/
def codeOfPlanes (ws : List Nat) (c : Nat) : Nat :=
  ws.foldl (fun v w => 2 * v + (if bitOf w c then 1 else 0)) 0

/-- The codes of a slot in row-major order. -/
def Memory.planeCodes (m : Memory) (fmt bank slot : Nat) : List Nat :=
  (List.range 32).flatMap fun i =>
    let ws := m.planeRow fmt bank slot i
    (List.range 32).map (codeOfPlanes ws)

/-- The bytes of a slot whose codes are given. -/
def planeBytes (fmt : Nat) (codes : List Nat) : List Byte :=
  let arr := codes.toArray
  let w := bankWidth fmt
  (List.range w).flatMap fun j => (List.range 32).flatMap fun i =>
    leBytes 4 (packList 1 ((List.range 32).map fun c => if bitOf (arr.getD (32 * i + c) 0) (w - 1 - j) then 1 else 0))

/-- Codes of `w` bits packed from bit 0 upward (06 linear layout). -/
def codesOfBytes (w n : Nat) (bs : List Byte) : List Nat :=
  let v := ofLe bs
  (List.range n).map fun e => bitsOf v (w * e) w

/-- Bytes of packed codes. -/
def bytesOfCodes (w : Nat) (cs : List Nat) : List Byte := leBytes ((w * cs.length + 7) / 8) (packList w cs)

/-! ### Scalar loads and stores (06 R140-R143) -/

/-- The effective address of the MEM forms: sB + offset × n. -/
def State.memAddr (s : State) (base : SReg) {k : Nat} (off : BitVec k) (n : Nat) : DW :=
  s.reg base + s.imm off * BitVec.ofNat 64 n

/-- A scalar load of n bytes. -/
def scalarLoad (i : Instr) (sz : BitVec 2) (d base : SReg) (off : BitVec 11) (f : Nat → Nat → DW) (s : State) :
    Host.Outcome State Fault Refusal :=
  run i s fun s => do
    let n := 2 ^ sz.toNat
    let a := s.memAddr base off n
    s.localCheck a n false
    let bs ← s.loadLocal a.toNat n
    .ok (s.setReg d (f n (ofLe bs)))

/-- `LD_N` (06 R140): zero extension. -/
def execLdN (sz : BitVec 2) (d base : SReg) (off : BitVec 11) (s : State) : Host.Outcome State Fault Refusal :=
  scalarLoad (.ldN sz d base off) sz d base off (fun _ v => BitVec.ofNat 64 v) s

/-- `LD_I` (06 R140): sign extension; 8 bytes raise ILL. -/
def execLdI (sz : BitVec 2) (d base : SReg) (off : BitVec 11) (s : State) : Host.Outcome State Fault Refusal :=
  if sz = 3 then run (.ldI sz d base off) s fun s => s.trap .ill
  else scalarLoad (.ldI sz d base off) sz d base off (fun n v => BitVec.ofInt 64 (signed (8 * n) v)) s

/-- `ST` (06 R140). -/
def execSt (sz : BitVec 2) (d base : SReg) (off : BitVec 11) (s : State) : Host.Outcome State Fault Refusal :=
  run (.st sz d base off) s fun s => do
    let n := 2 ^ sz.toNat
    let a := s.memAddr base off n
    s.localCheck a n true
    .ok (s.storeLocal a.toNat (leBytes n (s.reg d).toNat))

/-- Change the running activation. -/
def State.onAct (s : State) (f : Activation → Activation) : State := s.onTile fun t => { t with act := t.act.map f }

/-- Entries of the commit buffer in use. -/
def State.stagedCount (s : State) : Nat := ((s.tile.act.map Activation.staged).getD []).length

/-- `ST_K` (06 R142): staged until commit; the 65th raises QFAULT. -/
def execStK (sz : BitVec 2) (d base : SReg) (off : BitVec 11) (s : State) : Host.Outcome State Fault Refusal :=
  run (.stK sz d base off) s fun s => do
    let n := 2 ^ sz.toNat
    let a := s.memAddr base off n
    s.localCheck a n true
    if 64 ≤ s.stagedCount then s.trapAt .qfault a
    else .ok (s.onAct fun x => { x with staged := x.staged ++ [{ addr := a.toNat, size := n, data := s.reg d }] })

/-! ### Vector loads and stores (06 R144-R146) -/

/-- The 128 bytes of a register, and back. -/
def vBytes (v : VWord) : List Byte := leBytes 128 v.toNat
def vOfBytes (bs : List Byte) : VWord := BitVec.ofNat 1024 (ofLe bs)

/-- `VLD` (06 R145). -/
def execVld (d : VReg) (base : SReg) (off : BitVec 11) (s : State) : Host.Outcome State Fault Refusal :=
  run (.vld d base off) s fun s => do
    let a := s.memAddr base off 128
    s.localCheck a 128 false
    let bs ← s.loadLocal a.toNat 128
    .ok (s.setV d (vOfBytes bs))

/-- `VLD_M` (06 R145): lanes whose mask bit is 0 keep their values. -/
def execVldM (d : VReg) (base : SReg) (off : BitVec 8) (m : KReg) (s : State) : Host.Outcome State Fault Refusal :=
  run (.vldM d base off m) s fun s => do
    let a := s.memAddr base off 128
    s.localCheck a 128 false
    let bs ← s.loadLocal a.toNat 128
    .ok (s.setV d (vMasked 32 (s.kreg m) (s.vreg d) (vElem 32 (vOfBytes bs))))

/-- `VST` (06 R145). -/
def execVst (d : VReg) (base : SReg) (off : BitVec 11) (s : State) : Host.Outcome State Fault Refusal :=
  run (.vst d base off) s fun s => do
    let a := s.memAddr base off 128
    s.localCheck a 128 true
    .ok (s.storeLocal a.toNat (vBytes (s.vreg d)))

/-- `VST_M` (06 R145): only the lanes whose mask bit is 1 are written. -/
def execVstM (d : VReg) (base : SReg) (off : BitVec 8) (m : KReg) (s : State) : Host.Outcome State Fault Refusal :=
  run (.vstM d base off m) s fun s => do
    let a := s.memAddr base off 128
    s.localCheck a 128 true
    .ok ((List.range 32).foldl (fun t e =>
      if maskBit 32 (s.kreg m) e then t.storeLocal (a.toNat + 4 * e) (leBytes 4 (vElem 32 (s.vreg d) e)) else t) s)

/-- The address of element `e` of a gather or scatter (06 R146). -/
def State.gatherAddr (s : State) (base : SReg) (idx : VReg) (sc : BitVec 3) (e : Nat) : DW :=
  s.reg base + (BitVec.ofNat 64 (vElem 32 (s.vreg idx) e)) <<< sc.toNat

/-- The checks of every element whose mask bit is 1, lowest first. -/
def State.gatherCheck (s : State) (base : SReg) (idx : VReg) (m : KReg) (sc : BitVec 3) (n : Nat) (wr : Bool) :
    List Nat → Except Stop Unit
  | [] => .ok ()
  | e :: es =>
    if maskBit (8 * n) (s.kreg m) e then
      match s.localCheck (s.gatherAddr base idx sc e) n wr with
      | .ok _ => s.gatherCheck base idx m sc n wr es
      | .error x => .error x
    else s.gatherCheck base idx m sc n wr es

/-- A gather whose elements have n bytes. -/
def gather (i : Instr) (n : Nat) (d : VReg) (base : SReg) (idx : VReg) (m : KReg) (sc : BitVec 3) (s : State) :
    Host.Outcome State Fault Refusal :=
  run i s fun s => do
    let es := (List.range (128 / n)).filter (maskBit (8 * n) (s.kreg m))
    s.gatherCheck base idx m sc n false (List.range (128 / n))
    match es.find? (fun e => wordsBad s.tile.spadBad (s.gatherAddr base idx sc e).toNat n) with
    | some e => .error (.trap { cause := .uncorr, addr := s.gatherAddr base idx sc e, localSrc := true } s)
    | none =>
      .ok (s.setV d (vMasked (8 * n) (s.kreg m) (s.vreg d) fun e =>
        s.seen.readLe (s.gatherAddr base idx sc e).toNat n))

/-- A scatter whose elements have n bytes: the highest element wins where addresses coincide. -/
def scatter (i : Instr) (n : Nat) (d : VReg) (base : SReg) (idx : VReg) (m : KReg) (sc : BitVec 3) (s : State) :
    Host.Outcome State Fault Refusal :=
  run i s fun s => do
    s.gatherCheck base idx m sc n true (List.range (128 / n))
    .ok (((List.range (128 / n)).filter (maskBit (8 * n) (s.kreg m))).foldl (fun t e =>
      t.storeLocal (s.gatherAddr base idx sc e).toNat (leBytes n (vElem (8 * n) (s.vreg d) e))) s)

/-- `VLD_G_32` (06 R146). -/
def execVldG32 (d : VReg) (base : SReg) (idx : VReg) (m : KReg) (sc : BitVec 3) (s : State) :
    Host.Outcome State Fault Refusal :=
  gather (.vldG32 d base idx m sc) 4 d base idx m sc s

/-- `VLD_G_64` (06 R146). -/
def execVldG64 (d : VReg) (base : SReg) (idx : VReg) (m : KReg) (sc : BitVec 3) (s : State) :
    Host.Outcome State Fault Refusal :=
  gather (.vldG64 d base idx m sc) 8 d base idx m sc s

/-- `VST_S_32` (06 R146). -/
def execVstS32 (d : VReg) (base : SReg) (idx : VReg) (m : KReg) (sc : BitVec 3) (s : State) :
    Host.Outcome State Fault Refusal :=
  scatter (.vstS32 d base idx m sc) 4 d base idx m sc s

/-- `VST_S_64` (06 R146). -/
def execVstS64 (d : VReg) (base : SReg) (idx : VReg) (m : KReg) (sc : BitVec 3) (s : State) :
    Host.Outcome State Fault Refusal :=
  scatter (.vstS64 d base idx m sc) 8 d base idx m sc s

/-! ### Decoded loads (06 R147) -/

/-- The codes that a decoded load reads, and the value of each place among them: local ranges read, header, row, first
column. -/
structure DecodeSrc where
  ranges : List (Nat × Nat)
  codes : List Nat
  header : Nat
  row : Nat
  col : Nat
  deriving DecidableEq, Repr

/-- The source of `vld.cvt` with `cnt` elements at a local address, or the cause. -/
def Tile.decodeSrc (t : Tile) (a cnt : Nat) : Except Cause DecodeSrc :=
  let b := t.bank (bankOf a)
  let fmt := bankFmt b
  let w := bankWidth fmt
  let bank := bankOf a
  let off := a % 65536
  if !(bankPlane b) then
    let len := (w * cnt + 7) / 8
    if isSquareFmt fmt then .error .bankfmt
    else if off % ((w + 7) / 8) ≠ 0 then .error .align
    else if 65536 < off + len then .error .bankfmt
    else .ok { ranges := [(a, len)], codes := codesOfBytes w cnt (t.readSpad a len), header := 0, row := 0, col := 0 }
  else
    let slot := off / slotBytes fmt
    let o := off % slotBytes fmt
    let row := o / 4
    let h := o % 4 / 2
    if 32 ≤ row ∨ o % 2 ≠ 0 ∨ (cnt = 32 ∧ h ≠ 0) then .error .align
    else if slotCount fmt ≤ slot then .error .prot
    else
      let ws := t.spad.planeRow fmt bank slot row
      let sq := fmt = 13 ∨ fmt = 14
      .ok { ranges := (List.range w).map (fun j => (planeWord fmt bank slot j row + 2 * h, cnt / 8))
              ++ (if sq then [(sideAddr fmt bank slot, 64)] else []),
            codes := (List.range cnt).map fun c => codeOfPlanes ws (16 * h + c),
            header := if sq then t.spad.readLe (sideAddr fmt bank slot) 64 else 0, row := row, col := 16 * h }

/-- A decoded load into elements of width w and format code g. -/
def decodedLoad (i : Instr) (g w : Nat) (d : VReg) (base : SReg) (off : BitVec 11) (s : State) :
    Host.Outcome State Fault Refusal :=
  run i s fun s => do
    let a := s.memAddr base off 1
    s.localCheck a 1 false
    match ({ s.tile with spad := s.seen } : Tile).decodeSrc a.toNat (1024 / w) with
    | .error c => s.trapAt c a
    | .ok src =>
      if src.ranges.any fun r => wordsBad s.tile.spadBad r.1 r.2 then
        .error (.trap { cause := .uncorr, addr := a, localSrc := true } s)
      else
        let fmt := bankFmt (s.tile.bank (bankOf a.toNat))
        let rs := src.codes.zipIdx.map fun p =>
          if isSquareFmt fmt then cvtFromVal (squareValue fmt src.header src.row (src.col + p.2) p.1) g .near
          else cvtElem fmt g .near p.1
        .ok ((s.setV d (BitVec.ofNat 1024 (packList w (rs.map Prod.fst)))).orFlags 6
          (rs.foldl (fun f r => f ||| r.2) 0))

/-- `VLD_CVT_F32` (06 R147). -/
def execVldCvtF32 (d : VReg) (base : SReg) (off : BitVec 11) (s : State) : Host.Outcome State Fault Refusal :=
  decodedLoad (.vldCvtF32 d base off) 7 32 d base off s

/-- `VLD_CVT_F64` (06 R147). -/
def execVldCvtF64 (d : VReg) (base : SReg) (off : BitVec 11) (s : State) : Host.Outcome State Fault Refusal :=
  decodedLoad (.vldCvtF64 d base off) 6 64 d base off s

end Sys2Proof.Machine
end

