-- ==== Sys2Proof/Machine/Fence.lean ====
section
/-! DEFINITION. Sys2Proof/Machine/Fence.lean: what a strand's earlier accesses still have to do, and `fence` (12 R270-R272). -/
namespace Sys2Proof.Machine

/-- A tagged request of the strand of a tile. -/
def MemReq.ofStrand (r : MemReq) (gid : Nat) (st : StrandId) : Bool :=
  r.source == gid && r.strand == st && (match r.handle with
    | .tag _ => true
    | _ => false)

/-- A read is performed when its value is fixed at the home slice; a write when the slice has taken it (12 R268). -/
def MemReq.performed (r : MemReq) : Bool :=
  match r.phase with
  | .toSlice => false
  | .toBase | .parity => r.kind != .rd
  | .fromBase | .toTile => true

/-- A tagged read of a strand that is not performed. -/
def State.readsWait (s : State) (st : StrandId) : Bool :=
  s.reqs.any fun r => r.ofStrand (s.gid s.tile.ltn) st && r.kind == .rd && !r.performed

/-- A tagged write of a strand that is not performed. -/
def State.writesWait (s : State) (st : StrandId) : Bool :=
  s.reqs.any fun r => r.ofStrand (s.gid s.tile.ltn) st && r.writes && !r.performed

/-- An atomic of a strand that its home slice has not applied. -/
def State.atomicsWait (s : State) (st : StrandId) : Bool :=
  s.atomics.any fun a => a.tile == s.tile.ltn && a.strand == st && !a.trigger && !a.atSlice

/-- A destination lies within a scope: the tile, the package, the system (12 R270). -/
def State.inScope (s : State) (sc : BitVec 3) (gid : Nat) : Bool :=
  if sc = 0 then false else if sc = 1 then gid == s.gid s.tile.ltn else if sc = 4 then true else gid / 1024 == s.pkg.toNat

/-- An item that an activation of the tile has pushed and a member in scope has not taken. -/
def State.itemsWait (s : State) (sc : BitVec 3) : Bool :=
  s.flight.any fun i => s.inScope sc (s.gid i.tile) && (match i.src with
    | .producer t _ => t == s.tile.ltn
    | _ => false)

/-- A packet carries a sheaf or an ack. -/
def PacketBody.sheafOrAck : PacketBody → Bool
  | .sheaf _ => true
  | .ack _ _ => true
  | .item _ _ _ _ => false

/-- A sheaf or an ack that an activation of the tile has sent and that is still on its way, alone or in a sum, or waits in a reduction
slot; one that has left for another package; or an ack that a tile in scope has not accepted. Where a route ends is not known before it
is there (log 22). -/
def State.sheavesWait (s : State) (sc : BitVec 3) : Bool :=
  let mine := fun (k : Packet) => k.sources.contains (s.gid s.tile.ltn) && k.body.sheafOrAck
  sc != 0 && (s.tile.shSends.any (fun x => !x.resend) || s.packets.any mine || (s.slots.any fun x => x.inputs.any fun i => mine i.2) ||
    (sc == 4 && s.farSheaves.any fun x => x.sources.contains (s.gid s.tile.ltn)) ||
    s.msgs.any fun f => f.msg.entry == 14 && f.phase == .toDest && f.msg.source.toNat == s.gid s.tile.ltn && s.inScope sc f.msg.dest.toNat)

/-- An output of a strand that its destination has not accepted: items, sheaves and acks leave from activations, messages from both
strands (12 R270, R272; log 22). -/
def State.outputsWait (s : State) (st : StrandId) (sc : BitVec 3) : Bool :=
  (st == .main && (s.itemsWait sc || s.sheavesWait sc)) ||
  (s.tile.sendQ.any fun e => e.strand == some st && s.inScope sc e.msg.dest.toNat)

/-- A predecessor access of a strand is not complete at a scope: O, R, W from the bits of the predecessor set (12 R271). -/
def State.strandWaits (s : State) (st : StrandId) (sc : BitVec 3) (p : BitVec 4) : Bool :=
  sc != 0 && ((p.getLsbD 1 && (s.readsWait st || s.atomicsWait st)) || (p.getLsbD 0 && (s.writesWait st || s.atomicsWait st)) ||
    (p.getLsbD 2 && s.outputsWait st sc))

/-- The same for the issuing strand. -/
def State.fenceWaits (s : State) (sc : BitVec 3) (p : BitVec 4) : Bool := s.strandWaits s.cur sc p

/-- The stall of `fence.S rw, rw` placed before an instruction (12 R274). -/
def State.release (s : State) (on : Bool) (sc : BitVec 3) : Except Stop Unit :=
  if on && s.fenceWaits sc 3 then s.stall .memory else .ok ()

/-- `FENCE` (12 R271, R272). -/
def execFence (sc : BitVec 3) (p q : BitVec 4) (s : State) : Host.Outcome State Fault Refusal :=
  run (.fence sc p q) s fun s =>
    if p = 0 ∨ q = 0 then .ok s else if s.fenceWaits sc p then s.stall .memory else .ok (s.localFence sc (p.getLsbD 0) (q.getLsbD 1))

end Sys2Proof.Machine
end

