-- ==== Sys2Proof/Machine/Engines.lean ====
section
/-! DEFINITION. Sys2Proof/Machine/Engines.lean: what the thresher and the wain share: byte ranges and conflicts of the interval
table (05 R128-R130, 09 R199), blocks of operands in either layout (09 R205), sheaf records for the gleaner (10 R233), the
release of the main strand. -/
namespace Sys2Proof.Machine

/-! ### Ranges (05 R128) -/

def Range.meets (x y : Range) : Bool := x.space == y.space && decide (x.lo < y.hi) && decide (y.lo < x.hi)

/-- A later user conflicts with an earlier one: write with read or write, read with write. -/
def conflict (r w er ew : List Range) : Bool :=
  w.any (fun x => er.any x.meets || ew.any x.meets) || r.any (fun x => ew.any x.meets)

def locRange (a n : Nat) : Range := { space := .loc, lo := a, hi := a + n }

/-- A local range meets a bank. -/
def Range.inBank (n : Nat) (x : Range) : Bool := x.space == .loc && decide (x.lo < (n + 1) * 65536) && decide (n * 65536 < x.hi)

/-! ### Blocks (09 R205) -/

/-- Where an operand lies: format, layout, base address. -/
structure Operand where
  fmt : Nat
  plane : Bool
  base : Nat
  deriving DecidableEq, Repr

/-- The operand a local address names under its bank's BFMT. -/
def Tile.operand (t : Tile) (a : Nat) : Operand :=
  { fmt := bankFmt (t.bank (bankOf a)), plane := bankPlane (t.bank (bankOf a)), base := a }

/-- Bytes of a block in a linear bank. -/
def linearBytes (fmt : Nat) : Nat := if isSquareFmt fmt then recordBytes fmt else 128 * bankWidth fmt

/-- StepAddr (09 R205). -/
def Operand.addr (o : Operand) (b : Nat) : Nat := o.base + b * (if o.plane then slotBytes o.fmt else linearBytes o.fmt)

/-- Slot of block b of a plane-major operand. -/
def Operand.slot (o : Operand) (b : Nat) : Nat := o.base % 65536 / slotBytes o.fmt + b

/-- Bank of an operand. -/
def Operand.bank (o : Operand) : Nat := bankOf o.base

/-- Local address of the header of a square block. -/
def Operand.headerAddr (o : Operand) (b : Nat) : Nat :=
  if o.plane then sideAddr o.fmt o.bank (o.slot b) else o.addr b

/-- Bytes that block b occupies, its side entry included. -/
def Operand.ranges (o : Operand) (b : Nat) : List Range :=
  if o.plane then
    locRange (o.addr b) (slotBytes o.fmt) :: (if isSquareFmt o.fmt then [locRange (o.headerAddr b) 64] else [])
  else [locRange (o.addr b) (linearBytes o.fmt)]

/-- Header bytes of block b. -/
def Operand.headerRange (o : Operand) (b : Nat) : List Range := [locRange (o.headerAddr b) 64]

/-- ALIGN of a base (09 R205). -/
def Operand.aligned (o : Operand) : Bool :=
  if o.plane then decide (o.base % 65536 % slotBytes o.fmt = 0) else decide (o.base % 64 = 0)

/-- The n blocks lie in the base's bank, and within its slots (09 R205). -/
def Operand.fits (o : Operand) (n : Nat) : Bool :=
  if o.plane then decide (o.slot 0 + n ≤ slotCount o.fmt) else decide (o.base % 65536 + n * linearBytes o.fmt ≤ 65536)

/-- The region check of the n blocks of an operand (16 R362). -/
def Operand.regionsOk (o : Operand) (t : Tile) (lvl : BitVec 2) (n : Nat) (wr : Bool) : Bool :=
  if o.plane then
    t.regionOk lvl o.base (n * slotBytes o.fmt) wr &&
      (!(isSquareFmt o.fmt) || t.regionOk lvl (o.headerAddr 0) (64 * n) wr)
  else t.regionOk lvl o.base (n * linearBytes o.fmt) wr

/-- PROT for the range (09 R205). -/
def Operand.rangeOk (o : Operand) (t : Tile) (lvl : BitVec 2) (n : Nat) (wr : Bool) : Bool :=
  decide (o.base < Config.spadSize) && o.fits n && o.regionsOk t lvl n wr

/-- The header of block b, as the number its bytes hold; 0 where the format has none. -/
def Operand.header (o : Operand) (t : Tile) (b : Nat) : Nat :=
  if isSquareFmt o.fmt then t.spad.readLe (o.headerAddr b) 64 else 0

/-- The 1,024 codes of block b in row-major order. -/
def Operand.codes (o : Operand) (t : Tile) (b : Nat) : List Nat :=
  if o.plane then t.spad.planeCodes o.fmt o.bank (o.slot b)
  else
    let skip := if isSquareFmt o.fmt then 64 else 0
    codesOfBytes (bankWidth o.fmt) 1024 (t.readSpad (o.addr b + skip) (128 * bankWidth o.fmt))

/-- Write the payload of block b. -/
def Operand.putCodes (o : Operand) (t : Tile) (b : Nat) (cs : List Nat) : Tile :=
  if o.plane then t.writeSpad (o.addr b) (planeBytes o.fmt cs)
  else t.writeSpad (o.addr b + (if isSquareFmt o.fmt then 64 else 0)) (bytesOfCodes (bankWidth o.fmt) cs)

/-- Write the header of block b. -/
def Operand.putHeader (o : Operand) (t : Tile) (b h : Nat) : Tile := t.writeSpad (o.headerAddr b) (leBytes 64 h)

/-- Element (i, j) of a row-major list. -/
def elemOf (cs : Array Nat) (i j : Nat) : Nat := cs.getD (32 * i + j) 0

/-- Residue31 of a block. -/
def residueOf (fmt h : Nat) (cs : List Nat) : Nat := residue31 fmt h (elemOf cs.toArray)

/-- A tagged square whose residue does not match its tag (09 R206, 05 R122). -/
def tagBroken (fmt h : Nat) (cs : List Nat) : Bool := hTag h != 0 && residueOf fmt h cs != tagResidue (hTag h)

/-- Ranges that hold an uncorrectable word. -/
def Tile.rangesBad (t : Tile) (rs : List Range) : Bool := rs.any fun r => r.space == .loc && wordsBad t.spadBad r.lo (r.hi - r.lo)

/-! ### Steps of thresher commands (09 R199) -/

/-- What a step reads: the blocks of its operands, and at the first step of `sq.align` the headers of every block (09 R217). A step of
`mma` consumes every mantissa plane of its blocks, those beyond its Q too, so an uncorrectable word there raises UNCORR (DESIGN CHOICE: 01
R26 and 07 R173 leave it open, log 76). -/
def ThrCmd.reads (t : Tile) (c : ThrCmd) (st : Nat) : List Range :=
  let a := t.operand c.addrA.toNat
  let b := t.operand c.addrB.toNat
  match c.op with
  | .mma _ => a.ranges st ++ b.ranges st
  | .accLd => [locRange c.addrA.toNat 4096]
  | .deq => a.ranges st
  | .align =>
    a.ranges st ++ (if c.el.isNone && st == c.next then (List.range c.steps).flatMap a.headerRange else [])
  | .scale => (t.operand c.addrD.toNat).headerRange st
  | _ => []

/-- The scratchpad that a step writes. -/
def ThrCmd.writes (t : Tile) (c : ThrCmd) (st : Nat) : List Range :=
  let d := t.operand c.addrD.toNat
  match c.op with
  | .accSt => [locRange c.addrD.toNat 4096]
  | .accCvt => d.ranges 0
  | .quant => d.ranges st
  | .align => d.ranges st
  | .scale => d.headerRange st
  | _ => []

/-- Everything a command reads and writes, step by step. -/
def ThrCmd.allReads (t : Tile) (c : ThrCmd) : List Range := (List.range c.steps).flatMap (c.reads t)
def ThrCmd.allWrites (t : Tile) (c : ThrCmd) : List Range := (List.range c.steps).flatMap (c.writes t)

/-- The earlier copies that a step conflicts with, oldest first. -/
def Tile.stepConflicts (t : Tile) (c : ThrCmd) (st : Nat) : List WainCmd :=
  t.wain.filter fun w => decide (w.order < c.order) && conflict (c.reads t st) (c.writes t st) w.reads w.writes

/-- The thresher commands that have not completed, a stopped one among them (09 R199, R202). -/
def Tile.thrCmds (t : Tile) : List ThrCmd := t.stop.toList ++ t.thresher

/-- A copy may start: no earlier copy and no earlier thresher command conflicts (05 R128, 09 R199). -/
def Tile.copyFree (t : Tile) (w : WainCmd) : Bool :=
  !(t.wain.any fun v => decide (v.order < w.order) && conflict w.reads w.writes v.reads v.writes) &&
  !(t.thrCmds.any fun c => decide (c.order < w.order) && conflict w.reads w.writes (c.allReads t) (c.allWrites t))

/-- A command in flight touches a bank (06 R135). -/
def Tile.bankBusy (t : Tile) (n : Nat) : Bool :=
  (t.wain.any fun w => (w.reads ++ w.writes).any (Range.inBank n)) ||
  t.thrCmds.any fun c => (c.allReads t ++ c.allWrites t).any (Range.inBank n)

/-! ### Sheaf fault records (10 R233) -/

/-- A sheaf fault record on its way to the gleaner of a paddock. Its LOST byte is filled when it is delivered. -/
def State.sheafRecord (s : State) (p : BitVec 5) (kind gen hop chunk tensor route hopid expect found addr : Nat) : State :=
  s.post p .gleaner
    (recordBytesOf [(0, 1, kind), (2, 1, gen), (3, 1, hop), (4, 3, chunk), (7, 3, tensor), (10, 2, route), (12, 4, hopid),
      (16, 4, expect), (20, 4, found), (24, 8, s.tb.toNat), (32, 8, addr)]) none

/-- A LOCAL record of the tile at turn about a square whose header is given. -/
def State.localRecord (s : State) (h expect found addr : Nat) : State :=
  s.sheafRecord s.tile.paddock 5 (tagGen (hTag h)) (tagHop (hTag h)) (hChunk h) (hTensor h) (tagRoute (hTag h))
    (s.gid s.tile.ltn) expect found addr

/-! ### The main strand held by a command (09 R198) -/

/-- The held strand goes on with its next unit. -/
def State.releaseMain (s : State) : State :=
  s.onTile fun t => if t.main.wait = some .thresher then { t with main := t.main.retire } else t

/-- A failure of a transfer reaches its counter, or a record when its run has ended (05 R124, R125). -/
def State.failNum (s : State) (tile : Nat) (c : CReg) (num : Nat) (owner : RunRef) (cause : Cause) (detail unit : Nat)
    (loc : Bool) : State :=
  let e : ErrRec :=
    { valid := true, cause := cause.code, detail := BitVec.ofNat 4 detail, unit := BitVec.ofNat 16 (min unit 0xFFFF),
      num := num, owner := owner, localSrc := loc }
  let t := s.getTile tile
  if !(t.live owner) then s.engineRecord tile c e
  else if (t.ctr c).err.valid then s
  else s.modTile tile fun t => t.modCtr c fun k => { k with err := e }

end Sys2Proof.Machine
end

