-- ==== Sys2Proof/Machine/Translate.lean ====
section
/-! DEFINITION. Sys2Proof/Machine/Translate.lean: physical and key checks, the table walk, the TLBs, and translation under a
context (04 R90-R100). -/
namespace Sys2Proof.Machine

/-- KeyCheck (04 R95): the key id lies in the paddock's range. -/
def State.keyOk (s : State) (p : BitVec 5) (k : BitVec 13) : Bool :=
  match s.pcfg p with
  | none => false
  | some c => decide (c.kbase.toNat ≤ k.toNat) && decide (k.toNat < c.kbase.toNat + c.kcount.toNat)

/-- PhysCheck (04 R90): main memory for all, the monitor window for L2, the second tier for the wain within the paddock's
extents and while FEAT0.TIER2 is set (16 R364). -/
def State.physOk (s : State) (p : BitVec 5) (lvl : BitVec 2) (wain tier2 : Bool) (pa n : Nat) : Bool :=
  if pa + n ≤ Config.mainSize then !(inWindow pa) || lvl == 2
  else
    decide (Config.tier2Base ≤ pa) && decide (pa + n ≤ Config.tier2End) && wain && tier2 &&
    (match s.pcfg p with
     | none => false
     | some c =>
       let e := (pa - Config.tier2Base) / 2 ^ 36
       decide (c.t2Base.toNat ≤ e) && decide (e < c.t2Base.toNat + c.t2Count.toNat))

/-- Log2 of the page size of a leaf at a level (04 R93). -/
def pageBits (lvl : Nat) : Nat := 16 + 10 * (3 - lvl)

/-- What a translation comes to. -/
inductive Tr where
  | ok (pa : Nat) (key : BitVec 13)
  | fault (c : Cause)
  /-- PAGE: level, address and value of the non-resident entry. -/
  | page (lvl ptePa : Nat) (pte : DW)
  /-- No cache holds the page: a walk has to read its entry first (04 R96, R97). -/
  | walk
  deriving DecidableEq, Repr

/-- A leaf that a lookup or a walk found: its level, the entry and the entry's address (0 from a cache). -/
structure Leaf where
  lvl : Nat
  pte : DW
  ptePa : Nat
  deriving DecidableEq, Repr

/-- A cached leaf for an address (04 R96). -/
def findTlb (l : List TlbEntry) (p : BitVec 5) (asid : BitVec 16) (va : Nat) : Option TlbEntry :=
  l.find? fun e => e.paddock == p && e.asid == asid && e.page == va / 2 ^ pageBits e.lvl

/-- The leaf that the tile's TLB or the die's cache holds for an address (04 R95, R96). -/
def State.findLeaf (s : State) (tile : Nat) (x : XCtx) (p : BitVec 5) (va : Nat) : Option Leaf :=
  let leafOf := fun (e : TlbEntry) => ({ lvl := e.lvl, pte := e.pte, ptePa := 0 } : Leaf)
  match findTlb (s.getTile tile).tlb p x.asid va with
  | some e => some (leafOf e)
  | none => (findTlb ((s.dieCache.filter fun q => q.1 == dieOf tile).map (·.2)) p x.asid va).map leafOf

/-- Room for one more entry: the oldest goes when the TLB is full (04 R96, log 6). -/
def pushTlb (size : Nat) (e : TlbEntry) (l : List TlbEntry) : List TlbEntry :=
  if l.contains e then l else (l ++ [e]).drop (l.length + 1 - size)

/-- Entries of a die's cache (01 R13, 04 R96). -/
def dieCacheSize : Nat := 16384

/-- A leaf that passed every check but the access-kind checks is cached by the tile and its die; a full cache gives up its oldest entry
(04 R96, log 6). -/
def State.cacheLeaf (s : State) (tile : Nat) (e : TlbEntry) : State :=
  let s := s.modTile tile fun t => { t with tlb := pushTlb 256 e t.tlb }
  let mine := fun (q : Nat × TlbEntry) => q.1 == dieOf tile
  if s.dieCache.contains (dieOf tile, e) then s
  else
    let kept := if (s.dieCache.filter mine).length < dieCacheSize then s.dieCache else dropFirst mine s.dieCache
    { s with dieCache := kept ++ [(dieOf tile, e)] }

/-- Physical address that a leaf gives an address (04 R95). -/
def Leaf.frame (lf : Leaf) : Nat := bitsOf lf.pte.toNat 12 39 * 2 ^ 13
def Leaf.key (lf : Leaf) : BitVec 13 := BitVec.ofNat 13 (bitsOf lf.pte.toNat 51 13)
def Leaf.pa (lf : Leaf) (va : Nat) : Nat := lf.frame + va % 2 ^ pageBits lf.lvl

/-- The cache entry of a leaf. -/
def Leaf.entry (lf : Leaf) (p : BitVec 5) (asid : BitVec 16) (va : Nat) : TlbEntry :=
  { paddock := p, asid := asid, page := va / 2 ^ pageBits lf.lvl, lvl := lf.lvl, pte := lf.pte }

/-- The access-kind checks of a leaf (04 R95). -/
def Leaf.permits (lf : Leaf) (x : XCtx) (kind : Nat) : Bool := lf.pte.getLsbD (3 + kind) && (x.lvl != 0 || lf.pte.getLsbD 6)

/-- The checks of a resident leaf that are not access-kind checks (04 R95): only leaves that pass them are cached (R96). -/
def State.leafSound (s : State) (tile : Nat) (x : XCtx) (p : BitVec 5) (va n : Nat) (wain : Bool) (lf : Leaf) : Bool :=
  bitsOf lf.pte.toNat 7 5 == 0 && lf.frame % 2 ^ pageBits lf.lvl == 0 && s.keyOk p lf.key &&
  s.physOk p x.lvl wain ((s.getTile tile).feat.getLsbD 7) (lf.pa va) n

/-- What a leaf gives an access (04 R95). -/
def State.leafTr (s : State) (tile : Nat) (x : XCtx) (p : BitVec 5) (va n kind : Nat) (wain : Bool) (lf : Leaf) : Tr :=
  if !(lf.permits x kind) then .fault .prot
  else if !(lf.pte.getLsbD 2) then .page lf.lvl lf.ptePa lf.pte
  else if !(s.leafSound tile x p va n wain lf) then .fault .prot
  else .ok (lf.pa va) lf.key

/-- The address of the entry that a walk reads at a level. -/
def entryAddr (table lvl va : Nat) : Nat := table + bitsOf va (46 - 10 * lvl) 10 * 8

/-- The walkers may read an entry: KeyCheck of its table's key, and PhysCheck (04 R90, R95). -/
def State.walkOk (s : State) (p : BitVec 5) (lvl2 : BitVec 2) (key : BitVec 13) (ea : Nat) : Bool :=
  s.keyOk p key && s.physOk p lvl2 false false ea 8

/-- Translate (04 R95) for an agent of a tile; `kind` 0 read, 1 write, 2 exec. -/
def State.translate (s : State) (tile : Nat) (x : XCtx) (p : BitVec 5) (va : DW) (n kind : Nat) (wain : Bool) : Tr × State :=
  if va.toNat % n ≠ 0 then (.fault .align, s)
  else if 2 ^ 56 ≤ va.toNat then (.fault .prot, s)
  else
    match s.findLeaf tile x p va.toNat with
    | none => (if s.walkOk p x.lvl x.rootKey (entryAddr x.rootPa 0 va.toNat) then .walk else .fault .prot, s)
    | some lf =>
      match s.leafTr tile x p va.toNat n kind wain lf with
      | .ok pa key => (.ok pa key, s.cacheLeaf tile (lf.entry p x.asid va.toNat))
      | r => (r, s)

/-! ### Walks (04 R95, R97) -/

/-- Walks that the walkers of a die run at once. -/
def walkLimit : Nat := 2048

/-- The WALK packet of a walk's level, under the paddock's number (04 R95). -/
def State.sendWalk (s : State) (w : Walk) : State :=
  s.addReq (MemReq.blank .walk (.walker w.serial) { source := s.gid w.first.tile, paddock := w.paddock, l2 := false, key := w.key }
    (entryAddr w.table w.lvl w.first.va.toNat) 8)

/-- A miss: it merges into the walk of its page, or starts one, or queues one behind 2,048 (04 R97). -/
def State.askWalk (s : State) (p : BitVec 5) (a : WalkAsker) : State :=
  let die := dieOf a.tile
  let page := a.va.toNat / 65536
  let same := fun (w : Walk) => w.die == die && w.paddock == p && w.first.xc.asid == a.xc.asid && w.page == page
  if s.walks.any same then
    { s with walks := modFirst same (fun w => if w.askers.contains a then w else { w with askers := w.askers ++ [a] }) s.walks }
  else
    let full := decide (walkLimit ≤ (s.walks.filter fun w => w.die == die && !w.queued).length)
    let w : Walk := { serial := s.reqSerial, die := die, paddock := p, page := page, first := a, lvl := 0, table := a.xc.rootPa,
                      key := a.xc.rootKey, queued := full, askers := [a] }
    let s1 : State := { s with walks := s.walks ++ [w], reqSerial := s.reqSerial + 1 }
    if full then s1 else s1.sendWalk w

/-- An agent waits on a non-resident entry (04 R99); the walker opens or joins an event for it (R100). SR_EPC and SR_FVAL stay as they are
(DESIGN CHOICE: 02 R41 speaks of causes that end or restart a unit, 04 R99 calls this no trap, log 77). -/
def State.waitPage (s : State) (tile : Nat) (ag : Agent) (x : XCtx) (kind : Nat) (va : DW) (lvl ptePa : Nat) (pte : DW) : State :=
  { s with pageWaits := s.pageWaits ++
    [{ tile := tile, agent := ag, access := kind, lvl := lvl, va := va, ptePa := ptePa, pte := pte, asid := x.asid,
       ctx := x.ctx, onHandler := x.strand == .handler, paddock := (s.getTile tile).paddock, event := none }] }

/-- Translate for the issuing strand: a cause is raised at the word; a PAGE, or the walk of a page, makes the strand wait (04 R95, R97,
R99). -/
def State.xlate (s : State) (ag : Agent) (va : DW) (n kind : Nat) : Except Stop (Nat × BitVec 13 × State) :=
  match s.translate s.tile.ltn s.xc s.tile.paddock va n kind false with
  | (.ok pa key, s1) => .ok (pa, key, s1)
  | (.fault c, s1) => s1.trapAt c va
  | (.page lvl ptePa pte, s1) => .error (.wait .page (s1.waitPage s.tile.ltn ag s.xc kind va lvl ptePa pte))
  | (.walk, s1) =>
    .error (.wait (.retry .memory) (s1.askWalk s.tile.paddock { tile := s.tile.ltn, agent := ag, access := kind, xc := s.xc, va := va }))

/-! ### Invalidation (04 R98) -/

/-- An access that was translated before, or a walk, of a paddock is under way (04 R98). -/
def State.accessesOpen (s : State) (p : BitVec 5) : Bool :=
  (s.reqs.any fun r => r.paddock == p && r.handle != .none && r.kind != .pdelta) || (s.atomics.any fun x => x.paddock == p && x.reply.isNone) ||
  s.walks.any fun w => w.paddock == p

/-- Entries of a paddock and address space that overlap a range leave every TLB and die cache; `n` = 0 names the whole
address space. -/
def dropTlb (p : BitVec 5) (asid : BitVec 16) (va n : Nat) (e : TlbEntry) : Bool :=
  let sz := 2 ^ pageBits e.lvl
  e.paddock == p && e.asid == asid && (n == 0 || overlaps (e.page * sz) sz va n)

def State.invalidate (s : State) (p : BitVec 5) (asid : BitVec 16) (va n : Nat) : State :=
  let f := fun (t : Tile) => { t with tlb := t.tlb.filter fun e => !(dropTlb p asid va n e) }
  { s with tile := f s.tile, others := s.others.map fun q => (q.1, f q.2),
           dieCache := s.dieCache.filter fun q => !(dropTlb p asid va n q.2) }

end Sys2Proof.Machine
end

