-- ==== Sys2Proof/Machine/Global.lean ====
section
/-! DEFINITION. Sys2Proof/Machine/Global.lean: spans of global memory read and written at once, by physical and by virtual
address, for the wain, the monitor and the IO dies (04 R90-R99, 05 R111, R124). -/
namespace Sys2Proof.Machine

/-- Why a translation gives no address yet. -/
inductive Miss where
  /-- PAGE: access, level, address and value of the entry. -/
  | page (va : DW) (kind lvl ptePa : Nat) (pte : DW)
  /-- The page has to be walked first. -/
  | walk (va : DW) (kind : Nat)
  deriving DecidableEq, Repr

/-- What a transfer's access comes to. -/
inductive Io (α : Type) where
  | ok (a : α)
  /-- A failure of 05 R124: cause and DETAIL. -/
  | fail (c : Cause) (detail : Nat)
  | miss (m : Miss)
  /-- The line has a request outstanding, or an older request of the tile is still on its way to it; the transfer comes later. -/
  | busy
  deriving DecidableEq, Repr

/-- The same result without a value. -/
def Io.other {α β : Type} (d : β) : Io α → Io β
  | .ok _ => .ok d
  | .fail c n => .fail c n
  | .miss m => .miss m
  | .busy => .busy

/-- An agent waits for a page event, or asks for the walk of a page (04 R97, R99). -/
def State.missed (s : State) (tile : Nat) (ag : Agent) (x : XCtx) : Miss → State
  | .page va kind lvl ptePa pte => s.waitPage tile ag x kind va lvl ptePa pte
  | .walk va kind => s.askWalk (s.getTile tile).paddock { tile := tile, agent := ag, access := kind, xc := x, va := va }

/-- DETAIL of a memory status (05 R124). -/
def Status.io {α : Type} (st : Status) (a : α) : Io α :=
  match st with
  | .ok => .ok a
  | .rebuiltOk => .ok a
  | .poison => .fail .uncorr 2
  | .keyErr => .fail .prot 3
  | .ownErr => .fail .prot 3

/-- Bytes at a physical address, within a line: main memory through its home slice, the second tier through its port
(05 R111; 04 R91, 17 R375), where it waits for a grant of its paddock. -/
def State.physRead (s : State) (p : BitVec 5) (a : Asker) (pa n : Nat) : Io (List Byte) × State :=
  if pa < Config.mainSize then
    if s.lineBusy pa || s.olderWaits a.source (sliceOf pa) s.reqSerial then (.busy, s)
    else
      let (st, bs, s1) := s.sliceRead a pa n
      (st.io bs, s1)
  else
    match s.cxlTurn p pa with
    | none => (.busy, s)
    | some s1 => (if (granulesOf pa n).any s1.poison.contains then .fail .uncorr 2 else .ok (s1.mem.readBytes pa n), s1)

/-- Bytes written at a physical address, within a line. -/
def State.physWrite (s : State) (p : BitVec 5) (a : Asker) (pa : Nat) (bs : List Byte) : Io Unit × State :=
  if pa < Config.mainSize then
    if s.lineBusy pa || s.olderWaits a.source (sliceOf pa) s.reqSerial then (.busy, s)
    else
      let (st, s1) := s.sliceWrite a pa bs
      (st.io (), s1)
  else
    match s.cxlTurn p pa with
    | none => (.busy, s)
    | some s =>
      let heals := fun (g : Nat) => decide (pa ≤ g * 32) && decide (g * 32 + 32 ≤ pa + bs.length)
      (.ok (), { s with mem := s.mem.writeBytes pa bs, poison := s.poison.filter fun g => !(heals g) })

/-- An agent that reads and writes global addresses: the tile it acts for, the translation it uses, the paddock it asks as,
and whether the second tier is open to it (04 R91). -/
structure GAgent where
  tile : Nat
  xc : XCtx
  paddock : BitVec 5
  wain : Bool
  deriving DecidableEq, Repr

/-- The identity of an agent's requests (03 R79). -/
def State.gAsker (s : State) (g : GAgent) (key : BitVec 13) : Asker :=
  s.askerOf g.tile g.paddock (g.xc.lvl == 2) key

/-- Translate one byte address for an agent (04 R95; 05 R124). -/
def State.gXlate (s : State) (g : GAgent) (va : DW) (kind : Nat) : Io (Nat × BitVec 13) × State :=
  match s.translate g.tile g.xc g.paddock va 1 kind g.wain with
  | (.ok pa key, s1) => (.ok (pa, key), s1)
  | (.fault c, s1) => (if c = .uncorr then .fail .uncorr 2 else .fail .prot 1, s1)
  | (.page lvl ptePa pte, s1) => (.miss (.page va kind lvl ptePa pte), s1)
  | (.walk, s1) => (.miss (.walk va kind), s1)

/-- Read one span that lies within a line. -/
def State.gRead (s : State) (g : GAgent) (va : DW) (n : Nat) : Io (List Byte) × State :=
  match s.gXlate g va 0 with
  | (.ok (pa, key), s1) => s1.physRead g.paddock (s1.gAsker g key) pa n
  | (r, s1) => (r.other [], s1)

/-- Write one span that lies within a line. -/
def State.gWrite (s : State) (g : GAgent) (va : DW) (bs : List Byte) : Io Unit × State :=
  match s.gXlate g va 1 with
  | (.ok (pa, key), s1) => s1.physWrite g.paddock (s1.gAsker g key) pa bs
  | (r, s1) => (r.other (), s1)

/-- Read n bytes line by line. -/
def State.gReads (s : State) (g : GAgent) : Nat → DW → Nat → Io (List Byte) × State
  | 0, _, _ => (.ok [], s)
  | fuel + 1, va, n =>
    if n = 0 then (.ok [], s)
    else
      let k := min n (64 - va.toNat % 64)
      match s.gRead g va k with
      | (.ok bs, s1) =>
        (match s1.gReads g fuel (va + BitVec.ofNat 64 k) (n - k) with
         | (.ok r, s2) => (.ok (bs ++ r), s2)
         | x => x)
      | x => x

/-- Write bytes line by line. -/
def State.gWrites (s : State) (g : GAgent) : Nat → DW → List Byte → Io Unit × State
  | 0, _, _ => (.ok (), s)
  | fuel + 1, va, bs =>
    if bs.isEmpty then (.ok (), s)
    else
      let k := 64 - va.toNat % 64
      match s.gWrite g va (bs.take k) with
      | (.ok _, s1) => s1.gWrites g fuel (va + BitVec.ofNat 64 k) (bs.drop k)
      | x => x

/-- Steps that reading or writing n bytes can take. -/
def lineFuel (n : Nat) : Nat := n / 64 + 3

end Sys2Proof.Machine
end

