-- ==== Sys2Proof/Machine/Queues.lean ====
section
/-! DEFINITION. Sys2Proof/Machine/Queues.lean: queues, rings, items in flight, agent pushes, credits, and the queue instructions
(15 R318-R327, R343-R346). -/
namespace Sys2Proof.Machine

/-! ### Queues -/

def State.queueAt (s : State) (qcb : Nat) : Option Queue := s.queues.find? fun q => q.pa == qcb

def State.modQueue (s : State) (qcb : Nat) (f : Queue → Queue) : State :=
  { s with queues := modFirst (fun q => q.pa == qcb) f s.queues }

def Qcb.cap (q : Qcb) : Nat := 2 ^ q.logCap
/-- Bytes of an item. -/
def Qcb.bytes (q : Qcb) : Nat := q.isize * 16

/-- A queue is frozen (15 R320). -/
def State.frozen (s : State) (qcb : Nat) : Bool := ((s.queueAt qcb).map Queue.frozen).getD false

/-- A queue record (16 R355 type 18) with a cause, naming a QCB or a join. -/
def State.queueRecord (s : State) (p : BitVec 5) (tile : Nat) (c : Cause) (pa : Nat) : State :=
  s.postFault p tile 18 c.code.toNat [(44, 8, pa)]

/-- A queue freezes: its state field in memory, and a QFAULT record to its paddock (15 R320). -/
def State.freeze (s : State) (q : Queue) (tile : Nat) : State :=
  let s1 := s.modQueue q.pa fun q => { q with frozen := true }
  (s1.postWrite 0 q.key (q.pa + 96) (leBytes 4 2)).queueRecord q.qcb.paddock tile .qfault q.pa

/-! ### Rings -/

/-- The endpoint of a tile. -/
def State.epOf (s : State) (tile ep : Nat) : Endpoint := ((s.getTile tile).eps[ep]?).getD Endpoint.reset

/-- The context an endpoint is bound to. -/
def Tile.epCtx (t : Tile) (e : Endpoint) : Ctx := t.ctxs[e.ctx.toNat]'(e.ctx.isLt)

/-- The next item of a ring that the running activation does not hold. -/
def Endpoint.next (e : Endpoint) : Option RingItem := e.ring.find? fun i => !i.held

/-- An item whose not-before time has come (15 R322). -/
def RingItem.due (i : RingItem) (tb : DW) : Bool := decide (i.nbt.toNat ≤ tb.toNat)

/-- The item that is deliverable at an endpoint: the next one, once it is due; none while its queue is frozen (15 R320, R322). -/
def State.deliverable (s : State) (e : Endpoint) : Option RingItem :=
  if s.frozen e.qcb then none else e.next.filter fun i => i.due s.tb

/-- Address of a slot: local for GRING 0, global virtual for GRING 1. -/
def State.slotAddr (s : State) (e : Endpoint) (slot : Nat) : Nat :=
  match s.queueAt e.qcb with
  | some q => e.ringAddr + slot * q.qcb.bytes
  | none => e.ringAddr

/-- A ring has a free slot; for an agent push the agent-placed items must also stay under their limit (15 R323). -/
def State.ringRoom (s : State) (q : Queue) (tile ep : Nat) (agent : Bool) (n : Nat) : Bool :=
  let e := s.epOf tile ep
  decide (e.ring.length + n ≤ q.qcb.cap) &&
  (!agent || decide ((e.ring.filter RingItem.agent).length + n ≤ q.qcb.cap - q.qcb.nprod * q.qcb.window))

/-- The queue unit of a member writes a slot in global memory under its context's translation (15 R318, R322). -/
def State.slotAgent (s : State) (tile : Nat) (c : BitVec 2) : GAgent :=
  let t := s.getTile tile
  let cx := t.ctxs[c.toNat]'(c.isLt)
  { tile := tile, paddock := t.paddock, wain := false,
    xc := { ctx := c, strand := .main, rootPa := cx.rootPa, rootKey := cx.rootKey, asid := cx.asid, lvl := cx.lvl } }

/-- An item's bytes are written into a slot in global memory: the state after it, and whether all are there. A page that has to be
walked is walked; where a translation gives no address or a line is busy, the item waits (log 26). -/
def State.putGlobalItem (s : State) (tile : Nat) (c : BitVec 2) (va : Nat) (bs : List Byte) : Bool × State :=
  let g := s.slotAgent tile c
  match s.gWrites g (lineFuel bs.length) (BitVec.ofNat 64 va) bs with
  | (.ok _, s1) => (true, s1)
  | (.miss (.walk v k), s1) => (false, s1.missed tile .slot g.xc (.walk v k))
  | (_, s1) => (false, s1)

/-- The header of a square record in an item; its tag is set to a value. -/
def itemHeader (bs : List Byte) : Nat := ofLe (bs.take 64)
def itemSetTag (bs : List Byte) (tag : Nat) : List Byte := leBytes 64 (setBits (itemHeader bs) 256 64 tag) ++ bs.drop 64

/-- The bytes of an item as they reach its member. -/
def ItemFlight.bytes (i : ItemFlight) : List Byte := i.arrived.getD i.payload

/-- What is stored of an item: a tagged square record has HOP 0 (10 R227). -/
def ItemFlight.stored (i : ItemFlight) (fmt : BitVec 4) : List Byte :=
  if fmt = 14 ∧ i.kind = 0 ∧ hTag (itemHeader i.bytes) ≠ 0 then itemSetTag i.bytes (setBits (hTag (itemHeader i.bytes)) 47 6 0) else i.bytes

/-- An item is placed in a ring: its payload is written into its slot, then it becomes visible, which may end a `wfi` (15 R322, 16
R367). Answers whether it is there. -/
def State.placeItem (s : State) (q : Queue) (i : ItemFlight) (agent : Bool) : Bool × State :=
  let e := s.epOf i.tile i.ep
  let slot := e.tail % q.qcb.cap
  let a := e.ringAddr + slot * q.qcb.bytes
  let put : Bool × State :=
    if i.kind ≠ 0 then (true, s)
    else if q.qcb.gring then s.putGlobalItem i.tile e.ctx a (i.stored q.qcb.fmt)
    else (true, s.modTile i.tile fun t => t.writeSpad a (i.stored q.qcb.fmt))
  if !put.1 then put
  else
    let item : RingItem :=
      { kind := i.kind, round := i.round, nbt := i.nbt, id := i.id, slot := slot, held := false, agent := agent }
    let wakes := e.next.isNone && item.due s.tb && !q.frozen
    (true, put.2.modTile i.tile fun t =>
      let t := t.modEp i.ep fun e => { e with ring := e.ring ++ [item], tail := e.tail + 1 }
      if wakes then t.wake else t)

/-- A square item's tag is BAD; its residue does not agree with its tag (10 R225, R226). -/
def squareItemBad (payload : List Byte) : Bool × Bool :=
  let h := itemHeader payload
  let codes := codesOfBytes 4 1024 (payload.drop 64)
  (tagBad (hTag h), !(tagBad (hTag h)) && tagBroken 14 h codes)

/-- A mismatch found at a network interface: it is charged, and BAD is set (10 R225, R226, R233). -/
def State.chargeSquare (s : State) (p : BitVec 5) (kind hop addr : Nat) (payload : List Byte) : State × List Byte :=
  let h := itemHeader payload
  let codes := codesOfBytes 4 1024 (payload.drop 64)
  let s1 := s.sheafRecord p kind (tagGen (hTag h)) (tagHop (hTag h)) (hChunk h) (hTensor h) (tagRoute (hTag h))
    hop (tagResidue (hTag h)) (residueOf 14 h codes) addr
  (s1, itemSetTag payload (setBits (hTag h) 62 1 1))

/-! ### Members -/

/-- What a member's queue unit does with an item that arrives (15 R323, R341). -/
inductive Takes where
  /-- It takes the item. -/
  | yes
  /-- It is UNBOUND: the item is discarded. -/
  | unbound
  /-- Its bind marker has not come: the item is discarded and reported. -/
  | unmarked
  deriving DecidableEq, Repr

def State.memberTakes (s : State) (qcb tile ep : Nat) : Takes :=
  let e := s.epOf tile ep
  let c := (s.getTile tile).epCtx e
  if e.role ≠ .input ∨ e.qcb ≠ qcb ∨ c.state = .unbound then .unbound
  else if c.state = .binding ∧ !(c.bindSeen.contains ep) then .unmarked
  else .yes

/-- An item is discarded at its member, which consumes it. The first data item or round-end marker after an unbind leaves a queue
record, one ahead of its bind marker a QFAULT record (15 R323, R341); the item of a join leaves the join's own record (13 R289). -/
def State.discardItem (s : State) (why : Takes) (i : ItemFlight) : State :=
  let s1 := s.consumed i.qcb i.id
  let p := (s.getTile i.tile).paddock
  match why with
  | .yes => s1
  | .unmarked => s1.queueRecord p i.tile .qfault i.qcb
  | .unbound =>
    -- the item of a join that finds no endpoint is dropped with the join's record (13 R289)
    match i.src with
    | .join pa => s1.queueRecord p i.tile .qfault pa
    | _ => if i.kind = 2 ∨ i.kind = 3 ∨ (s.epOf i.tile i.ep).discardTold then s1
    else (s1.modTile i.tile fun t => t.modEp i.ep fun e => { e with discardTold := true }).queueRecord p i.tile .none i.qcb

/-! ### Pushes -/

/-- An item on its way to a member, or placed by an agent. -/
def ItemFlight.fresh (qcb : Nat) (m : Nat × Nat) (src : ItemSource) (kind : BitVec 2) (round : BitVec 16) (nbt : DW) (id : BitVec 32)
    (payload : List Byte) : ItemFlight :=
  { qcb := qcb, tile := m.1, ep := m.2, src := src, kind := kind, round := round, nbt := nbt, id := id, payload := payload,
    refusals := 0, refused := false, travel := false, arrived := none }

/-- The number of the next item of a queue, which counts its release (15 R318, R321). -/
def Queue.nextId (q : Queue) : BitVec 32 := BitVec.ofNat 32 q.released
def State.countRelease (s : State) (qcb : Nat) : State := s.modQueue qcb fun q => { q with released := q.released + 1 }

/-- An item to each of some members of a queue. -/
def State.launchItems (s : State) (q : Queue) (members : List (Nat × Nat)) (src : ItemSource) (kind : BitVec 2) (round : BitVec 16)
    (nbt : DW) (payload : List Byte) : State :=
  let s1 := s.countRelease q.pa
  { s1 with flight := s1.flight ++ members.map fun m => ItemFlight.fresh q.pa m src kind round nbt q.nextId payload }

/-- A square item leaves for its members on other tiles: by ROUTE in one packet, which the route's entries multiply, or, untagged or
with ROUTE 0, in a packet for each member (10 R228, R230). -/
def State.sendSquare (s : State) (tile : Nat) (q : Queue) (id : BitVec 32) (src : ItemSource) (payload : List Byte)
    (members : List (Nat × Nat)) : State :=
  let far := members.filter fun m => m.1 != tile
  let tag := hTag (itemHeader payload)
  let route : BitVec 16 := if tag = 0 then 0 else BitVec.ofNat 16 (tagRoute tag)
  let pack := fun (dest : Nat) =>
    ({ switch := tile, port := 0, route := route, paddock := (s.getTile tile).paddock, dest := dest, sources := [s.gid tile],
       body := .item q.pa id src payload } : Packet)
  let out := if far.isEmpty then [] else if route = 0 then far.map fun m => pack m.1 else [pack tile]
  { s with flight := s.flight.map (fun i =>
             if i.qcb == q.pa && i.id == id && i.src == src && far.contains (i.tile, i.ep) then { i with travel := true, arrived := none } else i),
           packets := s.packets ++ out }

/-- An item or marker that a producer endpoint releases; its credit is out until every member has consumed it (15 R323). The network
interface checks a square item as it sends it (10 R225). -/
def State.releaseItem (s : State) (tile ep : Nat) (kind : BitVec 2) (round : BitVec 16) (nbt : DW) (addr : Nat) (payload : List Byte) :
    State :=
  match s.queueAt (s.epOf tile ep).qcb with
  | none => s
  | some q =>
    let square := q.qcb.fmt == 14 && kind == 0
    let (s, payload) := if square && (squareItemBad payload).2 then s.chargeSquare (s.getTile tile).paddock 6 (s.gid tile) addr payload
      else (s, payload)
    let out : CreditOut := { qcb := q.pa, tile := tile, ep := ep, id := q.nextId, left := q.qcb.members.length }
    let s1 := ({ s with credits := s.credits ++ [out] } : State).launchItems q q.qcb.members (.producer tile ep) kind round nbt payload
    if square then s1.sendSquare tile q q.nextId (.producer tile ep) payload q.qcb.members else s1

/-- An agent push to members of a queue that retries until each ring has taken it (15 R323, R324). -/
def State.agentPush (s : State) (q : Queue) (members : List (Nat × Nat)) (src : ItemSource) (payload : List Byte) : State :=
  s.launchItems q members src 0 0 0 payload

/-- Every ring of a queue that takes items has room for n more from an agent (15 R323, R324). -/
def State.roomForAll (s : State) (q : Queue) (n : Nat) : Bool :=
  q.qcb.members.all fun m => s.memberTakes q.pa m.1 m.2 != .yes || s.ringRoom q m.1 m.2 true n

/-- One item of an agent at a member that has room for it: placed, discarded, refused as a BAD sheaf (15 R325), or, in a ring in global
memory, on its way. -/
def State.agentItem (s : State) (q : Queue) (i : ItemFlight) : State :=
  match s.memberTakes q.pa i.tile i.ep with
  | .yes =>
    let bad := squareItemBad i.bytes
    if q.qcb.fmt == 14 && i.kind == 0 && (bad.1 || bad.2) then
      let s1 := if bad.2 then (s.chargeSquare (s.getTile i.tile).paddock 1 (s.gid i.tile) 0 i.bytes).1 else s
      { s1 with flight := s1.flight ++ [{ i with refused := true }] }
    else if q.qcb.gring then { s with flight := s.flight ++ [i] }
    else (s.placeItem q i true).2
  | why => s.discardItem why i

/-- An agent push that has to find room at once in every ring that takes items. -/
def State.agentPushNow (s : State) (q : Queue) (src : ItemSource) (payload : List Byte) : Option State :=
  if s.roomForAll q 1 then
    some (q.qcb.members.foldl (fun (s : State) m => s.agentItem q (ItemFlight.fresh q.pa m src 0 0 0 q.nextId payload))
      (s.countRelease q.pa))
  else none

/-- An item comes from an agent, not from a producer endpoint. -/
def ItemFlight.agent (i : ItemFlight) : Bool :=
  match i.src with
  | .producer _ _ => false
  | _ => true

/-- Earlier items of the same source to the same member have been placed (15 R322). -/
def State.itemFirst (s : State) (k : Nat) (i : ItemFlight) : Bool :=
  !((s.flight.take k).any fun j => j.qcb == i.qcb && j.tile == i.tile && j.ep == i.ep && j.src == i.src)

/-- An item at its member: discarded, refused or placed. -/
def State.arriveItem (s : State) (k : Nat) (i : ItemFlight) : State :=
  let rest : State := { s with flight := dropAt k s.flight }
  match s.queueAt i.qcb with
  | none => rest.discardItem .unbound i
  | some q =>
    -- the IO die takes the items of a completion queue itself (17 R380)
    if q.frozen ∨ s.virtqueues.any (fun v => v.compQ == i.qcb) then s
    else match s.memberTakes i.qcb i.tile i.ep with
    | .yes =>
      let square := q.qcb.fmt == 14 && i.kind == 0
      let bad := squareItemBad i.bytes
      if square && (bad.1 || bad.2) then
        let s1 := if bad.2 then (s.chargeSquare (s.getTile i.tile).paddock 1 (s.gid i.tile) 0 i.bytes).1 else s
        { s1 with flight := modAt (fun j => { j with refused := true }) k s1.flight }
      else if s.ringRoom q i.tile i.ep i.agent 1 then
        let (placed, s1) := s.placeItem q i i.agent
        if placed then { s1 with flight := dropAt k s1.flight } else s1
      else s
    | why => rest.discardItem why i

/-- `ITEM_ARRIVAL` (15 R321-R323): item `k` of a producer reaches its member. Bind markers arrive by their own event. -/
def execItemArrival (s : State) : Host.Outcome State Fault Refusal :=
  event (match s.flight[s.input.k]? with
  | none => s
  | some i => if i.kind = 3 ∨ i.refused ∨ i.travel ∨ i.agent ∨ !(s.itemFirst s.input.k i) then s else s.arriveItem s.input.k i)

/-- The tile whose network interface sends an item again. -/
def ItemSource.tile : ItemSource → Option Nat
  | .producer tile _ => some tile
  | _ => none

/-- `ITEM_REFUSAL` (15 R325): the refusal of item `k` reaches the producer's interface, which resends it; the third refusal freezes
the queue. -/
def execItemRefusal (s : State) : Host.Outcome State Fault Refusal :=
  event (match s.flight[s.input.k]? with
  | none => s
  | some i =>
    if !i.refused then s
    else
      let s1 : State := { s with flight := modAt (fun j => { j with refused := false, refusals := j.refusals + 1 }) s.input.k s.flight }
      match s.queueAt i.qcb with
      | some q =>
        let s2 := match i.src.tile with
          | some tile => s1.sendSquare tile q i.id i.src i.payload [(i.tile, i.ep)]
          | none => s1
        if 2 ≤ i.refusals then s2.freeze q i.tile else s2
      | none => s1)

/-- `BIND_MARKER_ARRIVAL` (15 R341): bind marker `k` is consumed by the queue unit; with all inputs marked the context becomes
IDLE, or PARKED where a park waits for that (16 R358). While the queue is frozen it is held (R320). -/
def execBindMarkerArrival (s : State) : Host.Outcome State Fault Refusal :=
  event (match s.flight[s.input.k]? with
  | none => s
  | some i =>
    if i.kind ≠ 3 ∨ s.frozen i.qcb ∨ !(s.itemFirst s.input.k i) then s
    else
      let s1 := ({ s with flight := dropAt s.input.k s.flight } : State).consumed i.qcb i.id
      let e := s.epOf i.tile i.ep
      if e.role ≠ .input ∨ e.qcb ≠ i.qcb then s1
      else
        let s2 := s1.modTile i.tile fun t => t.modCtx e.ctx fun c => { c with bindSeen := insertNat i.ep c.bindSeen }
        let t := s2.getTile i.tile
        let c := t.ctxs[e.ctx.toNat]'(e.ctx.isLt)
        let inputs := (t.eps.toList.zipIdx.filter fun p => p.1.role == .input && p.1.ctx == e.ctx).map (·.2)
        if c.state = .binding ∧ inputs.all c.bindSeen.contains then
          let s3 := s2.modTile i.tile fun t => t.modCtx e.ctx fun c =>
            { c with state := if c.parkPending then .parked else .idle, parkPending := false }
          if c.parkPending then s3.switchOut i.tile e.ctx else s3
        else s2)

/-- `NBT_REACHED` (15 R322): TB has reached the not-before time of the item at the head of endpoint `k`; a `wfi` goes on. -/
def execNbtReached (s : State) : Host.Outcome State Fault Refusal :=
  event (match s.tile.eps[s.input.k]? with
  | none => s
  | some e =>
    match s.deliverable e with
    | some i => s.onTile (Tile.wakeSince fun since => decide (since.toNat < i.nbt.toNat))
    | none => s)

/-- `CREDIT_RETURN` (15 R323): credit `k` returns once every member has consumed its item. -/
def execCreditReturn (s : State) : Host.Outcome State Fault Refusal :=
  event (match s.credits[s.input.k]? with
  | none => s
  | some c =>
    if c.left ≠ 0 then s
    else
      ({ s with credits := dropAt s.input.k s.credits } : State).modTile c.tile fun t => t.modEp c.ep fun e =>
        if e.role = .output ∧ e.qcb = c.qcb then { e with credits := e.credits + 1 } else e)

/-! ### Instructions (15 R343-R346) -/

/-- The endpoint belongs to the running context in a role. -/
def State.isEp (s : State) (q : QReg) (r : EpRole) : Bool := (s.tile.ep q).role == r && (s.tile.ep q).ctx == s.st.ctx

/-- Buffered outputs of the running activation. -/
def State.outputCount (s : State) : Nat := ((s.tile.act.map Activation.outputs).getD []).length

/-- Buffer an output. -/
def State.buffer (s : State) (o : Output) : State := s.onAct fun a => { a with outputs := a.outputs ++ [o] }

/-- The push forms (15 R344). -/
def pushForm (i : Instr) (q : QReg) (kind : BitVec 2) (addr : Option SReg) (nbt : Option SReg) (s : State) :
    Host.Outcome State Fault Refusal :=
  run i s fun s => do
    let e := s.tile.ep q
    if !(s.isEp q .output) || e.closed then s.trap .qfault
    else
      let n := ((s.queueAt e.qcb).map fun x => x.qcb.bytes).getD 0
      match addr with
      | some a =>
        s.checkAt ((s.reg a).toNat % 16 == 0) .align (s.reg a)
        s.checkAt (decide ((s.reg a).toNat + n ≤ Config.spadSize)) .prot (s.reg a)
        s.checkAt (s.tile.regionOk s.st.lvl (s.reg a).toNat n false) .prot (s.reg a)
      | none => .ok ()
      if 32 ≤ s.outputCount then s.trap .qfault
      else if e.credits = 0 then s.stall .queue
      else
        let payload ← match addr with
          | some a => s.loadLocal (s.reg a).toNat n
          | none => .ok []
        let t := (nbt.map s.reg).getD 0
        let s1 := s.onTile fun t => t.modEp q.toNat fun e =>
          { e with credits := e.credits - 1, oround := if kind = 1 then e.oround + 1 else e.oround }
        .ok (s1.buffer (.push q kind e.oround t ((addr.map s.reg).getD 0).toNat payload))

/-- `QPUSH` (15 R344). -/
def execQpush (q : QReg) (a : SReg) (s : State) : Host.Outcome State Fault Refusal := pushForm (.qpush q a) q 0 (some a) none s

/-- `QPUSH_AT` (15 R344). -/
def execQpushAt (q : QReg) (a b : SReg) (s : State) : Host.Outcome State Fault Refusal :=
  pushForm (.qpushAt q a b) q 0 (some a) (some b) s

/-- `QMARK` (15 R344). -/
def execQmark (q : QReg) (s : State) : Host.Outcome State Fault Refusal := pushForm (.qmark q) q 1 none none s

/-- `QMARK_F` (15 R344). -/
def execQmarkF (q : QReg) (s : State) : Host.Outcome State Fault Refusal := pushForm (.qmarkF q) q 2 none none s

/-- The `s2` word of an item (15 R328). -/
def State.desc (s : State) (e : Endpoint) (i : RingItem) : DW :=
  let n := ((s.queueAt e.qcb).map fun x => x.qcb.bytes).getD 0
  BitVec.ofNat 64 ((if i.kind = 0 then n % 2 ^ 11 else 0) + i.round.toNat * 2 ^ 16 + i.kind.toNat * 2 ^ 32)

/-- Address of an item's payload. -/
def State.itemAddr (s : State) (e : Endpoint) (i : RingItem) : DW := BitVec.ofNat 64 (s.slotAddr e i.slot)

/-- Items that the running activation holds. -/
def Tile.heldCount (t : Tile) : Nat := t.eps.toList.foldl (fun n e => n + (e.ring.filter RingItem.held).length) 0

/-- Hold the next item of an endpoint. -/
def Tile.holdNext (t : Tile) (q : Nat) : Tile :=
  t.modEp q fun e => { e with ring := modFirst (fun i => !i.held) (fun i => { i with held := true }) e.ring }

/-- The pop loop of 15 R345: items taken, and the first of them. -/
def State.popLoop (s : State) (q : QReg) : Nat → Nat → Option RingItem → Option Nat → Nat × Option RingItem × State
  | 0, t, first, _ => (t, first, s)
  | n + 1, t, first, prev =>
    let e := s.tile.ep q
    let c := s.tile.epCtx e
    match s.deliverable e with
    | none => (t, first, s)
    | some x =>
      if x.kind ≠ 0 ∨ (c.mode = .round ∧ x.round ≠ c.cround) ∨ (prev.any fun p => x.slot != p + 1) then (t, first, s)
      else (s.onTile fun u => u.holdNext q.toNat).popLoop q n (t + 1) (some (first.getD x)) (some x.slot)

/-- A pop makes the item behind it the next one: a `wfi` goes on when that is deliverable (16 R367). -/
def State.popWake (s : State) (q : QReg) : State := if (s.deliverable (s.tile.ep q)).isSome then s.onTile Tile.wake else s

/-- `QPOP` (15 R345). -/
def execQpop (d : SReg) (q : QReg) (s : State) : Host.Outcome State Fault Refusal :=
  run (.qpop d q) s fun s =>
    if !(s.isEp q .input) then s.trap .qfault
    else if 64 ≤ s.tile.heldCount then s.trap .qfault
    else
      let e := s.tile.ep q
      let (_, first, s1) := s.popLoop q 1 0 none none
      .ok (match first with
        | some x => (s1.popWake q).setPair d (s.itemAddr e x) (s.desc e x)
        | none => s1.setPair d 0 0)

/-- `QPOPM` (15 R345). -/
def execQpopm (d : SReg) (q : QReg) (b : SReg) (s : State) : Host.Outcome State Fault Refusal :=
  run (.qpopm d q b) s fun s =>
    if !(s.isEp q .input) then s.trap .qfault
    else
      let e := s.tile.ep q
      let n := min (s.reg b).toNat (64 - s.tile.heldCount)
      let (t, first, s1) := s.popLoop q n 0 none none
      .ok (match first with
        | some x => (s1.popWake q).setPair d (BitVec.ofNat 64 t) (s.itemAddr e x)
        | none => s1.setPair d 0 0)

/-- `QPEEK` (15 R345): the oldest held item of the endpoint, else the ring's head. -/
def execQpeek (d : SReg) (q : QReg) (s : State) : Host.Outcome State Fault Refusal :=
  run (.qpeek d q) s fun s =>
    if !(s.isEp q .input) then s.trap .qfault
    else
      let e := s.tile.ep q
      let x := match e.ring.find? RingItem.held with
        | some x => some x
        | none => e.ring.head?
      .ok (match x with
        | none => s.setPair d 0 0
        | some x => s.setPair d (if x.kind = 0 then s.itemAddr e x else 0) (s.desc e x))

/-- `QSTAT` (15 R346). -/
def execQstat (d : SReg) (q : QReg) (sel : BitVec 4) (s : State) : Host.Outcome State Fault Refusal :=
  run (.qstat d q sel) s fun s =>
    let e := s.tile.ep q
    let fr := if s.frozen e.qcb then 4 else 0
    -- the head is the next item that the running activation does not hold (15 R322)
    let fallow := if (e.next.map RingItem.kind) == some 2 then 8 else 0
    let v := match e.role, sel.toNat with
      | .input, 0 => e.ring.length
      | .input, 1 => (s.tile.epCtx e).cround.toNat
      | .input, 2 => 1 + fr + fallow
      | .input, 3 => (e.ring.filter RingItem.held).length
      | .output, 0 => e.credits
      | .output, 1 => e.oround.toNat
      | .output, 2 => 2 + fr + (if e.closed then 8 else 0)
      | .output, 3 => 0
      | .unbound, _ => 0
      | _, _ => s.outputCount
    .ok (s.setReg d (BitVec.ofNat 64 (if e.role == .unbound || e.ctx != s.st.ctx then 0 else v)))

end Sys2Proof.Machine
end

