-- ==== Sys2Proof/Machine/Codec.lean ====
section
/-! DEFINITION. Sys2Proof/Machine/Codec.lean: CRC-32C, CRC-64 and the LZ4 block format, published algorithms that the manual
names (log 8), and the fill units built on them (04 R104-R106). -/
namespace Sys2Proof.Machine

/-! ### Checksums -/

/-- Eight reflected steps of a CRC. -/
def crcBits (poly : Nat) : Nat → Nat → Nat
  | 0, c => c
  | n + 1, c => crcBits poly n (if c % 2 = 1 then (c / 2).xor poly else c / 2)

/-- CRC-32C (Castagnoli), reflected, start and final exclusive-or all ones (04 R104). -/
def crc32c (bs : List Byte) : Nat :=
  (bs.foldl (fun c b => crcBits 0x82F63B78 8 (c.xor b.toNat)) 0xFFFFFFFF).xor 0xFFFFFFFF

/-- One byte of a most-significant-first CRC-64. -/
def crc64Bits : Nat → Nat → Nat
  | 0, c => c
  | n + 1, c => crc64Bits n (if 2 ^ 63 ≤ c then (2 * c % 2 ^ 64).xor 0x42F0E1EBA9EA3693 else 2 * c % 2 ^ 64)

/-- CRC-64 with the ECMA-182 polynomial, start 0, no final exclusive-or (11 R261). -/
def crc64 (bs : List Byte) : Nat :=
  bs.foldl (fun c b => crc64Bits 8 (c.xor (b.toNat * 2 ^ 56))) 0

/-! ### LZ4 block (04 R104) -/

/-- Length bytes after a 15: each 255 continues. -/
def lz4Len : List Byte → Nat → Option (Nat × List Byte)
  | [], _ => none
  | b :: r, acc => if b = 255 then lz4Len r (acc + 255) else some (acc + b.toNat, r)

/-- Append `n` bytes of a match, one at a time, each from `off` bytes back; the output is held newest first. -/
def lz4Copy (off : Nat) : Nat → List Byte → List Byte
  | 0, out => out
  | n + 1, out => lz4Copy off n (out.getD (off - 1) 0 :: out)

/-- Sequences of a block until the input ends, after a literal run or, since the encoder's end-of-block restrictions are not enforced
(04 R104), after a match. The output is held newest first. -/
def lz4Go : Nat → List Byte → List Byte → Nat → Nat → Option (List Byte)
  | 0, _, _, _, _ => none
  | _ + 1, [], out, _, _ => some out
  | fuel + 1, t :: r, out, len, limit =>
    let lit0 := t.toNat / 16
    let rest := if lit0 = 15 then lz4Len r 15 else some (lit0, r)
    match rest with
    | none => none
    | some (lit, r) =>
      if r.length < lit ∨ limit < len + lit then none
      else
        let out := (r.take lit).reverse ++ out
        let len := len + lit
        match r.drop lit with
        | [] => some out
        | [_] => none
        | lo :: hi :: r =>
          let off := lo.toNat + 256 * hi.toNat
          let m0 := t.toNat % 16
          let mrest := if m0 = 15 then lz4Len r 15 else some (m0, r)
          match mrest with
          | none => none
          | some (m, r) =>
            if off = 0 ∨ len < off ∨ limit < len + m + 4 then none
            else lz4Go fuel r (lz4Copy off (m + 4) out) (len + m + 4) limit

/-- The output of an LZ4 block that must be exactly `n` bytes. -/
def lz4 (bs : List Byte) (n : Nat) : Option (List Byte) :=
  match lz4Go (bs.length + 1) bs [] 0 n with
  | none => none
  | some out => if out.length = n then some out.reverse else none

/-! ### Fill units (04 R104-R106) -/

/-- Bytes of a fill unit's output. -/
def unitBytes : Nat := 65536

/-- The descriptor of a fill unit. -/
structure FillDesc where
  mode : Nat
  wlog : Nat
  zero : Nat
  crc : Nat
  total : Nat
  zero2 : Nat
  deriving DecidableEq, Repr

/-- The first 16 bytes of a unit. -/
def fillDesc (bs : List Byte) : FillDesc :=
  { mode := (bs.getD 0 0).toNat, wlog := (bs.getD 1 0).toNat, zero := ofLe ((bs.drop 2).take 2),
    crc := ofLe ((bs.drop 4).take 4), total := ofLe ((bs.drop 8).take 4), zero2 := ofLe ((bs.drop 12).take 4) }

/-- Streams of a unit. -/
def FillDesc.streams (d : FillDesc) : Nat := if d.mode = 2 then 2 ^ d.wlog else 1

/-- The fields are ones the device decodes; the rest is DECERR (04 R106). -/
def FillDesc.valid (d : FillDesc) : Bool :=
  decide (d.zero = 0) && decide (d.zero2 = 0) && decide (d.total ≤ 2 ^ 20) &&
  (match d.mode with
   | 0 | 1 => decide (d.wlog = 0)
   | 2 => decide (2 ≤ d.wlog) && decide (d.wlog ≤ 6)
   | _ => false)

/-- Where the streams start in a unit. -/
def FillDesc.dataOff (d : FillDesc) : Nat := (16 + 4 * d.streams + 15) / 16 * 16

/-- The plane bits of mode 2 put together (04 R105): byte `i` of the output. -/
def planeByte (w : Nat) (planes : List (Array Byte)) (i : Nat) : Byte :=
  BitVec.ofNat 8 (packList 1 ((List.range 8).map fun t =>
    let b := 8 * i + t
    let e := b / w
    let j := w - 1 - b % w
    let byte := ((planes.getD j #[]).getD (e / 8) 0).toNat
    if bitOf byte (e % 8) then 1 else 0))

/-- Decode the streams one after another, each to `n` bytes; a length of 0 means all zero. -/
def fillStreams (raw : Bool) (n : Nat) : List Nat → List Byte → Option (List (List Byte))
  | [], _ => some []
  | l :: ls, bs =>
    let out := if l = 0 then some (List.replicate n 0)
      else if bs.length < l then none
      else if raw then (if l = n then some (bs.take l) else none)
      else lz4 (bs.take l) n
    match out, fillStreams raw n ls (bs.drop l) with
    | some o, some os => some (o :: os)
    | _, _ => none

/-- The 65,536 bytes of a unit given whole, or none for DECERR (04 R104-R106). -/
def fillUnit (bs : List Byte) : Option (List Byte) :=
  let d := fillDesc bs
  if !d.valid then none
  else
    let lens := (List.range d.streams).map fun j => ofLe ((bs.drop (16 + 4 * j)).take 4)
    let body := bs.drop d.dataOff
    let out := match d.mode with
      | 2 =>
        let w := 2 ^ d.wlog
        (fillStreams false (unitBytes / w) lens body).map fun ps =>
          let arrs := ps.map List.toArray
          (List.range unitBytes).map (planeByte w arrs)
      | 1 => (fillStreams false unitBytes lens body).map fun ps => ps.flatten
      | _ => (fillStreams true unitBytes lens body).map fun ps => ps.flatten
    match out with
    | none => none
    | some o => if lens.foldl (· + ·) 0 = d.total ∧ crc32c o = d.crc then some o else none

end Sys2Proof.Machine
end

