-- ==== Sys2Proof/Machine/Wain.lean ====
section
/-! DEFINITION. Sys2Proof/Machine/Wain.lean: the copy instructions and counters at issue, and the transfers of the wain
(05 R112-R130; 04 R104-R106). -/
namespace Sys2Proof.Machine

/-! ### Shapes of plain copies (05 R115, R116) -/

/-- Bytes that a source row of a converting copy delivers, and whether its last byte receives only its low half. -/
def convertedBytes (f g n : Nat) : Nat × Bool :=
  let elems := n * 8 / bankWidth f
  ((elems * bankWidth g + 7) / 8, decide (elems * bankWidth g % 8 ≠ 0))

/-- Bytes of an element; an E2M1 element counts as one byte (05 R116). -/
def elemBytes (f : Nat) : Nat := (bankWidth f + 7) / 8

/-- Address of row r. -/
def rowAddr (base : DW) (stride : Int) (r : Nat) : DW := base + BitVec.ofInt 64 (stride * r)

/-- Bytes of a destination row. -/
def WainCmd.dstLen (w : WainCmd) : Nat :=
  match w.form with
  | .convert => (convertedBytes w.fmtSrc.toNat w.fmtDst.toNat w.rowLen).1
  | _ => w.rowLen

/-- The bounding interval of rows (05 R128). -/
def rowsRange (sp : Space) (base : DW) (stride : Int) (rows len : Nat) : Range :=
  let last : Int := base.toNat + stride * ((rows : Int) - 1)
  { space := sp, lo := (min (base.toNat : Int) last).toNat, hi := ((max (base.toNat : Int) last) + len).toNat }

/-- Every row of a local end lies in the scratchpad: its first and last rows do (05 R114). -/
def localRowsIn (base : DW) (stride : Int) (rows len : Nat) : Bool :=
  let last : Int := base.toNat + stride * ((rows : Int) - 1)
  decide (len = 0) || decide (rows = 0) || (decide (base.toNat + len ≤ Config.spadSize) && decide (0 ≤ last) &&
    decide (last + len ≤ (Config.spadSize : Int)))

/-- Every row of a local end lies in a region that permits it (16 R362). -/
def localRowsOk (t : Tile) (lvl : BitVec 2) (base : DW) (stride : Int) (rows len : Nat) (wr : Bool) : Bool :=
  decide (len = 0) || (List.range rows).all fun r => t.regionOk lvl (rowAddr base stride r).toNat len wr

/-- Place of piece q of a row: its start and length, 64-byte lines of both ends as boundaries (05 R115). -/
def pieceSpan (a b len q : Nat) : Option (Nat × Nat) :=
  let lo := 64 - max (a % 64) (b % 64)
  let hi := 64 - min (a % 64) (b % 64)
  let start := fun (k : Nat) =>
    if k = 0 then 0
    else if lo = hi then lo + 64 * (k - 1)
    else (if k % 2 = 1 then lo else hi) + 64 * ((k - 1) / 2)
  if start q < len then some (start q, min len (start (q + 1)) - start q) else none

/-- Pieces of a row. -/
def pieceCount (a b len : Nat) : Nat :=
  ((List.range (2 * (len / 64) + 3)).filter fun q => (pieceSpan a b len q).isSome).length

/-- The two offsets that cut row r: of the ends that are global, or of the destination (05 R115). -/
def WainCmd.cuts (w : WainCmd) (r : Nat) : Nat × Nat :=
  let a := (rowAddr w.src w.sStride r).toNat % 64
  let b := (rowAddr w.dst w.dStride r).toNat % 64
  match w.form with
  | .zero => (b, b)
  | .prefetch => (a, a)
  | _ => if w.sl then (b, b) else if w.dl then (a, a) else (a, b)

/-- Pieces of row r. -/
def WainCmd.rowPieces (w : WainCmd) (r : Nat) : Nat :=
  match w.form with
  | .convert => 1
  | _ =>
    let (a, b) := w.cuts r
    pieceCount a b w.rowLen

/-- Pieces that move data. -/
def WainCmd.countPieces (w : WainCmd) : Nat :=
  match w.form with
  | .square _ | .fill => w.cnt
  | _ => if w.rowLen = 0 then 0 else (List.range w.rows).foldl (fun n r => n + w.rowPieces r) 0

/-- Row and place in it of a piece. -/
def WainCmd.locate (w : WainCmd) : Nat → Nat → Nat → Option (Nat × Nat)
  | 0, _, _ => none
  | fuel + 1, r, p => if p < w.rowPieces r then some (r, p) else w.locate fuel (r + 1) (p - w.rowPieces r)

/-- Row of a piece, and the start and length of what it moves of that row's destination. -/
def WainCmd.pieceAt (w : WainCmd) (p : Nat) : Option (Nat × Nat × Nat) :=
  match w.locate w.rows 0 p with
  | none => none
  | some (row, q) =>
    if w.form = .convert then some (row, 0, w.dstLen)
    else (pieceSpan (w.cuts row).1 (w.cuts row).2 w.rowLen q).map fun x => (row, x.1, x.2)

/-- Destination bytes of row r that lie in the command's own source range: they end undefined (05 R115). -/
def WainCmd.overlapOf (w : WainCmd) (r : Nat) : Option (Nat × Nat) :=
  let a := (rowAddr w.dst w.dStride r).toNat
  match w.form with
  | .plain | .convert =>
    (w.reads.find? fun y => w.writes.any (fun x => x.space == y.space) && decide (y.lo < a + w.dstLen) && decide (a < y.hi)).map
      fun y => (max a y.lo, min (a + w.dstLen) y.hi - max a y.lo)
  | _ => none

/-- A span cut at line boundaries. -/
def cutLines (a n : Nat) : List (Nat × Nat) :=
  (List.range (n / 64 + 2)).filterMap fun q => (pieceSpan (a % 64) (a % 64) n q).map fun x => (a + x.1, x.2)

/-- The spans that end undefined, piece by piece. -/
def WainCmd.overlaps (w : WainCmd) : List (Nat × Nat) :=
  ((List.range w.rows).filterMap w.overlapOf).flatMap fun x => if w.dl then [x] else cutLines x.1 x.2

/-! ### Square records (05 R120) -/

/-- NextRec. -/
def nextRec (x len : Nat) : Nat :=
  let y := x + len
  if len < 4096 ∧ 4096 < y % 4096 + len then y - y % 4096 + 4096 else y

/-- Address of record i. -/
def recAddr (len base : Nat) : Nat → Nat
  | 0 => base
  | i + 1 => nextRec (recAddr len base i) len

/-- Ranges of a square end (05 R128). -/
def squareRanges (t : Tile) (loc : Bool) (asid : BitVec 16) (fmt : Option Nat) (a : DW) (cnt : Nat) : List Range :=
  if loc then
    let o := t.operand a.toNat
    if o.plane then [locRange a.toNat (cnt * slotBytes o.fmt), locRange (o.headerAddr 0) (64 * cnt)]
    else [locRange a.toNat (cnt * recordBytes o.fmt)]
  else
    match fmt with
    | some f => [{ space := .virt asid, lo := a.toNat, hi := recAddr (recordBytes f) a.toNat (cnt - 1) + recordBytes f }]
    | none => [{ space := .virt asid, lo := a.toNat, hi := a.toNat + cnt * 4160 }]

/-! ### Issue (05 R114) -/

/-- A copy command of the issuing strand, before its number. -/
def State.copyCmd (s : State) (form : CopyForm) (dl sl : Bool) (dst src : DW) (rows len : Nat) (ds ss : Int) (cnt : Nat) : WainCmd :=
  { form := form, dl := dl, sl := sl, dst := dst, src := src, rows := rows, rowLen := len, dStride := ds, sStride := ss,
    cnt := cnt, fmtSrc := 0, fmtDst := 0, fmt := none, key := 0, ctr := 0, num := 0, owner := s.runRef, xc := s.xc, order := 0,
    reads := [], writes := [], started := false, pieces := 0, moves := 0, done := [], unwritten := [], stages := [], flags := 0 }

/-- The number of a copy, its place in the interval table, or its completion where there is nothing to do. -/
def State.issueCopy (s : State) (c : CReg) (w : WainCmd) : Exec :=
  if 64 ≤ s.tile.wain.length then s.stall .engine
  else
    let n := (s.tile.ctr c).issue + 1
    let k := w.countPieces
    let w := { w with ctr := c, num := n, order := s.tile.orderNo, pieces := k + w.overlaps.length, moves := k }
    let s1 := s.onTile fun t =>
      let u := t.modCtr c fun x => { x with issue := n }
      { u with orderNo := t.orderNo + 1, wain := if k = 0 then t.wain else t.wain ++ [w] }
    .ok (if k = 0 then s1.completeNum s.tile.ltn c n else s1)

/-- Most bytes of a plain copy. -/
def maxCopy : Nat := 2 ^ 24

/-- The space of an end. -/
def State.space (s : State) (loc : Bool) : Space := if loc then .loc else .virt s.xc.asid

/-- A row range stays in the bank of its first byte (05 R116). -/
def rowsInBank (base : DW) (stride : Int) (rows len : Nat) : Bool :=
  decide (len = 0) || (List.range rows).all fun r =>
    let a := (rowAddr base stride r).toNat
    decide (a / 65536 = base.toNat / 65536) && decide (a + len ≤ (base.toNat / 65536 + 1) * 65536)

/-- `cp` and `cp2` (05 R115, R116): the checks of CheckForm in their order, then issue. -/
def State.plainCopy (s : State) (c : CReg) (dl sl : Bool) (dst src : DW) (rows len : Nat) (ds ss : Int) : Exec := do
  let bs := s.tile.bank (bankOf src.toNat)
  let bd := s.tile.bank (bankOf dst.toNat)
  let conv := dl && sl && bankFmt bs != bankFmt bd
  let w0 := s.copyCmd (if conv then .convert else .plain) dl sl dst src rows len ds ss 0
  let w := { w0 with fmtSrc := BitVec.ofNat 4 (bankFmt bs), fmtDst := BitVec.ofNat 4 (bankFmt bd) }
  let nd := w.dstLen
  s.checkAt (!sl || localRowsIn src ss rows len) .prot src
  s.checkAt (!dl || localRowsIn dst ds rows nd) .prot dst
  s.check (decide (rows * len ≤ maxCopy)) .prot
  s.checkAt (!sl || localRowsOk s.tile s.st.lvl src ss rows len false) .prot src
  s.checkAt (!dl || localRowsOk s.tile s.st.lvl dst ds rows nd true) .prot dst
  let es := elemBytes (bankFmt bs)
  let ed := elemBytes (bankFmt bd)
  s.checkAt (!conv || (decide (src.toNat % es = 0) && decide (len % es = 0) && decide (ss % es = 0))) .align src
  s.checkAt (!conv || (decide (dst.toNat % ed = 0) && decide (ds % ed = 0))) .align dst
  s.check (!conv || (!(bankPlane bs) && !(bankPlane bd) && !(isSquareFmt (bankFmt bs)) && !(isSquareFmt (bankFmt bd)) &&
    rowsInBank src ss rows len && rowsInBank dst ds rows nd)) .bankfmt
  let some' := decide (rows * len ≠ 0)
  s.issueCopy c { w with
    reads := if some' then [rowsRange (s.space sl) src ss rows len] else [],
    writes := if some' then [rowsRange (s.space dl) dst ds rows nd] else [] }

/-- `CP` (05 R113, R115). -/
def execCp (dl sl : BitVec 1) (c : CReg) (d a b : SReg) (s : State) : Host.Outcome State Fault Refusal :=
  run (.cp dl sl c d a b) s fun s =>
    s.plainCopy c (dl == 1) (sl == 1) (s.reg d) (s.reg a) 1 (s.reg b).toNat 0 0

/-- `CP2` (05 R113, R115). -/
def execCp2 (dl sl : BitVec 1) (c : CReg) (d a b : SReg) (s : State) : Host.Outcome State Fault Refusal :=
  run (.cp2 dl sl c d a b) s fun s =>
    if b = 31 then s.trap .ill
    else
      let sh := s.reg b
      let st := s.reg (b + 1)
      let rows := bitsOf sh.toNat 32 32
      let len := bitsOf sh.toNat 0 32
      s.plainCopy c (dl == 1) (sl == 1) (s.reg d) (s.reg a) rows len (signed 32 (bitsOf st.toNat 32 32))
        (signed 32 (bitsOf st.toNat 0 32))

/-- `CP_Z` (05 R113, R118). -/
def execCpZ (dl : BitVec 1) (c : CReg) (d b : SReg) (s : State) : Host.Outcome State Fault Refusal :=
  run (.cpZ dl c d b) s fun s => do
    let len := (s.reg b).toNat
    let dst := s.reg d
    s.checkAt (dl == 0 || localRowsIn dst 0 1 len) .prot dst
    s.check (decide (len ≤ maxCopy)) .prot
    s.checkAt (dl == 0 || localRowsOk s.tile s.st.lvl dst 0 1 len true) .prot dst
    s.issueCopy c { s.copyCmd .zero (dl == 1) false dst 0 1 len 0 0 0 with
      writes := if len = 0 then [] else [rowsRange (s.space (dl == 1)) dst 0 1 len] }

/-- `CP_PF` (05 R113, R119). -/
def execCpPf (c : CReg) (a b : SReg) (s : State) : Host.Outcome State Fault Refusal :=
  run (.cpPf c a b) s fun s =>
    if maxCopy < (s.reg b).toNat then s.trap .prot
    else s.issueCopy c (s.copyCmd .prefetch false false 0 (s.reg a) 1 (s.reg b).toNat 0 0 0)

/-- `cp.sq` and `cp.sqt` (05 R120): the checks in the order that R120 gives. -/
def squareCopy (i : Instr) (tr : Bool) (dl sl : BitVec 1) (c : CReg) (d a b : SReg) (s : State) :
    Host.Outcome State Fault Refusal :=
  run i s fun s => do
    let ld := dl == 1
    let ls := sl == 1
    let dst := s.reg d
    let src := s.reg a
    let cnt := (s.reg b).toNat
    let od := s.tile.operand dst.toNat
    let os := s.tile.operand src.toNat
    let sq4 := (ld && od.fmt == 14) || (ls && os.fmt == 14)
    s.check (!sq4 || s.tile.feat.getLsbD 2) .ill
    s.check (decide (cnt ≤ 4096)) .prot
    s.check (!ls || isSquareFmt os.fmt) .bankfmt
    s.check (!ld || isSquareFmt od.fmt) .bankfmt
    s.check (!(ld && ls) || od.fmt == os.fmt) .bankfmt
    let fmt := if ls then some os.fmt else if ld then some od.fmt else none
    let globalOk := fun (a : DW) => decide (a.toNat % 64 = 0) && (match fmt with
      | some f => f == 15 || decide (a.toNat % 4096 + recordBytes f ≤ 4096)
      | none => true)
    let slotOk := fun (o : Operand) => !o.plane || decide (o.base % 65536 % slotBytes o.fmt = 0)
    s.checkAt (if ls then slotOk os else globalOk src) .align src
    s.checkAt (if ld then slotOk od else globalOk dst) .align dst
    let localOk := fun (o : Operand) (a : DW) (wr : Bool) =>
      cnt == 0 || ((!o.plane || decide (o.slot 0 + cnt ≤ slotCount o.fmt)) && (
        decide (a.toNat + (if o.plane then slotBytes o.fmt else recordBytes o.fmt) * cnt ≤ Config.spadSize) &&
        o.regionsOk s.tile s.st.lvl cnt wr))
    s.checkAt (!ls || localOk os src false) .prot src
    s.checkAt (!ld || localOk od dst true) .prot dst
    s.issueCopy c { s.copyCmd (.square tr) ld ls dst src 0 0 0 0 cnt with
      fmt := fmt.map (BitVec.ofNat 4),
      reads := if cnt = 0 then [] else squareRanges s.tile ls s.xc.asid fmt src cnt,
      writes := if cnt = 0 then [] else squareRanges s.tile ld s.xc.asid fmt dst cnt }

/-- `CP_SQ` (05 R113, R120). -/
def execCpSq (dl sl : BitVec 1) (c : CReg) (d a b : SReg) (s : State) : Host.Outcome State Fault Refusal :=
  squareCopy (.cpSq dl sl c d a b) false dl sl c d a b s

/-- `CP_SQT` (05 R113, R122). -/
def execCpSqt (dl sl : BitVec 1) (c : CReg) (d a b : SReg) (s : State) : Host.Outcome State Fault Refusal :=
  squareCopy (.cpSqt dl sl c d a b) true dl sl c d a b s

/-- Most bytes of a fill unit: the descriptor and its streams. -/
def maxUnit : Nat := 2 ^ 20 + 320

/-- `CP_FILL` (05 R113, R123). The length of the image is known only at transfer: its read range is taken as `maxUnit` bytes for each
unit (DESIGN CHOICE, log 37). -/
def execCpFill (c : CReg) (d a b : SReg) (s : State) : Host.Outcome State Fault Refusal :=
  run (.cpFill c d a b) s fun s => do
    let dst := s.reg d
    let src := s.reg a
    let ctl := (s.reg b).toNat
    let key : BitVec 13 := BitVec.ofNat 13 (bitsOf ctl 16 13)
    let u := bitsOf ctl 0 16
    s.check (!s.atL0) .priv
    s.checkAt (dst.toNat % 65536 == 0) .align dst
    s.check (s.keyOk s.tile.paddock key) .prot
    s.check (decide (ctl < 2 ^ 29)) .prot
    s.checkAt (src.toNat % 64 == 0) .align src
    s.issueCopy c { s.copyCmd .fill false false dst src 0 0 0 0 u with
      key := key,
      reads := if u = 0 then [] else [{ space := .virt s.xc.asid, lo := src.toNat, hi := src.toNat + u * maxUnit }],
      writes := if u = 0 then [] else [{ space := .phys, lo := dst.toNat, hi := dst.toNat + u * 65536 }] }

/-! ### Counter instructions (05 R127) -/

/-- The failure of a counter that a wait up to m delivers. -/
def Counter.hit (k : Counter) (m : Nat) : Bool := k.err.valid && decide (k.err.num ≤ m)

/-- Deliver the failure of a counter. -/
def State.takeErr (s : State) (c : CReg) : State :=
  s.onTile fun t => t.modCtr c fun k => { k with err := { k.err with valid := false } }

/-- The cause that a counter's failure raises (05 R126, 16 R354). -/
def ErrRec.req (e : ErrRec) (c : CReg) : TrapReq :=
  { cause := Cause.ofCode e.cause, addr := BitVec.ofNat 64 e.num, info := e.info c, localSrc := e.localSrc }

/-- The wait of `cp.wait` and `cp.waitq`: m is sampled at the first issue. -/
def State.waitCounter (s : State) (c : CReg) (a : SReg) : Except Stop Nat :=
  let m := match s.st.sample with
    | some v => v.toNat
    | none => min (s.reg a).toNat (s.tile.ctr c).issue
  if (s.tile.ctr c).done < m then
    .error (.wait (.retry .engine) (s.onSt fun x => { x with sample := some (BitVec.ofNat 64 m) }))
  else .ok m

/-- `CP_WAIT` (05 R127). -/
def execCpWait (c : CReg) (a : SReg) (s : State) : Host.Outcome State Fault Refusal :=
  run (.cpWait c a) s fun s => do
    let m ← s.waitCounter c a
    let k := s.tile.ctr c
    if k.hit m then .error (.trap (k.err.req c) (s.takeErr c)) else .ok s

/-- `CP_WAITQ` (05 R127). -/
def execCpWaitq (d : SReg) (c : CReg) (a : SReg) (s : State) : Host.Outcome State Fault Refusal :=
  run (.cpWaitq d c a) s fun s => do
    let m ← s.waitCounter c a
    let k := s.tile.ctr c
    if k.hit m then .ok ((s.takeErr c).setReg d k.err.word) else .ok (s.setReg d 0)

/-- `CP_RDC` (05 R127). -/
def execCpRdc (d : SReg) (c : CReg) (sel : BitVec 2) (s : State) : Host.Outcome State Fault Refusal :=
  run (.cpRdc d c sel) s fun s =>
    let k := s.tile.ctr c
    .ok (match sel.toNat with
      | 0 => s.setReg d (BitVec.ofNat 64 k.done)
      | 1 => s.setReg d (BitVec.ofNat 64 k.issue)
      | 2 => s.setReg d k.err.word
      | _ => (s.takeErr c).setReg d k.err.word)

/-! ### Reading and writing through translation -/

/-- The agent that a command's accesses are made for. -/
def State.wainAgent (s : State) (w : WainCmd) : GAgent :=
  { tile := s.tile.ltn, xc := w.xc, paddock := s.tile.paddock, wain := true }

/-- The identity of a command's requests. -/
def State.wainAsker (s : State) (w : WainCmd) (key : BitVec 13) : Asker := s.gAsker (s.wainAgent w) key

/-- Translate for a transfer (05 R114, R124). -/
def State.wainXlate (s : State) (w : WainCmd) (va : DW) (kind : Nat) : Io (Nat × BitVec 13) × State :=
  s.gXlate (s.wainAgent w) va kind

/-- Read one span that lies within a line. -/
def State.vaRead (s : State) (w : WainCmd) (va : DW) (n : Nat) : Io (List Byte) × State := s.gRead (s.wainAgent w) va n

/-- Write one span that lies within a line. -/
def State.vaWrite (s : State) (w : WainCmd) (va : DW) (bs : List Byte) : Io Unit × State := s.gWrite (s.wainAgent w) va bs

/-- Read n bytes line by line. -/
def State.vaReads (s : State) (w : WainCmd) (fuel : Nat) (va : DW) (n : Nat) : Io (List Byte) × State :=
  s.gReads (s.wainAgent w) fuel va n

/-! ### The result of a piece -/

/-- Change a command of the tile at turn. -/
def State.modWain (s : State) (k : Nat) (f : WainCmd → WainCmd) : State := s.onTile fun t => { t with wain := modAt f k t.wain }

/-- A piece is over. -/
def State.pieceDone (s : State) (k p : Nat) : State :=
  s.modWain k fun w => { w with done := insertNat p w.done, stages := w.stages.filter fun x => x.1 != p }

/-- UNIT of a failure: the fill unit or the record, 0 for other copies (05 R125). -/
def WainCmd.unitOf (w : WainCmd) (p : Nat) : Nat :=
  match w.form with
  | .square _ | .fill => p
  | _ => 0

/-- A piece fails: the counter learns of it, and nothing is written at a global destination (05 R115, R124). -/
def State.pieceFail (s : State) (k : Nat) (w : WainCmd) (p : Nat) (c : Cause) (detail : Nat) (loc : Bool := false) : State :=
  ((s.failNum s.tile.ltn w.ctr w.num w.owner c detail (w.unitOf p) loc).pieceDone k p).modWain k fun x =>
    if w.dl then x else { x with unwritten := insertNat p x.unwritten }

/-- The next stage of a piece. -/
def State.setStage (s : State) (k p : Nat) (st : PieceStage) : State :=
  s.modWain k fun w => { w with stages := (p, st) :: w.stages.filter fun x => x.1 != p }

/-- A piece has no address yet: it waits on a page event, or comes again once its page is walked (05 R130, 04 R97, R99). -/
def State.pieceMiss (s : State) (k : Nat) (w : WainCmd) (p : Nat) (m : Miss) : State :=
  let s1 := s.missed s.tile.ltn (.wain w.ctr w.num p) w.xc m
  match m with
  | .page _ _ _ _ _ => s1.setStage k p .paged
  | .walk _ _ => s1

/-- Undefined bytes written to scratchpad (00 R2). -/
def State.spoilLocal (s : State) (a n : Nat) : State :=
  (s.engineStore a ((List.range n).map (Config.freeByte s.free))).takeFree

/-! ### Plain pieces (05 R115-R119) -/

/-- The bytes of a source span, local or global. A local word with an uncorrectable error fails as poisoned memory does. -/
def State.srcRead (s : State) (w : WainCmd) (a : DW) (n : Nat) : Io (List Byte) × State :=
  if w.sl then
    if wordsBad s.tile.spadBad a.toNat n then (.fail .uncorr 2, s) else (.ok (s.tile.readSpad a.toNat n), s)
  else s.vaRead w a n

/-- A piece has written a byte of a row above this one. -/
def WainCmd.wroteAbove (w : WainCmd) (row a p : Nat) : Bool :=
  !(w.unwritten.contains p) && (match w.pieceAt p with
    | some (r, off, n) =>
      let d := (rowAddr w.dst w.dStride r).toNat + off
      decide (row < r) && decide (d ≤ a) && decide (a < d + n)
    | none => false)

/-- Destination bytes that this piece leaves alone: those in the command's own source range, which later pieces leave undefined, and
those that a piece of a higher row has already written (05 R115). Whether the two ranges meet is judged by their bounding intervals (05
R128; DESIGN CHOICE, log 58). -/
def WainCmd.skips (w : WainCmd) (row : Nat) (a : Nat) : Bool :=
  (w.writes.any fun x => w.reads.any fun y => y.space == x.space && decide (y.lo ≤ a) && decide (a < y.hi)) ||
  (decide (w.rows ≠ 1) && w.done.any (w.wroteAbove row a))

/-- Bytes with their places, grouped into the runs that a piece does write. -/
def keepRuns (skip : Nat → Bool) : Nat → List Byte → List (Nat × List Byte)
  | _, [] => []
  | a, b :: bs =>
    if skip a then keepRuns skip (a + 1) bs
    else
      match keepRuns skip (a + 1) bs with
      | (k, r) :: rest => if k = a + 1 then (a, b :: r) :: rest else (a, [b]) :: (k, r) :: rest
      | [] => [(a, [b])]

/-- Write runs at the destination. -/
def State.dstWrite (s : State) (w : WainCmd) : List (Nat × List Byte) → Io Unit × State
  | [] => (.ok (), s)
  | (a, bs) :: rest =>
    if w.dl then (s.engineStore a bs).dstWrite w rest
    else
      match s.vaWrite w (BitVec.ofNat 64 a) bs with
      | (.ok _, s1) => s1.dstWrite w rest
      | x => x

/-- The local destination of a piece whose source fails is undefined, but for bytes that higher rows have written (05 R115). -/
def State.spoilPiece (s : State) (w : WainCmd) (p : Nat) : State :=
  match w.dl, w.pieceAt p with
  | true, some (row, off, n) =>
    let da := (rowAddr w.dst w.dStride row).toNat + off
    (s.dstWrite w (keepRuns (w.skips row) da ((List.range n).map (Config.freeByte s.free)))).2.takeFree
  | _, _ => s

/-- A line that `cp.pf` brings into its home slice, or skips (05 R119). -/
def State.prefetchPiece (s : State) (k : Nat) (w : WainCmd) (p : Nat) (sa : DW) : State :=
  match s.wainXlate w sa 0 with
  | (.miss (.walk va kind), s1) => s1.pieceMiss k w p (.walk va kind)
  | (.ok (pa, key), s1) =>
    if Config.mainSize ≤ pa then s1.pieceDone k p
    else
      match s1.physRead s.tile.paddock (s1.wainAsker w key) (pa / 64 * 64) 64 with
      | (.busy, _) => s
      | (_, s2) => s2.pieceDone k p
  | (_, s1) => s1.pieceDone k p

/-- A plain, zeroing or prefetching piece. -/
def State.plainPiece (s : State) (k : Nat) (w : WainCmd) (p : Nat) : State :=
  match w.pieceAt p with
  | none => s
  | some (row, off, n) =>
    let sa := rowAddr w.src w.sStride row + BitVec.ofNat 64 off
    let da := rowAddr w.dst w.dStride row + BitVec.ofNat 64 off
    if w.form = .prefetch then s.prefetchPiece k w p sa
    else
      let (r, s1) := if w.form = .zero then ((.ok (List.replicate n 0) : Io (List Byte)), s) else s.srcRead w sa n
      match r with
      | .busy => s
      | .miss m => s1.pieceMiss k w p m
      | .fail c d => (s1.spoilPiece w p).pieceFail k w p c d w.sl
      | .ok bs =>
        match s1.dstWrite w (keepRuns (w.skips row) da.toNat bs) with
        | (.ok _, s2) => s2.pieceDone k p
        | (.busy, _) => s
        | (.fail c d, s2) => s2.pieceFail k w p c d
        | (.miss m, s2) => s2.pieceMiss k w p m

/-- A row of a converting copy (05 R116, R117). A local one is cut into whole rows, a local raw copy into destination lines: R115 cuts
global transfers only (DESIGN CHOICE, log 58). -/
def State.convertPiece (s : State) (k : Nat) (w : WainCmd) (row : Nat) : State :=
  let f := w.fmtSrc.toNat
  let g := w.fmtDst.toNat
  let sa := (rowAddr w.src w.sStride row).toNat
  let da := (rowAddr w.dst w.dStride row).toNat
  if wordsBad s.tile.spadBad sa w.rowLen then (s.spoilPiece w row).pieceFail k w row .uncorr 2 true
  else
    let rs := (codesOfBytes (bankWidth f) (w.rowLen * 8 / bankWidth f) (s.tile.readSpad sa w.rowLen)).map (cvtElem f g .near)
    let (nd, half) := convertedBytes f g w.rowLen
    let bytes := bytesOfCodes (bankWidth g) (rs.map Prod.fst)
    let old := (s.tile.spad.read (da + nd - 1)).toNat
    let bytes := if half then bytes.take (nd - 1) ++ [BitVec.ofNat 8 ((bytes.getD (nd - 1) 0).toNat % 16 + old / 16 * 16)] else bytes
    let s1 := (keepRuns (w.skips row) da bytes).foldl (fun s r => s.engineStore r.1 r.2) s
    (s1.modWain k fun x => { x with flags := x.flags ||| rs.foldl (fun a r => a ||| r.2) 0 }).pieceDone k row

/-- A span in which the command's source meets its destination becomes undefined, once everything has moved (05 R115). -/
def State.overlapPiece (s : State) (k : Nat) (w : WainCmd) (p : Nat) : State :=
  match w.overlaps[p - w.moves]? with
  | none => s
  | some x =>
    if !((List.range w.moves).all w.done.contains) then s
    else
      match s.dstWrite w [(x.1, (List.range x.2).map (Config.freeByte s.free))] with
      | (.ok _, s1) => s1.takeFree.pieceDone k p
      | (.busy, _) => s
      | (.fail c d, s1) => s1.pieceFail k w p c d
      | (.miss m, s1) => s1.pieceMiss k w p m

/-! ### Square records (05 R120-R122) -/

/-- A record read: its header and codes. -/
structure Rec where
  h : Nat
  codes : List Nat
  deriving DecidableEq, Repr

/-- A record from its bytes. -/
def recOfBytes (fmt : Nat) (bs : List Byte) : Rec :=
  { h := ofLe (bs.take 64), codes := codesOfBytes (bankWidth fmt) 1024 (bs.drop 64) }

/-- The bytes of a record. -/
def Rec.bytes (fmt : Nat) (r : Rec) : List Byte := leBytes 64 r.h ++ bytesOfCodes (bankWidth fmt) r.codes

/-- The record that a square copy writes (05 R122): transposed or not, FORMAT from a local source bank, no tag for an untagged
record; of a tag RESIDUE can change, and HOP is 0 in a record that has travelled to the tile (10 R227; log 34). -/
def squareOut (w : WainCmd) (tr : Bool) (fmt : Nat) (r : Rec) : Rec :=
  let arr := r.codes.toArray
  let codes := if tr then (List.range 1024).map fun k => elemOf arr (k % 32) (k / 32) else r.codes
  let h := if tr then setBits (setBits r.h 64 64 (hColX r.h)) 128 64 (hRowX r.h) else r.h
  let h := if w.sl then setBits h 16 4 fmt else h
  let tag := hTag h
  let tag := if tag ≠ 0 ∧ tr then setBits tag 0 31 (residueOf fmt h codes) else tag
  let tag := if w.sl then tag else setBits tag 47 6 0
  { h := setBits h 256 64 tag, codes := codes }

/-- Local or global address of record i at an end. -/
def WainCmd.recAt (w : WainCmd) (src : Bool) (fmt i : Nat) : Nat :=
  recAddr (recordBytes fmt) (if src then w.src else w.dst).toNat i

/-- Undefined bytes in a local destination slot (05 R122). -/
def State.spoilSlot (s : State) (w : WainCmd) (i : Nat) : State :=
  if w.dl then ((s.tile.operand w.dst.toNat).ranges i).foldl (fun s r => s.spoilLocal r.lo (r.hi - r.lo)) s else s

/-- A record fails before it is written (05 R122, R124). -/
def State.recordFail (s : State) (k : Nat) (w : WainCmd) (i : Nat) (c : Cause) (detail : Nat) (loc : Bool := false) : State :=
  (s.spoilSlot w i).pieceFail k w i c detail loc

/-- A tagged record that its check refuses, with the record of the mismatch; wain traffic has route 0 (05 R122, 10 R226, R228). -/
def State.recordRefused (s : State) (k : Nat) (w : WainCmd) (i fmt : Nat) (r : Rec) : State :=
  let t := hTag r.h
  let s1 := if tagBad t then s
    else s.sheafRecord s.tile.paddock (if w.sl then 6 else 1) (tagGen t) (tagHop t) (hChunk r.h) (hTensor r.h) 0
      (s.gid s.tile.ltn) (tagResidue t) (residueOf fmt r.h r.codes) (if w.sl then (s.tile.operand w.src.toNat).addr i else 0)
  s1.recordFail k w i .sheaf 5

/-- The line pieces of record i below an offset are over. -/
def State.atLine (s : State) (k i o : Nat) : State :=
  let other := fun (x : Nat × PieceStage) => match x with
    | (j, .lines _) => j != i
    | _ => true
  s.modWain k fun w => { w with stages := w.stages.filter other ++ [(i, .lines o)] }

/-- The offset below which the line pieces of record i are over. -/
def WainCmd.lineAt (w : WainCmd) (i : Nat) : Option Nat :=
  w.stages.findSome? fun x => match x with
    | (j, .lines o) => if j = i then some o else none
    | _ => none

/-- The rest of record i moves as plain line pieces, each by itself: one that fails leaves the others to go on, and one that has to wait
is taken up again (05 R121, R124). -/
def State.linesWrite (s : State) (k : Nat) (w : WainCmd) (i : Nat) : Nat → Nat → DW → List Byte → State
  | 0, _, _, _ => s.pieceDone k i
  | fuel + 1, o, va, bs =>
    if bs.isEmpty then s.pieceDone k i
    else
      match s.vaWrite w va (bs.take 64) with
      | (.ok _, s1) => s1.linesWrite k w i fuel (o + 64) (va + 64) (bs.drop 64)
      | (.fail c d, s1) => (s1.failNum s.tile.ltn w.ctr w.num w.owner c d i false).linesWrite k w i fuel (o + 64) (va + 64) (bs.drop 64)
      | (.busy, _) => s.atLine k i o
      | (.miss m, s1) => (s1.pieceMiss k w i m).atLine k i o

/-- A record has been read: check it, transform it, and write it or send its SQWR. An AIC32 record moves as plain line pieces, and so does
one of the second tier, where no base die serves an SQWR: its version is copied unchanged (DESIGN CHOICE, log 81). -/
def State.squareWrite (s : State) (k : Nat) (w : WainCmd) (i fmt : Nat) (tr : Bool) (r : Rec) : State :=
  if hTag r.h ≠ 0 ∧ (tagBad (hTag r.h) ∨ tagBroken fmt r.h r.codes) then s.recordRefused k w i fmt r
  else
    let o := squareOut w tr fmt r
    if w.dl then
      let od := s.tile.operand w.dst.toNat
      (s.onTile fun t => od.putHeader (od.putCodes t i o.codes) i o.h).pieceDone k i
    else
      let va : DW := BitVec.ofNat 64 (w.recAt false fmt i)
      let bytes := o.bytes fmt
      let at' := (w.lineAt i).getD 0
      let lines := fun (s : State) => s.linesWrite k w i (lineFuel bytes.length) at' (va + BitVec.ofNat 64 at') (bytes.drop at')
      if fmt = 15 then lines s
      else match s.wainXlate w va 1 with
      | (.busy, _) => s
      | (.miss m, s1) => s1.pieceMiss k w i m
      | (.fail c d, s1) => s1.pieceFail k w i c d
      | (.ok (pa, key), s1) =>
        if Config.mainSize ≤ pa then lines s1
        else
          let q := MemReq.blank .sqwr (.wainWrite w.ctr w.num i) (s1.wainAsker w key) pa bytes.length
          (s1.addReq { q with data := bytes }).setStage k i .writing

/-- A record has arrived from global memory: its header must name the command's format (05 R120). -/
def State.squareArrives (s : State) (k : Nat) (w : WainCmd) (i fmt : Nat) (tr : Bool) (bs : List Byte) : State :=
  let r := recOfBytes fmt bs
  if hFormat r.h % 16 ≠ fmt ∨ (fmt = 14 ∧ !(s.tile.feat.getLsbD 2)) then s.recordFail k w i .bankfmt 6
  else s.squareWrite k w i fmt tr r

/-- Start of a record whose source is global. -/
def State.squareRead (s : State) (k : Nat) (w : WainCmd) (i fmt : Nat) (tr : Bool) : State :=
  let va : DW := BitVec.ofNat 64 (w.recAt true fmt i)
  match s.wainXlate w va 0 with
  | (.busy, _) => s
  | (.miss m, s1) => s1.pieceMiss k w i m
  | (.fail c d, s1) => s1.recordFail k w i c d
  | (.ok (pa, key), s1) =>
    if fmt = 15 ∨ Config.mainSize ≤ pa then
      match s1.vaReads w (lineFuel (recordBytes fmt)) va (recordBytes fmt) with
      | (.busy, _) => s
      | (.miss m, s2) => s2.pieceMiss k w i m
      | (.fail c d, s2) => s2.recordFail k w i c d
      | (.ok bs, s2) => s2.squareArrives k w i fmt tr bs
    else
      (s1.addReq (MemReq.blank .sqrd (.wainRead w.ctr w.num i) (s1.wainAsker w key) pa (recordBytes fmt))).setStage k i .reading

/-- The first header names no format, or cannot be read (for which this is DESIGN CHOICE, log 81): record 0 fails and no record is moved
(05 R120). -/
def State.headerFail (s : State) (k : Nat) (w : WainCmd) (c : Cause) (detail : Nat) : State :=
  (s.pieceFail k w 0 c detail).modWain k fun w => { w with done := List.range w.pieces, stages := [] }

/-- A record of a square copy that has not been touched yet. -/
def State.squareStart (s : State) (k : Nat) (w : WainCmd) (i : Nat) (tr : Bool) : State :=
  match w.fmt with
  | some f =>
    let fmt := f.toNat
    if w.sl then
      let o := s.tile.operand w.src.toNat
      if s.tile.rangesBad (o.ranges i) then s.recordFail k w i .uncorr 2 true
      else s.squareWrite k w i fmt tr { h := s.tile.spad.readLe (o.headerAddr i) 64, codes := o.codes s.tile i }
    else s.squareRead k w i fmt tr
  | none =>
    -- both ends are global: the first record's header names the format
    match s.vaRead w w.src 64 with
    | (.busy, _) => s
    | (.miss m, s1) => s1.pieceMiss k w i m
    | (.fail c d, s1) => s1.headerFail k w c d
    | (.ok bs, s1) =>
      let f := hFormat (ofLe bs) % 16
      if isSquareFmt f then s1.modWain k fun w => { w with fmt := some (BitVec.ofNat 4 f) }
      else s1.headerFail k w .bankfmt 6

/-- The reply that a piece waits for, once it has reached the tile. -/
def State.pieceReply (s : State) (w : WainCmd) (p : Nat) (wr : Bool) : Option MemReq :=
  s.reqs.find? fun r => r.phase == .toTile && r.source == s.gid s.tile.ltn &&
    r.handle == (if wr then .wainWrite w.ctr w.num p else .wainRead w.ctr w.num p)

/-- A request is over. -/
def State.dropReq (s : State) (r : MemReq) : State := { s with reqs := s.reqs.filter fun q => q.serial != r.serial }

/-- One step of a record of a square copy. -/
def State.squarePiece (s : State) (k : Nat) (w : WainCmd) (i : Nat) (tr : Bool) : State :=
  match (w.stages.find? fun x => x.1 == i).map Prod.snd with
  | some .paged | some .failed => s
  | some .reading =>
    (match s.pieceReply w i false, w.fmt with
     | some r, some f =>
       let s1 := s.dropReq r
       (match r.status.io r.data with
        | .ok bs => s1.squareArrives k w i f.toNat tr bs
        | .fail c d => s1.recordFail k w i c d
        | _ => s1)
     | _, _ => s)
  | some .writing =>
    (match s.pieceReply w i true with
     | some r =>
       let s1 := s.dropReq r
       -- the slice has refused a BAD sheaf (10 R226)
       if r.refused then s1.pieceFail k w i .sheaf 5
       else (match r.status.io () with
        | .fail c d => s1.pieceFail k w i c d
        | _ => s1.pieceDone k i)
     | none => s)
  | some (.lines _) | none => s.squareStart k w i tr

/-! ### Fill units (05 R123, 04 R104-R106) -/

/-- Where unit u of an image begins: each unit begins where the one before ends, rounded up to 64 bytes. The MODE and TOTAL of an
invalid descriptor count all the same, and a descriptor that cannot be read fails every later unit too (DESIGN CHOICE, log 37). -/
def State.unitAt (s : State) (w : WainCmd) : Nat → DW → Io DW × State
  | 0, va => (.ok va, s)
  | u + 1, va =>
    match s.vaReads w 3 va 16 with
    | (.ok bs, s1) =>
      let d := fillDesc bs
      s1.unitAt w u (va + BitVec.ofNat 64 ((d.dataOff + d.total + 63) / 64 * 64))
    | (r, s1) => (r.other va, s1)

/-- The 64 KiB of a unit, or its failure: DECERR is DETAIL 4. -/
def State.unitRead (s : State) (w : WainCmd) (u : Nat) : Io (List Byte) × State :=
  match s.unitAt w u w.src with
  | (.ok va, s1) =>
    (match s1.vaReads w 3 va 16 with
     | (.ok bs, s2) =>
       let d := fillDesc bs
       if !d.valid || (d.mode != 0 && !(s2.tile.feat.getLsbD 4)) then (.fail .uncorr 4, s2)
       else
         (match s2.vaReads w (lineFuel (d.dataOff + d.total)) va (d.dataOff + d.total) with
          | (.ok all, s3) =>
            (match fillUnit all with
             | some out => (.ok out, s3)
             | none => (.fail .uncorr 4, s3))
          | x => x)
     | x => x)
  | (r, s1) => (r.other [], s1)

/-- Full-line writes of a unit under the key of the command. -/
def State.unitWrite (s : State) (a : Asker) : Nat → Nat → List Byte → Io Unit × State
  | 0, _, _ => (.ok (), s)
  | n + 1, pa, bs =>
    match s.physWrite s.tile.paddock a pa (bs.take 64) with
    | (.ok _, s1) => s1.unitWrite a n (pa + 64) (bs.drop 64)
    | x => x

/-- The frame of a unit lies in main memory, outside the monitor window, in a channel the paddock owns; or the unit's failure (05 R123). -/
def State.unitOk (s : State) (w : WainCmd) (pa : Nat) : Option Nat :=
  if Config.mainSize < pa + unitBytes ∨ (inWindow pa ∧ w.xc.lvl ≠ 2) then some 1
  else match s.askCheck (s.wainAsker w w.key) pa with
  | .ok => none
  | _ => some 3

/-- Write the 64 KiB of a unit. -/
def State.unitPut (s : State) (k : Nat) (w : WainCmd) (u : Nat) (bytes : List Byte) (after : State → State) : State :=
  match s.unitWrite (s.wainAsker w w.key) (unitBytes / 64) (w.dst.toNat + u * unitBytes) bytes with
  | (.ok _, s1) => after s1
  | (.fail c d, s1) => s1.pieceFail k w u c d
  | _ => s

/-- One unit of `cp.fill`; one that fails leaves its 64 KiB undefined (04 R106). -/
def State.fillPiece (s : State) (k : Nat) (w : WainCmd) (u : Nat) : State :=
  let spoil := fun (s : State) => (List.range unitBytes).map (Config.freeByte s.free)
  match s.unitOk w (w.dst.toNat + u * unitBytes) with
  | some d => s.pieceFail k w u .prot d
  | none =>
    if w.stages.contains (u, .failed) then s.unitPut k w u (spoil s) fun s1 => s1.takeFree.pieceDone k u
    else match s.unitRead w u with
    | (.busy, _) => s
    | (.miss m, s1) => s1.pieceMiss k w u m
    | (.ok bs, s1) => s1.unitPut k w u bs fun s2 => s2.pieceDone k u
    | (.fail c d, s1) => s1.unitPut k w u (spoil s1) fun s2 => s2.takeFree.pieceFail k w u c d

/-! ### Failure of a piece that has waited (04 R102, 05 R124) -/

/-- Offset of the first line of a record on the 64 KiB page after that of an address at offset o. -/
def nextPageLine (va o : Nat) : Nat := o + (65536 - va % 65536)

/-- The event or the walk that a piece has waited on ends in a failure. The line pieces of a record on that page fail with it; those on the
next page go on (05 R121). -/
def State.wainFails (s : State) (ctr : CReg) (num p : Nat) (c : Cause) (detail : Nat) : State :=
  match s.tile.wain.zipIdx.find? fun x => x.1.ctr == ctr && x.1.num == num with
  | none => s
  | some (w, k) =>
    if w.done.contains p then s
    else match w.form with
    | .prefetch => s.pieceDone k p
    | .plain | .zero | .convert => (if w.moves ≤ p then s else s.spoilPiece w p).pieceFail k w p c detail
    | .square _ =>
      (match w.fmt, w.lineAt p with
       | none, _ => s.headerFail k w c detail
       | some f, some o =>
         (s.failNum s.tile.ltn ctr num w.owner c detail p false).modWain k (fun x => { x with stages := x.stages.filter (· != (p, .paged)) }) |>.atLine k p
           (nextPageLine (w.recAt false f.toNat p + o) o)
       | some _, none => s.recordFail k w p c detail)
    | .fill => (s.failNum s.tile.ltn ctr num w.owner c detail p false).setStage k p .failed

/-- A piece that has waited comes again. -/
def State.wainAgain (s : State) (ctr : CReg) (num p : Nat) : State :=
  s.onTile fun t =>
    let again := fun (w : WainCmd) => { w with stages := w.stages.filter fun x => x != (p, .paged) }
    { t with wain := modFirst (fun w => w.ctr == ctr && w.num == num) again t.wain }

/-! ### Events of the wain -/

/-- `WAIN_COMMAND_START` (05 R114, R128): command `k` starts once no earlier entry conflicts. -/
def execWainCommandStart (s : State) : Host.Outcome State Fault Refusal :=
  event (match s.tile.wain[s.input.k]? with
  | none => s
  | some w => if w.started || !(s.tile.copyFree w) then s else s.modWain s.input.k fun w => { w with started := true })

/-- `WAIN_TRANSFER` (05 R115-R124): piece `j` of command `k` moves, or takes its next step. -/
def execWainTransfer (s : State) : Host.Outcome State Fault Refusal :=
  event (match s.tile.wain[s.input.k]? with
  | none => s
  | some w =>
    let k := s.input.k
    let p := s.input.j
    if !w.started || w.done.contains p || decide (w.pieces ≤ p) || w.stages.contains (p, .paged) then s
    else if w.moves ≤ p then s.overlapPiece k w p
    else match w.form with
    | .plain | .zero | .prefetch => s.plainPiece k w p
    | .convert => s.convertPiece k w p
    | .square tr => s.squarePiece k w p tr
    | .fill => s.fillPiece k w p)

/-- `WAIN_COMMAND_COMPLETE` (05 R112, R117, R125): every piece of command `k` is done. -/
def execWainCommandComplete (s : State) : Host.Outcome State Fault Refusal :=
  event (match s.tile.wain[s.input.k]? with
  | none => s
  | some w =>
    if w.done.length < w.pieces then s
    else
      let s1 := s.onTile fun t =>
        { t.modCtx w.xc.ctx (fun x => { x with flags := x.flags ||| w.flags }) with wain := dropAt s.input.k t.wain }
      s1.completeNum s.tile.ltn w.ctr w.num)

end Sys2Proof.Machine
end

