-- ==== Sys2Proof/Machine/Messages.lean ====
section
/-! DEFINITION. Sys2Proof/Machine/Messages.lean: messages from `am.send` to acceptance, the mailbox, handlers, and the built-in
handlers that act on scratchpad (11 R244-R260). -/
namespace Sys2Proof.Machine

/-! ### Sending (11 R251, R254, R374) -/

/-- Two messages that must be accepted in release order: one destination, and in a large system one lane (11 R254). -/
def State.ordered (s : State) (a b : Msg) : Bool := a.source == b.source && a.dest == b.dest && (!s.large || a.lane == b.lane)

/-- Header bytes [3:0] of a message (11 R244). -/
def Msg.head (m : Msg) : Nat :=
  m.entry % 256 + (m.kind.toNat + m.len * 4 + m.lane.toNat * 32) * 2 ^ 8
    + (m.paddock.toNat + (if m.l1 then 32 else 0) + m.redel * 64) * 2 ^ 16

/-- The 64 bytes of a message, with the REASON of a reject (11 R244). -/
def Msg.bytes (m : Msg) (reason : BitVec 8) : List Byte :=
  leBytes 4 (m.head + reason.toNat * 2 ^ 24) ++ leBytes 4 m.id.toNat ++ leBytes 4 m.source.toNat ++ leBytes 4 m.dest.toNat ++
    m.payload.toList.flatMap fun d => leBytes 8 d.toNat

/-- A message leaves its send queue: towards its destination, over a link where that is another package's. Where no path remains a request
is answered UNREACH, and a reply is dropped, with nothing to answer it (11 R252, R261, R263; 17 R374; log 40). -/
def State.emit (s : State) (e : SendEntry) : State :=
  let m := e.msg
  let put := fun (s : State) (p : MsgPhase) => ({ s with msgs := s.msgs ++ [{ msg := m, rel := e.rel, phase := p }] } : State)
  if m.dest.toNat / 1024 = s.pkg.toNat then put s .toDest
  else if s.canLeave m.paddock then put (s.toLink m.paddock (if m.kind = 0 then 0 else 1) (m.bytes 0)) .toDest
  else if m.kind = 0 then put s (.rejected 3)
  else s

/-- What a tile of this package answers a message of another package, over a link: KIND 1 with no doublewords accepts, 2 refuses, 3
rejects (11 R244, R261; log 40). -/
def State.answer (s : State) (m : Msg) (kind : BitVec 2) (reason : BitVec 8) : State :=
  s.toLink m.paddock 1 ({ m with kind := kind, len := 0, source := m.dest, dest := m.source, payload := Vector.replicate 6 0 }.bytes reason)

/-- The messages of a send queue that may leave: those behind which nothing earlier to the same place is unaccepted, neither a message of
the queue nor an ack. -/
def sendable (ord : Msg → Msg → Bool) (acks : SendEntry → Bool) : List SendEntry → List SendEntry → List SendEntry × List SendEntry
  | _, [] => ([], [])
  | before, e :: es =>
    let go := e.phase == .waiting && !(before.any fun b => ord b.msg e.msg) && !(acks e)
    let e' := if go then { e with phase := SendPhase.sent } else e
    let (r, out) := sendable ord acks (before ++ [e]) es
    (e' :: r, if go then e :: out else out)

/-- An ack that the tile released before a message, and that may still be accepted where the message goes: on its way through switches,
which may lead it anywhere, at a tile of this package, or in another package (11 R254, 12 R278). -/
def State.ackBefore (s : State) (tile : Nat) (e : SendEntry) : Bool :=
  let gid := s.gid tile
  let lane := fun (l : BitVec 3) => !s.large || l == e.msg.lane
  (s.packets.any fun k => k.sources.contains gid && (match k.body with
    | .ack m r => decide (r < e.rel) && lane m.lane
    | _ => false)) ||
  (s.msgs.any fun f => f.msg.entry == 14 && f.phase == .toDest && decide (f.rel < e.rel) && s.ordered f.msg e.msg) ||
  (decide (e.msg.dest.toNat / 1024 ≠ s.pkg.toNat) &&
    s.farSheaves.any fun x => x.sources.contains gid && x.ack.any fun a => decide (a.1 < e.rel) && lane a.2)

/-- The send queue of a tile sends what it may. -/
def State.pump (s : State) (tile : Nat) : State :=
  let (q, out) := sendable s.ordered (s.ackBefore tile) [] (s.getTile tile).sendQ
  out.foldl State.emit (s.modTile tile fun t => { t with sendQ := q })

/-- Messages that a run releases, or the reply of a built-in, enter the send queue in order (11 R249, R253). -/
def State.releaseMsgs (s : State) (tile : Nat) (st : Option StrandId) (ms : List Msg) : State :=
  (s.modTile tile fun t =>
    { t with relNo := t.relNo + ms.length,
             sendQ := t.sendQ ++ ms.zipIdx.map fun p =>
               { msg := p.1, strand := st, rel := t.relNo + p.2, phase := .waiting, refusals := 0, backoff := 0 } }).pump tile

/-- Entries of the send queue that count toward its 16: built-in replies never fill it (11 R251, R253). -/
def Tile.sent (t : Tile) : Nat := (t.sendQ.filter fun e => e.strand.isSome).length

/-- The send queue of the tile has room for a number of messages (11 R251). -/
def Tile.sendRoom (t : Tile) (n : Nat) : Bool := decide (t.sent + n ≤ 16)

/-! ### `am.send`, `am.reply`, `am.stat` (11 R255-R259) -/

/-- Messages buffered by the running activation or handler. -/
def State.buffered (s : State) : List Msg :=
  match s.cur with
  | .main => ((s.tile.act.map Activation.outputs).getD []).filterMap fun o => (match o with
      | .msg m => some m
      | _ => none)
  | .handler => (s.tile.handlerRun.map HandlerRun.msgs).getD []

/-- One more message may be buffered (11 R249, 15 R329). -/
def State.canBuffer (s : State) : Bool :=
  decide (s.buffered.length < 16) && (s.cur == .handler || decide (s.outputCount < 32))

/-- Buffer a message. -/
def State.bufferMsg (s : State) (m : Msg) : State :=
  match s.cur with
  | .main => s.buffer (.msg m)
  | .handler => s.onTile fun t => { t with handlerRun := t.handlerRun.map fun h => { h with msgs := h.msgs ++ [m] } }

/-- Payload doublewords from bytes; those beyond the length are 0 (11 R244). -/
def payloadOf (bs : List Byte) : Vector DW 6 :=
  Vector.ofFn fun (i : Fin 6) => BitVec.ofNat 64 (ofLe ((bs.drop (8 * i.val)).take 8))

/-- LANE of a message: for entries 0 to 4 bits [8:6] of the address in doubleword 0 (11 R254). -/
def laneFor (entry : Nat) (lane : BitVec 3) (p : Vector DW 6) : BitVec 3 :=
  if entry ≤ 4 then BitVec.ofNat 3 ((p[0]).toNat / 64) else lane

/-- Every doubleword of a payload passes LocalCheck. -/
def State.checkPayload (s : State) (a : DW) : Nat → Except Stop Unit
  | 0 => .ok ()
  | n + 1 => do
    s.checkPayload a n
    s.localCheck (a + BitVec.ofNat 64 (8 * n)) 8 false

/-- A tile of the system lies in the paddock of the tile at turn. Of another package's tiles this package holds no configuration: which
of them lie in a paddock is fixed and not known (log 27). -/
def State.destInPaddock (s : State) (gid : Nat) : Bool :=
  if gid / 1024 = s.pkg.toNat then s.inPaddock s.tile.paddock (gid % 1024) else Config.foreignMember s.tile.paddock gid

/-- `AM_SEND` (11 R256). -/
def execAmSend (d a b : SReg) (s : State) : Host.Outcome State Fault Refusal :=
  run (.amSend d a b) s fun s => do
    let h := (s.reg a).toNat
    let dest := bitsOf h 0 22
    let entry := bitsOf h 22 8
    let len := bitsOf h 33 3
    s.check (!(dest / 1024 != s.pkg.toNat && !(s.tile.feat.getLsbD 8))) .ill
    s.check (!(12 ≤ entry && decide (entry ≤ 14) && s.atL0)) .priv
    s.check (decide (h < 2 ^ 36) && decide (len ≤ 6)) .prot
    s.check (s.destInPaddock dest || entry == 12 || entry == 13) .prot
    s.checkPayload (s.reg b) len
    s.check s.canBuffer .qfault
    let bs ← s.loadLocal (s.reg b).toNat (8 * len)
    let p := payloadOf bs
    let m : Msg :=
      { entry := entry, kind := 0, len := len, lane := laneFor entry (BitVec.ofNat 3 (bitsOf h 30 3)) p, paddock := s.tile.paddock,
        l1 := !s.atL0, redel := 0, id := s.tile.msgSeq, source := BitVec.ofNat 22 (s.gid s.tile.ltn), dest := BitVec.ofNat 22 dest,
        payload := p }
    .ok (((s.bufferMsg m).onTile fun t => { t with msgSeq := t.msgSeq + 1 }).setReg d (m.id.zeroExtend 64))

/-- `AM_REPLY` (11 R257). -/
def execAmReply (a b : SReg) (s : State) : Host.Outcome State Fault Refusal :=
  run (.amReply a b) s fun s => do
    let h := (s.reg a).toNat
    let len := bitsOf h 8 3
    s.check (decide (h < 2 ^ 11) && decide (len ≤ 6)) .prot
    s.checkPayload (s.reg b) len
    s.check s.canBuffer .qfault
    s.check (!((s.tile.handlerRun.map HandlerRun.replied).getD false)) .qfault
    match s.tile.mailbox.head? with
    | none => s.trap .ill
    | some g =>
      let bs ← s.loadLocal (s.reg b).toNat (8 * len)
      let p := payloadOf bs
      let m : Msg :=
        { entry := bitsOf h 0 8, kind := 1, len := len, lane := laneFor (bitsOf h 0 8) g.lane p, paddock := s.tile.paddock,
          l1 := !s.atL0, redel := 0, id := g.id, source := BitVec.ofNat 22 (s.gid s.tile.ltn), dest := g.source, payload := p }
      .ok ((s.bufferMsg m).onTile fun t => { t with handlerRun := t.handlerRun.map fun r => { r with replied := true } })

/-- `AM_STAT` (11 R259). -/
def execAmStat (d : SReg) (sel : BitVec 8) (s : State) : Host.Outcome State Fault Refusal :=
  run (.amStat d sel) s fun s =>
    let t := s.tile
    .ok (s.setReg d (BitVec.ofNat 64 (match sel.toNat with
      | 0 => t.sent
      | 1 => min t.refusals (2 ^ 32 - 1)
      | 2 => (t.sendQ.head?.map SendEntry.refusals).getD 0
      | 3 => t.mailbox.length + (if s.large then 256 else 0)
      | _ => if s.cur = .handler then ((t.mailbox.head?.map Msg.id).getD 0).toNat else 0)))

/-! ### Arrival (11 R245, R246) -/

/-- A message fault record (11 R252, 16 R355 type 23); GONE goes to the gleaner. -/
def State.messageFault (s : State) (tile : Nat) (m : Msg) (reason : BitVec 8) : State :=
  let p := (s.getTile tile).paddock
  let bytes := recordBytesOf [(0, 1, 23), (2, 1, reason.toNat), (24, 4, m.id.toNat), (32, 4, s.gid tile), (36, 8, s.tb.toNat),
    (44, 8, m.dest.toNat)]
  s.post p (if reason = 4 then .gleaner else .fault) bytes none

/-- An entry that a message may name: a built-in that is not reserved, or a valid entry of the handler table. -/
def Tile.entryValid (t : Tile) (entry : Nat) : Bool :=
  decide (entry ≤ 4) || (decide (12 ≤ entry) && decide (entry ≤ 14)) || t.handlers.any fun h => h.idx == entry

/-- A message that may take slots 28 to 31 (11 R245). -/
def Msg.reserved (m : Msg) : Bool := m.kind == 1 || [2, 4, 12, 13, 14].contains m.entry

/-- Change the phase of message k. -/
def State.setMsg (s : State) (k : Nat) (p : MsgPhase) : State := { s with msgs := modAt (fun f => { f with phase := p }) k s.msgs }

/-- Message k has come back to its source, or ends here: it leaves the network. -/
def State.dropMsg (s : State) (k : Nat) : State := { s with msgs := dropAt k s.msgs }

/-- Something that a tile of this package released to the destination of its ack `m` before that ack is not accepted yet (12 R278). -/
def State.sentBefore (s : State) (m : Msg) (rel : Nat) : Bool :=
  let l := m.source.toNat % 1024
  decide (m.source.toNat / 1024 = s.pkg.toNat) &&
    (((s.getTile l).sendQ.any fun e => decide (e.rel < rel) && s.ordered e.msg m) ||
      s.ackBefore l { msg := m, strand := none, rel := rel, phase := .sent, refusals := 0, backoff := 0 })

/-- `MESSAGE_ARRIVAL` (11 R244-R246, R254; 12 R278): message `k` reaches its tile: it is rejected, refused, held, or takes a slot. A
refusal or a reject never takes a slot: what it says of a message of this package comes by `REFUSAL` or `REJECT`. -/
def execMessageArrival (s : State) : Host.Outcome State Fault Refusal :=
  event (match s.msgs[s.input.k]? with
  | none => s
  | some f =>
    let m := f.msg
    let l := m.dest.toNat % 1024
    let t := s.getTile l
    if f.phase ≠ .toDest ∨ m.dest.toNat / 1024 ≠ s.pkg.toNat then s
    else if 2 ≤ m.kind.toNat then s.dropMsg s.input.k
    else if (s.msgs.take s.input.k).any fun g => g.phase == .toDest && s.ordered g.msg m then s
    else if m.entry = 14 ∧ s.sentBefore m f.rel then s
    else if !(t.entryValid m.entry) then s.setMsg s.input.k (.rejected 1)
    else if m.reserved ∧ 32 ≤ t.mailbox.length then s
    else if !m.reserved ∧ 28 ≤ t.mailbox.length then s.setMsg s.input.k .refused
    else (s.setMsg s.input.k .accepted).modTile l fun t => { t with mailbox := t.mailbox ++ [m] }.wake)

/-- A message to another package waits for what its destination answers. -/
def State.abroad (s : State) (f : MsgFlight) : Bool := f.phase == .toDest && f.msg.dest.toNat / 1024 != s.pkg.toNat

/-- A message of a tile of this package. -/
def State.ours (s : State) (m : Msg) : Bool := m.source.toNat / 1024 == s.pkg.toNat

/-- The send-queue entry of a message. -/
def SendEntry.is (e : SendEntry) (m : Msg) : Bool := e.msg == m && e.phase == .sent

/-- `ACCEPTANCE` (11 R245, R251): the acceptance of message `k` reaches its sender, whose queue may send the next one. -/
def execAcceptance (s : State) : Host.Outcome State Fault Refusal :=
  event (match s.msgs[s.input.k]? with
  | none => s
  | some f =>
    if f.phase ≠ .accepted ∧ !(s.abroad f) then s
    else if !(s.ours f.msg) then (s.dropMsg s.input.k).answer f.msg 1 0
    else
      let l := f.msg.source.toNat % 1024
      ((s.dropMsg s.input.k).modTile l fun t => { t with sendQ := dropFirst (fun e => e.is f.msg) t.sendQ }).pump l)

/-- `REFUSAL` (11 R251): the k-th refusal of a message sets its back-off; at the 64th a MAILBOX record is posted. -/
def execRefusal (s : State) : Host.Outcome State Fault Refusal :=
  event (match s.msgs[s.input.k]? with
  | none => s
  | some f =>
    if f.phase ≠ .refused ∧ !(s.abroad f) then s
    else if !(s.ours f.msg) then (s.dropMsg s.input.k).answer f.msg 2 0
    else
      let l := f.msg.source.toNat % 1024
      let n := (((s.getTile l).sendQ.find? fun e => e.is f.msg).map SendEntry.refusals).getD 0
      let s1 := (s.dropMsg s.input.k).modTile l fun t =>
        { t with refusals := min (t.refusals + 1) (2 ^ 32 - 1),
                 sendQ := modFirst (fun e => e.is f.msg)
                   (fun e => { e with phase := .backoff, refusals := e.refusals + 1, backoff := min 8192 (64 * 2 ^ n) }) t.sendQ }
      if n + 1 = 64 then
        s1.postFault (s.getTile l).paddock l 22 0 [(24, 4, f.msg.id.toNat), (44, 8, f.msg.dest.toNat)]
      else s1)

/-- `MESSAGE_RESEND` (11 R251): entry `k` of the tile's send queue is sent again once its back-off is over. -/
def execMessageResend (s : State) : Host.Outcome State Fault Refusal :=
  event (match s.tile.sendQ[s.input.k]? with
  | none => s
  | some e =>
    if e.phase = .backoff ∧ e.backoff = 0 then
      (s.onTile fun t => { t with sendQ := modAt (fun e => { e with phase := .sent }) s.input.k t.sendQ }).emit e
    else s)

/-- `REJECT` (11 R252): the reject of message `k` reaches its sender, which discards it and posts a message fault record. -/
def execReject (s : State) : Host.Outcome State Fault Refusal :=
  event (match s.msgs[s.input.k]? with
  | none => s
  | some f =>
    let why : Option (BitVec 8) := match f.phase with
      | .rejected r => some r
      | _ => if s.abroad f && decide (1 ≤ s.input.j) && decide (s.input.j ≤ 5) then some (BitVec.ofNat 8 s.input.j) else none
    match why with
    | none => s
    | some r =>
      if !(s.ours f.msg) then (s.dropMsg s.input.k).answer f.msg 3 r
      else
        let l := f.msg.source.toNat % 1024
        (((s.dropMsg s.input.k).modTile l fun t => { t with sendQ := dropFirst (fun e => e.is f.msg) t.sendQ }).pump l).messageFault
          l f.msg r)

/-! ### Handlers (11 R247-R250, R258) -/

/-- The handler strand is free for the message at the head of the mailbox; it starts nothing while the tile is halted for its remap (16
R357). -/
def State.headMsg (s : State) : Option Msg :=
  if s.tile.handlerRun.isSome || s.tile.halted || s.tile.remapping || s.halted then none else s.tile.mailbox.head?

/-- The slot of the head message is freed. -/
def State.freeSlot (s : State) : State := s.onTile fun t => { t with mailbox := t.mailbox.drop 1, handlerLocal := 0 }

/-- Registers at handler start (11 R247); s10 to s31 are free values. -/
def Msg.regs (m : Msg) (free : Nat) : Vector DW 32 :=
  Vector.ofFn fun (i : Fin 32) =>
    if i.val = 0 then 0
    else if i.val = 1 then m.id.zeroExtend 64
    else if i.val = 2 then m.source.zeroExtend 64
    else if i.val = 9 then BitVec.ofNat 64 m.head
    else if i.val < 9 then (m.payload.toList.getD (i.val - 3) 0)
    else Config.freeWord (free + i.val)

/-- `HANDLER_START` (11 R246-R248): the handler strand takes the oldest slot; a message whose entry has become invalid, or whose
context is unbound, is discarded with a record. -/
def execHandlerStart (s : State) : Host.Outcome State Fault Refusal :=
  event (match s.headMsg with
  | none => s
  | some m =>
    if m.entry < 16 then s
    else match s.tile.handlers.find? fun h => h.idx == m.entry with
    | none => s.freeSlot.messageFault s.tile.ltn m 1
    | some h =>
      let c := s.tile.ctxs[h.ctx.toNat]'(h.ctx.isLt)
      if c.state = .unbound then s.freeSlot.messageFault s.tile.ltn m 1
      else
        let n := s.tile.runs + 1
        -- what the message orders comes before every access of the handler (12 R277)
        let s1 := s.onTile fun t =>
          { t.acquire .handler with
                   runs := n, handlerRun := some { run := n, msgs := [], replied := false, ending := false },
                   handler := t.handler.beginRun (m.regs s.free) c.lvl h.ctx (s.free + 32) h.pc }
        { s1 with free := s.free + 38 })

/-- The atomics of the issuing run have all replied (13 R285). -/
def State.atomicsDone (s : State) : Bool :=
  !(s.atomics.any fun a => a.tile == s.tile.ltn && a.strand == s.cur && a.run == s.runRef.run && !a.trigger)

/-- A failure of a command of the issuing run is raised, the lowest counter's first (05 R126). -/
def State.raiseErr (s : State) : Except Stop Unit :=
  match s.tile.firstErr s.runRef with
  | some (c, e) => .error (.trap (e.req c) (s.takeErr c))
  | none => .ok ()

/-- Step 4 of `am.end` (11 R258): the messages leave, once; after the fence of 12 R276 the slot is free and the handler is over. While
that fence waits a failure of a copy belongs to no run any more. -/
def State.endHandler (s : State) (ms : List Msg) : Exec := do
  let s1 := (s.releaseMsgs s.tile.ltn (some .handler) ms).onTile fun t =>
    { t with handlerRun := t.handlerRun.map fun h => { h with msgs := [], ending := true } }
  s1.release true 1
  .error (.ended (((s1.localFence 1 true true).freeSlot).onTile fun t => { t with handlerRun := none, handler := t.handler.clearRun }))

/-- `AM_END` (11 R258): the handler's atomics, its failures and room in the send queue come first, then step 4. -/
def execAmEnd (s : State) : Host.Outcome State Fault Refusal :=
  run .amEnd s fun s => do
    if s.tile.handlerRun.any HandlerRun.ending then s.endHandler []
    else if !s.atomicsDone then s.stall .memory
    else
      s.raiseErr
      let ms := s.buffered
      if !(s.tile.sendRoom ms.length) then s.stall .queue
      else s.endHandler ms

/-! ### Built-in handlers on scratchpad (11 R253) -/

/-- A built-in message at the head of the mailbox. -/
def State.builtin (s : State) (entry : Nat) : Option Msg := s.headMsg.filter fun m => m.entry == entry

/-- A built-in that acts on scratchpad: it runs once the fence that follows its store would not wait, so that store, fence and the
freeing of the slot are one step (11 R253, 12 R276; log 41). -/
def State.builtinLocal (s : State) (entry : Nat) : Option Msg := if s.strandWaits .handler 1 3 then none else s.builtin entry

/-- Doubleword i of a payload. -/
def Msg.dw (m : Msg) (i : Nat) : DW := m.payload.toList.getD i 0

/-- The level whose regions a built-in obeys. -/
def Msg.lvl (m : Msg) : BitVec 2 := if m.l1 then 1 else 0

/-- The built-in answers with a reject and changes nothing. -/
def State.rejectHead (s : State) (m : Msg) (r : BitVec 8) : State :=
  { s.freeSlot with msgs := s.freeSlot.msgs ++ [{ msg := m, rel := 0, phase := .rejected r }] }

/-- A built-in reply. -/
def State.builtinReply (s : State) (m : Msg) (entry : Nat) (addr sz value : DW) : State :=
  let p : Vector DW 6 := Vector.ofFn fun (i : Fin 6) => if i.val = 0 then addr else if i.val = 1 then sz else if i.val = 2 then value else 0
  let r : Msg :=
    { entry := entry, kind := 1, len := 3, lane := BitVec.ofNat 3 (addr.toNat / 64), paddock := m.paddock, l1 := m.l1, redel := 0,
      id := m.id, source := BitVec.ofNat 22 (s.gid s.tile.ltn), dest := m.source, payload := p }
  s.releaseMsgs s.tile.ltn none [r]

/-- A built-in stores, as the handler strand would, and fences (12 R276). -/
def State.builtinWrite (s : State) (a : Nat) (bs : List Byte) : State :=
  s.onTile fun t => ((t.storeBy .handler a bs).publish .handler).acquire .handler

/-- A built-in store of the low bytes of doubleword 2 at the address in doubleword 0. -/
def State.builtinStore (s : State) (entry : Nat) : State :=
  match s.builtinLocal entry with
  | none => s
  | some m =>
    let n := 2 ^ ((m.dw 1).toNat % 4)
    match s.tile.localCheck m.lvl (m.dw 0) n true with
    | some _ => s.rejectHead m 2
    | none => s.freeSlot.builtinWrite (m.dw 0).toNat (leBytes n (m.dw 2).toNat)

/-- `REMOTE_STORE` (11 R253 entry 0). -/
def execRemoteStore (s : State) : Host.Outcome State Fault Refusal := event (s.builtinStore 0)

/-- `LOAD_REPLY` (11 R253 entry 2). -/
def execLoadReply (s : State) : Host.Outcome State Fault Refusal := event (s.builtinStore 2)

/-- `ATOMIC_REPLY` (11 R253 entry 4). -/
def execAtomicReply (s : State) : Host.Outcome State Fault Refusal := event (s.builtinStore 4)

/-- `REMOTE_LOAD` (11 R253 entry 1). -/
def execRemoteLoad (s : State) : Host.Outcome State Fault Refusal :=
  event (match s.builtinLocal 1 with
  | none => s
  | some m =>
    let n := 2 ^ ((m.dw 1).toNat % 4)
    match s.tile.localCheck m.lvl (m.dw 0) n false with
    | some _ => s.rejectHead m 2
    | none =>
      if wordsBad s.tile.spadBad (m.dw 0).toNat n then s.rejectHead m 5
      else s.freeSlot.builtinReply m 2 (m.dw 2) (m.dw 1) (BitVec.ofNat 64 (ofLe (s.tile.readSpad (m.dw 0).toNat n))))

/-- The value a remote atomic writes, where it writes one. -/
def remoteOp (op o x c : Nat) : Option Nat :=
  match op with
  | 0 => some ((o + x) % 2 ^ 64)
  | 1 => some x
  | 2 => if o = c then some x else none
  | _ => some (max o x)

/-- `REMOTE_ATOMIC` (11 R253 entry 3). -/
def execRemoteAtomic (s : State) : Host.Outcome State Fault Refusal :=
  event (match s.builtinLocal 3 with
  | none => s
  | some m =>
    let a := m.dw 0
    match s.tile.localCheck m.lvl a 8 false, s.tile.localCheck m.lvl a 8 true with
    | none, none =>
      if wordsBad s.tile.spadBad a.toNat 8 then s.rejectHead m 5
      else
        let o := ofLe (s.tile.readSpad a.toNat 8)
        let s1 := match remoteOp ((m.dw 1).toNat % 4) o (m.dw 2).toNat (m.dw 3).toNat with
          | some v => s.freeSlot.builtinWrite a.toNat (leBytes 8 v)
          | none => s.freeSlot
        if m.dw 4 = BitVec.allOnes 64 then s1 else s1.builtinReply m 4 (m.dw 4) 3 (BitVec.ofNat 64 o)
    | _, _ => s.rejectHead m 2)

end Sys2Proof.Machine
end

