-- ==== Sys2Proof/Machine/Activation.lean ====
section
/-! DEFINITION. Sys2Proof/Machine/Activation.lean: `commit`, `abort` and `yield`, the tile scheduler, the start of an activation and
the fallow steps (15 R326-R339, R347). -/
namespace Sys2Proof.Machine

/-! ### Release (15 R330) -/

/-- A buffered output leaves the activation. -/
def State.releaseOutput (s : State) (tile : Nat) (o : Output) : State :=
  match o with
  | .push q kind round nbt addr payload =>
    let s1 := s.releaseItem tile q.toNat kind round nbt addr payload
    if kind = 2 then s1.modTile tile fun t => t.modEp q.toNat fun e => { e with closed := true } else s1
  | .msg m => s.releaseMsgs tile (some .main) [m]
  | .red addr auto => s.modTile tile fun t => { t with shSends := t.shSends ++ [{ addr := addr, auto := auto, resend := false }] }
  | .ack ident route gen =>
    let t := s.getTile tile
    -- the ack is a message to entry 14 of each tile that its route reaches; the tile numbers it as it leaves (log 30)
    let m : Msg :=
      { entry := 14, kind := 0, len := 1, lane := 0, paddock := t.paddock, l1 := t.main.lvl != 0, redel := 0, id := t.msgSeq,
        source := BitVec.ofNat 22 (s.gid tile), dest := 0,
        payload := Vector.ofFn fun (i : Fin 6) => if i.val = 0 then BitVec.ofNat 64 (ident.toNat + gen.toNat * 2 ^ 48) else 0 }
    let k : Packet :=
      { switch := tile, port := 0, route := route, paddock := t.paddock, dest := tile, sources := [s.gid tile], body := .ack m t.relNo }
    { s.modTile tile (fun t => { t with msgSeq := t.msgSeq + 1, relNo := t.relNo + 1 }) with packets := s.packets ++ [k] }

/-- Staged stores take effect in issue order (06 R143). -/
def Tile.applyStaged (t : Tile) (ss : List Staged) : Tile :=
  ss.foldl (fun t x => t.writeSpad x.addr (leBytes x.size x.data.toNat)) t

/-- Numbers of the endpoints of a context in a role. -/
def Tile.epsOf (t : Tile) (c : BitVec 2) (r : EpRole) : List Nat :=
  (t.eps.toList.zipIdx.filter fun p => p.1.role == r && p.1.ctx == c).map (·.2)

/-- Step 2 of the fallow steps, and the outputs that step 3 has to mark (15 R338). -/
def State.beginFallow (s : State) (tile : Nat) (c : BitVec 2) : State :=
  let t := s.getTile tile
  let take := fun (s : State) (q : Nat) =>
    let e := s.epOf tile q
    match e.next with
    | some i =>
      if i.kind = 2 then
        -- the item behind the marker is the next one: a `wfi` goes on when it is deliverable (16 R367)
        let s1 := (s.consumed e.qcb i.id).modTile tile fun t => t.modEp q fun e =>
          { e with ring := dropFirst (fun j => !j.held) e.ring, head := e.head + 1 }
        if (s1.deliverable (s1.epOf tile q)).isSome then s1.modTile tile Tile.wake else s1
      else s
    | none => s
  ((t.epsOf c .input).foldl take s).modTile tile fun t => t.modCtx c fun x => { x with fallowOut := some ((t.epsOf c .output).filter fun q => !((s.epOf tile q).closed)) }

/-- The end of an activation by `commit` or `yield`, in one step (15 R330, R332; R334 for a FINAL one). -/
def State.endActivation (s : State) (yields : Bool) (a : Activation) : State :=
  let tile := s.tile.ltn
  let c := s.tile.main.ctx
  let s1 := s.onTile fun t => t.applyStaged a.staged
  let s2 := if yields then s1.onTile Tile.unhold else s1.consumeHeld tile
  let s3 := a.outputs.foldl (fun s o => s.releaseOutput tile o) s2
  let s4 := s3.onTile fun t =>
    { (t.modCtx c fun x => { x with carry := t.main.carry, runs := 0, lastHeld := [] }) with main := t.main.clearRun }
  let s5 := s4
  if a.final ∧ !((s.tile.ctxs[c.toNat]'(c.isLt)).killPending) then (s5.onTile fun t => { t with act := none }).beginFallow tile c
  else s5.leaveRun tile c false

/-- What `commit` and `yield` wait for and raise before their one step (15 R330). -/
def commitForm (i : Instr) (yields : Bool) (s : State) : Host.Outcome State Fault Refusal :=
  run i s fun s =>
    match s.tile.act with
    | none => s.trap .ill
    | some a => do
      if s.tile.thresher.any fun c => c.owner == s.runRef then s.stall .engine
      else if !s.atomicsDone then s.stall .memory
      else
        s.raiseErr
        if !(s.tile.sendRoom s.buffered.length) then s.stall .queue
        else .error (.ended (s.endActivation yields a))

/-- `COMMIT` (15 R330). -/
def execCommit (s : State) : Host.Outcome State Fault Refusal := commitForm .commit false s

/-- `YIELD` (15 R332). -/
def execYield (s : State) : Host.Outcome State Fault Refusal := commitForm .yield true s

/-- `ABORT` (15 R331): no release; what the start recorded is restored. -/
def execAbort (s : State) : Host.Outcome State Fault Refusal :=
  run .abort s fun s =>
    match s.tile.act with
    | none => s.trap .ill
    | some a =>
      let tile := s.tile.ltn
      let c := s.tile.main.ctx
      let s1 := (s.rollback tile c a).endThresher tile
      let s2 := (s1.clearErrs tile s.runRef).dropAwait tile .main
      let s3 := s2.onTile fun t => { t with main := t.main.clearRun }
      .error (.ended (s3.leaveRun tile c false))

/-! ### Candidates (15 R326, R327, R334, R335) -/

/-- How a context that the scheduler chooses goes on. -/
inductive Start where
  /-- A round or gather mismatch: QFAULT before anything is popped. -/
  | mismatch
  /-- An activation that pops the heads of these endpoints; `closes` when they are the round-ends of CROUND. -/
  | pop (eps : List Nat) (closes : Bool)
  /-- The fallow condition. -/
  | fallow
  deriving DecidableEq, Repr

/-- The endpoint of highest QPRIO among those given, the lowest number among equals. -/
def State.bestInput (s : State) (t : Tile) : List Nat → Option Nat
  | [] => none
  | q :: qs =>
    let prio := fun (n : Nat) => ((s.queueAt (((t.eps[n]?).getD Endpoint.reset).qcb)).map fun x => x.qcb.qprio).getD 0
    match s.bestInput t qs with
    | none => some q
    | some b => if prio q < prio b then some b else some q

/-- The deliverable head of an endpoint by number. -/
def State.headOf (s : State) (t : Tile) (q : Nat) : Option RingItem := s.deliverable ((t.eps[q]?).getD Endpoint.reset)

/-- The item at the head of an endpoint, whether or not its time has come. -/
def anyHead (t : Tile) (q : Nat) : Option RingItem := ((t.eps[q]?).getD Endpoint.reset).next

/-- The activation condition or the fallow condition of a context, with what its start would do. A round or gather mismatch is judged by
the items at the heads, due or not (15 R326, R327). -/
def State.startOf (s : State) (t : Tile) (c : BitVec 2) : Option Start :=
  let x := t.ctxs[c.toNat]'(c.isLt)
  let ins := t.epsOf c .input
  let kindIs := fun (q : Nat) (f : RingItem → Bool) => (s.headOf t q).any f
  let work := ins.filter fun q => kindIs q fun i => i.kind == 0 || i.kind == 1
  let fallow := ins.filter fun q => kindIs q fun i => i.kind == 2
  if ins.isEmpty then none
  else if fallow.length = ins.length then some .fallow
  else match x.mode with
  | .any => (s.bestInput t work).map fun q => .pop [q] false
  | .all =>
    if ins.any (fun q => (anyHead t q).any fun i => i.kind == 0 || i.kind == 1) && ins.any (fun q => (anyHead t q).any fun i => i.kind == 2) then
      some .mismatch
    else if work.length = ins.length then some (.pop work false)
    else none
  | .round =>
    let off := ins.any fun q => (anyHead t q).any fun i => (i.kind == 0 || i.kind == 1) && i.round != x.cround
    let data := work.filter fun q => kindIs q fun i => i.kind == 0 && i.round == x.cround
    let ends := work.filter fun q => kindIs q fun i => i.kind == 1 && i.round == x.cround
    if off then some .mismatch
    else match s.bestInput t data with
    | some q => some (.pop [q] false)
    | none => if !ends.isEmpty && ends.length + fallow.length == ins.length then some (.pop ends true) else none

/-- An IDLE context whose condition holds. -/
def State.candidate (s : State) (t : Tile) (c : BitVec 2) : Bool :=
  let x := t.ctxs[c.toNat]'(c.isLt)
  x.state == .idle && x.fallowOut.isNone && (s.startOf t c).isSome

/-- Effective priority. -/
def Ctx.eff (x : Ctx) : Nat := x.prio + x.boost

/-- The scheduler prefers the first context to the second. -/
def Ctx.before (x y : Ctx) : Bool :=
  decide (y.eff < x.eff) ||
  (x.eff == y.eff && (match x.lastStart, y.lastStart with
    | none, _ => true
    | some _, none => false
    | some a, some b => decide (a ≤ b)))

/-- The candidate that the scheduler starts (15 R335). -/
def State.choose (s : State) (t : Tile) : List (BitVec 2) → Option (BitVec 2)
  | [] => none
  | c :: cs =>
    match s.candidate t c, s.choose t cs with
    | true, some d => if (t.ctxs[c.toNat]'(c.isLt)).before (t.ctxs[d.toNat]'(d.isLt)) then some c else some d
    | true, none => some c
    | false, r => r

/-- The other candidates age (15 R336). -/
def Ctx.age (x : Ctx) : Ctx :=
  if x.waitB + 1 = Config.ageLimit then { x with waitB := 0, boost := min (7 - x.prio) (x.boost + 1) }
  else { x with waitB := x.waitB + 1 }

/-- The contexts of a tile. -/
def allCtxs : List (BitVec 2) := [0, 1, 2, 3]

/-- Every candidate but the chosen one ages; the chosen one is the latest started. -/
def State.ageAll (s : State) (chosen : BitVec 2) : State :=
  let due := allCtxs.filter fun c => c != chosen && s.candidate s.tile c
  s.onTile fun t =>
    let t := due.foldl (fun t c => t.modCtx c Ctx.age) t
    { (t.modCtx chosen fun x => { x with boost := 0, waitB := 0, lastStart := some t.starts }) with starts := t.starts + 1 }

/-! ### The start of an activation (15 R328) -/

/-- Registers s1 to s4 of an activation that popped the heads of endpoints. -/
def State.startRegs (s : State) (eps : List Nat) (final : Bool) (ins : List Nat) : DW × DW × DW × DW :=
  let map := fun (l : List Nat) => packList 1 ((List.range 16).map fun q => if l.contains q then 1 else 0)
  if final then (0, BitVec.ofNat 64 (2 * 2 ^ 32), BitVec.ofNat 64 (map ins * 2 ^ 16), 0)
  else
    match eps.head? with
    | none => (0, 0, 0, 0)
    | some q =>
      let e := (s.tile.eps[q]?).getD Endpoint.reset
      match e.next with
      | none => (0, 0, 0, 0)
      | some i =>
        (if i.kind = 0 then s.itemAddr e i else 0, s.desc e i, BitVec.ofNat 64 (q + map eps * 2 ^ 16), i.id.zeroExtend 64)

/-- Scalar registers at the start: s1 to s4 given, the carry set of the context, the others free values (02 R47). -/
def startRegs32 (r : DW × DW × DW × DW) (carry : Vector DW 8) (free : Nat) : Vector DW 32 :=
  Vector.ofFn fun (i : Fin 32) =>
    if i.val = 0 then 0
    else if i.val = 1 then r.1
    else if i.val = 2 then r.2.1
    else if i.val = 3 then r.2.2.1
    else if i.val = 4 then r.2.2.2
    else if i.val < 24 then Config.freeWord (free + i.val)
    else carry.toList.getD (i.val - 24) 0

/-- An activation of a context starts: it holds what it pops, its registers are written, what `abort` restores is recorded. -/
def State.startActivation (s : State) (c : BitVec 2) (eps : List Nat) (closes final : Bool) : State :=
  let t := s.tile
  let x := t.ctxs[c.toNat]'(c.isLt)
  let r := s.startRegs eps final (t.epsOf c .input)
  let outs := (t.epsOf c .output).map fun q => (q, ((t.eps[q]?).getD Endpoint.reset).oround)
  let n := t.runs + 1
  let a : Activation :=
    { run := n, final := final, popped := BitVec.ofNat 16 (bitsOf r.2.2.1.toNat 16 16), firstId := r.2.2.2.setWidth 32, staged := [],
      outputs := [], recFlags := x.landFlags.flags, recCtrl := t.phCtrl, recCtrh := t.phCtrh, recCarry := x.carry, recOround := outs,
      recCround := x.cround }
  let pc := if final then x.fallow.getD x.entry else x.entry
  let s1 := s.onTile fun t =>
    let t := eps.foldl Tile.holdNext t
    let t := t.modCtx c fun x =>
      { x.landFlags with state := if final then .final else .running, cround := if closes then x.cround + 1 else x.cround }
    -- what the items order comes before every access of the activation (12 R277)
    { t.acquire .main with
             act := some a, runs := n, main := t.main.beginRun (startRegs32 r x.carry s.free) x.lvl c (s.free + 40) pc,
             v := Vector.ofFn fun (i : Fin 32) => Config.freeVec (s.free + i.val),
             k := Vector.ofFn fun (i : Fin 8) => (Config.freeWord (s.free + 32 + i.val)).setWidth 32 }
  -- the item behind one that is popped is the next one: a `wfi` goes on when it is deliverable (16 R367)
  let s2 := if eps.any fun q => (s1.deliverable (s1.epOf s.tile.ltn q)).isSome then s1.onTile Tile.wake else s1
  { s2 with free := s.free + 46 }

/-- The absence tokens of a start: the chosen context's are withdrawn, every other registered context is switched out (13 R296). -/
def State.switchTokens (s : State) (c : BitVec 2) : State :=
  allCtxs.foldl (fun s d => if d = c then s.switchIn s.tile.ltn d else s.switchOut s.tile.ltn d) s

/-- A mismatch at a start raises QFAULT before anything is popped; SR_EPC and SR_FVAL hold the entry (15 R326). -/
def State.startFault (s : State) (c : BitVec 2) : State :=
  let x := s.tile.ctxs[c.toNat]'(c.isLt)
  let s1 := s.onTile fun t => { t with main := { t.main.clearRun with ctx := c, lvl := x.lvl } }
  s1.mainTrap s.tile.ltn (raise .qfault) x.entry x.entry

/-- The scheduler starts a context. -/
def State.startCtx (s : State) (c : BitVec 2) : State :=
  let x := s.tile.ctxs[c.toNat]'(c.isLt)
  match s.startOf s.tile c with
  | none => s
  | some k =>
    let s1 := s.ageAll c
    match k with
    | .mismatch => (s1.switchTokens c).startFault c
    | .pop eps closes => (s1.switchTokens c).startActivation c eps closes false
    | .fallow =>
      if x.fallow.isSome then (s1.switchTokens c).startActivation c [] false true
      else s1.beginFallow s.tile.ltn c

/-- `SCHEDULER_BOUNDARY` (15 R335-R337): with no activation running, the scheduler starts a candidate, if there is one. -/
def execSchedulerBoundary (s : State) : Host.Outcome State Fault Refusal :=
  event (if s.tile.act.isSome ∨ s.tile.halted ∨ s.tile.remapping ∨ s.halted then s
    else match s.choose s.tile allCtxs with
    | none => s
    | some c => s.startCtx c)

/-! ### The fallow steps (15 R338) -/

/-- A fallow marker on an output that has a credit for it; the output closes. -/
def State.emitFallow (s : State) (tile q : Nat) : State :=
  let e := s.epOf tile q
  (s.releaseItem tile q 2 e.oround 0 0 []).modTile tile fun t => t.modEp q fun e => { e with credits := e.credits - 1, closed := true }

/-- `FALLOW_STEPS` (15 R338): context `k` of the tile emits its fallow markers, as far as it has credits, and parks. -/
def execFallowSteps (s : State) : Host.Outcome State Fault Refusal :=
  event (
    let c : BitVec 2 := BitVec.ofNat 2 s.input.k
    let x := s.tile.ctxs[c.toNat]'(c.isLt)
    match x.fallowOut with
    | none => s
    | some outs =>
      let ready := fun (q : Nat) => decide (0 < (s.epOf s.tile.ltn q).credits)
      let s1 := (outs.filter ready).foldl (fun s q => s.emitFallow s.tile.ltn q) s
      let rest := outs.filter fun q => !(ready q)
      let s2 := s1.onTile fun t => t.modCtx c fun x =>
        { x with fallowOut := if rest.isEmpty then none else some rest, state := if rest.isEmpty then .parked else x.state,
                 parkPending := x.parkPending && !rest.isEmpty }
      if rest.isEmpty then s2.switchOut s.tile.ltn c else s2)

end Sys2Proof.Machine
end

