-- ==== Sys2Proof/Machine/Tagged.lean ====
section
/-! DEFINITION. Sys2Proof/Machine/Tagged.lean: tagged requests and the arrival of their replies (03 R85-R88). -/
namespace Sys2Proof.Machine

/-- State of a tag. -/
def Tile.tag (t : Tile) (i : TReg) : Tag := t.tags[i.toNat]'(i.isLt)

/-- Change a tag of the tile at turn. -/
def State.setTag (s : State) (i : TReg) (x : Tag) : State := s.onTile fun t => { t with tags := t.tags.set i.toNat x i.isLt }

/-- The identity of the issuing strand's requests; the monitor's carry paddock 31 and the L2 bit (03 R65). -/
def State.asker (s : State) (key : BitVec 13) : Asker :=
  s.askerOf s.tile.ltn s.tile.paddock (s.st.lvl == 2) key

/-- Consume a DONE tag: its reply is discarded, and a failed one raises its cause (03 R86, R87). -/
def State.consumeTag (s : State) (i : TReg) : Except Stop State :=
  let s1 := s.setTag i { s.tile.tag i with phase := .idle }
  match (s.tile.tag i).status.cause with
  | some c => s1.trap c
  | none => .ok s1

/-- The issue of a request (03 R86): alignment, local end, translation, tag, data, send, in the order of the rule's pseudocode. A request
whose source word in scratchpad is uncorrectable has therefore consumed a DONE tag before it raises UNCORR, where the rule's prose has
the tag checked after every trap (DESIGN CHOICE, log 53). `loc` is the local address, where the request has one. -/
def State.issueReq (s : State) (kind : ReqKind) (i : TReg) (va : DW) (n : Nat) (mask : BitVec 64) (loc : Option DW) (data : DW) :
    Exec := do
  let rd := kind == .rd
  s.checkAt (va.toNat % n == 0) .align va
  match loc with
  | some l => s.localCheck l n rd
  | none => .ok ()
  let (pa, key, s1) ← s.xlate (.mrq s.cur) va n (if rd then 0 else 1)
  if (s.tile.tag i).phase = .busy then s1.stall .memory
  else
    let s2 ← if (s.tile.tag i).phase = .done then s1.consumeTag i else .ok s1
    let bytes ← match rd, loc with
      | true, _ => .ok []
      | false, some l => s2.loadLocal l.toNat n
      | false, none => .ok (leBytes n data.toNat)
    let q := MemReq.blank kind (.tag i) (s2.asker key) pa n
    .ok ((s2.addReq { q with strand := s.cur, bmask := mask, data := bytes }).setTag i
      { phase := .busy, status := .ok, data := 0, dest := if rd then loc.map BitVec.toNat else none })

/-- `MRQ_RD` (03 R85, R86). -/
def execMrqRd (sz : BitVec 2) (t : TReg) (a d : SReg) (off : BitVec 6) (s : State) : Host.Outcome State Fault Refusal :=
  run (.mrqRd sz t a d off) s fun s =>
    let n := 8 * 2 ^ sz.toNat
    s.issueReq .rd t (s.memAddr a off n) n (BitVec.allOnes 64) (if sz = 0 then none else some (s.reg d)) 0

/-- `MRQ_WR` (03 R85, R86). -/
def execMrqWr (sz : BitVec 2) (t : TReg) (a d : SReg) (off : BitVec 6) (s : State) : Host.Outcome State Fault Refusal :=
  run (.mrqWr sz t a d off) s fun s =>
    let n := 8 * 2 ^ sz.toNat
    s.issueReq .wr t (s.memAddr a off n) n (BitVec.allOnes 64) (if sz = 0 then none else some (s.reg d)) (s.reg d)

/-- ExpandMask of 03 R86: bit i of the mask enables bytes 8i to 8i + 7. -/
def expandMask (m : BitVec 8) : BitVec 64 :=
  BitVec.ofNat 64 (packList 8 ((List.range 8).map fun i => if m.getLsbD i then 255 else 0))

/-- `MRQ_WRM` (03 R85, R86). -/
def execMrqWrm (t : TReg) (a d : SReg) (mask : BitVec 8) (s : State) : Host.Outcome State Fault Refusal :=
  run (.mrqWrm t a d mask) s fun s =>
    if mask = 0 then s.trap .ill
    else s.issueReq .wrm t (s.reg a) 64 (expandMask mask) (some (s.reg d)) 0

/-- `MRQ_WAIT` (03 R87). -/
def execMrqWait (d : SReg) (t : TReg) (s : State) : Host.Outcome State Fault Refusal :=
  run (.mrqWait d t) s fun s =>
    match (s.tile.tag t).phase with
    | .busy => s.stall .memory
    | .idle => .ok (s.setReg d 0)
    | .done => do
      let s1 ← s.consumeTag t
      .ok (s1.setReg d (s.tile.tag t).data)

/-- `MRQ_POLL` (03 R87). -/
def execMrqPoll (d : SReg) (t : TReg) (s : State) : Host.Outcome State Fault Refusal :=
  run (.mrqPoll d t) s fun s =>
    .ok (s.setReg d (match (s.tile.tag t).phase with
      | .busy => 0
      | .done => 1
      | .idle => 2))

/-- A reply reaches its tag (03 R86). -/
def State.tagReply (s : State) (i : TReg) (q : MemReq) : State :=
  let g := s.tile.tag i
  let ok := q.status.good
  let s1 := match g.dest with
    | none => s
    | some l =>
      if ok then s.engineStore l q.data
      else (s.engineStore l ((List.range q.len).map (Config.freeByte s.free))).takeFree
  let v : DW := if q.kind = .rd ∧ q.len = 8 ∧ ok then BitVec.ofNat 64 (ofLe q.data) else 0
  (s1.setTag i { phase := .done, status := if ok then .ok else q.status, data := v, dest := none }).onTile Tile.wake

/-- `MRQ_REPLY_ARRIVAL` (03 R86): the reply of request `k` reaches its tag. -/
def execMrqReplyArrival (s : State) : Host.Outcome State Fault Refusal :=
  event (match s.reqs[s.input.k]? with
  | none => s
  | some q =>
    match q.handle with
    | .tag i =>
      if q.phase = .toTile ∧ q.source = s.gid s.tile.ltn then
        ({ s with reqs := dropAt s.input.k s.reqs } : State).tagReply i q
      else s
    | _ => s)

end Sys2Proof.Machine
end

