-- ==== Sys2Proof/Machine/Atomics.lean ====
section
/-! DEFINITION. Sys2Proof/Machine/Atomics.lean: the atomic operations, global atomics from issue to reply with their identifiers,
and local atomics (12 R281, 13 R282-R286). -/
namespace Sys2Proof.Machine

/-! ### Operations (13 R282, R283) -/

/-- The new value of an operation on n-bit values, none where nothing is written, and the flags it sets. -/
def amoValue (op : Nat) (wide : Bool) (o x c : Nat) : Option Nat × Flags :=
  let n := if wide then 64 else 32
  let so := signed n o
  let sx := signed n x
  match op with
  | 0 => (some ((o + x) % 2 ^ n), 0)
  | 1 => (some (o &&& x), 0)
  | 2 => (some (o ||| x), 0)
  | 3 => (some (o ^^^ x), 0)
  | 4 => (some x, 0)
  | 5 => (some (if sx < so then x else o), 0)
  | 6 => (some (if so < sx then x else o), 0)
  | 7 => (some (min o x), 0)
  | 8 => (some (max o x), 0)
  | 9 => (if o = c then some x else none, 0)
  | _ =>
    let g := if wide then fp64 else fp32
    let r := fAdd g .near (decodeFmt g o) (decodeFmt g x)
    (some r.1, r.2)

/-- Bytes of an operand. -/
def amoBytes (w : BitVec 1) : Nat := if w = 1 then 8 else 4

/-! ### Issue (13 R284) -/

/-- A request to the home slice of an address; it takes the next identifier of its lane (12 R281). -/
def State.sendAtomic (s : State) (op : AtomOp) (va : DW) (pa : Nat) (key : BitVec 13) (x c : DW) (d : SReg) (hold aq : Bool) :
    State :=
  let lane := laneOf pa
  let seq := s.tile.amoSeq[lane.toNat]'(lane.isLt)
  let q : AtomicReq :=
    { serial := s.reqSerial, tile := s.tile.ltn, strand := s.cur, run := s.runRef.run, ctx := s.st.ctx, op := op, lane := lane,
      seq := seq, va := va, pa := pa, key := key, x := x, c := c, d := d, hold := hold, aq := aq, trigger := false, unit := s.st.unit,
      word := s.st.pc, paddock := s.tile.paddock, l2 := s.st.lvl == 2, sentAt := s.tb.toNat, lastSent := s.tb.toNat, atSlice := false,
      reply := none }
  let s1 : State := { s with atomics := s.atomics ++ [q], reqSerial := s.reqSerial + 1 }
  s1.onTile fun t => { t with amoSeq := t.amoSeq.set lane.toNat (seq + 1) lane.isLt }

/-- Send a request once its lane is free, and wait for the reply where the strand has to. -/
def State.launch (s : State) (op : AtomOp) (va : DW) (pa : Nat) (key : BitVec 13) (x c : DW) (d : SReg) (hold aq : Bool) : Exec :=
  if s.laneBusy s.tile.ltn (laneOf pa) then s.stall .memory
  else
    let s1 := s.sendAtomic op va pa key x c d hold aq
    if hold then .error (.wait (.reply (laneOf pa)) s1) else .ok s1

/-- A global atomic (13 R284). -/
def globalAtomic (i : Instr) (op : Nat) (w aq rl : BitVec 1) (sc : BitVec 3) (d a b : SReg) (s : State) :
    Host.Outcome State Fault Refusal :=
  run i s fun s => do
    let n := amoBytes w
    let va := s.reg a
    let (_, _, s1) ← s.xlate (.atomic s.cur) va n 0
    let (pa, key, s2) ← s1.xlate (.atomic s.cur) va n 1
    s2.release (rl == 1) sc
    let cut := fun (v : DW) => BitVec.ofNat 64 (v.toNat % 2 ^ (8 * n))
    (s2.localFence sc (rl == 1) false).launch (.amo op (w == 1)) va pa key (cut (s.reg b)) (cut (s.reg d)) d (d != 0 || aq == 1)
      (aq == 1 && sc != 0)

/-! ### The home slice (12 R281, 13 R284) -/

/-- The place of a request's identifier: slice, source, lane. -/
def State.idKey (s : State) (a : AtomicReq) (e : IdEntry) : Bool :=
  e.slice == sliceOf a.pa && e.source == BitVec.ofNat 23 (s.gid a.tile) && e.lane == a.lane

/-- What a request finds and does: the new value, the cause it replies, and a decrement's FAIL and join. -/
structure AtomEffect where
  new : Option Nat
  cause : Cause
  decrement : Option (Bool × Nat)
  deriving DecidableEq, Repr

/-- Fields of a future word (13 R287). -/
def futState (f : Nat) : Nat := bitsOf f 0 2
def futFail (f : Nat) : Bool := bitOf f 2
def futLink (f : Nat) : Nat := bitsOf f 8 48 * 16

/-- A DONE future word. -/
def futDone (value : Nat) (fail : Bool) : Nat := 2 + (if fail then 4 else 0) + value * 2 ^ 32

/-- The effect of a request on the old value at its home slice (13 R284, R287, R290). -/
def AtomicReq.effect (a : AtomicReq) (o : Nat) : AtomEffect :=
  match a.op with
  | .amo op wide => { new := (amoValue op wide o a.x.toNat a.c.toNat).1, cause := .none, decrement := none }
  | .futRes v fail =>
    (match futState o with
     | 0 => { new := some (futDone v.toNat fail), cause := .none, decrement := none }
     | 1 => { new := some (futDone v.toNat fail), cause := .none, decrement := some (fail, futLink o) }
     | 2 => { new := none, cause := .futdbl, decrement := none }
     | _ => { new := none, cause := .qfault, decrement := none })
  | .futReg join =>
    (match futState o with
     | 0 => { new := some (1 + join / 16 % 2 ^ 48 * 2 ^ 8), cause := .none, decrement := none }
     | 2 => { new := none, cause := .none, decrement := some (futFail o, join) }
     | _ => { new := none, cause := .qfault, decrement := none })
  | .futRst =>
    (match futState o with
     | 0 | 2 => { new := some 0, cause := .none, decrement := none }
     | _ => { new := none, cause := .qfault, decrement := none })

/-- Bytes a request reads and writes. -/
def AtomicReq.bytes (a : AtomicReq) : Nat :=
  match a.op with
  | .amo _ wide => if wide then 8 else 4
  | _ => 8

/-- The next sequence number of a slice in a lane (12 R281). -/
def State.nextSliceSeq (s : State) (slice : Nat) (lane : BitVec 3) : BitVec 32 × State :=
  let same := fun (p : Nat × BitVec 3 × BitVec 32) => p.1 == slice && p.2.1 == lane
  let n := ((s.sliceSeq.find? same).map fun p => p.2.2).getD 0
  (n, { s with sliceSeq := upsert same (fun _ => (slice, lane, n + 1)) s.sliceSeq })

/-- A slice sends a decrement to a join, under the key of the future (13 R289; log 24). -/
def State.sendDecrement (s : State) (a : AtomicReq) (fail : Bool) (join : Nat) : State :=
  let lane := laneOf join
  let (n, s1) := s.nextSliceSeq (sliceOf a.pa) lane
  { s1 with joins := s1.joins ++
    [{ slice := sliceOf a.pa, lane := lane, seq := n, pa := join, key := a.key, paddock := a.paddock, fail := fail }] }

/-- Identity of an atomic at the base die. -/
def State.atomAsker (s : State) (a : AtomicReq) : Asker :=
  { source := s.gid a.tile, paddock := a.paddock, l2 := a.l2, key := a.key }

/-- A write-back passes to the base die like any write (13 R284, 05 R110). -/
def State.writeBack (s : State) (k : Asker) (pa n v : Nat) : State :=
  let q := MemReq.blank .atomwb .none k pa n
  s.addReq { q with data := leBytes n v, phase := .toBase }

/-- A request is applied: its value is read through the line array, its effect made, its identifier kept. -/
def State.applyAtomic (s : State) (a : AtomicReq) : State × (DW × Status × Cause) :=
  let (st, bytes, s1) := s.sliceRead (s.atomAsker a) a.pa a.bytes
  if !st.good then (s1, (0, st, .none))
  else
    let o := ofLe bytes
    let e := a.effect o
    let s2 := match e.new with
      | some v => s1.writeBack (s.atomAsker a) a.pa a.bytes v
      | none => s1
    let s3 := match e.decrement with
      | some (f, j) => s2.sendDecrement a f j
      | none => s2
    let old : DW := BitVec.ofNat 64 o
    let entry : IdEntry :=
      { slice := sliceOf a.pa, source := BitVec.ofNat 23 (s.gid a.tile), lane := a.lane, seq := a.seq, old := old,
        cause := e.cause, lastUse := s.tb.toNat }
    ({ s3 with idTable := upsert (s.idKey a) (fun _ => entry) s3.idTable }, (old, .ok, e.cause))

/-- Room for an identifier at a slice (13 R297): an entry of its own, a free one, or one not used for 2^24 ns, which it takes. -/
def State.idRoom (s : State) (slice : Nat) (own : IdEntry → Bool) : Option State :=
  if s.idTable.any own then some s
  else
    let mine := fun (e : IdEntry) => e.slice == slice
    if (s.idTable.filter mine).length < 16384 then some s
    else
      let old := fun (e : IdEntry) => mine e && decide (e.lastUse + 2 ^ 24 ≤ s.tb.toNat)
      if s.idTable.any old then some { s with idTable := dropFirst old s.idTable } else none

/-- Change atomic k. -/
def State.modAtomic (s : State) (k : Nat) (f : AtomicReq → AtomicReq) : State := { s with atomics := modAt f k s.atomics }

/-- `ATOMIC_AT_HOME_SLICE` (12 R281, 13 R284): request `k` reaches its home slice. One whose sequence number the slice has kept is
answered with the kept value and not applied again. -/
def execAtomicAtHomeSlice (s : State) : Host.Outcome State Fault Refusal :=
  event (match s.atomics[s.input.k]? with
  | none => s
  | some a =>
    if a.reply.isSome || s.lineBusy a.pa || s.olderWaits (s.gid a.tile) (sliceOf a.pa) a.serial then s
    else match s.idTable.find? (s.idKey a) with
    | some e =>
      if e.seq = a.seq then
        let s1 := s.modAtomic s.input.k fun a => { a with atSlice := true, reply := some (e.old, .ok, e.cause) }
        { s1 with idTable := modFirst (s.idKey a) (fun e => { e with lastUse := s.tb.toNat }) s1.idTable }
      else
        let (s1, r) := s.applyAtomic a
        s1.modAtomic s.input.k fun a => { a with atSlice := true, reply := some r }
    | none =>
      match s.idRoom (sliceOf a.pa) (s.idKey a) with
      | none => s
      | some s0 =>
        let (s1, r) := s0.applyAtomic a
        s1.modAtomic s.input.k fun a => { a with atSlice := true, reply := some r })

/-- `ATOMIC_ENTRY_EXPIRY` (12 R281): identifier entry `k` leaves its table 2^24 ns after its last use or later. -/
def execAtomicEntryExpiry (s : State) : Host.Outcome State Fault Refusal :=
  event (match s.idTable[s.input.k]? with
  | none => s
  | some e => if e.lastUse + 2 ^ 24 ≤ s.tb.toNat then { s with idTable := dropAt s.input.k s.idTable } else s)

/-- `ATOMIC_REPLAY` (12 R281): the interface resends request `k` with its identifier unchanged: no reply has arrived 65,536 ns
after sending, or a reroute may have dropped it (`j` ≠ 0). -/
def execAtomicReplay (s : State) : Host.Outcome State Fault Refusal :=
  event (match s.atomics[s.input.k]? with
  | none => s
  | some a =>
    if s.input.j ≠ 0 ∨ a.lastSent + 65536 ≤ s.tb.toNat then
      s.modAtomic s.input.k fun a => { a with lastSent := s.tb.toNat, reply := none }
    else s)

/-! ### The reply (13 R283-R285, R290, R292) -/

/-- The cause that a reply raises. -/
def replyCause (st : Status) (c : Cause) : Option Cause :=
  match st.cause with
  | some x => some x
  | none => if c = .none then none else some c

/-- The flags of an operation, from the old value its reply carries (13 R283). -/
def AtomicReq.opFlags (a : AtomicReq) (o : DW) : Flags :=
  match a.op with
  | .amo op wide => (amoValue op wide o.toNat a.x.toNat a.c.toNat).2
  | _ => 0

/-- The awaiting strand takes the reply. -/
def State.takeReply (s : State) (a : AtomicReq) (o : DW) (c : Option Cause) : State :=
  match c with
  | some c => s.trapStrand a.tile a.strand { cause := c, addr := a.va } a.unit a.word
  | none =>
    s.onTile fun t => (if a.aq then t.acquire a.strand else t).modStrand a.strand fun x =>
      { x.retire with regs := if a.d = 0 then x.regs else x.regs.set a.d.toNat o a.d.isLt }

/-- A reply that no strand awaits: a failure is raised at the strand's next issue boundary while its run is live. -/
def State.noteReply (s : State) (a : AtomicReq) (c : Option Cause) : State :=
  match c with
  | some c =>
    if s.tile.live { strand := a.strand, run := a.run } then
      s.onTile fun t => t.modStrand a.strand fun x =>
        { x with asyncFaults := x.asyncFaults ++
          [{ cause := c, epc := a.unit, fval := a.word, addr := a.va, info := 0, step := none, localSrc := false }] }
    else s
  | none => s

/-- A trigger's reply: a failure leaves a trigger record (13 R292, 16 R355). -/
def State.triggerReply (s : State) (a : AtomicReq) (c : Option Cause) : State :=
  match c with
  | some c => s.postFault a.paddock a.tile 19 c.code.toNat [(44, 8, a.pa)]
  | none => s

/-- The reply of a request reaches its tile, and its lane is free for a trigger that waits for it (13 R292). -/
def State.deliver (s : State) (a : AtomicReq) (o : DW) (st : Status) (c : Cause) : State :=
  let why := replyCause st c
  let s1 := s.onTile fun t => t.modCtx a.ctx fun x => { x with flags := x.flags ||| (if why.isNone then a.opFlags o else 0) }
  let s2 :=
    if a.trigger then s.triggerReply a why
    else if a.hold && (s.tile.strand a.strand).wait == some (.reply a.lane) then s1.takeReply a o why
    else s1.noteReply a why
  s2.fireTriggers s.tile.ltn 17

/-- `GLOBAL_ATOMIC_REPLY` (13 R284, R285): the reply of request `k` arrives. -/
def execGlobalAtomicReply (s : State) : Host.Outcome State Fault Refusal :=
  event (match s.atomics[s.input.k]? with
  | none => s
  | some a =>
    match a.reply with
    | none => s
    | some (o, st, c) =>
      if a.tile = s.tile.ltn then ({ s with atomics := dropAt s.input.k s.atomics } : State).deliver a o st c else s)

/-- A request whose time is over: no reply has arrived 2^22 ns after its first send (12 R281). -/
def AtomicReq.overdue (a : AtomicReq) (now : Nat) : Bool := decide (a.sentAt + 2 ^ 22 ≤ now)

/-- `ATOMIC_GIVE_UP` (12 R281): 2^22 ns after the first send, request `k` completes with status POISON. -/
def execAtomicGiveUp (s : State) : Host.Outcome State Fault Refusal :=
  event (match s.atomics[s.input.k]? with
  | none => s
  | some a =>
    if a.tile = s.tile.ltn ∧ a.overdue s.tb.toNat = true then
      ({ s with atomics := dropAt s.input.k s.atomics } : State).deliver a 0 .poison .none
    else s)

/-- Requests whose time is over are given up when the time comes, so none is sent again after its entry may have gone (12 R281). -/
def State.giveUpDue (s : State) : State :=
  let due := s.atomics.filter fun a => a.overdue s.tb.toNat
  let s1 : State := { s with atomics := s.atomics.filter fun a => !(a.overdue s.tb.toNat) }
  due.foldl (fun s a => s.atTile a.tile fun s => s.deliver a 0 .poison .none) s1

/-- `ASYNC_ATOMIC_FAULT` (13 R285, 16 R352): at an issue boundary of `strand`, the oldest failed atomic whose reply it did not await
is raised. -/
def State.raiseAsync (s : State) (st : StrandId) : State :=
  match (s.tile.strand st).asyncFaults with
  | [] => s
  | f :: fs =>
    let s1 := s.onTile fun t => t.modStrand st fun x => { x with asyncFaults := fs }
    s1.trapStrand s.tile.ltn st { cause := f.cause, addr := f.addr, info := f.info, step := f.step, localSrc := f.localSrc }
      f.epc f.fval

def execAsyncAtomicFault (s : State) : Host.Outcome State Fault Refusal :=
  event (if (s.tile.strand s.input.strand).wait = none then s.raiseAsync s.input.strand else s)

/-! ### Local atomics (13 R286) -/

/-- A local atomic: one indivisible read and write in the bank. -/
def localAtomic (i : Instr) (op : Nat) (w aq rl : BitVec 1) (sc : BitVec 3) (d a b : SReg) (s : State) :
    Host.Outcome State Fault Refusal :=
  run i s fun s => do
    let n := amoBytes w
    let va := s.reg a
    s.localCheck va n false
    s.localCheck va n true
    s.release (rl == 1) (if sc = 0 then 0 else 1)
    -- it acts in the bank, where every store is; what it finds there its strand goes on seeing
    if wordsBad s.tile.spadBad va.toNat n then
      .error (.trap { cause := .uncorr, addr := va, localSrc := true } s)
    else
      let o := s.tile.spad.readLe va.toNat n
      let r := amoValue op (w == 1) o ((s.reg b).toNat % 2 ^ (8 * n)) ((s.reg d).toNat % 2 ^ (8 * n))
      let s0 := s.localFence sc (rl == 1) false
      let s1 := match r.1 with
        | some v => s0.storeLocal va.toNat (leBytes n v)
        | none => s0.onTile fun t => t.lookNow s.cur va.toNat n
      .ok (((s1.localFence sc false (aq == 1)).orFlags 4 r.2).setReg d (BitVec.ofNat 64 o))

/-- `AMO_ADD` (13 R282-R285). -/
def execAmoAdd (w aq rl : BitVec 1) (sc : BitVec 3) (d a b : SReg) (s : State) : Host.Outcome State Fault Refusal :=
  globalAtomic (.amoAdd w aq rl sc d a b) 0 w aq rl sc d a b s

/-- `LAMO_ADD` (13 R282, R286). -/
def execLamoAdd (w aq rl : BitVec 1) (sc : BitVec 3) (d a b : SReg) (s : State) : Host.Outcome State Fault Refusal :=
  localAtomic (.lamoAdd w aq rl sc d a b) 0 w aq rl sc d a b s

/-- `AMO_AND` (13 R282-R285). -/
def execAmoAnd (w aq rl : BitVec 1) (sc : BitVec 3) (d a b : SReg) (s : State) : Host.Outcome State Fault Refusal :=
  globalAtomic (.amoAnd w aq rl sc d a b) 1 w aq rl sc d a b s

/-- `LAMO_AND` (13 R282, R286). -/
def execLamoAnd (w aq rl : BitVec 1) (sc : BitVec 3) (d a b : SReg) (s : State) : Host.Outcome State Fault Refusal :=
  localAtomic (.lamoAnd w aq rl sc d a b) 1 w aq rl sc d a b s

/-- `AMO_OR` (13 R282-R285). -/
def execAmoOr (w aq rl : BitVec 1) (sc : BitVec 3) (d a b : SReg) (s : State) : Host.Outcome State Fault Refusal :=
  globalAtomic (.amoOr w aq rl sc d a b) 2 w aq rl sc d a b s

/-- `LAMO_OR` (13 R282, R286). -/
def execLamoOr (w aq rl : BitVec 1) (sc : BitVec 3) (d a b : SReg) (s : State) : Host.Outcome State Fault Refusal :=
  localAtomic (.lamoOr w aq rl sc d a b) 2 w aq rl sc d a b s

/-- `AMO_XOR` (13 R282-R285). -/
def execAmoXor (w aq rl : BitVec 1) (sc : BitVec 3) (d a b : SReg) (s : State) : Host.Outcome State Fault Refusal :=
  globalAtomic (.amoXor w aq rl sc d a b) 3 w aq rl sc d a b s

/-- `LAMO_XOR` (13 R282, R286). -/
def execLamoXor (w aq rl : BitVec 1) (sc : BitVec 3) (d a b : SReg) (s : State) : Host.Outcome State Fault Refusal :=
  localAtomic (.lamoXor w aq rl sc d a b) 3 w aq rl sc d a b s

/-- `AMO_SWAP` (13 R282-R285). -/
def execAmoSwap (w aq rl : BitVec 1) (sc : BitVec 3) (d a b : SReg) (s : State) : Host.Outcome State Fault Refusal :=
  globalAtomic (.amoSwap w aq rl sc d a b) 4 w aq rl sc d a b s

/-- `LAMO_SWAP` (13 R282, R286). -/
def execLamoSwap (w aq rl : BitVec 1) (sc : BitVec 3) (d a b : SReg) (s : State) : Host.Outcome State Fault Refusal :=
  localAtomic (.lamoSwap w aq rl sc d a b) 4 w aq rl sc d a b s

/-- `AMO_MIN` (13 R282-R285). -/
def execAmoMin (w aq rl : BitVec 1) (sc : BitVec 3) (d a b : SReg) (s : State) : Host.Outcome State Fault Refusal :=
  globalAtomic (.amoMin w aq rl sc d a b) 5 w aq rl sc d a b s

/-- `LAMO_MIN` (13 R282, R286). -/
def execLamoMin (w aq rl : BitVec 1) (sc : BitVec 3) (d a b : SReg) (s : State) : Host.Outcome State Fault Refusal :=
  localAtomic (.lamoMin w aq rl sc d a b) 5 w aq rl sc d a b s

/-- `AMO_MAX` (13 R282-R285). -/
def execAmoMax (w aq rl : BitVec 1) (sc : BitVec 3) (d a b : SReg) (s : State) : Host.Outcome State Fault Refusal :=
  globalAtomic (.amoMax w aq rl sc d a b) 6 w aq rl sc d a b s

/-- `LAMO_MAX` (13 R282, R286). -/
def execLamoMax (w aq rl : BitVec 1) (sc : BitVec 3) (d a b : SReg) (s : State) : Host.Outcome State Fault Refusal :=
  localAtomic (.lamoMax w aq rl sc d a b) 6 w aq rl sc d a b s

/-- `AMO_MINN` (13 R282-R285). -/
def execAmoMinn (w aq rl : BitVec 1) (sc : BitVec 3) (d a b : SReg) (s : State) : Host.Outcome State Fault Refusal :=
  globalAtomic (.amoMinn w aq rl sc d a b) 7 w aq rl sc d a b s

/-- `LAMO_MINN` (13 R282, R286). -/
def execLamoMinn (w aq rl : BitVec 1) (sc : BitVec 3) (d a b : SReg) (s : State) : Host.Outcome State Fault Refusal :=
  localAtomic (.lamoMinn w aq rl sc d a b) 7 w aq rl sc d a b s

/-- `AMO_MAXN` (13 R282-R285). -/
def execAmoMaxn (w aq rl : BitVec 1) (sc : BitVec 3) (d a b : SReg) (s : State) : Host.Outcome State Fault Refusal :=
  globalAtomic (.amoMaxn w aq rl sc d a b) 8 w aq rl sc d a b s

/-- `LAMO_MAXN` (13 R282, R286). -/
def execLamoMaxn (w aq rl : BitVec 1) (sc : BitVec 3) (d a b : SReg) (s : State) : Host.Outcome State Fault Refusal :=
  localAtomic (.lamoMaxn w aq rl sc d a b) 8 w aq rl sc d a b s

/-- `AMO_CAS` (13 R282-R285). -/
def execAmoCas (w aq rl : BitVec 1) (sc : BitVec 3) (d a b : SReg) (s : State) : Host.Outcome State Fault Refusal :=
  globalAtomic (.amoCas w aq rl sc d a b) 9 w aq rl sc d a b s

/-- `LAMO_CAS` (13 R282, R286). -/
def execLamoCas (w aq rl : BitVec 1) (sc : BitVec 3) (d a b : SReg) (s : State) : Host.Outcome State Fault Refusal :=
  localAtomic (.lamoCas w aq rl sc d a b) 9 w aq rl sc d a b s

/-- `AMO_FADD` (13 R282-R285). -/
def execAmoFadd (w aq rl : BitVec 1) (sc : BitVec 3) (d a b : SReg) (s : State) : Host.Outcome State Fault Refusal :=
  globalAtomic (.amoFadd w aq rl sc d a b) 10 w aq rl sc d a b s

/-- `LAMO_FADD` (13 R282, R286). -/
def execLamoFadd (w aq rl : BitVec 1) (sc : BitVec 3) (d a b : SReg) (s : State) : Host.Outcome State Fault Refusal :=
  localAtomic (.lamoFadd w aq rl sc d a b) 10 w aq rl sc d a b s

end Sys2Proof.Machine
end

