-- ==== Sys2Proof/Machine/Barriers.lean ====
section
/-! DEFINITION. Sys2Proof/Machine/Barriers.lean: the barrier instructions, their requests from the issuing strand to the object and back,
and the barrier timer (13 R293-R297). -/
namespace Sys2Proof.Machine

/-- The object that a register names: PROT for a nonzero high part or an index at or beyond BARCOUNT (13 R293, R294). -/
def State.barObject (s : State) (a : SReg) : Except Stop Nat :=
  let v := (s.reg a).toNat
  match s.pcfg s.tile.paddock with
  | some c => if v < 4096 ∧ v < c.barCount.toNat then .ok (c.barBase.toNat + v) else s.trap .prot
  | none => s.trap .prot

/-- An arrival (13 R295): GEN before it, and the object after it. -/
def Barrier.arrive (b : Barrier) (now : Nat) : Barrier :=
  if b.broken then b
  else if b.arrived.toNat + 1 = b.members.toNat then { b with gen := b.gen + 1, arrived := 0, timer := none }
  else if b.arrived = 0 ∧ b.timeout ≠ 0 then { b with arrived := 1, timer := some (b.timeout.toNat * 1024), since := now }
  else { b with arrived := b.arrived + 1 }

/-- The result of a wait for generation g: none while the phase is open (13 R295). -/
def Barrier.result (b : Barrier) (g : BitVec 32) : Option Nat :=
  if (b.gen - b.cfgGen).toNat < (b.gen - g).toNat then some 2
  else if b.broken then some 1
  else if b.gen ≠ g then some 0
  else none

/-! ### Requests (13 R294, R295, R297) -/

/-- The request that the run of the issuing strand waits for. -/
def BarReq.of (r : BarReq) (tile : Nat) (who : RunRef) : Bool := r.tile == tile && r.strand == who.strand && r.run == who.run && !r.copy

/-- The die of an object (13 R293). -/
def barDie (obj : Nat) : Nat := obj / 512

/-- A request stands in the queue of a die. -/
def BarReq.inQueue (r : BarReq) (die : Nat) : Bool := r.phase == .queued && barDie r.obj == die

/-- Paddocks that have objects on a die. -/
def State.barPaddocks (s : State) (die : Nat) : List PaddockCfg :=
  s.paddocks.filter fun c => decide (c.barBase.toNat < die * 512 + 512) && decide (die * 512 < c.barBase.toNat + c.barCount.toNat)

/-- The request queue of a die has room for a request of a paddock: one of its own 8 places, or one of the 256 that belong to no paddock
(13 R297). -/
def State.barRoom (s : State) (die : Nat) (p : BitVec 5) : Bool :=
  let used := fun (p : BitVec 5) => (s.barReqs.filter fun r => r.inQueue die && r.paddock == p).length
  let owners := s.barPaddocks die
  decide (used p < 8) || decide ((owners.map fun c => used c.pnum - 8).foldl (· + ·) 0 < 256 - 8 * owners.length)

/-- The identifier entry of a tile and an object (12 R281, 13 R294). -/
def State.barId (s : State) (tile obj : Nat) : BarId :=
  (s.barIds.find? fun i => i.tile == tile && i.obj == obj).getD { tile := tile, obj := obj, sent := 0, applied := none }

/-- Change the identifier entry of a tile and an object. -/
def State.modBarId (s : State) (tile obj : Nat) (f : BarId → BarId) : State :=
  { s with barIds := upsert (fun i => i.tile == tile && i.obj == obj) (fun _ => f (s.barId tile obj)) s.barIds }

/-- A request of the issuing strand goes to its object, with the next identifier of the tile there. -/
def State.sendBar (s : State) (obj : Nat) (op : BarOp) : State :=
  let r : BarReq :=
    { tile := s.tile.ltn, strand := s.cur, run := s.runRef.run, ctx := s.st.ctx, paddock := s.tile.paddock, obj := obj, op := op,
      seq := (s.barId s.tile.ltn obj).sent, sentAt := s.tb.toNat, copy := false, phase := .queued }
  { s.modBarId s.tile.ltn obj (fun i => { i with sent := i.sent + 1 }) with barReqs := s.barReqs ++ [r] }

/-- The issuing strand takes the reply of its request away. -/
def State.takeBar (s : State) : State := { s with barReqs := s.barReqs.filter fun r => !(r.of s.tile.ltn s.runRef) }

/-- A barrier request from its issue to its reply: it waits at the tile for room in the die's queue, then the strand waits for the reply; a
QFAULT reply is raised (13 R294, R295, R297). -/
def State.askBarrier (s : State) (obj : Nat) (op : BarOp) (k : Nat → State → Exec) : Exec :=
  match s.barReqs.find? fun r => r.of s.tile.ltn s.runRef with
  | some r =>
    (match r.phase with
     | .done (some v) => k v s.takeBar
     | .done none => s.takeBar.trap .qfault
     | _ => s.stall .memory)
  | none => if s.barRoom (barDie obj) s.tile.paddock then (s.sendBar obj op).stall .memory else s.stall .memory

/-- How a wait stands at its object (13 R295). -/
def BarPhase.ofWait (r : Option Nat) : BarPhase := (r.map fun v => BarPhase.done (some v)).getD .pending

/-- Change an object; every wait that is pending there and has a result now has its reply. -/
def State.atBarrier (s : State) (obj : Nat) (f : Barrier → Barrier) : State :=
  let s1 := s.modBarrier obj f
  { s1 with barReqs := s1.barReqs.map fun r =>
    match r.phase, r.op with
    | .pending, .wait g => if r.obj = obj then { r with phase := BarPhase.ofWait ((s1.barrier obj).result g) } else r
    | _, _ => r }

/-- The arrival of a context in the current phase is noted: of one that is registered then or registers later (13 R296). -/
def State.noteArrival (s : State) (r : BarReq) (g : BitVec 32) : State :=
  if r.strand = .main ∧ (s.getTile r.tile).live { strand := r.strand, run := r.run } then
    s.modTile r.tile fun t => t.modCtx r.ctx fun c => { c with arrivals := (r.obj, g) :: c.arrivals.filter fun a => a.1 != r.obj }
  else s

/-- No context holds an absence token of an object. -/
def Tile.clearTokens (obj : Nat) (t : Tile) : Tile :=
  { t with ctxs := t.ctxs.map fun c =>
      { c with barriers := c.barriers.map fun r => if r.obj = obj then { r with token := false } else r } }

/-- What a request does at its object (13 R295): the object afterwards, and how the request stands then. -/
def BarReq.apply (r : BarReq) (now : Nat) (b : Barrier) : Barrier × BarPhase :=
  match r.op with
  | .arr => if b.members = 0 then (b, .done none) else (b.arrive now, .done (some b.gen.toNat))
  | .wait g => (b, .ofWait (b.result g))
  | .poll g => (b, .done (some ((b.result g).getD 3)))
  | .cfg m t =>
    ({ b with members := m, timeout := t, arrived := 0, absent := 0, broken := false, gen := b.gen + 1, cfgGen := b.gen + 1, timer := none },
     .done (some 0))

/-- Request `k` is applied at its object, after the earlier ones of its tile there; one that the object has applied already, by its
identifier, is not applied again (13 R294, R295). A reply that no strand awaits is dropped. ABSENT is 0 after `cfg`, so no token is out
any more (R296). -/
def State.applyBar (s : State) (k : Nat) : State :=
  match s.barReqs[k]? with
  | none => s
  | some r =>
    let rest := dropAt k s.barReqs
    if r.phase ≠ .queued ∨ (s.barReqs.take k).any (fun q => q.phase == .queued && q.tile == r.tile && q.obj == r.obj) then s
    else if (s.barId r.tile r.obj).applied = some r.seq then { s with barReqs := rest }
    else
      let b := s.barrier r.obj
      let (b', p) := r.apply s.tb.toNat b
      let awaited := (s.getTile r.tile).live { strand := r.strand, run := r.run }
      let s1 : State := { s with barReqs := if awaited then modAt (fun q => { q with phase := p }) k s.barReqs else rest }
      let s2 := (s1.modBarId r.tile r.obj fun i => { i with applied := some r.seq }).atBarrier r.obj fun _ => b'
      match r.op with
      | .arr => if b.members = 0 then s2 else s2.noteArrival r b.gen
      | .cfg _ _ => { s2 with tile := s2.tile.clearTokens r.obj, others := s2.others.map fun p => (p.1, p.2.clearTokens r.obj) }
      | _ => s2

/-- The reply is there. -/
def BarPhase.replied : BarPhase → Bool
  | .done _ => true
  | _ => false

/-- The network interface sends request `k`, which has had no reply for 65,536 ns, again (12 R281, 13 R294). -/
def State.resendBar (s : State) (k : Nat) : State :=
  match s.barReqs[k]? with
  | none => s
  | some r =>
    if r.copy || r.phase.replied || decide (s.tb.toNat < r.sentAt + 65536) || !(s.barRoom (barDie r.obj) r.paddock) then s
    else { s with barReqs := modAt (fun q => { q with sentAt := s.tb.toNat }) k s.barReqs ++ [{ r with copy := true, phase := .queued }] }

/-! ### Instructions (13 R294-R296) -/

/-- `BAR_ARR` (13 R294, R295): acts with rl at package scope. -/
def execBarArr (d a : SReg) (s : State) : Host.Outcome State Fault Refusal :=
  run (.barArr d a) s fun s => do
    let obj ← s.barObject a
    s.release (!(s.barReqs.any fun r => r.of s.tile.ltn s.runRef)) 3
    (s.localFence 3 true false).askBarrier obj .arr fun v s => .ok (s.setReg d (BitVec.ofNat 64 v))

/-- The result of a wait or a poll; 0 acts with aq at package scope (13 R294). -/
def State.barResult (s : State) (d : SReg) (v : Nat) : Exec :=
  .ok ((s.localFence 3 false (v == 0)).setReg d (BitVec.ofNat 64 v))

/-- `BAR_WAIT` (13 R294, R295): a wait without a result is pending at the object. -/
def execBarWait (d a b : SReg) (s : State) : Host.Outcome State Fault Refusal :=
  run (.barWait d a b) s fun s => do
    let obj ← s.barObject a
    s.askBarrier obj (.wait ((s.reg b).setWidth 32)) fun v s => s.barResult d v

/-- `BAR_POLL` (13 R294, R295). -/
def execBarPoll (d a b : SReg) (s : State) : Host.Outcome State Fault Refusal :=
  run (.barPoll d a b) s fun s => do
    let obj ← s.barObject a
    s.askBarrier obj (.poll ((s.reg b).setWidth 32)) fun v s => s.barResult d v

/-- `BAR_JOIN` (13 R294, R296): a third registration raises QFAULT; a repeated one has no effect. -/
def execBarJoin (a : SReg) (s : State) : Host.Outcome State Fault Refusal :=
  run (.barJoin a) s fun s => do
    let obj ← s.barObject a
    if s.cx.barriers.any fun r => r.obj == obj then .ok s
    else if 2 ≤ s.cx.barriers.length then s.trap .qfault
    else .ok (s.onCx fun c => { c with barriers := c.barriers ++ [{ obj := obj, token := false }] })

/-- `BAR_LEAVE` (13 R294, R296): the token of the registration, if any, is withdrawn. -/
def execBarLeave (a : SReg) (s : State) : Host.Outcome State Fault Refusal :=
  run (.barLeave a) s fun s => do
    let obj ← s.barObject a
    let held := s.cx.barriers.any fun r => r.obj == obj && r.token
    let s1 := if held then s.modBarrier obj (Barrier.dropAbsent s.tb.toNat) else s
    .ok (s1.onCx fun c => { c with barriers := c.barriers.filter fun r => r.obj != obj })

/-- `BAR_CFG` (13 R294, R295): L1 only. -/
def execBarCfg (a b : SReg) (s : State) : Host.Outcome State Fault Refusal :=
  run (.barCfg a b) s fun s => do
    s.check (!s.atL0) .priv
    let obj ← s.barObject a
    let v := (s.reg b).toNat
    let m := bitsOf v 0 11
    s.check (decide (m ≠ 0) && decide (m ≤ 1024) && decide (v < 2 ^ 35)) .prot
    s.askBarrier obj (.cfg (BitVec.ofNat 11 m) (BitVec.ofNat 24 (bitsOf v 11 24))) fun _ s => .ok s

/-- The paddock whose barrier range holds an object (13 R293). -/
def State.barrierPaddock (s : State) (obj : Nat) : BitVec 5 :=
  ((s.paddocks.find? fun c => decide (c.barBase.toNat ≤ obj) && decide (obj < c.barBase.toNat + c.barCount.toNat)).map
    PaddockCfg.pnum).getD 0

/-- `BARRIER_TIMEOUT` (13 R295): the timer of object `k`, which counts only while no absence token is held, expires. The record is no
tile's: its TILE field holds the package above ten zero bits, and the paddock, for which the layout lists no other place, in its byte [35]
(16 R355; log 47). -/
def execBarrierTimeout (s : State) : Host.Outcome State Fault Refusal :=
  event (
    let b := s.barrier s.input.k
    match b.timer with
    | none => s
    | some r =>
      if b.absent ≠ 0 ∨ b.broken ∨ s.tb.toNat < b.since + r then s
      else
        let p := s.barrierPaddock s.input.k
        (s.atBarrier s.input.k fun x => { x with broken := true, timer := none }).postFault p 0 21 0
          [(4, 2, s.input.k), (8, 4, b.gen.toNat), (12, 2, b.arrived.toNat), (35, 1, p.toNat)])

end Sys2Proof.Machine
end

