-- ==== Sys2Proof/Machine/Elementary.lean ====
section
/-! DEFINITION. Sys2Proof/Machine/Elementary.lean: `vlog2.f32` and `vexp2.f32` (08 R188). The exact result is irrational
unless it is exact, so a truncation to far more bits than the format has, with a sticky bit, rounds as the exact result does
(log 10). -/
namespace Sys2Proof.Machine

/-- Fraction bits of the fixed-point numbers below. -/
def fixBits : Nat := 320
/-- Fraction bits of a logarithm that are kept. -/
def logBits : Nat := 140

/-- Binary digits of log2 of y / 2^fixBits, for y from 2^fixBits to below twice that: square, and halve on a one. -/
def logDigits : Nat → Nat → Nat → Nat
  | 0, _, acc => acc
  | n + 1, y, acc =>
    let z := y * y / 2 ^ fixBits
    if 2 ^ (fixBits + 1) ≤ z then logDigits n (z / 2) (2 * acc + 1) else logDigits n z (2 * acc)

/-- Log2 of a positive finite value m × 2^e, rounded to FP32 (08 R188). -/
def log2Fin (m : Nat) (e : Int) : Nat × Flags :=
  let l := Nat.log2 m
  let n : Int := (l : Int) + e
  if m = 2 ^ l then roundVal fp32 .near (decide (n < 0)) n.natAbs 0 false
  else
    let y := m * 2 ^ (fixBits - l)
    let v : Int := n * (2 ^ logBits : Nat) + (logDigits logBits y 0 : Nat)
    if 0 ≤ v then roundVal fp32 .near false v.toNat (-(logBits : Int)) true
    else roundVal fp32 .near true (v.natAbs - 1) (-(logBits : Int)) true

/-- `vlog2.f32` of a code (08 R188). -/
def fLog2 (code : Nat) : Nat × Flags :=
  match decodeFmt fp32 code with
  | .nan n sg => (nanWith fp32 n, flagIf sg flNV)
  | .inf true => invalid fp32
  | .inf false => (infWith fp32 false, 0)
  | .fin n m e =>
    if m = 0 then (infWith fp32 true, flDZ)
    else if n then invalid fp32
    else log2Fin m e

/-- 2^(2^-1), 2^(2^-2), … in fixed point, each the root of the one before. -/
def rootTable : Nat → Nat → List Nat
  | 0, _ => []
  | n + 1, y =>
    let r := isqrt (y * 2 ^ fixBits)
    r :: rootTable n r

/-- The roots for every fraction bit an FP32 argument can have. -/
def exp2Roots : List Nat := rootTable 150 (2 ^ (fixBits + 1))

/-- The product of the roots whose bit of the fraction is one. `f` holds the fraction with `k` bits. -/
def exp2Frac (f : Nat) : Nat → List Nat → Nat → Nat
  | _, [], acc => acc
  | 0, _ :: _, acc => acc
  | k + 1, r :: rs, acc => exp2Frac f k rs (if bitOf f k then acc * r / 2 ^ fixBits else acc)

/-- 2^x for a finite x, rounded to FP32 (08 R188). -/
def exp2Fin (neg : Bool) (m : Nat) (e : Int) : Nat × Flags :=
  if m = 0 then (0x3F800000, 0)
  else if 8 ≤ (Nat.log2 m : Int) + e then
    (if neg then (0, flUF ||| flNX) else (infWith fp32 false, flOF ||| flNX))
  else
    let k : Nat := 150
    let v := scaled neg m (e + (k : Int)) 0 -- x × 2^150, exact: e is at least −149
    let n : Int := v / (2 ^ k : Nat)
    let f := (v % (2 ^ k : Nat)).toNat
    if f = 0 then roundVal fp32 .near false 1 n false
    else roundVal fp32 .near false (exp2Frac f k exp2Roots (2 ^ fixBits)) (n - fixBits) true

/-- `vexp2.f32` of a code (08 R188). -/
def fExp2 (code : Nat) : Nat × Flags :=
  match decodeFmt fp32 code with
  | .nan n sg => (nanWith fp32 n, flagIf sg flNV)
  | .inf true => (0, 0)
  | .inf false => (infWith fp32 false, 0)
  | .fin n m e => exp2Fin n m e

end Sys2Proof.Machine
end

