-- ==== Sys2Proof/Machine/VectorFp.lean ====
section
/-! DEFINITION. Sys2Proof/Machine/VectorFp.lean: masked elementwise operations and the floating-point arithmetic of major 0x18 (08 R178-R183). -/
namespace Sys2Proof.Machine

/-- The masked update of a vector register: element `e` of width `w` takes the value of `f e` and its flags where the mask is
1; elsewhere it keeps its value and raises nothing (08 R178, R180). The flags come after `n` cycles. -/
def State.vApply (s : State) (n w : Nat) (d : VReg) (k : KReg) (f : Nat → Nat × Flags) : State :=
  let rs := (List.range (1024 / w)).map fun e =>
    if maskBit w (s.kreg k) e then f e else (vElem w (s.vreg d) e, 0)
  (s.setV d (BitVec.ofNat 1024 (packList w (rs.map Prod.fst)))).orFlags n (rs.foldl (fun a r => a ||| r.2) 0)

/-- The float format of ty (08 R182). -/
def fpTy (ty : BitVec 1) : Fmt := if ty = 0 then fp32 else fp64

/-- x − y: a NaN keeps its sign (08 R179). -/
def fSub (g : Fmt) (rm : RMode) (x y : FVal) : Nat × Flags := fAdd g rm x y.negate

/-- z − x × y: a NaN keeps its sign. -/
def fFms (g : Fmt) (rm : RMode) (x y z : FVal) : Nat × Flags := fFma g rm x.negate y z

/-- Latency of the instructions of major 0x18 (08 R196). -/
def fpLatency (i : Instr) (ty : BitVec 1) : Nat :=
  match i with
  | .vdiv .. | .vsqrt .. | .vrcp .. | .vrsq .. => if ty = 0 then 14 else 26
  | _ => if ty = 0 then 4 else 5

/-- An operation on the codes of va, vb and vd under SR_FPCTL.RM. -/
def fpOp (i : Instr) (ty : BitVec 1) (d a b : VReg) (k : KReg) (f : Fmt → RMode → Nat → Nat → Nat → Nat × Flags) (s : State) :
    Host.Outcome State Fault Refusal :=
  run i s fun s =>
    let g := fpTy ty
    let w := g.width
    .ok (s.vApply (fpLatency i ty) w d k fun e => f g s.rm (vElem w (s.vreg a) e) (vElem w (s.vreg b) e) (vElem w (s.vreg d) e))

/-- `VADD_FP` (08 R182, R183: x + y). -/
def execVaddFp (ty : BitVec 1) (d a b : VReg) (k : KReg) (s : State) :
    Host.Outcome State Fault Refusal :=
  fpOp (.vaddFp ty d a b k) ty d a b k (fun g rm x y _ => fAdd g rm (decodeFmt g x) (decodeFmt g y)) s

/-- `VSUB_FP` (08 R182, R183: x − y). -/
def execVsubFp (ty : BitVec 1) (d a b : VReg) (k : KReg) (s : State) :
    Host.Outcome State Fault Refusal :=
  fpOp (.vsubFp ty d a b k) ty d a b k (fun g rm x y _ => fSub g rm (decodeFmt g x) (decodeFmt g y)) s

/-- `VMUL_FP` (08 R182, R183: x × y). -/
def execVmulFp (ty : BitVec 1) (d a b : VReg) (k : KReg) (s : State) :
    Host.Outcome State Fault Refusal :=
  fpOp (.vmulFp ty d a b k) ty d a b k (fun g rm x y _ => fMul g rm (decodeFmt g x) (decodeFmt g y)) s

/-- `VFMA` (08 R182, R183: x × y + z, rounded once). -/
def execVfma (ty : BitVec 1) (d a b : VReg) (k : KReg) (s : State) :
    Host.Outcome State Fault Refusal :=
  fpOp (.vfma ty d a b k) ty d a b k (fun g rm x y z => fFma g rm (decodeFmt g x) (decodeFmt g y) (decodeFmt g z)) s

/-- `VFMS` (08 R182, R183: z − x × y, rounded once). -/
def execVfms (ty : BitVec 1) (d a b : VReg) (k : KReg) (s : State) :
    Host.Outcome State Fault Refusal :=
  fpOp (.vfms ty d a b k) ty d a b k (fun g rm x y z => fFms g rm (decodeFmt g x) (decodeFmt g y) (decodeFmt g z)) s

/-- `VDIV` (08 R182, R183: x / y). -/
def execVdiv (ty : BitVec 1) (d a b : VReg) (k : KReg) (s : State) :
    Host.Outcome State Fault Refusal :=
  fpOp (.vdiv ty d a b k) ty d a b k (fun g rm x y _ => fDiv g rm (decodeFmt g x) (decodeFmt g y)) s

/-- `VMIN_FP` (08 R182, R183: minimumNumber). -/
def execVminFp (ty : BitVec 1) (d a b : VReg) (k : KReg) (s : State) :
    Host.Outcome State Fault Refusal :=
  fpOp (.vminFp ty d a b k) ty d a b k (fun g _ x y _ => fMinMax g false x y) s

/-- `VMAX_FP` (08 R182, R183: maximumNumber). -/
def execVmaxFp (ty : BitVec 1) (d a b : VReg) (k : KReg) (s : State) :
    Host.Outcome State Fault Refusal :=
  fpOp (.vmaxFp ty d a b k) ty d a b k (fun g _ x y _ => fMinMax g true x y) s

/-- `VSQRT` (08 R182, R183: square root). -/
def execVsqrt (ty : BitVec 1) (d a : VReg) (k : KReg) (s : State) :
    Host.Outcome State Fault Refusal :=
  fpOp (.vsqrt ty d a k) ty d a a k (fun g rm x _ _ => fSqrt g rm (decodeFmt g x)) s

/-- `VABS_FP` (08 R182, R183: the sign cleared). -/
def execVabsFp (ty : BitVec 1) (d a : VReg) (k : KReg) (s : State) :
    Host.Outcome State Fault Refusal :=
  fpOp (.vabsFp ty d a k) ty d a a k (fun g _ x _ _ => (x % 2 ^ (g.x + g.y), 0)) s

/-- `VNEG_FP` (08 R182, R183: the sign inverted). -/
def execVnegFp (ty : BitVec 1) (d a : VReg) (k : KReg) (s : State) :
    Host.Outcome State Fault Refusal :=
  fpOp (.vnegFp ty d a k) ty d a a k (fun g _ x _ _ => (x.xor (2 ^ (g.x + g.y)), 0)) s

/-- `VRCP` (08 R182, R183: 1 / x, rounded once). -/
def execVrcp (ty : BitVec 1) (d a : VReg) (k : KReg) (s : State) :
    Host.Outcome State Fault Refusal :=
  fpOp (.vrcp ty d a k) ty d a a k (fun g rm x _ _ => fDiv g rm (.fin false 1 0) (decodeFmt g x)) s

/-- `VRSQ` (08 R182, R183: 1 / √x, rounded once). -/
def execVrsq (ty : BitVec 1) (d a : VReg) (k : KReg) (s : State) :
    Host.Outcome State Fault Refusal :=
  fpOp (.vrsq ty d a k) ty d a a k (fun g rm x _ _ => fRsqrt g rm (decodeFmt g x)) s

end Sys2Proof.Machine
end

