-- ==== Sys2Proof/Machine/VectorInt.lean ====
section
/-! DEFINITION. Sys2Proof/Machine/VectorInt.lean: integer arithmetic and compares of the vector unit (08 R184, R185). -/
namespace Sys2Proof.Machine

/-- Width of es (08 R184). -/
def intWidth (es : BitVec 2) : Nat :=
  match es.toNat with
  | 0 => 32
  | 1 => 64
  | 2 => 16
  | _ => 8

/-- An element as an integer of type T. -/
def elemInt (w : Nat) (sg : Bool) (x : Nat) : Int := if sg then signed w x else (x : Int)

/-- An operation on integer elements. Those that raise flags have a latency of 2 cycles (08 R184, R196). -/
def intOp (i : Instr) (es : BitVec 2) (sg : BitVec 1) (d a b : VReg) (k : KReg) (f : Nat → Bool → Nat → Nat → Nat × Flags)
    (s : State) : Host.Outcome State Fault Refusal :=
  run i s fun s =>
    let w := intWidth es
    .ok (s.vApply 2 w d k fun e => f w (sg == 1) (vElem w (s.vreg a) e) (vElem w (s.vreg b) e))

/-- The conditions of `vcmp`. -/
inductive VCond where
  | eq | ne | lt | le | un
  deriving DecidableEq, Repr

/-- Cond on two floats, with its flag. -/
def cmpFloat (c : VCond) (x y : FVal) : Bool × Flags :=
  let un := x.isNan || y.isNan
  let less := fLess false x y
  let eq := !un && !less && !(fLess false y x)
  let nv := flagIf (match c with
    | .lt | .le => un
    | _ => x.isSig || y.isSig) flNV
  ((match c with
    | .eq => eq
    | .ne => !eq
    | .lt => !un && less
    | .le => !un && (less || eq)
    | .un => un), nv)

/-- Cond on two integers. -/
def cmpInt (c : VCond) (x y : Int) : Bool :=
  match c with
  | .eq => decide (x = y)
  | .ne => decide (x ≠ y)
  | .lt => decide (x < y)
  | .le => decide (x ≤ y)
  | .un => false

/-- Width of ty: `.f64`, `.i64`, `.n64` have 16 elements. -/
def cmpWidth (ty : BitVec 3) : Nat := if ty = 1 ∨ ty = 4 ∨ ty = 5 then 64 else 32

/-- One element of a compare of type ty. -/
def cmpElem (c : VCond) (ty : BitVec 3) (x y : Nat) : Bool × Flags :=
  match ty.toNat with
  | 0 => cmpFloat c (decodeFmt fp32 x) (decodeFmt fp32 y)
  | 1 => cmpFloat c (decodeFmt fp64 x) (decodeFmt fp64 y)
  | 2 => (cmpInt c (signed 32 x) (signed 32 y), 0)
  | 4 => (cmpInt c (signed 64 x) (signed 64 y), 0)
  | _ => (cmpInt c x y, 0)

/-- The types a compare offers: 6 and 7 raise ILL, and so does `un` of integers (08 R185). -/
def cmpTyOk (c : VCond) (ty : BitVec 3) : Bool := decide (ty.toNat < 6) && (c != .un || decide (ty.toNat < 2))

/-- `vcmp.C.T kD, vA, vB, kM`: the mask is written whole. -/
def compareOp (i : Instr) (c : VCond) (ty : BitVec 3) (d : KReg) (a b : VReg) (k : KReg) (s : State) :
    Host.Outcome State Fault Refusal :=
  run i s fun s =>
    if !(cmpTyOk c ty) || d == 0 then s.trap .ill
    else
      let w := cmpWidth ty
      let rs := (List.range (1024 / w)).map fun e =>
        if maskBit w (s.kreg k) e then cmpElem c ty (vElem w (s.vreg a) e) (vElem w (s.vreg b) e) else (false, 0)
      .ok ((s.setK d (BitVec.ofNat 32 (packList 1 (rs.map fun r => if r.1 then 1 else 0)))).orFlags 2
        (rs.foldl (fun f r => f ||| r.2) 0))

/-- `VADD_INT` (08 R184: x + y modulo 2^w). -/
def execVaddInt (es : BitVec 2) (sg : BitVec 1) (d a b : VReg) (k : KReg) (s : State) :
    Host.Outcome State Fault Refusal :=
  intOp (.vaddInt es sg d a b k) es sg d a b k (fun _ _ x y => (x + y, 0)) s

/-- `VSUB_INT` (08 R184: x − y modulo 2^w). -/
def execVsubInt (es : BitVec 2) (sg : BitVec 1) (d a b : VReg) (k : KReg) (s : State) :
    Host.Outcome State Fault Refusal :=
  intOp (.vsubInt es sg d a b k) es sg d a b k (fun w _ x y => (x + 2 ^ w - y, 0)) s

/-- `VADDS` (08 R184: saturated sum). -/
def execVadds (es : BitVec 2) (sg : BitVec 1) (d a b : VReg) (k : KReg) (s : State) :
    Host.Outcome State Fault Refusal :=
  intOp (.vadds es sg d a b k) es sg d a b k (fun w sg x y => satInt w sg (elemInt w sg x + elemInt w sg y)) s

/-- `VSUBS` (08 R184: saturated difference). -/
def execVsubs (es : BitVec 2) (sg : BitVec 1) (d a b : VReg) (k : KReg) (s : State) :
    Host.Outcome State Fault Refusal :=
  intOp (.vsubs es sg d a b k) es sg d a b k (fun w sg x y => satInt w sg (elemInt w sg x - elemInt w sg y)) s

/-- `VMUL_INT` (08 R184: low half of the product). -/
def execVmulInt (es : BitVec 2) (sg : BitVec 1) (d a b : VReg) (k : KReg) (s : State) :
    Host.Outcome State Fault Refusal :=
  intOp (.vmulInt es sg d a b k) es sg d a b k (fun _ _ x y => (x * y, 0)) s

/-- `VMULH` (08 R184: upper half of the product). -/
def execVmulh (es : BitVec 2) (sg : BitVec 1) (d a b : VReg) (k : KReg) (s : State) :
    Host.Outcome State Fault Refusal :=
  intOp (.vmulh es sg d a b k) es sg d a b k (fun w sg x y => (wrap w (elemInt w sg x * elemInt w sg y / (2 ^ w : Nat)), 0)) s

/-- `VMIN_INT` (08 R184: lesser). -/
def execVminInt (es : BitVec 2) (sg : BitVec 1) (d a b : VReg) (k : KReg) (s : State) :
    Host.Outcome State Fault Refusal :=
  intOp (.vminInt es sg d a b k) es sg d a b k (fun w sg x y => (if elemInt w sg x < elemInt w sg y then x else y, 0)) s

/-- `VMAX_INT` (08 R184: greater). -/
def execVmaxInt (es : BitVec 2) (sg : BitVec 1) (d a b : VReg) (k : KReg) (s : State) :
    Host.Outcome State Fault Refusal :=
  intOp (.vmaxInt es sg d a b k) es sg d a b k (fun w sg x y => (if elemInt w sg x < elemInt w sg y then y else x, 0)) s

/-- `VAND` (08 R184: and). -/
def execVand (es : BitVec 2) (sg : BitVec 1) (d a b : VReg) (k : KReg) (s : State) :
    Host.Outcome State Fault Refusal :=
  intOp (.vand es sg d a b k) es sg d a b k (fun _ _ x y => (x &&& y, 0)) s

/-- `VOR` (08 R184: or). -/
def execVor (es : BitVec 2) (sg : BitVec 1) (d a b : VReg) (k : KReg) (s : State) :
    Host.Outcome State Fault Refusal :=
  intOp (.vor es sg d a b k) es sg d a b k (fun _ _ x y => (x ||| y, 0)) s

/-- `VXOR` (08 R184: exclusive or). -/
def execVxor (es : BitVec 2) (sg : BitVec 1) (d a b : VReg) (k : KReg) (s : State) :
    Host.Outcome State Fault Refusal :=
  intOp (.vxor es sg d a b k) es sg d a b k (fun _ _ x y => (x ^^^ y, 0)) s

/-- `VSHL` (08 R184: shift left by y mod w). -/
def execVshl (es : BitVec 2) (sg : BitVec 1) (d a b : VReg) (k : KReg) (s : State) :
    Host.Outcome State Fault Refusal :=
  intOp (.vshl es sg d a b k) es sg d a b k (fun w _ x y => (x * 2 ^ (y % w), 0)) s

/-- `VSHR` (08 R184: shift right by y mod w). -/
def execVshr (es : BitVec 2) (sg : BitVec 1) (d a b : VReg) (k : KReg) (s : State) :
    Host.Outcome State Fault Refusal :=
  intOp (.vshr es sg d a b k) es sg d a b k (fun w sg x y => (wrap w (elemInt w sg x / (2 ^ (y % w) : Nat)), 0)) s

/-- `VABS_INT` (08 R184: absolute value, the most negative saturated). -/
def execVabsInt (es : BitVec 2) (d a : VReg) (k : KReg) (s : State) :
    Host.Outcome State Fault Refusal :=
  intOp (.vabsInt es d a k) es 1 d a a k (fun w sg x _ => satInt w sg ((elemInt w sg x).natAbs : Int)) s

/-- `VCMP_EQ` (08 R185). -/
def execVcmpEq (ty : BitVec 3) (d : KReg) (a b : VReg) (k : KReg) (s : State) :
    Host.Outcome State Fault Refusal :=
  compareOp (.vcmpEq ty d a b k) .eq ty d a b k s

/-- `VCMP_NE` (08 R185). -/
def execVcmpNe (ty : BitVec 3) (d : KReg) (a b : VReg) (k : KReg) (s : State) :
    Host.Outcome State Fault Refusal :=
  compareOp (.vcmpNe ty d a b k) .ne ty d a b k s

/-- `VCMP_LT` (08 R185). -/
def execVcmpLt (ty : BitVec 3) (d : KReg) (a b : VReg) (k : KReg) (s : State) :
    Host.Outcome State Fault Refusal :=
  compareOp (.vcmpLt ty d a b k) .lt ty d a b k s

/-- `VCMP_LE` (08 R185). -/
def execVcmpLe (ty : BitVec 3) (d : KReg) (a b : VReg) (k : KReg) (s : State) :
    Host.Outcome State Fault Refusal :=
  compareOp (.vcmpLe ty d a b k) .le ty d a b k s

/-- `VCMP_UN` (08 R185). -/
def execVcmpUn (ty : BitVec 3) (d : KReg) (a b : VReg) (k : KReg) (s : State) :
    Host.Outcome State Fault Refusal :=
  compareOp (.vcmpUn ty d a b k) .un ty d a b k s

end Sys2Proof.Machine
end

