-- ==== Sys2Proof/Machine/VectorMisc.lean ====
section
/-! DEFINITION. Sys2Proof/Machine/VectorMisc.lean: conversions, logarithm, exponential, random words, reductions, permutes,
moves and mask instructions (08 R186-R195). -/
namespace Sys2Proof.Machine

/-! ### Drawing (07 R165, 08 R190) -/

/-- A drawing command of the tile has not completed; one that is stopped has not (08 R190, 09 R202). -/
def Tile.drawing (t : Tile) : Bool := (t.stop.toList ++ t.thresher).any ThrCmd.sto

/-- Word k that an instruction issued now draws. -/
def State.draw (s : State) (k : Nat) : Nat := Sys2Proof.Machine.draw s.tile.phKey.toNat s.tile.philoxC k

/-- The generator after n words. -/
def State.drew (s : State) (n : Nat) : State := s.onTile fun t => t.setPhiloxC (advance t.philoxC n)

/-! ### Conversions (08 R186) -/

/-- One element of `vcvt.G.F`; `u` is its random word when the instruction draws. -/
def cvtOne (f g : Nat) (rm : RMode) (u : Option Nat) (code : Nat) : Nat × Flags :=
  match u, cvtValue f code, fmtOf g with
  | some w, .fin n m e, some gf =>
    if m = 0 ∨ aboveMax gf m e then cvtElem f g rm code else roundSto gf n m e w
  | _, _, _ => cvtElem f g rm code

/-- `VCVT` (08 R186). -/
def execVcvt (g f : BitVec 4) (d a : VReg) (s : State) : Host.Outcome State Fault Refusal :=
  run (.vcvt g f d a) s fun s =>
    if g = 15 ∨ f = 15 then s.trap .ill
    else
      let fc := f.toNat
      let gc := g.toNat
      let n := if cvtWidth fc = 64 ∨ cvtWidth gc = 64 then 16 else 32
      let drawn := s.sto && (fmtOf fc).isSome && (fmtOf gc).isSome && f != g
      if drawn && s.tile.drawing then s.stall .engine
      else
        let rs := (List.range n).map fun e =>
          cvtOne fc gc s.rm (if drawn then some (s.draw e) else none) (vElem (cvtWidth fc) (s.vreg a) e)
        let s' := (s.setV d (BitVec.ofNat 1024 (packList (cvtWidth gc) (rs.map Prod.fst)))).orFlags 3
          (rs.foldl (fun x r => x ||| r.2) 0)
        .ok (if drawn then s'.drew n else s')

/-! ### Logarithm, exponential, random words (08 R187-R189) -/

/-- `VLOG2` (08 R187, R188). -/
def execVlog2 (d a : VReg) (k : KReg) (s : State) : Host.Outcome State Fault Refusal :=
  run (.vlog2 d a k) s fun s => .ok (s.vApply 10 32 d k fun e => fLog2 (vElem 32 (s.vreg a) e))

/-- `VEXP2` (08 R187, R188). -/
def execVexp2 (d a : VReg) (k : KReg) (s : State) : Host.Outcome State Fault Refusal :=
  run (.vexp2 d a k) s fun s => .ok (s.vApply 10 32 d k fun e => fExp2 (vElem 32 (s.vreg a) e))

/-- A random word per lane, for masked-off lanes too. -/
def randomOp (i : Instr) (d : VReg) (k : KReg) (f : Nat → Nat) (s : State) : Host.Outcome State Fault Refusal :=
  run i s fun s =>
    if s.tile.drawing then s.stall .engine
    else .ok ((s.vApply 3 32 d k fun e => (f (s.draw e), 0)).drew 32)

/-- `VRAND` (08 R187, R189). -/
def execVrand (d : VReg) (k : KReg) (s : State) : Host.Outcome State Fault Refusal :=
  randomOp (.vrand d k) d k (fun u => u) s

/-- `VRAND_F32` (08 R187, R189): (2 × u[31:9] + 1) × 2^−24, exact in FP32. -/
def execVrandF32 (d : VReg) (k : KReg) (s : State) : Host.Outcome State Fault Refusal :=
  randomOp (.vrandF32 d k) d k (fun u => (roundVal fp32 .near false (2 * (u / 512) + 1) (-24) false).1) s

/-! ### Reductions (08 R191-R193) -/

/-- Width of a reduction's ty: `.f64` has 16 elements. -/
def redWidth (ty : BitVec 3) : Nat := if ty = 1 then 64 else 32

/-- The exact sum of floats, rounded once. -/
def floatSum (g : Fmt) (rm : RMode) (xs : List FVal) : Nat × Flags :=
  if xs.contains (.inf false) && xs.contains (.inf true) then invalid g
  else match nanResult g xs with
  | some r => r
  | none =>
    if xs.contains (.inf false) then (infWith g false, 0)
    else if xs.contains (.inf true) then (infWith g true, 0)
    else if xs.all FVal.isZero then (g.signBit (!xs.isEmpty && xs.all FVal.neg?), 0)
    else
      let r := xs.foldl (fun (a : Int × Int) x => match x with
        | .fin n m e =>
          let q := min a.2 e
          (a.1 * (2 ^ (a.2 - q).toNat : Nat) + scaled n m e q, q)
        | _ => a) (0, 0)
      roundInt g rm r.1 r.2 false

/-- The active elements of a register. -/
def State.activeElems (s : State) (w : Nat) (a : VReg) (k : KReg) : List (Nat × Nat) :=
  ((List.range (1024 / w)).filter (maskBit w (s.kreg k))).map fun e => (e, vElem w (s.vreg a) e)

/-- `VSUM` (08 R191, R192). -/
def execVsum (ty : BitVec 3) (d : SReg) (a : VReg) (k : KReg) (s : State) : Host.Outcome State Fault Refusal :=
  run (.vsum ty d a k) s fun s =>
    if 4 ≤ ty.toNat then s.trap .ill
    else
      let xs := (s.activeElems (redWidth ty) a k).map Prod.snd
      if 2 ≤ ty.toNat then
        .ok (s.setReg d (BitVec.ofInt 64 (xs.foldl (fun v x => v + elemInt 32 (ty == 2) x) 0)))
      else
        let g := if ty = 0 then fp32 else fp64
        let r := floatSum g s.rm (xs.map (decodeFmt g))
        .ok ((s.setReg d (BitVec.ofNat 64 r.1)).orFlags 6 r.2)

/-- Value x stands before y in the direction of the operation. -/
def beyond (mx : Bool) (ty : BitVec 3) (x y : Nat) : Bool :=
  let less := fun (u v : Nat) =>
    match ty.toNat with
    | 0 => fLess true (decodeFmt fp32 u) (decodeFmt fp32 v)
    | 1 => fLess true (decodeFmt fp64 u) (decodeFmt fp64 v)
    | 2 => decide (signed 32 u < signed 32 v)
    | _ => decide (u < v)
  if mx then less y x else less x y

/-- An element that is a NaN of its type, and whether it signals. -/
def redNan (ty : BitVec 3) (x : Nat) : Bool × Bool :=
  if 2 ≤ ty.toNat then (false, false)
  else
    let v := decodeFmt (if ty = 0 then fp32 else fp64) x
    (v.isNan, v.isSig)

/-- `vmaxi` and `vmini` (08 R193). -/
def extremeOp (i : Instr) (mx : Bool) (ty : BitVec 3) (d : SReg) (a : VReg) (b : SReg) (k : KReg) (s : State) :
    Host.Outcome State Fault Refusal :=
  run i s fun s =>
    if 4 ≤ ty.toNat || !(pairDest d) then s.trap .ill
    else
      let w := redWidth ty
      let v0 := (s.reg d).toNat % 2 ^ w
      let i0 := (s.reg (d + 1)).toNat % 2 ^ 32
      let start : Option (Nat × Nat) := if i0 ≠ 0xFFFFFFFF ∧ !((redNan ty v0).1) then some (v0, i0) else none
      let xs := s.activeElems w a k
      let best := xs.foldl (fun (o : Option (Nat × Nat)) p =>
        let ix := ((s.reg b).toNat + p.1) % 2 ^ 32
        if (redNan ty p.2).1 ∨ ix = 0xFFFFFFFF then o
        else match o with
          | none => some (p.2, ix)
          | some (y, j) => if beyond mx ty p.2 y ∨ (p.2 = y ∧ ix < j) then some (p.2, ix) else o) start
      let s' := s.orFlags 5 (flagIf (xs.any fun p => (redNan ty p.2).2) flNV)
      match best with
      | none =>
        .ok (s'.setPair d (BitVec.ofNat 64 (match ty.toNat with
          | 0 => fp32.nanCode
          | 1 => fp64.nanCode
          | _ => 0)) 0xFFFFFFFF)
      | some (v, ix) =>
        .ok (s'.setPair d (if ty = 2 then BitVec.ofInt 64 (signed 32 v) else BitVec.ofNat 64 v) (BitVec.ofNat 64 ix))

/-- `VMAXI` (08 R193). -/
def execVmaxi (ty : BitVec 3) (d : SReg) (a : VReg) (b : SReg) (k : KReg) (s : State) : Host.Outcome State Fault Refusal :=
  extremeOp (.vmaxi ty d a b k) true ty d a b k s

/-- `VMINI` (08 R193). -/
def execVmini (ty : BitVec 3) (d : SReg) (a : VReg) (b : SReg) (k : KReg) (s : State) : Host.Outcome State Fault Refusal :=
  extremeOp (.vmini ty d a b k) false ty d a b k s

/-! ### Permutes and moves (08 R194) -/

/-- A masked move of elements. -/
def moveOp (i : Instr) (w : Nat) (d : VReg) (k : KReg) (f : State → Nat → Nat) (s : State) : Host.Outcome State Fault Refusal :=
  run i s fun s => .ok (s.vApply 2 w d k fun e => (f s e, 0))

/-- `VPERM` (08 R194). -/
def execVperm (d a b : VReg) (k : KReg) (s : State) : Host.Outcome State Fault Refusal :=
  moveOp (.vperm d a b k) 32 d k (fun s e => vElem 32 (s.vreg a) (vElem 32 (s.vreg b) e % 32)) s

/-- `VROT` (08 R194). -/
def execVrot (d a : VReg) (b : SReg) (k : KReg) (s : State) : Host.Outcome State Fault Refusal :=
  moveOp (.vrot d a b k) 32 d k (fun s e => vElem 32 (s.vreg a) ((e + (s.reg b).toNat) % 32)) s

/-- `VBCAST_32` (08 R194). -/
def execVbcast32 (d : VReg) (a : SReg) (k : KReg) (s : State) : Host.Outcome State Fault Refusal :=
  moveOp (.vbcast32 d a k) 32 d k (fun s _ => (s.reg a).toNat) s

/-- `VBCAST_64` (08 R194). -/
def execVbcast64 (d : VReg) (a : SReg) (k : KReg) (s : State) : Host.Outcome State Fault Refusal :=
  moveOp (.vbcast64 d a k) 64 d k (fun s _ => (s.reg a).toNat) s

/-- A register with one element replaced. -/
def vInsert (w : Nat) (x : VWord) (n v : Nat) : VWord := vBuild w (1024 / w) fun e => if e = n then v else vElem w x e

/-- `VINS_32` (08 R194). -/
def execVins32 (d : VReg) (a : SReg) (n : BitVec 5) (s : State) : Host.Outcome State Fault Refusal :=
  run (.vins32 d a n) s fun s => .ok (s.setV d (vInsert 32 (s.vreg d) n.toNat (s.reg a).toNat))

/-- `VEXT_32` (08 R194). -/
def execVext32 (d : SReg) (a : VReg) (n : BitVec 5) (s : State) : Host.Outcome State Fault Refusal :=
  run (.vext32 d a n) s fun s => .ok (s.setReg d (BitVec.ofNat 64 (vElem 32 (s.vreg a) n.toNat)))

/-- `VLANE` (08 R194). -/
def execVlane (d : VReg) (k : KReg) (s : State) : Host.Outcome State Fault Refusal :=
  moveOp (.vlane d k) 32 d k (fun _ e => e) s

/-- The mask chooses the source, and every element is written. -/
def selectOp (i : Instr) (w : Nat) (d a b : VReg) (k : KReg) (s : State) : Host.Outcome State Fault Refusal :=
  run i s fun s => .ok (s.setV d (vBuild w (1024 / w) fun e =>
    if maskBit w (s.kreg k) e then vElem w (s.vreg a) e else vElem w (s.vreg b) e))

/-- `VSEL_32` (08 R194). -/
def execVsel32 (d a b : VReg) (k : KReg) (s : State) : Host.Outcome State Fault Refusal :=
  selectOp (.vsel32 d a b k) 32 d a b k s

/-- `VMOV_32` (08 R194). -/
def execVmov32 (d a : VReg) (k : KReg) (s : State) : Host.Outcome State Fault Refusal :=
  moveOp (.vmov32 d a k) 32 d k (fun s e => vElem 32 (s.vreg a) e) s

/-- `VINS_64` (08 R194). -/
def execVins64 (d : VReg) (a : SReg) (n : BitVec 4) (s : State) : Host.Outcome State Fault Refusal :=
  run (.vins64 d a n) s fun s => .ok (s.setV d (vInsert 64 (s.vreg d) n.toNat (s.reg a).toNat))

/-- `VEXT_64` (08 R194). -/
def execVext64 (d : SReg) (a : VReg) (n : BitVec 4) (s : State) : Host.Outcome State Fault Refusal :=
  run (.vext64 d a n) s fun s => .ok (s.setReg d (BitVec.ofNat 64 (vElem 64 (s.vreg a) n.toNat)))

/-- `VSEL_64` (08 R194). -/
def execVsel64 (d a b : VReg) (k : KReg) (s : State) : Host.Outcome State Fault Refusal :=
  selectOp (.vsel64 d a b k) 64 d a b k s

/-- `VMOV_64` (08 R194). -/
def execVmov64 (d a : VReg) (k : KReg) (s : State) : Host.Outcome State Fault Refusal :=
  moveOp (.vmov64 d a k) 64 d k (fun s e => vElem 64 (s.vreg a) e) s

/-! ### Masks (08 R195) -/

/-- A bitwise operation on masks. -/
def maskOp (i : Instr) (d a b : KReg) (f : BitVec 32 → BitVec 32 → BitVec 32) (s : State) : Host.Outcome State Fault Refusal :=
  run i s fun s => .ok (s.setK d (f (s.kreg a) (s.kreg b)))

/-- A number read from a mask. -/
def maskNum (i : Instr) (d : SReg) (a : KReg) (f : Nat → Nat) (s : State) : Host.Outcome State Fault Refusal :=
  run i s fun s => .ok (s.setReg d (BitVec.ofNat 64 (f (s.kreg a).toNat)))

/-- `KAND` (08 R195). -/
def execKand (d a b : KReg) (s : State) : Host.Outcome State Fault Refusal :=
  maskOp (.kand d a b) d a b (fun x y => x &&& y) s

/-- `KOR` (08 R195). -/
def execKor (d a b : KReg) (s : State) : Host.Outcome State Fault Refusal :=
  maskOp (.kor d a b) d a b (fun x y => x ||| y) s

/-- `KXOR` (08 R195). -/
def execKxor (d a b : KReg) (s : State) : Host.Outcome State Fault Refusal :=
  maskOp (.kxor d a b) d a b (fun x y => x ^^^ y) s

/-- `KANDN` (08 R195). -/
def execKandn (d a b : KReg) (s : State) : Host.Outcome State Fault Refusal :=
  maskOp (.kandn d a b) d a b (fun x y => x &&& ~~~y) s

/-- `KSET` (08 R195). -/
def execKset (d : KReg) (a : SReg) (s : State) : Host.Outcome State Fault Refusal :=
  run (.kset d a) s fun s => .ok (s.setK d ((s.reg a).truncate 32))

/-- `KGET` (08 R195). -/
def execKget (d : SReg) (a : KReg) (s : State) : Host.Outcome State Fault Refusal :=
  maskNum (.kget d a) d a (fun x => x) s

/-- `KPOP` (08 R195). -/
def execKpop (d : SReg) (a : KReg) (s : State) : Host.Outcome State Fault Refusal :=
  maskNum (.kpop d a) d a (popCount 32) s

/-- `KFFS` (08 R195). -/
def execKffs (d : SReg) (a : KReg) (s : State) : Host.Outcome State Fault Refusal :=
  maskNum (.kffs d a) d a (lowestOne 32) s

end Sys2Proof.Machine
end

