-- ==== Sys2Proof/Machine/Thresher.lean ====
section
/-! DEFINITION. Sys2Proof/Machine/Thresher.lean: the thresher's commands at issue, their steps, stops, tail faults and
completion, and the accumulator store (06 R139; 09 R197-R221). -/
namespace Sys2Proof.Machine

/-! ### The accumulator store (06 R139) -/

/-- Bytes [4096 n, 4096 (n + 1)) of FP32 tile n. -/
def accAddr (n : Nat) : Nat := n * 4096

/-- The codes of a tile, or of the pair from an even tile. -/
def Tile.accCodes (t : Tile) (f64 : Bool) (n : Nat) : List Nat :=
  let lo := codesOfBytes 32 1024 (t.acc.readBytes (accAddr n) 4096)
  if f64 then List.zipWith (fun a b => a + b * 2 ^ 32) lo (codesOfBytes 32 1024 (t.acc.readBytes (accAddr (n + 1)) 4096))
  else lo

/-- Bytes written to the accumulator store. -/
def Tile.writeAcc (t : Tile) (a : Nat) (bs : List Byte) : Tile :=
  { t with acc := t.acc.writeBytes a bs, accBad := healWords t.accBad a bs.length }

/-- Codes written to a tile or a pair. -/
def Tile.putAcc (t : Tile) (f64 : Bool) (n : Nat) (cs : List Nat) : Tile :=
  let t1 := t.writeAcc (accAddr n) (bytesOfCodes 32 (cs.map (· % 2 ^ 32)))
  if f64 then t1.writeAcc (accAddr (n + 1)) (bytesOfCodes 32 (cs.map (· / 2 ^ 32))) else t1

/-- A tile or pair holds an uncorrectable word (16 R350). -/
def Tile.accSpoilt (t : Tile) (f64 : Bool) (n : Nat) : Bool := wordsBad t.accBad (accAddr n) (if f64 then 8192 else 4096)

/-! ### Issue (09 R197, R203, R205) -/

/-- Every tile of a list lies in the context's accumulator mask (02 R49). -/
def State.accAllowed (s : State) (ns : List Nat) : Bool := ns.all fun n => s.cx.accMask.getLsbD n

/-- sq4 operands need FEAT0.SQ4 (16 R364). -/
def State.sq4Ok (s : State) (o : Operand) : Bool := o.fmt != 14 || s.tile.feat.getLsbD 2

/-- A command of the issuing strand, before its numbers. -/
def State.thrCmd (s : State) (op : ThrOp) (f64 : Bool) (acc steps : Nat) (a b d ctl : DW) : ThrCmd :=
  { op := op, z := false, f64 := f64, addrA := a, addrB := b, addrD := d, ctl := ctl, acc := acc, steps := steps, next := 0,
    ctr := 0, num := 0, owner := s.runRef, ctx := s.st.ctx, unit := s.st.unit, word := s.st.pc, order := s.tile.orderNo,
    c0 := none, sto := false, rm := s.cx.rm, el := none, fault := none, flags := 0 }

/-- Issue of a command: its number and first step, the hold of the strand (09 R197, R198, R203). One that was stopped keeps its
number, its C0 and its place in issue order. -/
def State.issueThr (s : State) (c : CReg) (draws : Bool) (k : ThrCmd) : Exec :=
  if draws && s.tile.thresher.any ThrCmd.sto then s.stall .engine
  else
    let start := if s.st.mstepValid then s.st.mstep.toNat else 0
    let r := s.tile.stop.getD { k with ctr := c, num := (s.tile.ctr c).issue + 1 }
    let now : BitVec 128 := BitVec.ofNat 128 s.tile.philoxC
    let cmd := { k with ctr := r.ctr, num := r.num, order := r.order, next := start, sto := draws,
                        c0 := if draws then some (r.c0.getD now) else none }
    let s1 := s.onTile fun t =>
      let t := if t.stop.isSome then t else t.modCtr c fun x => { x with issue := x.issue + 1 }
      { t with stop := none, thresher := t.thresher ++ [cmd], orderNo := t.orderNo + 1 }
    let s2 := s1.onSt fun x => { x with mstep := 0, mstepValid := false }
    if k.steps ≤ start then .ok s2 else .error (.wait .thresher s2)

/-- `mma` and `mma.t` (09 R207-R209). Where both operands fail one check, the record names A's address (DEDUCED, log 61). -/
def mmaOp (i : Instr) (tr z : Bool) (acc : AReg) (a b n : SReg) (c : CReg) (s : State) : Host.Outcome State Fault Refusal :=
  run i s fun s => do
    let va := s.reg a
    let vb := s.reg b
    let ctl := s.reg n
    let oa := s.tile.operand va.toNat
    let ob := s.tile.operand vb.toNat
    let f64 := oa.fmt == 6 && ob.fmt == 6
    let nstep := bitsOf ctl.toNat 0 7
    s.check (s.sq4Ok oa && s.sq4Ok ob && (!f64 || s.tile.feat.getLsbD 1)) .ill
    s.check (!f64 || acc.toNat % 2 == 0) .ill
    s.check (decide (1 ≤ nstep) && decide (nstep ≤ 64) && decide (bitsOf ctl.toNat 8 6 ≤ 53) &&
      decide (bitsOf ctl.toNat 7 1 = 0) && decide (ctl.toNat < 2 ^ 14)) .prot
    s.check (s.accAllowed (if f64 then [acc.toNat, acc.toNat + 1] else [acc.toNat])) .prot
    let one := fun (o : Operand) => decide (7 ≤ o.fmt) && decide (o.fmt ≤ 14)
    s.check (f64 || one oa) .bankfmt
    s.check (f64 || one ob) .bankfmt
    s.checkAt oa.aligned .align va
    s.checkAt ob.aligned .align vb
    s.checkAt (decide (va.toNat < Config.spadSize) && oa.rangeOk s.tile s.st.lvl nstep false) .prot va
    s.checkAt (decide (vb.toNat < Config.spadSize) && ob.rangeOk s.tile s.st.lvl nstep false) .prot vb
    s.issueThr c false { s.thrCmd (.mma tr) f64 acc.toNat nstep va vb 0 ctl with z := z }

/-- `MMA` (09 R207). -/
def execMma (acc : AReg) (a b n : SReg) (c : CReg) (s : State) : Host.Outcome State Fault Refusal :=
  mmaOp (.mma acc a b n c) false false acc a b n c s

/-- `MMA_Z` (09 R207). -/
def execMmaZ (acc : AReg) (a b n : SReg) (c : CReg) (s : State) : Host.Outcome State Fault Refusal :=
  mmaOp (.mmaZ acc a b n c) false true acc a b n c s

/-- `MMA_T` (09 R207). -/
def execMmaT (acc : AReg) (a b n : SReg) (c : CReg) (s : State) : Host.Outcome State Fault Refusal :=
  mmaOp (.mmaT acc a b n c) true false acc a b n c s

/-- `MMA_T_Z` (09 R207). -/
def execMmaTZ (acc : AReg) (a b n : SReg) (c : CReg) (s : State) : Host.Outcome State Fault Refusal :=
  mmaOp (.mmaTZ acc a b n c) true true acc a b n c s

/-- `ACC_ZERO` (09 R212, R213). -/
def execAccZero (acc : AReg) (n : BitVec 5) (c : CReg) (s : State) : Host.Outcome State Fault Refusal :=
  run (.accZero acc n c) s fun s => do
    s.check (decide (acc.toNat + n.toNat ≤ 15)) .ill
    s.check (s.accAllowed ((List.range (n.toNat + 1)).map (· + acc.toNat))) .prot
    s.issueThr c false (s.thrCmd .accZero false acc.toNat (n.toNat + 1) 0 0 0 0)

/-- A raw move of 4 KiB between a tile and scratchpad: aligned, in one bank (09 R213). -/
def State.rawTileCheck (s : State) (a : DW) (wr : Bool) : Except Stop Unit := do
  s.checkAt (a.toNat % 64 == 0) .align a
  s.checkAt (decide (a.toNat < Config.spadSize) && decide (a.toNat % 65536 + 4096 ≤ 65536) &&
    s.tile.regionOk s.st.lvl a.toNat 4096 wr) .prot a

/-- `ACC_LD` (09 R212, R213). -/
def execAccLd (acc : AReg) (d : SReg) (c : CReg) (s : State) : Host.Outcome State Fault Refusal :=
  run (.accLd acc d c) s fun s => do
    s.check (s.accAllowed [acc.toNat]) .prot
    s.rawTileCheck (s.reg d) false
    s.issueThr c false (s.thrCmd .accLd false acc.toNat 1 (s.reg d) 0 0 0)

/-- `ACC_ST` (09 R212, R213). -/
def execAccSt (d : SReg) (acc : AReg) (c : CReg) (s : State) : Host.Outcome State Fault Refusal :=
  run (.accSt d acc c) s fun s => do
    s.check (s.accAllowed [acc.toNat]) .prot
    s.rawTileCheck (s.reg d) true
    s.issueThr c false (s.thrCmd .accSt false acc.toNat 1 0 0 (s.reg d) 0)

/-- The tiles that n accumulators from acc name. -/
def accTiles (f : BitVec 1) (acc n : Nat) : List Nat := (List.range (if f = 1 then 2 * n else n)).map (· + acc)

/-- `ACC_CVT` (09 R212, R213). -/
def execAccCvt (f : BitVec 1) (d : SReg) (acc : AReg) (c : CReg) (s : State) : Host.Outcome State Fault Refusal :=
  run (.accCvt f d acc c) s fun s => do
    let vd := s.reg d
    let o := s.tile.operand vd.toNat
    s.check (pairOk f acc) .ill
    s.check (s.accAllowed (accTiles f acc.toNat 1)) .prot
    s.check (!(isSquareFmt o.fmt)) .bankfmt
    s.checkAt o.aligned .align vd
    s.checkAt (decide (vd.toNat < Config.spadSize) && o.rangeOk s.tile s.st.lvl 1 true) .prot vd
    let src := if f = 1 then 6 else 7
    s.issueThr c (s.sto && (fmtOf o.fmt).isSome && o.fmt != src) (s.thrCmd .accCvt (f == 1) acc.toNat 1 0 0 vd 0)

/-- A count register: n in [4:0], 1 to 16, every other bit outside `extra` zero (09 R214). -/
def countOk (v : DW) (extra : Nat → Bool) : Bool :=
  decide (1 ≤ bitsOf v.toNat 0 5) && decide (bitsOf v.toNat 0 5 ≤ 16) &&
  (List.range 59).all fun k => extra (k + 5) || !(v.getLsbD (k + 5))

/-- n of a count register. -/
def countN (v : DW) : Nat := bitsOf v.toNat 0 5

/-- A run of accumulators stays within a15. -/
def accRunOk (f : BitVec 1) (acc n : Nat) : Bool := decide (acc + (if f = 1 then 2 * n else n) ≤ 16)

/-- `SQ_QUANT` (09 R214, R215). -/
def execSqQuant (f : BitVec 1) (d : SReg) (acc : AReg) (a b : SReg) (c : CReg) (s : State) : Host.Outcome State Fault Refusal :=
  run (.sqQuant f d acc a b c) s fun s => do
    let vd := s.reg d
    let o := s.tile.operand vd.toNat
    let n := countN (s.reg b)
    s.check (pairOk f acc && accRunOk f acc.toNat n) .ill
    s.check (s.sq4Ok o) .ill
    s.check (countOk (s.reg b) fun _ => false) .prot
    s.check (decide ((s.reg a).toNat < 2 ^ 48)) .prot
    s.check (s.accAllowed (accTiles f acc.toNat n)) .prot
    s.check (o.fmt == 13 || o.fmt == 14) .bankfmt
    s.checkAt o.aligned .align vd
    s.checkAt (decide (vd.toNat < Config.spadSize) && o.rangeOk s.tile s.st.lvl n true) .prot vd
    s.issueThr c s.sto (s.thrCmd .quant (f == 1) acc.toNat n 0 0 vd (s.reg a))

/-- `SQ_DEQ` (09 R214, R216). -/
def execSqDeq (f : BitVec 1) (acc : AReg) (d b : SReg) (c : CReg) (s : State) : Host.Outcome State Fault Refusal :=
  run (.sqDeq f acc d b c) s fun s => do
    let vd := s.reg d
    let o := s.tile.operand vd.toNat
    let n := countN (s.reg b)
    s.check (pairOk f acc && accRunOk f acc.toNat n) .ill
    s.check (s.sq4Ok o) .ill
    s.check (countOk (s.reg b) fun _ => false) .prot
    s.check (s.accAllowed (accTiles f acc.toNat n)) .prot
    s.check (isSquareFmt o.fmt) .bankfmt
    s.checkAt o.aligned .align vd
    s.checkAt (decide (vd.toNat < Config.spadSize) && o.rangeOk s.tile s.st.lvl n false) .prot vd
    s.issueThr c false (s.thrCmd .deq (f == 1) acc.toNat n vd 0 0 0)

/-- `SQ_ALIGN` (09 R214, R217). Where both operands fail one check, the record names the destination's address (DEDUCED, log 61). -/
def execSqAlign (d a b : SReg) (c : CReg) (s : State) : Host.Outcome State Fault Refusal :=
  run (.sqAlign d a b c) s fun s => do
    let vd := s.reg d
    let va := s.reg a
    let od := s.tile.operand vd.toNat
    let oa := s.tile.operand va.toNat
    let n := countN (s.reg b)
    s.check (s.sq4Ok oa && s.sq4Ok od) .ill
    s.check (countOk (s.reg b) fun k => decide (8 ≤ k) && decide (k < 16)) .prot
    s.check (od.fmt == 15) .bankfmt
    s.check (isSquareFmt oa.fmt) .bankfmt
    s.checkAt od.aligned .align vd
    s.checkAt oa.aligned .align va
    s.checkAt (decide (vd.toNat < Config.spadSize) && od.rangeOk s.tile s.st.lvl n true) .prot vd
    s.checkAt (decide (va.toNat < Config.spadSize) && oa.rangeOk s.tile s.st.lvl n false) .prot va
    s.issueThr c false (s.thrCmd .align false 0 n va 0 vd (s.reg b))

/-- `SQ_SCALE` (09 R214, R218). RegionCheck covers its whole blocks, for write alone (DESIGN CHOICE, log 79). -/
def execSqScale (d a b : SReg) (c : CReg) (s : State) : Host.Outcome State Fault Refusal :=
  run (.sqScale d a b c) s fun s => do
    let vd := s.reg d
    let o := s.tile.operand vd.toNat
    let n := countN (s.reg b)
    s.check (s.sq4Ok o) .ill
    s.check (countOk (s.reg b) fun _ => false) .prot
    s.check (isSquareFmt o.fmt) .bankfmt
    s.checkAt o.aligned .align vd
    s.checkAt (decide (vd.toNat < Config.spadSize) && o.rangeOk s.tile s.st.lvl n true) .prot vd
    s.issueThr c false (s.thrCmd .scale false 0 n 0 0 vd (s.reg a))

/-! ### The effect of one step (09 R206-R218) -/

/-- What a step comes to. -/
inductive StepOut where
  /-- An operand is bad: nothing is performed. Header, expected and found residue of a SHEAF, local address of the block. -/
  | bad (c : Cause) (h expect found addr : Nat)
  /-- The step's own arithmetic fails its check: the update is discarded (09 R210, R217). -/
  | slip (h expect found addr : Nat)
  | done (t : Tile) (fl : Flags) (el : Option Nat)
  deriving DecidableEq, Repr

/-- A tagged square block whose residue is wrong. -/
def blockBroken (o : Operand) (h : Nat) (cs : List Nat) (b : Nat) : Option StepOut :=
  if isSquareFmt o.fmt && tagBroken o.fmt h cs then
    some (.bad .sheaf h (tagResidue (hTag h)) (residueOf o.fmt h cs) (o.addr b))
  else none

/-- The values of a block as it is read with q planes (07 R173). -/
def blockValues (o : Operand) (h q : Nat) (cs : List Nat) : Array FVal :=
  (cs.zipIdx.map fun p => operandValue o.fmt h q (p.2 / 32) (p.2 % 32) p.1).toArray

/-- The new accumulator codes of an `mma` step, and its flags. -/
def mmaCodes (g : Fmt) (w : Nat) (tr : Bool) (va vb : Array FVal) (acc : List Nat) : List (Nat × Flags) :=
  acc.zipIdx.map fun p =>
    let i := p.2 / 32
    let j := p.2 % 32
    accumulateStep g w p.1 ((List.range 32).map fun kk =>
      exactMul (va.getD (if tr then 32 * kk + i else 32 * i + kk) (.fin false 0 0)) (vb.getD (32 * kk + j) (.fin false 0 0)))

/-- Flags of a list of results. -/
def orAll (rs : List (Nat × Flags)) : Flags := rs.foldl (fun a r => a ||| r.2) 0

/-- One step of `mma` (09 R209). -/
def mmaStep (t : Tile) (c : ThrCmd) (tr : Bool) : StepOut :=
  let oa := t.operand c.addrA.toNat
  let ob := t.operand c.addrB.toNat
  let b := c.next
  let ha := oa.header t b
  let hb := ob.header t b
  let ca := oa.codes t b
  let cb := ob.codes t b
  match blockBroken oa ha ca b, blockBroken ob hb cb b with
  | some x, _ => x
  | none, some x => x
  | none, none =>
    let q := bitsOf c.ctl.toNat 8 6
    let g := if c.f64 then fp64 else fp32
    let old := if c.z && b == 0 then List.replicate 1024 0 else t.accCodes c.f64 c.acc
    let rs := mmaCodes g (max (windowOf oa.fmt) (windowOf ob.fmt)) tr (blockValues oa ha q ca) (blockValues ob hb q cb) old
    .done (t.putAcc c.f64 c.acc (rs.map Prod.fst)) (orAll rs) none

/-- The random word of element k of a command. -/
def ThrCmd.word32 (t : Tile) (c : ThrCmd) (k : Nat) : Option Nat :=
  c.c0.map fun c0 => draw t.phKey.toNat c0.toNat k

/-- The step of `acc.cvt` (09 R213). -/
def accCvtStep (t : Tile) (c : ThrCmd) : StepOut :=
  let o := t.operand c.addrD.toNat
  let rs := (t.accCodes c.f64 c.acc).zipIdx.map fun p =>
    cvtOne (if c.f64 then 6 else 7) o.fmt .near (c.word32 t p.2) p.1
  .done (o.putCodes t 0 (rs.map Prod.fst)) (orAll rs) none

/-- One step of `sq.quant` (09 R215). -/
def quantStep (t : Tile) (c : ThrCmd) : StepOut :=
  let o := t.operand c.addrD.toNat
  let i := c.next
  let cs := (t.accCodes c.f64 (c.acc + (if c.f64 then 2 * i else i))).toArray
  let g := if c.f64 then fp64 else fp32
  let u := c.c0.map fun c0 => fun k => draw t.phKey.toNat c0.toNat (1024 * i + k)
  let (h, codes, fl) := squareQuant o.fmt (fun r q => decodeFmt g (elemOf cs r q)) u
  let h := setBits (setBits h 192 24 (bitsOf c.ctl.toNat 0 24 + i)) 216 24 (bitsOf c.ctl.toNat 24 24)
  .done (o.putHeader (o.putCodes t i codes) i h) fl none

/-- One step of `sq.deq` (09 R216). -/
def deqStep (t : Tile) (c : ThrCmd) : StepOut :=
  let o := t.operand c.addrA.toNat
  let i := c.next
  let h := o.header t i
  let cs := o.codes t i
  match blockBroken o h cs i with
  | some x => x
  | none =>
    let rs := cs.zipIdx.map fun p =>
      cvtFromVal (squareValue o.fmt h (p.2 / 32) (p.2 % 32) p.1) (if c.f64 then 6 else 7) .near
    .done (t.putAcc c.f64 (c.acc + (if c.f64 then 2 * i else i)) (rs.map Prod.fst)) (orAll rs) none

/-- EL of `sq.align`: the largest of ET and the exponents of every source (09 R217). -/
def alignExp (t : Tile) (c : ThrCmd) : Nat :=
  let o := t.operand c.addrA.toNat
  (List.range c.steps).foldl (fun m i => max m (naturalExp o.fmt (o.header t i)).1) (bitsOf c.ctl.toNat 8 8)

/-- The predicted residue of an aligned square (10 R224): `rho` the source's residue, `h` the shift, `d` the remainder that the shift
discards from an element, `x` the element written. Special-coded and NaN-coded elements add their terms as computed. -/
def alignPredict (fmt hdr rho h : Nat) (cs : List Nat) (d x : Nat → Int) : Nat :=
  let c := if fmt = 13 then 7 else if fmt = 14 then 21 else 0
  let odd := fun (v : Nat) => (fmt == 14 && v == 8) || (fmt == 13 && v % 128 == 127)
  let odds := (cs.filter odd).length
  let rho' : Int := (rho : Int) - 1026 * odds - (if fmt = 14 then 1025 * (hSpecial hdr : Int) else 0)
  let ks := cs.zipIdx
  let drop := ks.foldl (fun (a : Int) p => if odd p.1 then a else a + ((p.2 + 1 : Nat) : Int) * d p.2) 0
  let add := ks.foldl (fun (a : Int) p => if odd p.1 then a + ((p.2 + 1 : Nat) : Int) * x p.2 else a) 0
  ((((2 ^ ((31 - h % 31) % 31) : Nat) : Int) * (((2 ^ c : Nat) : Int) * rho' - drop) + add) % resP).toNat

/-- One step of `sq.align` (09 R217, 10 R224). -/
def alignStep (t : Tile) (c : ThrCmd) : StepOut :=
  let o := t.operand c.addrA.toNat
  let od := t.operand c.addrD.toNat
  let i := c.next
  let el := c.el.getD (alignExp t c)
  let h := o.header t i
  let cs := o.codes t i
  match blockBroken o h cs i with
  | some x => x
  | none =>
    let (e, f0) := naturalExp o.fmt h
    let rs : List ((Int × Int) × Flags) := cs.zipIdx.map fun p =>
      let (x, fx) : Int × Flags :=
        if o.fmt = 15 then (signed 32 p.1, 0) else toAic (squareValue o.fmt h (p.2 / 32) (p.2 % 32) p.1) e
      let (y, rem) := alignAic x (el - e)
      ((y, rem), fx ||| flagIf (decide (rem ≠ 0)) flAicLoss)
    let out := rs.map fun r => wrap 32 r.1.1
    let xs := (rs.map Prod.fst).toArray
    let h0 := el + 15 * 2 ^ 16 + hChunk h * 2 ^ 192 + hTensor h * 2 ^ 216
    let tag := hTag h
    let found := residueOf 15 h0 out
    let expect := alignPredict o.fmt h (tagResidue tag) (el - e) cs (fun k => (xs.getD k (0, 0)).2) (fun k => (xs.getD k (0, 0)).1)
    if tag ≠ 0 ∧ expect ≠ found then .slip h expect found (o.addr i)
    else
      let tag' := if tag = 0 then 0 else setBits (setBits tag 0 31 found) 47 6 0
      .done (od.putHeader (od.putCodes t i out) i (h0 + tag' * 2 ^ 256)) (f0 ||| rs.foldl (fun a r => a ||| r.2) 0) (some el)

/-- One step of `sq.scale` (09 R218). -/
def scaleStep (t : Tile) (c : ThrCmd) : StepOut :=
  let o := t.operand c.addrD.toNat
  let (h, fl) := scaleE (o.header t c.next) c.ctl.toInt
  .done (o.putHeader t c.next h) fl none

/-- Accumulator tiles that a step reads (16 R350). -/
def ThrCmd.readsAcc (c : ThrCmd) : Option Nat :=
  match c.op with
  | .mma _ => if c.z && c.next == 0 then none else some c.acc
  | .accSt | .accCvt => some c.acc
  | .quant => some (c.acc + (if c.f64 then 2 * c.next else c.next))
  | _ => none

/-- The step that a command comes to next. -/
def ThrCmd.step (t : Tile) (c : ThrCmd) : StepOut :=
  match (c.reads t c.next).find? fun r => t.rangesBad [r] with
  | some r => .bad .uncorr 0 0 0 r.lo
  | none =>
  if (match c.readsAcc with
      | some n => t.accSpoilt c.f64 n
      | none => false) then .bad .uncorr 0 0 0 0
  else match c.op with
  | .mma tr => mmaStep t c tr
  | .accZero => .done (t.writeAcc (accAddr (c.acc + c.next)) (List.replicate 4096 0)) 0 none
  | .accLd => .done (t.writeAcc (accAddr c.acc) (t.readSpad c.addrA.toNat 4096)) 0 none
  | .accSt => .done (t.writeSpad c.addrD.toNat (t.acc.readBytes (accAddr c.acc) 4096)) 0 none
  | .accCvt => accCvtStep t c
  | .quant => quantStep t c
  | .deq => deqStep t c
  | .align => alignStep t c
  | .scale => scaleStep t c

/-! ### Events of the thresher -/

/-- The command whose steps are not all done. -/
def Tile.stepping (t : Tile) : Option (Nat × ThrCmd) :=
  (t.thresher.zipIdx.find? fun p => decide (p.1.next < p.1.steps)).map fun p => (p.2, p.1)

/-- Replace the command at a place. -/
def Tile.putCmd (t : Tile) (k : Nat) (c : ThrCmd) : Tile := { t with thresher := modAt (fun _ => c) k t.thresher }

/-- The residue of the multiplier's product significand that 09 R210 demands. -/
def mulResidue (a b : FVal) : Option Nat :=
  match a, b with
  | .fin _ m _, .fin _ n _ => some (m * n % 8191)
  | _, _ => none

/-- The weight of the lowest bit of any nonzero product, as a power of two. -/
def lowBit : List FVal → Option Int
  | [] => none
  | .fin _ m e :: r =>
    if m = 0 then lowBit r
    else
      let l : Int := e + (((List.range (Nat.log2 m + 1)).find? fun k => m.testBit k).getD 0 : Nat)
      match lowBit r with
      | none => some l
      | some x => some (min l x)
  | _ :: r => lowBit r

/-- The residues of the adder's check (09 R210): that of the exact sum less the discarded bits, and that of a sum of `s` units 2^u
(07 R175). None where no adder runs: a product is not finite, or none is nonzero. -/
def addResidues (w : Nat) (ps : List FVal) (s : Int → Int) : Option (Nat × Nat) :=
  match lowBit ps, maxTop ps with
  | some v, some top =>
    if ps.all (fun p => match p with
        | .fin _ _ _ => true
        | _ => false) then
      let u := top + 1 - w
      let low := min u v
      let unit := fun (p : FVal) => (truncUnits low p).1
      let kept := ps.foldl (fun (a : Int) p => a + (truncUnits u p).1) 0
      let total := ps.foldl (fun (a : Int) p => a + unit p) 0
      let scale : Int := ((2 ^ (u - low).toNat : Nat) : Int)
      let disc := total - kept * scale
      -- In units of 2^low: those of v, or finer ones whose common factor 2^(v - low) is a unit modulo 8,191.
      let inv : Int := ((2 ^ ((13 - (v - low).toNat % 13) % 13) : Nat) : Int)
      some (((total - disc) * inv % 8191).toNat, (s kept * scale * inv % 8191).toNat)
    else none
  | _, _ => none

/-- The products of element e of an `mma` step, with the operands of each. -/
def mmaTerms (t : Tile) (c : ThrCmd) (tr : Bool) (e : Nat) : List (FVal × FVal) :=
  let oa := t.operand c.addrA.toNat
  let ob := t.operand c.addrB.toNat
  let q := bitsOf c.ctl.toNat 8 6
  let ca := (oa.codes t c.next).toArray
  let cb := (ob.codes t c.next).toArray
  let val := fun (o : Operand) (cs : Array Nat) (i j : Nat) => operandValue o.fmt (o.header t c.next) q i j (elemOf cs i j)
  (List.range 32).map fun k =>
    (if tr then val oa ca k (e / 32) else val oa ca (e / 32) k, val ob cb k (e % 32))

/-- What 09 R210 finds when an arithmetic unit of an `mma` step slips: the outside world gives the unit, 1 + 32 e + k for the
multiplier of term k of element e and 32769 + e for the adder of element e, and the significand or the sum (in units of u) that it
delivers. The expected and the found residue, where they differ; a slip that the check cannot see is none. -/
def ThrCmd.slip (t : Tile) (c : ThrCmd) (j : Nat) (x : Int) : Option (Nat × Nat) :=
  match c.op with
  | .mma tr =>
    let w := max (windowOf (t.operand c.addrA.toNat).fmt) (windowOf (t.operand c.addrB.toNat).fmt)
    let r : Option (Nat × Nat) :=
      if j ≤ 32768 then
        match (mmaTerms t c tr ((j - 1) / 32))[(j - 1) % 32]? with
        | some (a, b) => (mulResidue a b).map fun e => (e, x.natAbs % 8191)
        | none => none
      else if j ≤ 33792 then addResidues w ((mmaTerms t c tr (j - 32769)).map fun p => (exactMul p.1 p.2).1) (fun _ => x)
      else none
    r.filter fun p => p.1 != p.2
  | _ => none

/-- A step finds a cause while the command still holds the strand: the activation ends at once; `tail` instead leaves it for
the strand's next issue boundary (09 R201, R210). -/
def State.stepFails (s : State) (k : Nat) (c : ThrCmd) (cause : Cause) (addr : Nat) (tail : Bool) : State :=
  if tail then (s.onTile fun t => t.putCmd k { c with next := c.steps, fault := some (cause, BitVec.ofNat 64 addr) }).releaseMain
  else
    s.trapStrand s.tile.ltn .main
      { cause := cause, addr := BitVec.ofNat 64 addr, localSrc := cause == .uncorr, step := some (BitVec.ofNat 16 c.next) }
      c.unit c.word

/-- `THRESHER_STEP` (09 R199, R209, R210; 07 R168-R177): the next step of the command that holds the strand, once no earlier copy
conflicts with it. An input `j` other than 0 names an arithmetic unit that slips, and `offset` what it delivers. -/
def execThresherStep (s : State) : Host.Outcome State Fault Refusal :=
  event (match s.tile.stepping with
  | none => s
  | some (k, c) =>
    if !(s.tile.stepConflicts c c.next).isEmpty then s
    else
      let last := decide (c.next + 1 = c.steps)
      match c.step s.tile, (if s.input.j = 0 then none else c.slip s.tile s.input.j s.input.offset) with
    | .bad cause h e f a, _ =>
      (if cause == .sheaf then s.localRecord h e f a else s).stepFails k c cause a false
    | .slip h e f a, _ => (s.localRecord h e f a).stepFails k c .sheaf a last
    | .done _ _ _, some (e, f) =>
      let o := s.tile.operand c.addrA.toNat
      (s.localRecord (o.header s.tile c.next) e f (o.addr c.next)).stepFails k c .sheaf (o.addr c.next) last
    | .done t fl el, none =>
      let c' := { c with next := c.next + 1, flags := c.flags ||| fl, el := el }
      let s' := { s with tile := t.putCmd k c' }
      if c'.next = c'.steps then s'.releaseMain else s')

/-- A copy waits on a page event that is open: the event its oldest waiting transfer joined (09 R202). -/
def State.copyEvent (s : State) (w : WainCmd) : Option PageWait :=
  s.pageWaits.find? fun p => p.tile == s.tile.ltn &&
    (match p.agent with
     | .wain c n _ => c == w.ctr && n == w.num
     | _ => false) &&
    (match p.event with
     | some e => s.pageEvents.any fun q => q.id == e && q.die == dieOf s.tile.ltn
     | none => false)

/-- `THRESHER_STOP` (09 R202): the step conflicts with an earlier copy that waits on a page event; the command stops at the step
boundary and the main strand joins that event. -/
def execThresherStop (s : State) : Host.Outcome State Fault Refusal :=
  event (match s.tile.stepping with
  | none => s
  | some (k, c) =>
    match (s.tile.stepConflicts c c.next).findSome? s.copyEvent with
    | none => s
    | some p =>
      let s1 := s.onTile fun t =>
        let t := t.modCtx c.ctx fun x => { x with flags := x.flags ||| c.flags }
        { t with thresher := dropAt k t.thresher, stop := some c,
                 main := { t.main with wait := some .page, mstep := BitVec.ofNat 16 c.next, mstepValid := true,
                                       epc := c.unit, fval := c.word } }
      { s1 with pageWaits := s1.pageWaits ++ [{ p with agent := .joined .main }] })

/-- Words that a drawing command draws. -/
def ThrCmd.words (c : ThrCmd) : Nat := 1024 * c.steps

/-- `THRESHER_COMMAND_COMPLETE` (09 R198): the oldest command whose operands are all read completes; its flags are ORed and the
generator advances while its run lives (log 13), and DONE may pass its number. -/
def execThresherCommandComplete (s : State) : Host.Outcome State Fault Refusal :=
  event (match s.tile.thresher with
  | [] => s
  | c :: rest =>
    if c.next < c.steps ∨ c.fault.isSome then s
    else
      let s1 := s.onTile fun t =>
        let t := { t with thresher := rest }
        if t.live c.owner then
          let t := t.modCtx c.ctx fun x => { x with flags := x.flags ||| c.flags }
          match c.c0 with
          | some c0 => t.setPhiloxC (advance c0.toNat c.words)
          | none => t
        else t
      s1.completeNum s.tile.ltn c.ctr c.num)

/-- `TAIL_FAULT` (09 R201): a mismatch in a command's tail becomes a cause that the main strand raises at its next issue
boundary; a stall at that boundary is over. -/
def execTailFault (s : State) : Host.Outcome State Fault Refusal :=
  event (match s.tile.thresher.zipIdx.find? fun p => p.1.fault.isSome with
  | none => s
  | some (c, k) =>
    let f : AsyncFault :=
      { cause := (c.fault.map (·.1)).getD .sheaf, epc := c.unit, fval := c.word, addr := (c.fault.map (·.2)).getD 0, info := 0,
        step := some (BitVec.ofNat 16 (c.steps - 1)), localSrc := false }
    let live := s.tile.live c.owner
    let s1 := s.onTile fun t =>
      let m := t.main
      let w := match m.wait with
        | some (.retry _) => none
        | some .thresher => none
        | x => x
      { t with thresher := dropAt k t.thresher,
               main := if live then { m with asyncFaults := m.asyncFaults ++ [f], wait := w } else m }
    s1.completeNum s.tile.ltn c.ctr c.num)

end Sys2Proof.Machine
end

