-- ==== Sys2Proof/Machine/Sheaf.lean ====
section
/-! DEFINITION. Sys2Proof/Machine/Sheaf.lean: the sheaf instructions (10 R238-R242). -/
namespace Sys2Proof.Machine

/-- Residue31 of block b of an operand (10 R223). -/
def Operand.residue (o : Operand) (t : Tile) (b : Nat) : Nat := residueOf o.fmt (o.header t b) (o.codes t b)

/-- What `sh.tag` and `sh.chk` check, and what they wait for: the checks of 09 R205 in its order, earlier thresher commands, and
earlier copies that touch the blocks (10 R239). -/
def State.sheafBlocks (s : State) (a b : SReg) (tags : Bool) : Except Stop (Operand × Nat) := do
  let ctl := (s.reg b).toNat
  let n := bitsOf ctl 0 5
  let o := s.tile.operand (s.reg a).toNat
  let sq := isSquareFmt o.fmt
  s.check (decide (1 ≤ n) && decide (n ≤ 16) && (bitsOf ctl 5 3 == 0) &&
    (if tags then decide (ctl < 2 ^ 32) else decide (ctl < 2 ^ 8))) .prot
  s.check (sq || n == 1) .prot
  s.checkAt o.aligned .align (s.reg a)
  s.checkAt (o.rangeOk s.tile s.st.lvl n false) .prot (s.reg a)
  s.checkAt (!(tags && sq) || (List.range n).all fun i => s.tile.regionOk s.st.lvl (o.headerAddr i) 64 true) .prot (s.reg a)
  let reads := (List.range n).flatMap o.ranges
  let writes := if tags && sq then (List.range n).flatMap o.headerRange else []
  if !s.tile.thresher.isEmpty || s.tile.wain.any fun w => conflict reads writes w.reads w.writes then s.stall .engine
  else if s.tile.rangesBad reads then
    .error (.trap { cause := .uncorr, addr := s.reg a, localSrc := true } s)
  else .ok (o, n)

/-- The tag that `sh.tag` makes. -/
def makeTag (residue route gen : Nat) (plain : Bool) : Nat :=
  residue + route * 2 ^ 31 + gen * 2 ^ 53 + 2 ^ 61 + (if plain then 2 ^ 63 else 0)

/-- `SH_TAG` (10 R239). -/
def execShTag (d a b : SReg) (s : State) : Host.Outcome State Fault Refusal :=
  run (.shTag d a b) s fun s => do
    let (o, n) ← s.sheafBlocks a b true
    let ctl := (s.reg b).toNat
    let sq := isSquareFmt o.fmt
    let tag := fun (i : Nat) => makeTag (o.residue s.tile i) (bitsOf ctl 8 16) (bitsOf ctl 24 8) (!sq)
    let s1 := if sq then
        s.onTile fun t => (List.range n).foldl (fun t i => t.writeSpad (o.headerAddr i + 32) (leBytes 8 (tag i))) t
      else s
    .ok (s1.setReg d (BitVec.ofNat 64 (tag (n - 1))))

/-- `SH_CHK` (10 R239). -/
def execShChk (d a b : SReg) (s : State) : Host.Outcome State Fault Refusal :=
  run (.shChk d a b) s fun s => do
    let (o, n) ← s.sheafBlocks a b false
    let tag := fun (i : Nat) => if isSquareFmt o.fmt then hTag (o.header s.tile i) else (s.reg d).toNat
    let untagged := packList 1 ((List.range n).map fun i => if tag i = 0 then 1 else 0)
    let fail := packList 1 ((List.range n).map fun i =>
      if tag i ≠ 0 ∧ (tagBad (tag i) ∨ tagResidue (tag i) ≠ o.residue s.tile i) then 1 else 0)
    .ok (s.setReg d (BitVec.ofNat 64 (untagged * 2 ^ 16 + fail)))

/-- `sh.red` that have no retention entry yet: buffered by the running activation, or released and not departed (10 R234, R240). -/
def State.redsBuffered (s : State) : Nat :=
  (((s.tile.act.map Activation.outputs).getD []).filter fun o => (match o with
    | .red _ _ => true
    | _ => false)).length + (s.tile.shSends.filter fun x => !x.resend).length

/-- `SH_RED` (10 R240). -/
def execShRed (a b : SReg) (s : State) : Host.Outcome State Fault Refusal :=
  run (.shRed a b) s fun s => do
    let o := s.tile.operand (s.reg a).toNat
    s.check (decide ((s.reg b).toNat ≤ 1)) .prot
    s.check (!o.plane && o.fmt == 15) .bankfmt
    s.checkAt o.aligned .align (s.reg a)
    s.checkAt (o.rangeOk s.tile s.st.lvl 1 false) .prot (s.reg a)
    if s.tile.rangesBad (o.ranges 0) then
      .error (.trap { cause := .uncorr, addr := s.reg a, localSrc := true } s)
    else
      let h := o.header s.tile 0
      let tag := hTag h
      s.check (tag != 0 && !(tagPlain tag) && !(tagBad tag) && tagRoute tag != 0) .qfault
      let found := o.residue s.tile 0
      if found ≠ tagResidue tag then
        (s.localRecord h (tagResidue tag) found (s.reg a).toNat).trapAt .sheaf (s.reg a)
      else
        s.check (decide (s.tile.retention.length + s.redsBuffered < 32)) .qfault
        s.check (decide (s.outputCount < 32)) .qfault
        .ok (s.buffer (.red (s.reg a).toNat ((s.reg b).getLsbD 0)))

/-- `SH_ACK` (10 R241). -/
def execShAck (a b : SReg) (s : State) : Host.Outcome State Fault Refusal :=
  run (.shAck a b) s fun s => do
    let v := (s.reg b).toNat
    s.check (bitsOf v 0 16 != 0) .qfault
    s.check (decide (s.outputCount < 32)) .qfault
    .ok (s.buffer (.ack ((s.reg a).setWidth 48) (BitVec.ofNat 16 v) (BitVec.ofNat 8 (bitsOf v 16 8))))

/-- A retention entry is the one of a chunk identity and a generation (10 R235, R242). -/
def Retention.is (r : Retention) (ident gen : Nat) : Bool :=
  r.chunk.toNat == bitsOf ident 0 24 && r.tensor.toNat == bitsOf ident 24 24 && r.gen.toNat == gen

/-- `SH_REL` (10 R242). -/
def execShRel (d a b : SReg) (s : State) : Host.Outcome State Fault Refusal :=
  run (.shRel d a b) s fun s =>
    let mine := fun (r : Retention) => r.is (s.reg a).toNat (bitsOf (s.reg b).toNat 16 8)
    .ok (match s.tile.retention.find? mine with
      | none => s.setReg d 2
      | some r => (s.onTile fun t => { t with retention := dropFirst mine t.retention }).setReg d (if r.st = .acked then 1 else 0))

end Sys2Proof.Machine
end

