-- ==== Sys2Proof/Machine/Network.lean ====
section
/-! DEFINITION. Sys2Proof/Machine/Network.lean: the sheaf records and acks that travel through switches, reduction, retention and
the built-in handlers that repair (10 R225-R237, R240, R241). -/
namespace Sys2Proof.Machine

/-! ### The torus (01 R22, 10 R228) -/

/-- The switch next to a switch at a port, and the port it is entered by. -/
def neighbour (l port : Nat) : Nat × Nat :=
  let x := l % 32
  let y := l / 32 % 32
  match port with
  | 1 => (y * 32 + (x + 1) % 32, 2)
  | 2 => (y * 32 + (x + 31) % 32, 1)
  | 3 => ((y + 1) % 32 * 32 + x, 4)
  | _ => ((y + 31) % 32 * 32 + x, 3)

/-- The port that x-then-y routing takes toward a destination, the shorter way round. -/
def dimPort (l dest : Nat) : Nat :=
  let dx := (dest % 32 + 32 - l % 32) % 32
  let dy := (dest / 32 % 32 + 32 - l / 32 % 32) % 32
  if dx ≠ 0 then (if dx ≤ 16 then 1 else 2) else if dy ≠ 0 then (if dy ≤ 16 then 3 else 4) else 0

/-- The ports by which x-then-y routing can leave a switch toward a destination: both ways round where they are equally long. -/
def dimCan (l port dest : Nat) : Bool :=
  let dx := (dest % 32 + 32 - l % 32) % 32
  let dy := (dest / 32 % 32 + 32 - l / 32 % 32) % 32
  if dx ≠ 0 then (port == 1 && decide (dx ≤ 16)) || (port == 2 && decide (16 ≤ dx))
  else if dy ≠ 0 then (port == 3 && decide (dy ≤ 16)) || (port == 4 && decide (16 ≤ dy))
  else port == 0

/-- A port that x-then-y routing can use toward a destination: the packet comes from the tile or an IO die, or the switch before could
send it this way (10 R230). -/
def dimOk (l port dest : Nat) : Bool :=
  port == 0 || port == 5 || (decide (port < 5) && dimCan (neighbour l port).1 (neighbour l port).2 dest)

/-! ### Records in packets -/

/-- Header of a record, as a number; its format, by its length; its codes; the record with a changed tag. -/
def recHeader (bs : List Byte) : Nat := ofLe (bs.take 64)
def recFmt (bs : List Byte) : Nat := if bs.length = recordBytes 14 then 14 else if bs.length = recordBytes 13 then 13 else 15
def recCodes (bs : List Byte) : List Nat := codesOfBytes (bankWidth (recFmt bs)) 1024 (bs.drop 64)
def recSetTag (bs : List Byte) (tag : Nat) : List Byte := leBytes 64 (setBits (recHeader bs) 256 64 tag) ++ bs.drop 64
def recTag (bs : List Byte) : Nat := hTag (recHeader bs)

/-- A tag with BAD set; with a given HOP. -/
def tagSetBad (t : Nat) : Nat := setBits t 62 1 1
def tagSetHop (t h : Nat) : Nat := setBits t 47 6 h

/-- Residue31 of a record. -/
def recResidue (bs : List Byte) : Nat := residueOf (recFmt bs) (recHeader bs) (recCodes bs)

/-- A sheaf fault record about a record that travels by a route, which charges a hop (10 R228, R233). -/
def State.chargeHop (s : State) (p : BitVec 5) (kind route hop : Nat) (bs : List Byte) (found addr : Nat) : State :=
  let h := recHeader bs
  let t := hTag h
  s.sheafRecord p kind (tagGen t) (tagHop t) (hChunk h) (hTensor h) route hop (tagResidue t) found addr

/-- A sheaf fault record about a record at a switch or tile, input port in [24:22]. -/
def State.chargeRecord (s : State) (p : BitVec 5) (kind route l port : Nat) (bs : List Byte) (found addr : Nat) : State :=
  s.chargeHop p kind route (s.gid l + port * 2 ^ 22) bs found addr

/-- A checking point of a record that travels (10 R225, R226): a mismatch sets BAD and is charged. A record without a tag is no sheaf. -/
def State.checkRecord (s : State) (p : BitVec 5) (route l port : Nat) (bs : List Byte) : State × List Byte :=
  let t := recTag bs
  if t = 0 ∨ tagBad t ∨ recResidue bs = tagResidue t then (s, bs)
  else (s.chargeRecord p 1 route l port bs (recResidue bs) 0, recSetTag bs (tagSetBad t))

/-- A record at a tile's network interface: a BAD one is refused, another one is delivered with HOP 0 (10 R226, R227; log 30). -/
def State.deliverRecord (s : State) (p : BitVec 5) (route l : Nat) (bs : List Byte) : State :=
  let (s1, bs1) := s.checkRecord p route l 0 bs
  if tagBad (recTag bs1) then s1
  else s1.modTile l fun t => { t with delivered := t.delivered ++ [recSetTag bs1 (tagSetHop (recTag bs1) 0)] }

/-- An ack at a tile becomes a message to its entry 14 (10 R241; log 30). -/
def State.ackMessage (s : State) (l : Nat) (m : Msg) (rel : Nat) : State :=
  { s with msgs := s.msgs ++ [{ msg := { m with dest := BitVec.ofNat 22 (s.gid l) }, rel := rel, phase := .toDest }] }

/-- The record of a square queue item has reached a tile: the item may be taken by its members there (10 R225, 15 R322). -/
def State.itemHere (s : State) (l qcb : Nat) (id : BitVec 32) (src : ItemSource) (bs : List Byte) : State :=
  { s with flight := s.flight.map fun i =>
      if i.qcb == qcb && i.id == id && i.src == src && i.tile == l && i.travel then { i with travel := false, arrived := some bs } else i }

/-- The record that a packet carries, if it carries one. -/
def PacketBody.record : PacketBody → Option (List Byte)
  | .sheaf bs => some bs
  | .item _ _ _ bs => some bs
  | .ack _ _ => none

/-- The body with another record. -/
def PacketBody.setRecord (bs : List Byte) : PacketBody → PacketBody
  | .sheaf _ => .sheaf bs
  | .item q i x _ => .item q i x bs
  | .ack m r => .ack m r

/-- The packet with its record changed. -/
def Packet.onRecord (k : Packet) (f : List Byte → List Byte) : Packet :=
  match k.body.record with
  | some bs => { k with body := k.body.setRecord (f bs) }
  | none => k

/-- A packet on a link: its route, its paddock, its destination, then its record or its ack (log 40). -/
def Packet.bytes (k : Packet) : List Byte :=
  leBytes 2 k.route.toNat ++ leBytes 2 k.paddock.toNat ++ leBytes 4 k.dest ++ (match k.body with
    | .sheaf bs => bs
    | .item _ _ _ bs => bs
    | .ack m _ => m.bytes 0)

/-- A packet leaves for another package over a link of its paddock; with no link left it is dropped at the IO die (11 R263). A sheaf and
an ack are outputs until they are accepted there (12 R270). -/
def State.leaveAbroad (s : State) (k : Packet) : State :=
  if !(s.canLeave k.paddock) then s
  else
    let far : List FarSheaf := match k.body with
      | .sheaf _ => [{ paddock := k.paddock, sources := k.sources, ack := none }]
      | .ack m r => [{ paddock := k.paddock, sources := k.sources, ack := some (r, m.lane) }]
      | .item _ _ _ _ => []
    { s.toLink k.paddock 2 k.bytes with farSheaves := s.farSheaves ++ far }

/-- A packet leaves a switch by a port: to the tile, to the next switch, or, at a switch beside a Pambiri die, to a Kyxus link. -/
def State.sendPort (s : State) (k : Packet) (port : Nat) : State :=
  if port = 0 then
    (match k.body with
     | .sheaf bs => s.deliverRecord k.paddock k.route.toNat k.switch bs
     | .ack m r => s.ackMessage k.switch m r
     | .item q id src bs => s.itemHere k.switch q id src bs)
  else if port = 5 then (if Config.ioSwitch k.switch then s.leaveAbroad k else s)
  else
    let n := neighbour k.switch port
    { s with packets := s.packets ++ [{ k with switch := n.1, port := n.2 }] }

/-- The destination in another package has accepted sheaf or ack `k`: messages behind an ack may leave (12 R270, R278). -/
def State.acceptedAbroad (s : State) (k : Nat) : State :=
  match s.farSheaves[k]? with
  | none => s
  | some x =>
    let s1 : State := { s with farSheaves := dropAt k s.farSheaves }
    if x.ack.isSome then x.sources.foldl (fun s g => s.pump (g % 1024)) s1 else s1

/-- Ports of an output mask. -/
def maskPorts (m : BitVec 6) : List Nat := (List.range 6).filter m.getLsbD

/-- A switch increments HOP of a tagged record as it forwards it (10 R227). -/
def bumpHop (bs : List Byte) : List Byte := if recTag bs = 0 then bs else recSetTag bs (tagSetHop (recTag bs) (tagHop (recTag bs) + 1))

/-- The packet leaves by every port of a mask. -/
def State.forward (s : State) (k : Packet) (ports : List Nat) : State := ports.foldl (fun s p => s.sendPort (k.onRecord bumpHop) p) s

/-- The checks of a record at a switch input: the residue, then the hop limit (10 R225, R227). -/
def State.checkInput (s : State) (p : BitVec 5) (route l port : Nat) (bs : List Byte) : State × List Byte :=
  let (s1, bs1) := s.checkRecord p route l port bs
  let t := recTag bs1
  if t ≠ 0 ∧ tagHop t = 63 ∧ !(tagBad t) then
    (s1.chargeRecord p 7 route l 0 bs1 (recResidue bs1) 0, recSetTag bs1 (tagSetBad t))
  else (s1, bs1)

/-- The same for a packet. -/
def State.switchCheck (s : State) (k : Packet) : State × Packet :=
  match k.body.record with
  | none => (s, k)
  | some bs =>
    let (s1, bs1) := s.checkInput k.paddock k.route.toNat k.switch k.port bs
    (s1, { k with body := k.body.setRecord bs1 })

/-- A failed route check is charged to the switch and its input port, unless the record is BAD already (10 R226, R230). -/
def State.routeFault (s : State) (k : Packet) : State :=
  match k.body with
  | .ack m _ =>
    let w := (m.dw 0).toNat
    s.sheafRecord k.paddock 2 (bitsOf w 48 8) 0 (bitsOf w 0 24) (bitsOf w 24 24) k.route.toNat (s.gid k.switch + k.port * 2 ^ 22) 0 0 0
  | .sheaf bs | .item _ _ _ bs =>
    if tagBad (recTag bs) then s else s.chargeRecord k.paddock 2 k.route.toNat k.switch k.port bs (recResidue bs) 0

/-- The valid entries of a switch that a packet may use. -/
def State.routesFor (s : State) (k : Packet) : List RouteEntry :=
  s.routes.filter fun r => r.switch == k.switch && r.route == k.route && r.paddock == k.paddock && r.inMask.getLsbD k.port

/-- The identity of a reduction: ROUTE, CHUNK, TENSOR, GEN (10 R231). -/
def RedSlot.is (x : RedSlot) (k : Packet) (bs : List Byte) : Bool :=
  let h := recHeader bs
  x.switch == k.switch && x.route == k.route && x.chunk.toNat == hChunk h && x.tensor.toNat == hTensor h &&
    x.gen.toNat == tagGen (hTag h)

/-- An input of a reduction takes its place in a slot; none where every slot is busy (10 R231). -/
def State.holdInput (s : State) (k : Packet) (bs : List Byte) : Option State :=
  match s.slots.find? fun x => x.is k bs with
  | some x =>
    if x.inputs.any fun p => p.1 == k.port then some (s.chargeRecord k.paddock 9 k.route.toNat k.switch k.port bs (recResidue bs) 0)
    else some { s with slots := modFirst (fun x => x.is k bs) (fun x => { x with inputs := x.inputs ++ [(k.port, k)] }) s.slots }
  | none =>
    if 16 ≤ (s.slots.filter fun x => x.switch == k.switch).length then none
    else
      let h := recHeader bs
      let x : RedSlot :=
        { switch := k.switch, route := k.route, paddock := k.paddock, chunk := BitVec.ofNat 24 (hChunk h),
          tensor := BitVec.ofNat 24 (hTensor h), gen := BitVec.ofNat 8 (tagGen (hTag h)), inputs := [(k.port, k)],
          openedAt := s.tb.toNat }
      some { s with slots := s.slots ++ [x] }

/-- Damage on the link that a record arrives by: `bits` are exclusive-ored into its 64-bit word `j`. -/
def damaged (j : Nat) (bits : DW) (bs : List Byte) : List Byte :=
  let w := ofLe ((bs.drop (8 * j)).take 8)
  if 8 * j + 8 ≤ bs.length then bs.take (8 * j) ++ leBytes 8 (w ^^^ bits.toNat) ++ bs.drop (8 * j + 8) else bs

/-- x-then-y routing can bring a memory request's record, whose route is 0, to a switch by a port: an SQRD reply goes to its tile, an
SQWR to the die of its home slice (10 R228, R230; log 42). -/
def MemReq.pathOk (r : MemReq) (l port : Nat) : Bool :=
  if r.phase == .toTile then dimOk l port (r.source % 1024)
  else (List.range 1024).any fun d => dieOf d == sliceOf r.pa / 32 && dimOk l port d

/-- A square record of a memory request, on its way to its slice or to its tile, at a switch input: the residue, the hop limit, then the
route (10 R225, R227, R228, R230). Only a switch beside a Pambiri die has port 5. -/
def State.squareAtSwitch (s : State) (k : Nat) (r : MemReq) (l port : Nat) : State :=
  let moves := (r.kind == .sqwr && r.phase == .toSlice) || (r.kind == .sqrd && r.phase == .toTile && r.status.good)
  if !moves || decide (1024 ≤ l) || (port == 5 && !(Config.ioSwitch l)) then s
  else
    let (s1, bs) := s.checkInput r.paddock 0 l port (damaged s.input.j s.input.bits r.data)
    let (s2, bs) :=
      if r.pathOk l port then (s1, bs)
      else (if tagBad (recTag bs) then s1 else s1.chargeRecord r.paddock 2 0 l port bs (recResidue bs) 0, recSetTag bs (tagSetBad (recTag bs)))
    { s2 with reqs := modAt (fun q => { q with data := bumpHop bs }) k s2.reqs }

/-- An ack may not leave this package before its tile's earlier messages to other packages are accepted there (11 R254, 12 R278). -/
def State.ackHeld (s : State) (k : Packet) (ports : List Nat) : Bool :=
  match k.body with
  | .ack m r => ports.contains 5 && decide (m.source.toNat / 1024 = s.pkg.toNat) &&
      (s.getTile (m.source.toNat % 1024)).sendQ.any fun e =>
        decide (e.rel < r) && decide (e.msg.dest.toNat / 1024 ≠ s.pkg.toNat) && (!s.large || e.msg.lane == m.lane)
  | _ => false

/-- What an ack held back may leave now that the ack has arrived, left or been dropped (12 R278). -/
def State.pumpAck (s : State) (k : Packet) : State :=
  match k.body with
  | .ack m _ => if m.source.toNat / 1024 = s.pkg.toNat then s.pump (m.source.toNat % 1024) else s
  | _ => s

/-- `SWITCH_ARRIVAL` (10 R225-R231): packet `k` arrives at its switch input; `bits` ≠ 0 is damage done on the way. Beyond the packets,
`k` names a memory request, whose square record passes input port `offset` mod 8 of switch `offset` / 8: the path of memory traffic is
not fixed (log 42). -/
def execSwitchArrival (s : State) : Host.Outcome State Fault Refusal :=
  event (match s.packets[s.input.k]? with
  | none =>
    (match s.reqs[s.input.k - s.packets.length]? with
     | some r => s.squareAtSwitch (s.input.k - s.packets.length) r (s.input.offset.toNat / 8) (s.input.offset.toNat % 8 % 6)
     | none => s)
  | some k0 =>
    let rest : State := { s with packets := dropAt s.input.k s.packets }
    let (s1, k) := rest.switchCheck (k0.onRecord (damaged s.input.j s.input.bits))
    if k.route = 0 then
      let port := dimPort k.switch k.dest
      if dimOk k.switch k.port k.dest then s1.forward k [port]
      else (s1.routeFault k).forward (k.onRecord fun bs => recSetTag bs (tagSetBad (recTag bs))) [port]
    else match s1.routesFor k with
    | [r] =>
      (match r.red, k.body with
       | true, .sheaf bs => (s1.holdInput k bs).getD s
       | _, _ => if s.ackHeld k (maskPorts r.outMask) then s else (s1.forward k (maskPorts r.outMask)).pumpAck k)
    | _ => (s1.routeFault k).pumpAck k)

/-! ### Reduction (10 R231, R232; 07 R171) -/

/-- The element-wise exact sums of records. -/
def exactSums (rs : List (List Byte)) : List Int :=
  rs.foldl (fun acc bs =>
    let cs := (recCodes bs).map (fun c => signed 32 c)
    if acc.isEmpty then cs else List.zipWith (· + ·) acc cs) []

/-- The predicted residue of a sum of AIC32 records: 2^32 is 2 modulo 2^31 − 1 (10 R224). -/
def predictSum (rs : List (List Byte)) (sums : List Int) : Nat :=
  let wraps := sums.zipIdx.foldl (fun (a : Int) p => a + ((p.2 : Int) + 1) * ((p.1 - signed 32 (wrap 32 p.1)) / (2 ^ 32 : Nat))) 0
  (((rs.foldl (fun (a : Int) bs => a + tagResidue (recTag bs)) 0) - 2 * wraps) % resP).toNat

/-- A complete slot has one input from each port of its entry's INMASK. -/
def RedSlot.complete (x : RedSlot) (r : RouteEntry) : Bool := (maskPorts r.inMask).all fun p => x.inputs.any fun i => i.1 == p

/-- The record of a slot, for a fault record and for the output header: its first input's. -/
def RedSlot.records (x : RedSlot) : List (List Byte) :=
  x.inputs.filterMap fun i => i.2.body.record

/-- A reduction-failure record of a slot (10 R233). -/
def State.slotRecord (s : State) (x : RedSlot) (kind expect found : Nat) : State :=
  s.sheafRecord x.paddock kind x.gen.toNat 0 x.chunk.toNat x.tensor.toNat x.route.toNat (s.gid x.switch) expect found 0

/-- The one sheaf that a complete slot forwards. `bits` are exclusive-ored into sum element `j`: a fault of the adder. -/
def State.emitSum (s : State) (x : RedSlot) (r : RouteEntry) (j : Nat) (bits : DW) : State :=
  match x.inputs, x.records with
  | i :: _, first :: _ =>
    let rs := x.records
    if rs.any fun bs => hE (recHeader bs) != hE (recHeader first) then s.slotRecord x 10 0 0
    else
      let sums := exactSums rs
      let codes := sums.zipIdx.map fun p => if p.2 = j then wrap 32 p.1 ^^^ bits.toNat % 2 ^ 32 else wrap 32 p.1
      let found := residueOf 15 (recHeader first) codes
      let want := predictSum rs sums
      let bad := rs.any fun bs => tagBad (recTag bs)
      let hop := rs.foldl (fun a bs => max a (tagHop (recTag bs))) 0
      let broken := !bad && found != want
      let t0 := makeTag found (tagRoute (recTag first)) (tagGen (recTag first)) false
      let t1 := tagSetHop t0 hop
      let t2 := if bad || broken then tagSetBad t1 else t1
      let body := leBytes 64 (setBits (recHeader first) 256 64 t2) ++ bytesOfCodes 32 codes
      let s1 := if broken then s.slotRecord x 3 want found else s
      let from' := x.inputs.foldl (fun l p => l ++ p.2.sources.filter fun g => !(l.contains g)) []
      s1.forward { i.2 with body := .sheaf body, sources := from' } (maskPorts r.outMask)
  | _, _ => s

/-- The entry that a slot reduces by. -/
def State.slotRoute (s : State) (x : RedSlot) : Option RouteEntry :=
  s.routes.find? fun r => r.switch == x.switch && r.route == x.route && r.paddock == x.paddock && r.red

/-- `REDUCTION_EMIT` (10 R232): complete slot `k` adds its inputs. -/
def execReductionEmit (s : State) : Host.Outcome State Fault Refusal :=
  event (match s.slots[s.input.k]? with
  | none => s
  | some x =>
    match s.slotRoute x with
    | none => s
    | some r =>
      if x.complete r then ({ s with slots := dropAt s.input.k s.slots } : State).emitSum x r s.input.j s.input.bits else s)

/-- `REDTIMEOUT` (10 R231): slot `k`, still incomplete 2^20 ns after it opened, is freed. -/
def execRedtimeout (s : State) : Host.Outcome State Fault Refusal :=
  event (match s.slots[s.input.k]? with
  | none => s
  | some x =>
    if s.tb.toNat < x.openedAt + 2 ^ 20 || (s.slotRoute x).any x.complete then s
    else ({ s with slots := dropAt s.input.k s.slots } : State).slotRecord x 8 0 0)

/-! ### Departure, resend and ack (10 R234-R236, R240) -/

/-- `SH_RED_DEPARTURE` (10 R234, R240): the oldest released send of the tile is read, checked and sent, and has its retention
entry. A record without a tag, or with an uncorrectable word, fails there and does not leave. -/
def execShRedDeparture (s : State) : Host.Outcome State Fault Refusal :=
  event (match s.tile.shSends with
  | [] => s
  | x :: xs =>
    let bs := s.tile.readSpad x.addr 4160
    let h := recHeader bs
    let t := hTag h
    let lost := t = 0 ∨ wordsBad s.tile.spadBad x.addr 4160
    let broken := !(decide lost) && !(tagBad t) && recResidue bs != tagResidue t
    let l := s.tile.ltn
    let st : RetState := if lost ∨ broken then .failed else .sent
    let e : Retention :=
      { chunk := BitVec.ofNat 24 (hChunk h), tensor := BitVec.ofNat 24 (hTensor h), gen := BitVec.ofNat 8 (tagGen t), addr := x.addr,
        auto := x.auto, st := st }
    let s1 := s.onTile fun t =>
      { t with shSends := xs,
               retention := if x.resend then modFirst (fun r => r.addr == x.addr) (fun r => { r with st := st }) t.retention
                 else t.retention ++ [e] }
    let s2 := if lost ∨ broken then s1.chargeRecord s.tile.paddock 6 (tagRoute t) l 0 bs (recResidue bs) x.addr else s1
    if lost then s2
    else
      let out := if broken then recSetTag bs (tagSetBad t) else bs
      let p : Packet :=
        { switch := l, port := 0, route := BitVec.ofNat 16 (tagRoute t), paddock := s.tile.paddock, dest := l, sources := [s.gid l], body := .sheaf out }
      { s2 with packets := s2.packets ++ [p] })

/-- `SHEAF_RESEND` (10 R236): built-in entry 13 of the message at the head of the mailbox; it stores into scratchpad and fences like the
others (12 R276). -/
def execSheafResend (s : State) : Host.Outcome State Fault Refusal :=
  event (match s.builtinLocal 13 with
  | none => s
  | some m =>
    let w := (m.dw 0).toNat
    let gen := bitsOf w 48 8
    let new := bitsOf w 56 8
    match s.tile.retention.find? fun r => r.is w gen with
    | none => s.rejectHead m 4
    | some r =>
      let tag := s.tile.spad.readLe (r.addr + 32) 8
      let tag' := tagSetHop (setBits tag 53 8 new) 0
      (s.freeSlot.builtinWrite (r.addr + 32) (leBytes 8 tag')).onTile fun t =>
        { t with retention := modFirst (fun r => r.is w gen) (fun r => { r with gen := BitVec.ofNat 8 new, st := .sent }) t.retention,
                 shSends := t.shSends ++ [{ addr := r.addr, auto := r.auto, resend := true }] })

/-- `ACK_DELIVERY` (10 R235): built-in entry 14 of the message at the head of the mailbox. -/
def execAckDelivery (s : State) : Host.Outcome State Fault Refusal :=
  event (match s.builtin 14 with
  | none => s
  | some m =>
    let w := (m.dw 0).toNat
    let mine := fun (r : Retention) => r.is w (bitsOf w 48 8)
    s.freeSlot.onTile fun t =>
      { t with retention := (t.retention.filter fun r => !(mine r && r.auto)).map fun r => if mine r then { r with st := .acked } else r })

end Sys2Proof.Machine
end

