-- ==== Sys2Proof/Machine/Paging.lean ====
section
/-! DEFINITION. Sys2Proof/Machine/Paging.lean: page events: opening, resuming, timing out; page-range items (04 R99-R103, R107). -/
namespace Sys2Proof.Machine

/-- Code of a waiting agent in a page-event item (04 R101). The table names no code for a code invalidation or an access of a monitor
call: they wait as `mrq` does, with code 1 (DESIGN CHOICE, log 36). Hints and queue slots open no event. -/
def Agent.code : Agent → Nat
  | .fetch _ => 0
  | .mrq _ => 1
  | .atomic _ => 2
  | .wain _ _ _ => 3
  | .joined _ => 3
  | .call _ | .prefetch | .slot => 1

/-- The item of a new event (04 R101). -/
def pageItem (w : PageWait) (id : BitVec 16) (gid now : Nat) : List Byte :=
  recordBytesOf [(0, 1, 1), (1, 1, w.agent.code), (2, 1, w.access), (3, 1, w.lvl), (4, 2, id.toNat), (6, 1, dieOf w.tile),
    (7, 1, w.ctx.toNat + (if w.onHandler then 4 else 0)), (8, 8, w.va.toNat), (16, 8, w.ptePa), (24, 8, w.pte.toNat), (32, 4, gid),
    (36, 2, w.asid.toNat), (38, 8, now)]

/-- Open events that a die may hold for a paddock: 32 for each paddock merged into it, by its channel indices (04 R100; log 31). -/
def State.eventQuota (s : State) (p : BitVec 5) : Nat := 32 * max 1 (((s.pcfg p).map fun c => popCount 32 c.chans.toNat).getD 1)

/-- An event id that no open event of a die carries (04 R101), from a first candidate on. -/
def State.freeEventId (s : State) (die : Nat) : Nat → BitVec 16 → BitVec 16
  | 0, id => id
  | n + 1, id => if s.pageEvents.any fun e => e.die == die && e.id == id then s.freeEventId die n (id + 1) else id

/-- `PAGE_EVENT_OPEN` (04 R99-R101): the walker joins waiting agent `k` to the open event of its entry, or opens one. Its TIME, and the
start of its 2^30 ns, are those of the opening, also where the push of its item is retried at a full queue (DESIGN CHOICE, log 36). -/
def execPageEventOpen (s : State) : Host.Outcome State Fault Refusal :=
  event (match s.pageWaits[s.input.k]? with
  | none => s
  | some w =>
    let die := dieOf w.tile
    let join := fun (id : BitVec 16) (s : State) =>
      { s with pageWaits := modAt (fun x => { x with event := some id }) s.input.k s.pageWaits }
    if w.event.isSome then s
    else match s.pageEvents.find? fun e => e.die == die && e.ptePa == w.ptePa && e.paddock == w.paddock with
    | some e => join e.id s
    | none =>
      if s.eventQuota w.paddock ≤ (s.pageEvents.filter fun e => e.die == die && e.paddock == w.paddock).length then s
      else
        let id := s.freeEventId die (s.pageEvents.length + 1) s.nextEvent
        let e : PageEvent := { die := die, id := id, paddock := w.paddock, ptePa := w.ptePa, postedAt := s.tb.toNat }
        let s1 : State := { join id s with pageEvents := s.pageEvents ++ [e], nextEvent := id + 1 }
        s1.post w.paddock .pager (pageItem w id (s.gid w.tile) s.tb.toNat) none)

/-- An agent whose wait is over translates again from the start: a strand executes its unit again (04 R102, 02 R41). -/
def State.retryAgent (s : State) (tile : Nat) : Agent → State
  | .fetch st | .mrq st | .atomic st | .joined st => s.modTile tile fun t => t.modStrand st fun x => x.startUnit x.unit
  | .wain ctr num piece => s.atTile tile fun s => s.wainAgain ctr num piece
  | .call st => s.modTile tile fun t => t.modStrand st fun x => { x with wait := none }
  | .prefetch | .slot => s

/-- An agent whose translation fails: a strand raises the cause at its waiting word, a copy fails with a DETAIL (04 R95, R102; 05
R124). A monitor call goes on with the failure. A prefetch is dropped (02 R46). -/
def State.failAgent (s : State) (tile : Nat) (ag : Agent) (va : DW) (c : Cause) (detail : Nat) : State :=
  match ag with
  | .fetch st | .mrq st | .atomic st | .joined st =>
    let x := (s.getTile tile).strand st
    s.trapStrand tile st { cause := c, addr := va } x.unit x.pc
  | .wain ctr num piece => s.atTile tile fun s => s.wainFails ctr num piece c detail
  | .call st => s.modTile tile fun t => t.modStrand st fun x => { x with wait := none, sample := some 2 }
  | .prefetch | .slot => s

/-- A wait is over with a status: RETRY translates again, FAIL_DATA raises UNCORR, every other one PROT (04 R102). -/
def State.resumeAgent (s : State) (w : PageWait) (status : Nat) : State :=
  if status = 0 then s.retryAgent w.tile w.agent
  else if status = 2 then s.failAgent w.tile w.agent w.va .uncorr 4
  else s.failAgent w.tile w.agent w.va .prot 1

/-- An event closes: every agent that waits on it acts by the status. Its item, where it still waits for room in a full pager queue, is
posted later all the same (DESIGN CHOICE, log 36). -/
def State.closeEvent (s : State) (e : PageEvent) (status : Nat) : State :=
  let mine := fun (w : PageWait) => dieOf w.tile == e.die && w.event == some e.id
  let ws := s.pageWaits.filter mine
  let s1 : State := { s with pageEvents := s.pageEvents.filter fun x => !(x.die == e.die && x.id == e.id),
                             pageWaits := s.pageWaits.filter fun w => !(mine w) }
  ws.foldl (fun s w => s.resumeAgent w status) s1

/-- `PAGE_EVENT_TIMEOUT` (04 R100): event `k` closes as FAIL_PROT 2^30 ns after its posting. -/
def execPageEventTimeout (s : State) : Host.Outcome State Fault Refusal :=
  event (match s.pageEvents[s.input.k]? with
  | none => s
  | some e => if e.postedAt + 2 ^ 30 ≤ s.tb.toNat then s.closeEvent e 1 else s)

/-- `PAGE_RESUME` (04 R102): built-in entry 12 of the message at the head of the mailbox; one that names no open event is
discarded. One that arrives at a tile of another die than it names closes that event all the same, and one of LEN 0 reads doubleword 0
as zero (DESIGN CHOICE, log 36). -/
def execPageResume (s : State) : Host.Outcome State Fault Refusal :=
  event (match s.builtin 12 with
  | none => s
  | some m =>
    let w := (m.dw 0).toNat
    let s1 := s.freeSlot
    match s1.pageEvents.find? fun e => e.die == bitsOf w 16 16 && e.id.toNat == bitsOf w 0 16 with
    | none => s1
    | some e => s1.closeEvent e (bitsOf w 32 8))

/-- Lines of a 4 KiB granule that a prefetch brings into their home slice (02 R46). -/
def State.prefetchLines (s : State) (key : BitVec 13) (pa : Nat) : State :=
  (List.range 64).foldl (fun s i =>
    let a := pa / 4096 * 4096 + 64 * i
    if s.lineBusy a || s.olderWaits (s.gid s.tile.ltn) (sliceOf a) s.reqSerial then s
    else (s.sliceRead (s.askerOf s.tile.ltn s.tile.paddock false key) a 64).2.2) s

/-- The item that `hint.pg` posts (04 R107): none for n = 0, a base with bits [63:56] set, or a full or absent queue. -/
def State.postRange (s : State) (base : DW) (n : Nat) : State :=
  if n = 0 ∨ 2 ^ 56 ≤ base.toNat then s
  else
    let bytes := recordBytesOf [(0, 1, 2), (8, 8, base.toNat / 65536 * 65536), (16, 4, n), (20, 4, s.gid s.tile.ltn),
      (24, 1, s.st.ctx.toNat + (if s.cur = .handler then 4 else 0)), (26, 2, s.cx.asid.toNat), (28, 8, s.tb.toNat)]
    match (s.pcfg s.tile.paddock).bind fun c => s.queueAt c.pagerQ.toNat with
    | none => s
    | some q => (s.agentPushNow q .hintPg bytes).getD s

end Sys2Proof.Machine
end

