-- ==== Sys2Proof/Machine/Walker.lean ====
section
/-! DEFINITION. Sys2Proof/Machine/Walker.lean: the walkers of the dies: what a WALK reply leads to, and what the requesters of a
walk receive at its end (04 R93-R99). -/
namespace Sys2Proof.Machine

/-- What a walk comes to. -/
inductive WalkEnd where
  | fails (c : Cause)
  | finds (lf : Leaf)
  deriving DecidableEq, Repr

/-- A requester meets a non-resident leaf that permits its access: a strand or a copy waits for a page event (04 R99), a `cp.pf` piece
skips its line (05 R119), a hint is dropped (02 R46). -/
def State.pageAsker (s : State) (a : WalkAsker) (lvl ptePa : Nat) (pte : DW) : State :=
  let wait := fun (s : State) => s.waitPage a.tile a.agent a.xc a.access a.va lvl ptePa pte
  match a.agent with
  | .fetch st | .mrq st | .atomic st | .joined st | .call st =>
    wait (s.modTile a.tile fun t => t.modStrand st fun x => { x with wait := some .page })
  | .wain ctr num p =>
    s.atTile a.tile fun s =>
      match s.tile.wain.zipIdx.find? fun x => x.1.ctr == ctr && x.1.num == num with
      | none => s
      | some (w, k) => if w.form = .prefetch then s.pieceDone k p else (wait s).setStage k p .paged
  | .prefetch | .slot => s

/-- A requester of a walk receives its result (04 R95, R97). A translation that succeeds is cached, and the access that missed finds it
when it comes again. -/
def State.answerAsker (s : State) (p : BitVec 5) (r : WalkEnd) (a : WalkAsker) : State :=
  let wain := match a.agent with
    | .wain _ _ _ => true
    | _ => false
  match r with
  | .fails c => s.failAgent a.tile a.agent a.va c (if c = .uncorr then 2 else 1)
  | .finds lf =>
    match s.leafTr a.tile a.xc p a.va.toNat 1 a.access wain lf with
    | .fault c => s.failAgent a.tile a.agent a.va c 1
    | .page lvl ptePa pte => s.pageAsker a lvl ptePa pte
    | .walk => s
    | .ok pa key =>
      let s1 := s.cacheLeaf a.tile (lf.entry p a.xc.asid a.va.toNat)
      if a.agent = .prefetch then s1.atTile a.tile fun s => s.prefetchLines key pa else s1

/-- A walk ends: the walker takes the walk that has waited longest on its die, and every requester receives the result (04 R97). -/
def State.endWalk (s : State) (w : Walk) (r : WalkEnd) : State :=
  let s1 : State := { s with walks := s.walks.filter fun x => x.serial != w.serial }
  let s2 := match s1.walks.find? fun x => x.die == w.die && x.queued with
    | none => s1
    | some q =>
      ({ s1 with walks := s1.walks.map fun x => if x.serial = q.serial then { x with queued := false } else x } : State).sendWalk q
  w.askers.foldl (fun s a => s.answerAsker w.paddock r a) s2

/-- What the entry that a walk has read leads to: the end of the walk, or the next table and its key (04 R95). -/
def walkEntry (lvl ptePa : Nat) (pte : DW) : WalkEnd ⊕ (Nat × BitVec 13) :=
  if !(pte.getLsbD 0) then .inl (.fails .prot)
  else if pte.getLsbD 1 then .inl (if lvl = 0 then .fails .prot else .finds { lvl := lvl, pte := pte, ptePa := ptePa })
  else if lvl = 3 ∨ bitsOf pte.toNat 2 10 ≠ 0 then .inl (.fails .prot)
  else .inr (bitsOf pte.toNat 12 39 * 2 ^ 13, BitVec.ofNat 13 (bitsOf pte.toNat 51 13))

/-- The reply of a WALK packet reaches the walker: POISON ends the walk with UNCORR, another failure with PROT (04 R95). -/
def State.walkerTakes (s : State) (serial : Nat) (st : Status) (data : List Byte) : State :=
  match s.walks.find? fun w => w.serial == serial with
  | none => s
  | some w =>
    match st.cause with
    | some c => s.endWalk w (.fails c)
    | none =>
      match walkEntry w.lvl (entryAddr w.table w.lvl w.first.va.toNat) (BitVec.ofNat 64 (ofLe data)) with
      | .inl r => s.endWalk w r
      | .inr (table, key) =>
        if !(s.walkOk w.paddock w.first.xc.lvl key (entryAddr table (w.lvl + 1) w.first.va.toNat)) then s.endWalk w (.fails .prot)
        else
          let w' := { w with lvl := w.lvl + 1, table := table, key := key }
          ({ s with walks := s.walks.map fun x => if x.serial = w.serial then w' else x } : State).sendWalk w'

end Sys2Proof.Machine
end

