-- ==== Sys2Proof/Machine/BaseDie.lean ====
section
/-! DEFINITION. Sys2Proof/Machine/BaseDie.lean: request packets at home slices and base dies, parity, scrubbing, channel states
and memory events (03 R63-R84, 05 R108-R110). A request goes to the end of the list when its slice takes it: the list holds the
requests that slices have taken in arrival order. -/
namespace Sys2Proof.Machine

/-- Change request k. -/
def State.modReq (s : State) (k : Nat) (f : MemReq → MemReq) : State := { s with reqs := modAt f k s.reqs }

/-- Two requests touch one 64-byte line. -/
def MemReq.sameLine (a b : MemReq) : Bool :=
  overlaps (a.pa / 64 * 64) ((a.pa + a.len + 63) / 64 * 64 - a.pa / 64 * 64) (b.pa / 64 * 64)
    ((b.pa + b.len + 63) / 64 * 64 - b.pa / 64 * 64)

/-- Two requests touch one 32-byte granule. -/
def MemReq.sameGranule (a b : MemReq) : Bool := (granulesOf a.pa a.len).any (granulesOf b.pa b.len).contains

/-- The slice may take request k: the earlier requests of its tile to the slice have been taken (03 R78). -/
def State.sliceMay (s : State) (r : MemReq) : Bool := r.phase == .toSlice && !(s.olderWaits r.source (sliceOf r.pa) r.serial)

/-- The base die may process request k: it is the oldest at its granules (03 R80). -/
def State.baseMay (s : State) (k : Nat) (r : MemReq) : Bool :=
  r.phase == .toBase &&
  !((s.reqs.take k).any fun q => q.kind != .pdelta && (q.phase == .toBase || q.phase == .parity) && q.sameGranule r)

/-- The reply of request k may pass its slice: no earlier reply of its lines waits. -/
def State.replyMay (s : State) (k : Nat) (r : MemReq) : Bool :=
  r.phase == .fromBase && !((s.reqs.take k).any fun q => q.phase == .fromBase && q.kind != .pdelta && q.sameLine r)

/-- A slice takes request k: it becomes the youngest of those taken. -/
def State.takeReq (s : State) (k : Nat) (r : MemReq) : State := { s with reqs := dropAt k s.reqs ++ [r] }

/-- The line array can answer a read: it holds the line, and no square write to it is pending, whose record is known only at its base
die (03 R78, R83). -/
def State.lineServes (s : State) (r : MemReq) : Option GranLine :=
  if s.reqs.any fun q => q.taken && q.kind == .sqwr && q.sameLine r then none else s.lineHit r.pa r.key

/-- A reply leaves its slice: to the walkers beside it, or to its tile; nothing waits for a write of the hardware's own. -/
def State.leaveSlice (s : State) (k : Nat) (r : MemReq) : State :=
  match r.handle with
  | .none => { s with reqs := dropAt k s.reqs }
  | .walker n => ({ s with reqs := dropAt k s.reqs } : State).walkerTakes n r.status r.data
  | _ => s.modReq k fun _ => { r with phase := .toTile }

/-- `HOME_SLICE_READ` (05 R109, 03 R78): request `k` is served from the line array with the pending writes of its line, or goes
on to the base die. -/
def execHomeSliceRead (s : State) : Host.Outcome State Fault Refusal :=
  event (match s.reqs[s.input.k]? with
  | none => s
  | some r =>
    if !(s.sliceMay r) then s
    else match r.kind with
    | .rd | .walk =>
      (match s.lineServes r with
       | some l => s.leaveSlice s.input.k { r with data := s.overlay r.pa ((l.data.drop (r.pa % 64)).take r.len) }
       | none => s.takeReq s.input.k { r with phase := .toBase })
    | .sqrd => s.takeReq s.input.k { r with phase := .toBase }
    | _ => s)

/-- HOPID of the home slice of an address (10 R233). -/
def State.sliceHop (s : State) (pa : Nat) : Nat := s.pkg.toNat * 1024 + sliceOf pa + 2 ^ 25

/-- A home slice takes an SQWR whose record is a sheaf: it checks it, and refuses one that is BAD (10 R225, R226). What it passes on has
HOP 0 (R227). -/
def State.takeSquare (s : State) (k : Nat) (r : MemReq) : State :=
  let t := recTag r.data
  if t = 0 then s.takeReq k { r with phase := .toBase }
  else
    let broken := !(tagBad t) && recResidue r.data != tagResidue t
    let s1 := if broken then s.chargeHop r.paddock 1 0 (s.sliceHop r.pa) r.data (recResidue r.data) 0 else s
    if tagBad t || broken then s1.modReq k fun q => { q with phase := .toTile, refused := true }
    else s1.takeReq k { r with phase := .toBase, data := recSetTag r.data (tagSetHop t 0) }

/-- `HOME_SLICE_WRITE` (05 R110): write request `k` passes to the base die. -/
def execHomeSliceWrite (s : State) : Host.Outcome State Fault Refusal :=
  event (match s.reqs[s.input.k]? with
  | none => s
  | some r =>
    if !(s.sliceMay r && r.writes) then s
    else if r.kind = .sqwr then s.takeSquare s.input.k r
    else s.takeReq s.input.k { r with phase := .toBase })

/-- A base die's read of request k. -/
def State.serveRead (s : State) (k : Nat) (r : MemReq) : State :=
  let (st, bs, s1) := s.baseRead r.asker r.pa r.len
  s1.modReq k fun r => { r with phase := .fromBase, status := st, data := bs, version := BitVec.ofNat 16 (ofLe ((bs.drop 4).take 2)) }

/-- A base die's write of request k: once the data is written its parity delta goes to the parity die, and the reply waits for
the acknowledgement (03 R68). -/
def State.serveWrite (s : State) (k : Nat) (r : MemReq) : State :=
  let (st, delta, s1) := s.baseWrite r.asker r.pa r.data r.enabled
  if st = .ok ∨ st = .poison then
    let first := ((writtenGranules r.pa r.data.length r.enabled).head?.getD (r.pa / 32)) * 32
    let q := MemReq.blank .pdelta (.delta r.serial) r.asker first delta.length
    (s1.modReq k fun x => { x with phase := .parity, status := st, data := r.data, version := r.version }).addReq
      { q with data := delta, phase := .toBase }
  else s1.modReq k fun x => { x with phase := .fromBase, status := st }

/-- A base die processes request k of a kind, oldest first at its granules. -/
def baseEvent (kind : ReqKind) (f : State → Nat → MemReq → State) (s : State) : Host.Outcome State Fault Refusal :=
  event (match s.reqs[s.input.k]? with
  | none => s
  | some r => if r.kind == kind && s.baseMay s.input.k r then f s s.input.k r else s)

/-- `RD` (03 R80). -/
def execRd (s : State) : Host.Outcome State Fault Refusal := baseEvent .rd State.serveRead s

/-- `WALK` (04 R95, 03 R79): the base die serves a walker's read. -/
def execWalk (s : State) : Host.Outcome State Fault Refusal := baseEvent .walk State.serveRead s

/-- `WR` (03 R80, R81). -/
def execWr (s : State) : Host.Outcome State Fault Refusal := baseEvent .wr State.serveWrite s

/-- `WRM` (03 R81). -/
def execWrm (s : State) : Host.Outcome State Fault Refusal := baseEvent .wrm State.serveWrite s

/-- `ATOMWB` (03 R79). -/
def execAtomwb (s : State) : Host.Outcome State Fault Refusal := baseEvent .atomwb State.serveWrite s

/-- A square-kind request that breaks R82 is refused with OWNERR before any effect. -/
def State.squareKind (s : State) (k : Nat) (r : MemReq) (f : State → Nat → MemReq → State) : State :=
  if squarePlaceOk r.pa r.len then f s k r else s.modReq k fun x => { x with phase := .fromBase, status := .ownErr }

/-- `SQRD` (03 R82, R83). -/
def execSqrd (s : State) : Host.Outcome State Fault Refusal := baseEvent .sqrd (fun s k r => s.squareKind k r State.serveRead) s

/-- The version that an SQWR stores: the stored one plus 1, or 1 where the stored one is poisoned (03 R83). -/
def State.nextVersion (s : State) (r : MemReq) : State × BitVec 16 :=
  let s1 := (s.meetEccs r.source false [r.pa / 32]).2
  let old := if s1.granuleBad (r.pa / 32) then 0 else ofLe (s1.plainBytes r.key (r.pa + 4) 2)
  (s1, BitVec.ofNat 16 (old + 1))

/-- `SQWR` (03 R82, R83). -/
def execSqwr (s : State) : Host.Outcome State Fault Refusal :=
  baseEvent .sqwr (fun s k r => s.squareKind k r fun s k r =>
    match s.askCheck r.asker r.pa with
    | .ok =>
      let (s1, v) := s.nextVersion r
      let data := r.data.take 4 ++ leBytes 2 v.toNat ++ r.data.drop 6
      s1.serveWrite k { r with data := data, version := v }
    | _ => s.serveWrite k r) s

/-- `PDELTA` (03 R68): the parity die takes the delta, after the owner check: a refused one changes nothing and completes with OWNERR
(R65), and so does its write (DEDUCED, log 57). -/
def execPdelta (s : State) : Host.Outcome State Fault Refusal :=
  event (match s.reqs[s.input.k]? with
  | none => s
  | some r =>
    if r.kind = .pdelta ∧ r.phase = .toBase then
      let ok := s.ownerOk r.asker r.pa
      let s1 := if ok then s.applyDelta r.source r.pa (r.data.length / 32) r.data else s.memEvent 6 r.pa r.source false
      s1.modReq s.input.k fun x => { x with phase := .fromBase, status := if ok then .ok else .ownErr }
    else s)

/-- `PARITY_ACK` (03 R68): the acknowledgement of delta `k` releases the write it belongs to; the write of a refused delta answers OWNERR
too (R65; that the write's reply tells of it is the model's choice, log 57). -/
def execParityAck (s : State) : Host.Outcome State Fault Refusal :=
  event (match s.reqs[s.input.k]? with
  | none => s
  | some r =>
    match r.kind, r.phase, r.handle with
    | .pdelta, .fromBase, .delta n =>
      { s with reqs := (dropAt s.input.k s.reqs).map fun q =>
          if q.serial = n ∧ q.phase = .parity then
            { q with phase := .fromBase, status := if r.status = .ownErr then .ownErr else q.status }
          else q }
    | _, _, _ => s)

/-- A home slice checks the sheaf of an SQRD reply that leaves it (10 R225, R226): a mismatch sets BAD and is charged to it. -/
def State.checkSquareReply (s : State) (r : MemReq) : State × MemReq :=
  let fmt := hFormat (recHeader r.data) % 16
  let tag := recTag r.data
  if tag = 0 ∨ tagBad tag ∨ !(fmt = 13 ∨ fmt = 14) ∨ recordBytes fmt ≠ r.len ∨ recResidue r.data = tagResidue tag then (s, r)
  else
    (s.chargeHop r.paddock 4 0 (s.sliceHop r.pa) r.data (recResidue r.data) r.pa, { r with data := recSetTag r.data (tagSetBad tag) })

/-- `BASE_DIE_REPLY` (05 R109, R110): the reply of request `k` passes its slice, which fills or updates its lines. -/
def execBaseDieReply (s : State) : Host.Outcome State Fault Refusal :=
  event (match s.reqs[s.input.k]? with
  | none => s
  | some r =>
    if !(s.replyMay s.input.k r) || r.kind == .pdelta then s
    else
      let (s1, r1) := if r.kind = .sqrd ∧ r.status.good then s.checkSquareReply r else (s, r)
      let s2 := match r.kind with
        | .rd | .walk => if r.status.good then s1.fillWhole r.source r.key r.pa else s1.fillLine r.pa r.key false []
        | .sqrd => s1
        | _ => if r.status.good then s1.updateLines r.pa r.data r.enabled else s1
      s2.leaveSlice s.input.k r1)

/-- `SCRUB` (03 R73): a base die scrubs data granule `k`, behind the requests to it, or parity granule `k` where `j` is 1. -/
def execScrub (s : State) : Host.Outcome State Fault Refusal :=
  event (if s.input.j = 1 then
      (if s.reqs.any fun r => r.taken && (granulesOf r.pa r.len).any fun g => parityOf g == s.input.k then s
       else s.meetParity 0 true s.input.k)
    else if s.reqs.any fun r => r.taken && (granulesOf r.pa r.len).contains s.input.k then s
    else (s.meetEcc 0 true s.input.k).2)

/-- `CHANNEL_STATE_CHANGE` (03 R69, R70): the stack `k` fails at channel index `j`. The first failed stack makes the channel
DEGRADED, a second makes both LOST. -/
def execChannelStateChange (s : State) : Host.Outcome State Fault Refusal :=
  event (if 16 ≤ s.input.k ∨ 32 ≤ s.input.j then s else s.failChannel s.input.k s.input.j)

/-- The 64 bytes of a memory-event record (03 R74). -/
def MemEvent.bytes (e : MemEvent) (n : Nat) : List Byte :=
  recordBytesOf [(0, 1, e.kind.toNat), (1, 1, e.stack), (2, 1, e.ch), (3, 1, min 255 n), (4, 4, e.stripe),
    (8, 2, e.offset / 32), (10, 6, e.source % 2 ^ 22 + (if e.scrub then 2 ^ 22 else 0)), (16, 8, e.time)]

/-- When a channel's last record of correctable events went out. -/
def State.corrAt (s : State) (e : MemEvent) : Option Nat :=
  (s.corrSent.find? fun x => x.1 == e.stack && x.2.1 == e.ch).map fun x => x.2.2

/-- `MEMORY_EVENT_FORWARD` (03 R74): event `k` goes to the fault queue of the paddock that owns its channel. Correctable events of one
channel are folded into one record, at most one in a second. -/
def execMemoryEventForward (s : State) : Host.Outcome State Fault Refusal :=
  event (match s.memEvents[s.input.k]? with
  | none => s
  | some e =>
    let same := fun (x : MemEvent) => x.kind == 1 && x.stack == e.stack && x.ch == e.ch
    let soon := decide (e.kind = 1) && (match s.corrAt e with
      | some t => decide (s.tb.toNat < t + 10 ^ 9)
      | none => false)
    if soon then s
    else
      let rest := dropAt s.input.k s.memEvents
      let folded := if e.kind = 1 then (rest.filter same).length else 0
      let s1 : State := if e.kind = 1 then
          { s with memEvents := rest.filter fun x => !(same x),
                   corrSent := upsert (fun x => x.1 == e.stack && x.2.1 == e.ch) (fun _ => (e.stack, e.ch, s.tb.toNat)) s.corrSent }
        else { s with memEvents := rest }
      match s.chanOwner.find? fun p => p.1 == e.ch with
      | none => s1
      | some p => s1.post p.2 .fault (e.bytes (e.count + folded)) none)

end Sys2Proof.Machine
end

