-- ==== Sys2Proof/Machine/Monitor.lean ====
section
/-! DEFINITION. Sys2Proof/Machine/Monitor.lean: the monitor calls: contexts, regions, keys, routes, virtqueues, export and import,
evidence; and the remap of a tile (10 R229, 15 R320, R339, 16 R356-R363, 17 R372, R376, R380, R386-R390). A call runs in one step
(log 11). -/
namespace Sys2Proof.Machine

/-! ### A call (16 R366, 17 R376) -/

/-- What a call comes to. -/
inductive MonRes where
  /-- It returns with a status in `s5`. -/
  | done (status : Nat) (s : State)
  /-- It has to wait: the word is executed again. -/
  | wait
  /-- An access of the call waits on a page or on a walk. -/
  | miss (m : Miss)

/-- The IO die whose monitor takes a tile's calls: each serves the compute dies on its side (log 43). -/
def ioDieOf (l : Nat) : Nat := dieOf l / 4

/-- A strand whose call waits for its grant. -/
def Strand.calls (x : Strand) : Bool := x.wait == some .monitor && x.sample.isNone

/-- A call of a paddock waits at an IO die. -/
def State.callWaits (s : State) (d p : Nat) : Bool :=
  ((s.tile.ltn, s.tile) :: s.others).any fun t =>
    ioDieOf t.1 == d && t.2.paddock.toNat == p && (t.2.main.calls || t.2.handler.calls)

/-- The caller's call is granted: one that has been granted goes on, another one takes the next grant of its IO die's arbiter if that is
its paddock's (17 R375). -/
def State.callTurn (s : State) : Option State :=
  if s.st.sample.isSome then some s
  else
    let d := ioDieOf s.tile.ltn
    let p := s.tile.paddock.toNat
    match ((s.callArbs[d]?).getD Arbiter.reset).grants s.weight (fun q => q == p || s.callWaits d q) p with
    | some b => some { s with callArbs := s.callArbs.setIfInBounds d b }
    | none => none

/-- `trap n` with the number of a call: TRAP at L0, the call at L1, ILL at L2 (16 R365). A call waits in its IO die's queue until it is
granted, and then as long as it has to; neither is counted by the watchdog (16 R360). -/
def monitorCall (i : Instr) (n : Nat) (f : State → MonRes) (s : State) : Host.Outcome State Fault Refusal :=
  run i s fun s =>
    if s.st.lvl = 0 then .error (.trap { cause := .trap, info := BitVec.ofNat 32 n } s)
    else if s.st.lvl = 1 then
      match s.callTurn with
      | none => .error (.wait .monitor s)
      | some s =>
        let held := fun (s : State) => s.onSt fun x => { x with sample := some 1 }
        -- a page that cannot be translated ends the call with status 1
        match if s.st.sample = some 2 then .done 1 s.enterMonitor else f s.enterMonitor with
        | .done v t => .error (.ended (t.setReg 5 (BitVec.ofNat 64 v)).exitMonitor)
        | .wait => .error (.wait .monitor (held s))
        | .miss (.page va kind lvl p e) => .error (.wait .page ((held s).missed s.tile.ltn (.call s.cur) s.xc (.page va kind lvl p e)))
        | .miss (.walk va kind) => .error (.wait .monitor ((held s).missed s.tile.ltn (.call s.cur) s.xc (.walk va kind)))
    else s.trap .ill

/-- Number of a register argument. -/
def State.arg (s : State) (r : SReg) : Nat := (s.reg r).toNat

/-- The paddock of the caller. -/
def State.caller (s : State) : BitVec 5 := s.tile.paddock

/-- A logical tile of the caller's paddock. -/
def State.callTile (s : State) (l : Nat) : Bool := s.inPaddock s.caller l

/-- A call about a context: tile in `s6`, context in `s7` (16 R358). The request wakes the tile (16 R367). -/
def State.ctxCall (s : State) (f : State → Nat → BitVec 2 → MonRes) : MonRes :=
  let l := s.arg 6
  if !(s.callTile l) || decide (3 < s.arg 7) then .done 1 s
  else
    let c : BitVec 2 := BitVec.ofNat 2 (s.arg 7)
    if ((s.getTile l).ctxs[c.toNat]'(c.isLt)).state = .unbound then .done 2 s
    else f (s.modTile l Tile.wake) l c

/-- A context by tile and number. -/
def State.ctxOf (s : State) (l : Nat) (c : BitVec 2) : Ctx := (s.getTile l).ctxs[c.toNat]'(c.isLt)

/-! ### Parking and killing (16 R358) -/

/-- A context parks at its next boundary; an IDLE one at once. -/
def State.park (s : State) (l : Nat) (c : BitVec 2) : State :=
  match (s.ctxOf l c).state with
  | .idle => (s.modTile l fun t => t.modCtx c fun x => { x with state := .parked, fallowOut := none }).switchOut l c
  | .running => s.modTile l fun t => t.modCtx c fun x => { x with parkPending := true }
  | .final => s.modTile l fun t => t.modCtx c fun x => { x with parkPending := true }
  | .binding => s.modTile l fun t => t.modCtx c fun x => { x with parkPending := true }
  | .parked => s
  | .unbound => s

/-- `CTX_PARK` (16 R358). -/
def execCtxPark (s : State) : Host.Outcome State Fault Refusal :=
  monitorCall .ctxPark 0x010 (fun s => s.ctxCall fun s l c => .done 0 (s.park l c)) s

/-- The context's activation is the one that runs. -/
def Tile.runsCtx (t : Tile) (c : BitVec 2) : Bool := t.act.isSome && t.main.ctx == c

/-- A context is unbound at its next boundary; an activation that a page wait holds ends with KILLED. -/
def State.kill (s : State) (l : Nat) (c : BitVec 2) : State :=
  let t := s.getTile l
  if t.runsCtx c then
    let s1 := s.modTile l fun t => t.modCtx c fun x => { x with killPending := true }
    if t.main.wait = some .page then s1.mainTrap l (raise .killed) t.main.unit t.main.pc else s1
  else s.unbind l c

/-- `CTX_KILL` (16 R358). -/
def execCtxKill (s : State) : Host.Outcome State Fault Refusal :=
  monitorCall .ctxKill 0x012 (fun s => s.ctxCall fun s l c => .done 0 (s.kill l c)) s

/-! ### Rebinding and resuming (15 R318, R320, R339) -/

/-- Bytes [95:0] of a control block, from the cached copy (15 R318). -/
def State.qcbBytes (s : State) (q : Qcb) : List Byte :=
  [BitVec.ofNat 8 q.fmt.toNat, BitVec.ofNat 8 q.logCap, BitVec.ofNat 8 q.isize, BitVec.ofNat 8 q.qprio,
    BitVec.ofNat 8 q.paddock.toNat, if q.gring then 1 else 0, BitVec.ofNat 8 q.members.length, BitVec.ofNat 8 q.agent] ++
  leBytes 8 q.ringAddr.toNat ++ leBytes 2 q.window ++ leBytes 1 q.nprod ++ leBytes 13 0 ++
  (takePad 16 0 (q.members.map fun m => s.gid m.1 + m.2 * 2 ^ 22)).flatMap (leBytes 4)

/-- The cached privileged fields against memory: a difference freezes the queue (15 R320). Answers whether they agree. -/
def State.compareQcb (s : State) (q : Queue) (tile : Nat) : Bool × State :=
  let a := s.askerOf tile 31 true q.key
  let (st0, b0, s1) := s.sliceRead a q.pa 64
  let (st1, b1, s2) := s1.sliceRead a (q.pa + 64) 32
  if st0.good && st1.good && b0 ++ b1 == s.qcbBytes q.qcb then (true, s2) else (false, s2.freeze q tile)

/-- The hardware writes the state fields of a control block (15 R318). -/
def State.writeState (s : State) (qcb : Nat) (qstate : Nat) : State :=
  match s.queueAt qcb with
  | some q => s.writeQueueState q qstate
  | none => s

/-- A line of a control block has a request outstanding. -/
def State.qcbBusy (s : State) (qcb : Nat) : Bool := s.lineBusy qcb || s.lineBusy (qcb + 64) || s.reqs.any fun r => r.phase == .toSlice && r.pa == qcb + 96

/-- Items at the heads of a tile's rings may have become deliverable (16 R367). -/
def State.wakeMembers (s : State) (q : Queue) : State :=
  q.qcb.members.foldl (fun s m => if (s.deliverable (s.epOf m.1 m.2)).isSome then s.modTile m.1 Tile.wake else s) s

/-- A queue is rebound: BINDGEN, and FROZEN is cleared where memory agrees again, so that its items can be popped (15 R320). -/
def State.rebind (s : State) (tile qcb : Nat) : State :=
  match s.queueAt qcb with
  | none => s
  | some q =>
    let (same, s1) := s.compareQcb q tile
    let s2 := s1.modQueue qcb fun q => { q with bindGen := q.bindGen + 1, frozen := q.frozen && !same }
    if same then (s2.writeState qcb 1).wakeMembers q else s2

/-- Control blocks that the endpoints of a context use, each once. -/
def Tile.queuesOf (t : Tile) (c : BitVec 2) : List Nat :=
  ((t.eps.toList.filter fun e => e.role != .unbound && e.ctx == c).map Endpoint.qcb).foldl (fun l q => insertNat q l) []

/-- A PARKED context becomes IDLE; its outputs open; a rebind sets CROUND, OROUND and the carry set to 0 (15 R339). -/
def State.resume (s : State) (l : Nat) (c : BitVec 2) (rebind : Bool) : State :=
  let s1 := s.modTile l fun t =>
    let t := t.modCtx c fun x =>
      { x with state := .idle, parkPending := false, cround := if rebind then 0 else x.cround,
               carry := if rebind then Vector.replicate 8 0 else x.carry }
    { t with eps := t.eps.map fun e => if e.role == .output && e.ctx == c then
        { e with closed := false, oround := if rebind then 0 else e.oround } else e }
  if rebind then ((s1.getTile l).queuesOf c).foldl (fun s q => s.rebind l q) s1 else s1

/-- A record that is not placed yet holds the context PARKED (16 R355). -/
def State.heldByRecord (s : State) (l : Nat) (c : BitVec 2) : Bool := s.records.any fun r => r.holds == some (l, c)

/-- `CTX_RESUME` (15 R339, 16 R358). -/
def execCtxResume (s : State) : Host.Outcome State Fault Refusal :=
  monitorCall .ctxResume 0x011 (fun s => s.ctxCall fun s l c =>
    if (s.ctxOf l c).state ≠ .parked then .done 2 s
    else if s.heldByRecord l c || ((s.reg 8).getLsbD 0 && ((s.getTile l).queuesOf c).any s.qcbBusy) then .wait
    else .done 0 (s.resume l c ((s.reg 8).getLsbD 0))) s

/-! ### Quarantine (15 R324, 16 R358) -/

/-- The items of the last activation that a trap ended, still at the heads of their rings, with their endpoints. -/
def Tile.lastItems (t : Tile) (c : BitVec 2) : List (Nat × RingItem) :=
  (t.ctxs[c.toNat]'(c.isLt)).lastHeld.flatMap fun p =>
    (((t.eps[p.1]?).getD Endpoint.reset).ring.take p.2).map fun i => (p.1, i)

/-- The payload of an item in a ring: in scratchpad, or in global memory under the member's translation. -/
def State.itemPayload (s : State) (l ep : Nat) (i : RingItem) : Io (List Byte) × State :=
  let e := s.epOf l ep
  match s.queueAt e.qcb with
  | none => (.ok [], s)
  | some q =>
    let a := e.ringAddr + i.slot * q.qcb.bytes
    if i.kind ≠ 0 then (.ok [], s)
    else if q.qcb.gring then
      s.gReads (s.slotAgent l e.ctx) (lineFuel q.qcb.bytes) (BitVec.ofNat 64 a) q.qcb.bytes
    else (.ok ((s.getTile l).readSpad a q.qcb.bytes), s)

/-- One item moves into the quarantine queue, with its kind and its round; a slot longer than the item ends in free values. -/
def State.pushItem (s : State) (qcb : Nat) (i : RingItem) (payload : List Byte) : State :=
  match s.queueAt qcb with
  | none => s
  | some q =>
    let pad := if i.kind = 0 then (List.range (q.qcb.bytes - payload.length)).map (Config.freeByte s.free) else []
    q.qcb.members.foldl (fun (s : State) m =>
      s.agentItem q (ItemFlight.fresh qcb m .quarantine i.kind i.round i.nbt q.nextId (payload ++ pad))) (s.countRelease qcb).takeFree

/-- Items leave the heads of their rings, which consumes them. -/
def State.takeItems (s : State) (l : Nat) (items : List (Nat × RingItem)) : State :=
  items.foldl (fun s p =>
    (s.consumed (s.epOf l p.1).qcb p.2.id).modTile l fun t => t.modEp p.1 fun e => { e with ring := e.ring.drop 1, head := e.head + 1 }) s

/-- Read the payloads of items, in order. One that cannot be read is empty, and moves with free values in its place. -/
def State.payloads (s : State) (l : Nat) : List (Nat × RingItem) → Io (List (RingItem × List Byte)) × State
  | [] => (.ok [], s)
  | (ep, i) :: rest =>
    match s.itemPayload l ep i with
    | (.ok bs, s1) => more i bs (s1.payloads l rest)
    | (.fail _ _, s1) => more i [] (s1.payloads l rest)
    | (.miss m, s1) => (.miss m, s1)
    | (.busy, s1) => (.busy, s1)
where
  /-- An item before the others. -/
  more (i : RingItem) (bs : List Byte) : Io (List (RingItem × List Byte)) × State → Io (List (RingItem × List Byte)) × State
    | (.ok r, s2) => (.ok ((i, bs) :: r), s2)
    | x => x

/-- `QUARANTINE` (15 R324, 16 R358). -/
def execQuarantine (s : State) : Host.Outcome State Fault Refusal :=
  monitorCall .quarantine 0x013 (fun s => s.ctxCall fun s l c =>
    let q := s.queueAt (s.arg 8)
    if (q.map fun q => q.qcb.paddock != s.caller).getD false then .done 1 s
    else if (s.ctxOf l c).state ≠ .parked then .done 2 s
    else
      let items := (s.getTile l).lastItems c
      match q with
      | none => .done 3 s
      | some q =>
        let fits := fun (p : Nat × RingItem) =>
          decide (((s.queueAt (s.epOf l p.1).qcb).map fun x => x.qcb.isize).getD 0 ≤ q.qcb.isize)
        if !(items.all fits) then .done 3 s
        else if !(s.roomForAll q items.length) then .done 4 s
        else
          match s.payloads l items with
          | (.ok ps, s1) =>
            .done 0 ((ps.foldl (fun s p => s.pushItem q.pa p.1 p.2) (s1.takeItems l items)).modTile l fun t =>
              t.modCtx c fun x => { x with lastHeld := [] })
          | (.miss m, _) => .miss m
          | _ => .wait) s

/-! ### Regions (16 R361-R363) -/

/-- A descriptor that REGION_SET refuses. -/
def regionInvalid (d : DW) : Bool :=
  decide (bitsOf d.toNat 26 14 < bitsOf d.toNat 6 14) || bitsOf d.toNat 3 3 != 0 || bitsOf d.toNat 20 6 != 0 || bitsOf d.toNat 40 24 != 0

/-- `REGION_SET` (16 R358, R363). -/
def execRegionSet (s : State) : Host.Outcome State Fault Refusal :=
  monitorCall .regionSet 0x015 (fun s =>
    let l := s.arg 6
    if !(s.callTile l) then .done 1 s
    else
      let i := s.arg 7 % 16
      if regionInvalid (s.reg 8) || ((s.getTile l).images.any fun m => m.region == some i) then .done 3 s
      else .done 0 (s.modTile l fun t => { t.wake with regions0 := t.regions0.setIfInBounds i (s.reg 8) })) s

/-! ### The configuration record (17 R372, R376) -/

/-- Fields of a width each, packed from bit 0 upward. -/
def packFields : List (Nat × Nat) → Nat
  | [] => 0
  | (w, v) :: r => v % 2 ^ w + 2 ^ w * packFields r

/-- A configuration record as 64 bytes, fields in the order of 17 R372. -/
def cfgBytes (c : PaddockCfg) : List Byte :=
  leBytes 64 (packFields [(5, c.pnum.toNat), (32, c.rows.toNat), (32, c.chans.toNat), (64, c.vfs.toNat), (10, c.svc0.toNat), (10, c.svc1.toNat),
    (13, c.kbase.toNat), (13, c.kcount.toNat), (12, c.barBase.toNat), (13, c.barCount.toNat), (8, c.t2Base.toNat), (9, c.t2Count.toNat),
    (16, c.links.toNat), (9, c.featMask.toNat), (7, c.weight.toNat), (64, c.faultQ.toNat), (64, c.pagerQ.toNat), (64, c.gleanQ.toNat)])

/-- `INFO` (17 R376). -/
def execInfo (s : State) : Host.Outcome State Fault Refusal :=
  monitorCall .info 0x001 (fun s =>
    match s.pcfg s.caller with
    | none => .done 3 s
    | some c =>
      if s.arg 6 % 64 = 0 ∧ s.arg 6 + 64 ≤ Config.spadSize then .done 0 (s.storeLocal (s.arg 6) (cfgBytes c)) else .done 3 s) s

/-! ### Keys (03 R75-R77, 05 R111, 17 R376) -/

/-- Every line of a key leaves every slice. -/
def State.purgeKey (s : State) (k : BitVec 13) : State := { s with lines := s.lines.filter fun l => l.key != k }

/-- A request under a key is pending. -/
def State.keyPending (s : State) (k : BitVec 13) : Bool :=
  (s.reqs.any fun r => r.key == k && r.kind != .pdelta) || s.atomics.any fun a => a.key == k && a.reply.isNone

/-- Give a slot its contents, in every base die. -/
def State.setKey (s : State) (k : BitVec 13) (m : Option KeyMaterial) : State :=
  { s with keySlots := upsert (fun x => x.id == k) (fun _ => { id := k, contents := m }) s.keySlots }

/-- `KEY_LOAD` (17 R376). -/
def execKeyLoad (s : State) : Host.Outcome State Fault Refusal :=
  monitorCall .keyLoad 0x020 (fun s =>
    let k : BitVec 13 := BitVec.ofNat 13 (s.arg 6)
    if 2 ^ 13 ≤ s.arg 6 ∨ !(s.keyOk s.caller k) ∨ Config.spadSize < s.arg 7 + 72 then .done 1 s
    else if wordsBad s.tile.spadBad (s.arg 7) 72 then .done 4 s
    else
      match aesUnwrap (Config.wrapKey s.roots s.caller) (s.tile.readSpad (s.arg 7) 72) with
      | none => .done 4 s
      | some b => if s.keyPending k then .wait else .done 0 ((s.purgeKey k).setKey k (some (.loaded b)))) s

/-- `KEY_CLEAR` (17 R376). -/
def execKeyClear (s : State) : Host.Outcome State Fault Refusal :=
  monitorCall .keyClear 0x021 (fun s =>
    let k : BitVec 13 := BitVec.ofNat 13 (s.arg 6)
    if 2 ^ 13 ≤ s.arg 6 ∨ !(s.keyOk s.caller k) then .done 1 s
    else if s.keyPending k then .wait
    else .done 0 ((s.purgeKey k).setKey k none)) s

/-! ### Routes (10 R229, 17 R376) -/

/-- The entry of a route table from its 64-bit form; none where V is 0. -/
def routeOf (switch idx : Nat) (v : Nat) : Option RouteEntry :=
  if bitOf v 34 then
    some { switch := switch, idx := idx, route := BitVec.ofNat 16 (bitsOf v 0 16), paddock := BitVec.ofNat 5 (bitsOf v 16 5),
           inMask := BitVec.ofNat 6 (bitsOf v 21 6), outMask := BitVec.ofNat 6 (bitsOf v 27 6), red := bitOf v 33 }
  else none

/-- An entry that breaks the layout of 10 R229; its bits [63:35] are RZ, so a write of them is ignored. -/
def routeMalformed (v : Nat) : Bool :=
  bitOf v 34 && (bitsOf v 0 16 == 0 || (bitOf v 33 && popCount 6 (bitsOf v 27 6) != 1))

/-- Another valid entry of the switch has the same route and a common input port. -/
def State.routeConflict (s : State) (e : RouteEntry) : Bool :=
  s.routes.any fun r => r.switch == e.switch && r.idx != e.idx && r.route == e.route && r.inMask &&& e.inMask != 0

/-- The table without the entry at a place. -/
def State.dropRoute (s : State) (switch idx : Nat) : State :=
  { s with routes := s.routes.filter fun r => !(r.switch == switch && r.idx == idx) }

/-- `ROUTE_SET` (10 R229, 17 R376). -/
def execRouteSet (s : State) : Host.Outcome State Fault Refusal :=
  monitorCall .routeSet 0x030 (fun s =>
    if !(s.callTile (s.arg 6)) || bitsOf (s.arg 8) 16 5 != s.caller.toNat then .done 1 s
    else if decide (255 < s.arg 7) || routeMalformed (s.arg 8) then .done 3 s
    else
      match routeOf (s.arg 6) (s.arg 7) (s.arg 8) with
      | none => .done 0 (s.dropRoute (s.arg 6) (s.arg 7))
      | some e =>
        if s.routeConflict e then .done 3 s
        else
          let s1 := s.dropRoute (s.arg 6) (s.arg 7)
          .done 0 { s1 with routes := s1.routes ++ [e] }) s

/-- A packet that an entry has matched has not been forwarded: it is in an open reduction slot, or waits at its input for one. -/
def State.routeHolds (s : State) (e : RouteEntry) : Bool :=
  (s.slots.any fun x => x.switch == e.switch && x.route == e.route) ||
  (e.red && s.packets.any fun k => k.switch == e.switch && k.route == e.route && k.paddock == e.paddock && e.inMask.getLsbD k.port)

/-- `ROUTE_CLEAR` (17 R376). -/
def execRouteClear (s : State) : Host.Outcome State Fault Refusal :=
  monitorCall .routeClear 0x031 (fun s =>
    if !(s.callTile (s.arg 6)) then .done 1 s
    else
      match s.routes.find? fun r => r.switch == s.arg 6 && r.idx == s.arg 7 with
      | none => .done 0 s
      | some e =>
        if e.paddock ≠ s.caller then .done 1 s
        else if s.routeHolds e then .wait
        else .done 0 (s.dropRoute (s.arg 6) (s.arg 7))) s

/-! ### Virtqueues (17 R380) -/

/-- A VF of a paddock. -/
def State.ownsVf (s : State) (p : BitVec 5) (vf : Nat) : Bool :=
  match s.pcfg p with
  | some c => decide (vf < 64) && c.vfs.getLsbD vf
  | none => false

/-- A device as a reset leaves it, in its epoch: nothing negotiated, no virtqueue set up. -/
def freshDevice (vf dev : Nat) (epoch : BitVec 32) : Device :=
  { vf := vf, dev := dev, status := 0, features := 0, driverFeatures := 0, featSel := 0, driverSel := 0, cfgVector := 0xFFFF, queueSel := 0,
    confs := [], epoch := epoch, resetting := false }

/-- A device of a VF; one that no driver has touched is as reset leaves it. -/
def State.device (s : State) (vf dev : Nat) : Device :=
  (s.devices.find? fun d => d.vf == vf && d.dev == dev).getD (freshDevice vf dev 0)

def State.modDevice (s : State) (vf dev : Nat) (f : Device → Device) : State :=
  { s with devices := upsert (fun d => d.vf == vf && d.dev == dev) (fun _ => f (s.device vf dev)) s.devices }

/-- A bound queue of a paddock with items of 64 bytes. -/
def State.hostQueue (s : State) (p : BitVec 5) (qcb : Nat) : Bool :=
  (s.queueAt qcb).any fun q => q.qcb.paddock == p && q.qcb.isize == 4

/-- Entries of a virtqueue at most, and MSI-X vectors of a device; 0xFFFF stands for no vector (17 R378). -/
def vqEntries : Nat := 1024
def msixVectors : Nat := 16
def vqVector (v : BitVec 16) : BitVec 16 := if v.toNat < msixVectors then v else 0xFFFF

/-- A virtqueue that the driver has not set up: the largest size, disabled, no vector. -/
def VqConf.reset : VqConf := { size := BitVec.ofNat 16 vqEntries, enabled := false, vector := 0xFFFF, desc := 0, driver := 0, device := 0 }

/-- What the driver has set up for a virtqueue of a device. -/
def Device.conf (d : Device) (vq : Nat) : VqConf := ((d.confs.find? fun c => c.1 == vq).map (·.2)).getD VqConf.reset

def Device.modConf (d : Device) (vq : Nat) (f : VqConf → VqConf) : Device :=
  { d with confs := upsert (fun c => c.1 == vq) (fun _ => (vq, f (d.conf vq))) d.confs }

/-- The driver and the device have agreed on RING_PACKED (17 R378). -/
def Device.packed (d : Device) : Bool := d.features.getLsbD 34

/-- A virtqueue without notifies and chains, at the start of its rings. -/
def Virtqueue.clear (v : Virtqueue) : Virtqueue :=
  { v with pending := [], moving := none, back := 0, notified := false, outstanding := [], lastAvail := 0, used := 0, availWrap := true, usedWrap := true }

/-- The place in a ring behind a chain, and the wrap counter there: a packed ring counts descriptors up to its size, a split one chains,
modulo 2^16 (virtio 1.3, log 33). -/
def ringStep (packed : Bool) (size descs pos : Nat) (wrap : Bool) : Nat × Bool :=
  if packed then (if size ≤ pos + descs then (pos + descs - size, !wrap) else (pos + descs, wrap)) else ((pos + 1) % 2 ^ 16, wrap)

/-- Virtqueues of a device: two for each queue pair and one for control; two for each port and two for control; three (17 R378; their
numbers are those of virtio 1.3, log 33). -/
def vqCount (dev : Nat) : Nat :=
  match dev with
  | 0 => 17
  | 1 => 10
  | _ => 3

/-- `VQ_BIND` (17 R376, R380). -/
def execVqBind (s : State) : Host.Outcome State Fault Refusal :=
  monitorCall .vqBind 0x040 (fun s =>
    let id : VqId := { vf := s.arg 6, dev := s.arg 7 % 4, vq := bitsOf (s.arg 7) 2 6 }
    if !(s.ownsVf s.caller id.vf) || decide (2 < id.dev) || decide (255 < s.arg 7) || decide (vqCount id.dev ≤ id.vq) then .done 1 s
    else if !(s.hostQueue s.caller (s.arg 8) && s.hostQueue s.caller (s.arg 9)) then .done 1 s
    else if (s.device id.vf id.dev).status.getLsbD 2 then .done 2 s
    else
      let v : Virtqueue :=
        { id := id, itemQ := s.arg 8, compQ := s.arg 9, pool := s.reg 10, poolBytes := s.arg 11, tile := s.tile.ltn,
          xc := { s.xc with lvl := (s.st.callerLvl).getD 1 }, pending := [], moving := none, back := 0, notified := false, outstanding := [],
          lastAvail := 0, used := 0, availWrap := true, usedWrap := true }
      .done 0 { s with virtqueues := upsert (fun x => x.id == id) (fun _ => v) s.virtqueues }) s

/-! ### Export and import (17 R386, R387) -/

/-- A context that its queue's export or import may touch. -/
def State.quiet (s : State) (m : Nat × Nat) : Bool :=
  let e := s.epOf m.1 m.2
  e.role == .unbound || (match (s.ctxOf m.1 e.ctx).state with
    | .parked => true
    | .unbound => true
    | _ => false)

/-- The lowest producer endpoint of a queue on a tile. -/
def Queue.producerOn (q : Queue) (l : Nat) : Option Nat :=
  (q.producers.filter fun p => p.1 == l).foldl (fun o p => some (min p.2 (o.getD p.2))) none

/-- The 32-byte record of a member. -/
def State.memberRecord (s : State) (q : Queue) (i : Nat) (m : Nat × Nat) : List Byte :=
  let e := s.epOf m.1 m.2
  let cx := s.ctxOf m.1 e.ctx
  let p := (q.producerOn m.1).map (s.epOf m.1)
  let fallow := (e.ring.head?.map fun i => i.kind == 2).getD false
  leBytes 8 q.pa ++ leBytes 1 i ++ leBytes 1 m.2 ++ leBytes 2 ((if q.frozen then 1 else 0) + (if fallow then 2 else 0)) ++ leBytes 4 e.head ++
    leBytes 4 e.tail ++ leBytes 2 cx.cround.toNat ++ leBytes 2 ((p.map Endpoint.credits).getD 0) ++
    leBytes 2 ((p.map fun e => e.oround.toNat).getD 0) ++ leBytes 6 0

/-- The export of a queue: the comparison, the state fields and ETIME, then the records. -/
def State.exportQueue (s : State) (q : Queue) : List Byte × State :=
  let (_, s1) := s.compareQcb q s.tile.ltn
  let s2 := s1.modQueue q.pa fun x => { x with etime := s.tb }
  let frozen := s2.frozen q.pa
  let s3 := s2.writeState q.pa (if frozen then 2 else 1)
  let q' := (s3.queueAt q.pa).getD q
  (q.qcb.members.zipIdx.flatMap fun m => s3.memberRecord q' m.2 m.1, s3)

/-- The 64 bytes of a virtqueue. -/
def State.vqRecord (s : State) (v : Virtqueue) : List Byte :=
  let d := s.device v.id.vf v.id.dev
  let c := d.conf v.id.vq
  leBytes 1 v.id.vf ++ leBytes 1 v.id.dev ++ leBytes 1 v.id.vq ++ leBytes 1 0 ++ leBytes 2 c.size.toNat ++
    leBytes 2 ((if c.enabled then 1 else 0) + (if d.packed then 2 else 0)) ++ leBytes 2 c.vector.toNat ++
    leBytes 2 ((if v.availWrap then 1 else 0) + (if v.usedWrap then 2 else 0)) ++ leBytes 4 d.epoch.toNat ++ leBytes 8 c.desc.toNat ++
    leBytes 8 c.driver.toNat ++ leBytes 8 c.device.toNat ++ leBytes 8 v.lastAvail ++ leBytes 8 v.used ++ leBytes 8 d.features.toNat

/-- The two bitmaps of a VF: bytes of the DIRTY bitmap, the bitmap, and one bit for each of 3 × 64 virtqueues. -/
def VfBitmaps.bytes (b : VfBitmaps) : List Byte :=
  let n := (b.dirty.foldl max 0) / 8 + 1
  leBytes 8 n ++ leBytes n (b.dirty.foldl (fun a p => a + 2 ^ p) 0) ++ leBytes 24 (b.notify.foldl (fun a p => a + 2 ^ (p.1 * 64 + p.2)) 0)

/-- What an export answers: status, bytes, and the state it leaves. -/
def State.exportBytes (s : State) (p : BitVec 5) (sel : Nat) (arg : Nat) : Nat × List Byte × State :=
  match sel % 4 with
  | 0 =>
    (match s.queueAt arg with
     | none => (1, [], s)
     | some q =>
       if q.qcb.paddock ≠ p then (1, [], s)
       else if !((q.qcb.members ++ q.producers).all s.quiet) then (2, [], s)
       else let (bs, s1) := s.exportQueue q; (0, bs, s1))
  | 1 =>
    if !(s.ownsVf p arg) then (1, [], s)
    else
      let vs := s.virtqueues.filter fun v => v.id.vf == arg
      let eps := vs.flatMap fun v => ((s.queueAt v.itemQ).map fun q => q.qcb.members).getD [] ++ ((s.queueAt v.compQ).map Queue.producers).getD []
      if !(eps.all s.quiet) then (2, [], s) else (0, vs.flatMap s.vqRecord, s)
  | 2 =>
    if !(s.ownsVf p arg) then (1, [], s)
    else
      let b := (s.bitmaps.find? fun b => b.vf == arg).getD { vf := arg, dirty := [], notify := [] }
      (0, b.bytes, { s with bitmaps := upsert (fun b => b.vf == arg) (fun _ => { vf := arg, dirty := [], notify := [] }) s.bitmaps })
  | _ => (1, [], s)

/-- A number in a list of bytes. -/
def leAt (bs : List Byte) (o n : Nat) : Nat := ofLe ((bs.drop o).take n)

/-- A member record that an import takes: it names the member, and its zero fields are zero. -/
def memberRecordOk (q : Queue) (i : Nat) (m : Nat × Nat) (bs : List Byte) : Bool :=
  bs.length == 32 && leAt bs 0 8 == q.pa && leAt bs 8 1 == i && leAt bs 9 1 == m.2 && decide (leAt bs 10 2 ≤ 3) && leAt bs 26 6 == 0 &&
    decide ((leAt bs 16 4 + 2 ^ 32 - leAt bs 12 4) % 2 ^ 32 ≤ q.qcb.cap)

/-- The ring of an imported member: it holds TAIL − HEAD items; those the export record says nothing of are free values. -/
def importRing (q : Queue) (head n : Nat) (fallow : Bool) (old : List RingItem) (free : Nat) : List RingItem :=
  (List.range n).map fun i =>
    match old[i]? with
    | some x => { x with held := false }
    | none =>
      { kind := if fallow && i == 0 then 2 else (Config.freeWord (free + 4 * i)).setWidth 2,
        round := (Config.freeWord (free + 4 * i + 1)).setWidth 16, nbt := Config.freeWord (free + 4 * i + 2),
        id := (Config.freeWord (free + 4 * i + 3)).setWidth 32, slot := (head + i) % q.qcb.cap, held := false, agent := false }

/-- One member record is loaded. -/
def State.importMember (s : State) (q : Queue) (m : Nat × Nat) (bs : List Byte) : State :=
  let head := leAt bs 12 4
  let n := (leAt bs 16 4 + 2 ^ 32 - head) % 2 ^ 32
  let e := s.epOf m.1 m.2
  let ring := importRing q head n (bitOf (leAt bs 10 2) 1) e.ring s.free
  let s1 := s.modTile m.1 fun t =>
    let t := t.modEp m.2 fun e => { e with head := head, tail := leAt bs 16 4, ring := ring }
    let t := t.modCtx e.ctx fun x => { x with cround := BitVec.ofNat 16 (leAt bs 20 2) }
    match q.producerOn m.1 with
    | some p => t.modEp p fun e => { e with credits := leAt bs 22 2, oround := BitVec.ofNat 16 (leAt bs 24 2) }
    | none => t
  { (s1.modQueue q.pa fun x => { x with frozen := bitOf (leAt bs 10 2) 0 }) with free := s.free + 4 * n }

/-- Pieces of a length. -/
def pieces (n : Nat) : Nat → List Byte → List (List Byte)
  | 0, _ => []
  | k + 1, bs => bs.take n :: pieces n k (bs.drop n)

/-- A virtqueue record is loaded. -/
def State.importVq (s : State) (vf : Nat) (bs : List Byte) : State :=
  let id : VqId := { vf := vf, dev := leAt bs 1 1, vq := leAt bs 2 1 }
  let conf : VqConf :=
    { size := BitVec.ofNat 16 (leAt bs 4 2), enabled := bitOf (leAt bs 6 2) 0, vector := BitVec.ofNat 16 (leAt bs 8 2),
      desc := BitVec.ofNat 64 (leAt bs 16 8), driver := BitVec.ofNat 64 (leAt bs 24 8), device := BitVec.ofNat 64 (leAt bs 32 8) }
  let s1 := s.modDevice vf id.dev fun d =>
    { (d.modConf id.vq fun _ => conf) with epoch := BitVec.ofNat 32 (leAt bs 12 4), features := BitVec.ofNat 64 (leAt bs 56 8),
                                           driverFeatures := BitVec.ofNat 64 (leAt bs 56 8) }
  { s1 with virtqueues := s1.virtqueues.map fun v => if v.id == id then
      { v with lastAvail := leAt bs 40 8, used := leAt bs 48 8, availWrap := bitOf (leAt bs 10 2) 0, usedWrap := bitOf (leAt bs 10 2) 1 } else v }

/-- A virtqueue record that an import takes: it names a virtqueue that VQ_BIND has bound, its flags and wrap counters are two bits each,
and it is packed as its features say. -/
def State.vqRecordOk (s : State) (vf : Nat) (bs : List Byte) : Bool :=
  leAt bs 0 1 == vf && leAt bs 3 1 == 0 && decide (leAt bs 4 2 ≤ vqEntries) && decide (leAt bs 6 2 < 4) && decide (leAt bs 10 2 < 4) &&
    bitOf (leAt bs 6 2) 1 == bitOf (leAt bs 56 8) 34 && (decide (leAt bs 8 2 < msixVectors) || leAt bs 8 2 == 0xFFFF) && s.virtqueues.any fun v => v.id == { vf := vf, dev := leAt bs 1 1, vq := leAt bs 2 1 }

/-- How many bytes an import of a selector reads first: all of them, or the size of the DIRTY bitmap. -/
def State.importSize (s : State) (sel arg : Nat) : Nat :=
  match sel % 4 with
  | 0 => ((s.queueAt arg).map fun q => 32 * q.qcb.members.length).getD 0
  | 1 => 64 * (s.virtqueues.filter fun v => v.id.vf == arg).length
  | _ => 8

/-- The driver has written the notify page of a virtqueue: the bitmap of its VF, if one is kept, holds it (17 R387). -/
def State.noteNotify (s : State) (id : VqId) : State :=
  { s with bitmaps := s.bitmaps.map fun b => if b.vf == id.vf && !(b.notify.contains (id.dev, id.vq)) then
      { b with notify := b.notify ++ [(id.dev, id.vq)] } else b }

/-- A notify received through an import: the IO die looks at the ring of the virtqueue (17 R387). -/
def State.importNotify (s : State) (id : VqId) : State :=
  { s.noteNotify id with virtqueues := s.virtqueues.map fun v => if v.id == id then { v with notified := true } else v }

/-- Bitmaps are loaded: their DIRTY pages into the bitmap of the VF, if one is kept, each NOTIFY bit as a notify (17 R387). -/
def State.importBitmaps (s : State) (vf dirty notify : Nat) (pages : Nat) : State :=
  let s1 : State := { s with bitmaps := s.bitmaps.map fun b => if b.vf == vf then
    { b with dirty := ((List.range pages).filter (bitOf dirty)).foldl (fun d i => insertNat i d) b.dirty } else b }
  ((List.range 192).filter (bitOf notify)).foldl (fun s i => s.importNotify { vf := vf, dev := i / 64, vq := i % 64 }) s1

/-- What an import of bytes answers: status, and the state it leaves. -/
def State.importBytes (s : State) (p : BitVec 5) (sel arg : Nat) (bs : List Byte) : Nat × State :=
  match sel % 4 with
  | 0 =>
    (match s.queueAt arg with
     | none => (1, s)
     | some q =>
       if q.qcb.paddock ≠ p then (1, s)
       else if !((q.qcb.members ++ q.producers).all s.quiet) then (2, s)
       else
         let rs := q.qcb.members.zipIdx.zip (pieces 32 q.qcb.members.length bs)
         if rs.all fun r => memberRecordOk q r.1.2 r.1.1 r.2 then (0, (rs.foldl (fun s r => s.importMember q r.1.1 r.2) s).wakeMembers q) else (3, s))
  | 1 =>
    if !(s.ownsVf p arg) then (1, s)
    else
      let vs := s.virtqueues.filter fun v => v.id.vf == arg
      let eps := vs.flatMap fun v => ((s.queueAt v.itemQ).map fun q => q.qcb.members).getD [] ++ ((s.queueAt v.compQ).map Queue.producers).getD []
      if !(eps.all s.quiet) then (2, s)
      else
        let rs := pieces 64 vs.length bs
        if rs.all (s.vqRecordOk arg) then (0, rs.foldl (fun s r => s.importVq arg r) s) else (3, s)
  | 2 =>
    if !(s.ownsVf p arg) then (1, s)
    else
      let n := leAt bs 0 8
      if bs.length ≠ 8 + n + 24 then (3, s) else (0, s.importBitmaps arg (leAt bs 8 n) (leAt bs (8 + n) 24) (8 * n))
  | _ => (1, s)

/-- The agent that a call's global addresses are read and written by: the caller, under its own translation and level. -/
def State.callAgent (s : State) : GAgent :=
  { tile := s.tile.ltn, xc := { s.xc with lvl := (s.st.callerLvl).getD 1 }, paddock := s.caller, wain := false }

/-- The result of an access of a call; an address that cannot be reached is status 1. -/
def Io.call {α : Type} (r : Io α × State) (s : State) (k : α → State → MonRes) : MonRes :=
  match r with
  | (.ok a, s1) => k a s1
  | (.fail _ _, _) => .done 1 s
  | (.miss m, _) => .miss m
  | (.busy, _) => .wait

/-- A call waits for the control block of the queue that it exports. -/
def State.exportBusy (s : State) (sel arg : Nat) : Bool := sel % 4 == 0 && (s.queueAt arg).isSome && s.qcbBusy arg

/-- `EXPORT` (17 R376, R386, R387). -/
def execExportCall (s : State) : Host.Outcome State Fault Refusal :=
  monitorCall .exportCall 0x050 (fun s =>
    if s.exportBusy (s.arg 6) (s.arg 8) then .wait
    else match s.exportBytes s.caller (s.arg 6) (s.arg 8) with
    | (0, bs, s1) => Io.call (s1.gWrites s1.callAgent (lineFuel bs.length) (s.reg 7) bs) s fun _ s2 => .done 0 s2
    | (v, _, _) => .done v s) s

/-- The bytes of an import: those of a fixed size, and for bitmaps the rest after their size. -/
def State.importRead (s : State) (g : GAgent) (sel arg : Nat) (va : DW) : Io (List Byte) × State :=
  let n := s.importSize sel arg
  match s.gReads g (lineFuel n) va n with
  | (.ok bs, s1) =>
    if sel % 4 = 2 then
      let m := leAt bs 0 8 + 24
      if 2 ^ 40 < m then (.ok bs, s1)
      else
        match s1.gReads g (lineFuel m) (va + 8) m with
        | (.ok r, s2) => (.ok (bs ++ r), s2)
        | x => x
    else (.ok bs, s1)
  | x => x

/-- `IMPORT` (17 R376, R386, R387). -/
def execImportCall (s : State) : Host.Outcome State Fault Refusal :=
  monitorCall .importCall 0x051 (fun s =>
    Io.call (s.importRead s.callAgent (s.arg 6) (s.arg 8) (s.reg 7)) s fun bs s1 =>
      match s1.importBytes s.caller (s.arg 6) (s.arg 8) bs with
      | (0, s2) => .done 0 s2
      | (v, _) => .done v s) s

/-! ### Evidence (17 R390) -/

/-- FEAT0 of a paddock after its mask (16 R364). -/
def maskedFeat (c : PaddockCfg) : BitVec 9 := 0x1FF &&& ~~~c.featMask

/-- Bytes of an RSA-3072 and of an SLH-DSA-SHA2-192s signature (17 R388; FIPS 205). -/
def signatureBytes : Nat := 384 + 16224

/-- Evidence: nonce, measurements, record, FEAT0 and TB, and the two signatures over them (in this order: DESIGN CHOICE, log 71). -/
def State.evidence (s : State) (p : BitVec 5) (nonce : List Byte) : List Byte :=
  let c := s.pcfg p
  let body := nonce ++ s.images.flatMap sha384 ++ ((c.map cfgBytes).getD []) ++
    leBytes 8 ((c.map fun c => (maskedFeat c).toNat).getD 0) ++ leBytes 8 s.tb.toNat
  body ++ (List.range signatureBytes).map (Config.identitySign body)

/-- `ATTEST` (17 R376, R390). -/
def execAttest (s : State) : Host.Outcome State Fault Refusal :=
  monitorCall .attest 0x060 (fun s =>
    Io.call (s.gReads s.callAgent (lineFuel 48) (s.reg 6) 48) s fun nonce s1 =>
      let ev := s1.evidence s.caller nonce
      Io.call (s1.gWrites s1.callAgent (lineFuel ev.length) (s.reg 7) ev) s fun _ s2 => .done 0 s2) s

/-! ### Remap (01 R23, 16 R356, R357) -/

/-- The slot of its die that a logical tile has with the factory map, and the one that it has (01 R21, R22). -/
def factorySlot (l : Nat) : Nat := l / 32 % 16 * 8 + l % 32 % 8
def State.slotOf (s : State) (l : Nat) : Nat := ((s.spareMap.find? fun p => p.1 == l).map (·.2)).getD (factorySlot l)

/-- The physical tile id of a logical tile (01 R21). -/
def State.physicalOf (s : State) (l : Nat) : Nat := dieOf l * 136 + s.slotOf l

/-- The spares of a die, slots 128 to 135, that hold no logical tile and have not failed (01 R21, R23). -/
def State.sparesFree (s : State) (die : Nat) : List Nat :=
  ((List.range 8).map (· + 128)).filter fun p =>
    !(s.spareMap.any fun x => dieOf x.1 == die && x.2 == p) && !(s.deadSpares.contains (die, p))

/-- A spare holds a logical tile, in place of any spare that the tile had (01 R23). -/
def State.moveToSpare (s : State) (l slot : Nat) : State :=
  { s with spareMap := s.spareMap.filter (fun p => p.1 != l) ++ [(l, slot)],
           deadSpares := s.deadSpares ++ (s.spareMap.filter fun p => p.1 == l).map fun p => (dieOf l, p.2) }

/-- Step 1: every context of the tile parks; those that are not PARKED already are remembered, beside those that a local
corruption parked. -/
def State.beginRemap (s : State) (l : Nat) : State :=
  let mine := allCtxs.filter fun c => (s.ctxOf l c).state != .unbound && (s.ctxOf l c).state != .parked
  (mine.foldl (fun s c => s.park l c) s).modTile l fun t =>
    { t.wake with remapping := true, remapCtxs := mine ++ t.remapCtxs.filter fun c => !(mine.contains c) }

/-- Steps 1 and 2 are over: nothing of the tile runs or is outstanding. -/
def State.remapReady (s : State) (l : Nat) : Bool :=
  let t := s.getTile l
  t.act.isNone && t.handlerRun.isNone && t.wain.isEmpty && t.thresher.isEmpty &&
  t.tags.toList.all (fun g => g.phase != .busy) && !(s.atomics.any fun a => a.tile == l) &&
  allCtxs.all (fun c => (s.ctxOf l c).state == .unbound || (s.ctxOf l c).state == .parked) &&
  !(t.remapCtxs.any fun c => s.heldByRecord l c)

/-- Steps 3 and 4: what the spare takes over is the tile as it stands, without its translations and its code. It is the lowest spare of
the die that is free, in place of any spare that the tile had (DESIGN CHOICE: the spec names no order among the spares, log 44). -/
def State.endRemap (s : State) (l : Nat) : State :=
  let t := s.getTile l
  let die := dieOf l
  let back := t.remapCtxs.filter fun c => (s.ctxOf l c).state == .parked
  match s.sparesFree die with
  | [] =>
    ({ s with retired := insertNat l s.retired } : State).modTile l (fun t =>
      { t with halted := true, remapAsked := false, remapping := false, remapCtxs := [] }) |>.postFault t.paddock l 24 0 [(44, 8, l)]
  | slot :: others =>
    let s2 := (s.moveToSpare l slot).modTile l fun t =>
      { t with tlb := [], icache := [], codeBad := [], lastIssued := .handler, halted := false, remapAsked := false, remapping := false, remapCtxs := [] }
    let s3 := back.foldl (fun s c => (s.resume l c false).modTile l fun t => t.modCtx c fun x => { x with runs := 0 }) s2
    s3.postFault t.paddock l 25 0 [(2, 1, others.length), (44, 8, l)]

/-- `REMAP` (16 R357): of the tile that has asked for it, first the parking, then, once it is quiet, the move to a spare. -/
def execRemap (s : State) : Host.Outcome State Fault Refusal :=
  event (
    let l := s.tile.ltn
    if !s.tile.remapAsked then s
    else if !s.tile.remapping then s.beginRemap l
    else if s.remapReady l then s.endRemap l
    else s)

end Sys2Proof.Machine
end

