-- ==== Sys2Proof/Machine/HostIo.lean ====
section
/-! DEFINITION. Sys2Proof/Machine/HostIo.lean: virtio devices and virtqueues, their items and completions, resets of functions and
devices, and the retries of agent pushes (15 R323, R324; 17 R377-R380, R384, R385). -/
namespace Sys2Proof.Machine

/-! ### Devices (17 R377, R378) -/

/-- The paddock that owns a VF. -/
def State.vfOwner (s : State) (vf : Nat) : Option PaddockCfg := s.paddocks.find? fun c => decide (vf < 64) && c.vfs.getLsbD vf

/-- The supervisor of a paddock is bound: some context of its supervisor tile is (17 R392). -/
def State.supervised (s : State) (c : PaddockCfg) : Bool :=
  allCtxs.any fun x => (s.ctxOf c.svc0.toNat x).state != .unbound

/-- A VF reads as present (17 R377, R392). -/
def State.vfPresent (s : State) (vf : Nat) : Bool := (s.vfOwner vf).any s.supervised

/-- Feature bits that every device offers: VERSION_1, ACCESS_PLATFORM, RING_PACKED, EVENT_IDX, INDIRECT_DESC, NOTIFICATION_DATA
(17 R378; their places are those of virtio 1.3, log 33). -/
def commonFeatures : Nat := 2 ^ 32 + 2 ^ 33 + 2 ^ 34 + 2 ^ 29 + 2 ^ 28 + 2 ^ 38

/-- Feature bits that a device of a VF offers: 0 net, 1 console, 2 vsock. -/
def offered (dev : Nat) : Nat :=
  commonFeatures + (match dev with
    | 0 => 2 ^ 0 + 2 ^ 1 + 2 ^ 3 + 2 ^ 5 + 2 ^ 15 + 2 ^ 16 + 2 ^ 17 + 2 ^ 22
    | 1 => 2 ^ 0 + 2 ^ 1
    | _ => 2 ^ 1)

/-- Limits of the devices (17 R378): MTU, queue pairs, ports; the guest's CID and the paddock's; the service protocol's port (R379). -/
def netMtu : Nat := 9216
def netPairs : Nat := 8
def consolePorts : Nat := 4
def guestCid (vf : Nat) : Nat := 3 + vf
def paddockCid : Nat := 2
def servicePort : Nat := 5140

/-- The four structures of a device in BAR0 (17 R378). -/
inductive BarStructure where
  | common | notify | isr | device
  deriving DecidableEq, Repr

/-- notify_off_multiplier: the notify register of virtqueue n lies at n × 4,096 of the notify structure (17 R378). -/
def notifyMultiplier : Nat := 4096
def notifyOffset (vq : Nat) : Nat := vq * notifyMultiplier

/-- The device configuration structure of a device of a VF, in the layout of virtio 1.3 (log 33): MAC, STATUS, queue pairs and MTU; size
and ports; guest_cid. -/
def deviceConfig (vf dev : Nat) : List Byte :=
  match dev with
  | 0 => leBytes 6 (Config.deviceMac vf).toNat ++ leBytes 2 1 ++ leBytes 2 netPairs ++ leBytes 2 netMtu
  | 1 => leBytes 4 (Config.consoleSize vf).toNat ++ leBytes 4 consolePorts
  | _ => leBytes 8 (guestCid vf)

/-- One half of a 64-bit set of features, as its window shows it. -/
def featureHalf (bits sel : Nat) : Nat := if sel < 2 then bitsOf bits (32 * sel) 32 else 0

/-- A device's common structure as its driver reads it, in the layout of virtio 1.3 (17 R378, log 33): the features offered and those
the driver has written, the vector of configuration changes, the number of virtqueues, the status and the configuration's generation; then
the selected virtqueue: its size, vector, enable, notify offset and areas; features that are not offered leave the rest 0. -/
def State.commonConfig (s : State) (vf dev : Nat) : List Byte :=
  let d := s.device vf dev
  let n := d.queueSel.toNat
  let c := d.conf n
  let size := if n < vqCount dev then c.size.toNat else 0
  leBytes 4 d.featSel.toNat ++ leBytes 4 (featureHalf (offered dev) d.featSel.toNat) ++ leBytes 4 d.driverSel.toNat ++
    leBytes 4 (featureHalf d.driverFeatures.toNat d.driverSel.toNat) ++ leBytes 2 d.cfgVector.toNat ++ leBytes 2 (vqCount dev) ++
    leBytes 1 d.status.toNat ++ leBytes 1 0 ++ leBytes 2 n ++ leBytes 2 size ++ leBytes 2 c.vector.toNat ++
    leBytes 2 (if c.enabled then 1 else 0) ++ leBytes 2 n ++ leBytes 8 c.desc.toNat ++ leBytes 8 c.driver.toNat ++ leBytes 8 c.device.toNat ++
    leBytes 8 0

/-- A structure of BAR0 as a driver reads it; the notify structure is only written. The ISR status is not used with MSI-X: it reads 0. -/
def State.barRead (s : State) (vf dev : Nat) : BarStructure → List Byte
  | .common => s.commonConfig vf dev
  | .notify => []
  | .isr => [0]
  | .device => deviceConfig vf dev

/-- The driver of a device of a VF that is present, and in no reset, can use it. -/
def State.deviceUp (s : State) (vf dev : Nat) : Bool := s.vfPresent vf && decide (dev ≤ 2) && !(s.device vf dev).resetting

/-- The driver sets FEATURES_OK: it stays clear where the driver has written a feature bit that is not offered (17 R378). -/
def State.featuresOk (s : State) (vf dev : Nat) : State :=
  if s.deviceUp vf dev && (s.device vf dev).driverFeatures.toNat.lor (offered dev) == offered dev then
    s.modDevice vf dev fun d => { d with status := d.status ||| 8, features := d.driverFeatures }
  else s

/-- The driver, its features accepted, sets DRIVER_OK (17 R373, R376). -/
def State.driverOk (s : State) (vf dev : Nat) : State :=
  if s.deviceUp vf dev && (s.device vf dev).status.getLsbD 3 then s.modDevice vf dev fun d => { d with status := d.status ||| 4 } else s

/-- `FEATURES_OK` (17 R378): the driver of device `j` of VF `k` sets FEATURES_OK. -/
def execFeaturesOk (s : State) : Host.Outcome State Fault Refusal := event (s.featuresOk s.input.k s.input.j)

/-- `DRIVER_OK` (17 R373, R376): the driver of device `j` of VF `k` sets DRIVER_OK. -/
def execDriverOk (s : State) : Host.Outcome State Fault Refusal := event (s.driverOk s.input.k s.input.j)

/-! ### Vsock (17 R379) -/

/-- Fields of a vsock packet's header of 44 bytes, in the layout of virtio 1.3 (log 33): source and destination CID and port, type (1
stream, 2 seqpacket), operation (1 request, 3 reset, 4 shutdown, of both directions where both flags are set). -/
def vsockSrc (bs : List Byte) : Nat × BitVec 32 := (leAt bs 0 8, BitVec.ofNat 32 (leAt bs 16 4))
def vsockDst (bs : List Byte) : Nat × BitVec 32 := (leAt bs 8 8, BitVec.ofNat 32 (leAt bs 20 4))
def vsockType (bs : List Byte) : Nat := leAt bs 28 2
def vsockEnds (bs : List Byte) : Bool := leAt bs 30 2 == 3 || leAt bs 30 2 == 4 && leAt bs 32 4 % 4 == 3

/-- The virtqueues of vsock that carry packets to the guest and from it. -/
def vsockRx : Nat := 0
def vsockTx : Nat := 1

/-- Requests of a closed connection complete, and their replies are discarded (17 R384). -/
def SvcJob.close (j : SvcJob) : Option SvcJob :=
  match j.stage with
  | .answered _ _ => none
  | .waiting _ => some { j with closed := true }

/-- Connections close. -/
def State.closeConns (s : State) (p : VsockConn → Bool) : State :=
  let gone := s.vsock.filter p
  let hit := fun (j : SvcJob) => gone.any fun c => c.vf == j.vf && c.guest == j.conn && c.port == BitVec.ofNat 32 servicePort
  { s with vsock := s.vsock.filter (fun c => !(p c)), svcJobs := s.svcJobs.filterMap fun j => if hit j then j.close else some j }

/-- A packet between a guest's port and a port of the paddock ends their connection. -/
def State.vsockEnd (s : State) (vf : Nat) (guest port : BitVec 32) (bs : List Byte) : State :=
  if vsockEnds bs then s.closeConns fun c => c.vf == vf && c.guest == guest && c.port == port else s

/-- A packet from a guest's driver names its own CID and the paddock's. -/
def vsockAddressed (vf : Nat) (bs : List Byte) : Bool :=
  decide (44 ≤ bs.length) && (vsockSrc bs).1 == guestCid vf && (vsockDst bs).1 == paddockCid

/-- What a packet from a guest does to its connections: a request opens one, a stream for the service protocol, a stream or a seqpacket
one, if that is negotiated, for the network stack. -/
def State.vsockFrom (s : State) (vf : Nat) (bs : List Byte) : State :=
  let c : VsockConn := { vf := vf, guest := (vsockSrc bs).2, port := (vsockDst bs).2, seqpacket := vsockType bs == 2 }
  let known := s.vsock.any fun x => x.vf == vf && x.guest == c.guest && x.port == c.port
  let typeOk := vsockType bs == 1 || vsockType bs == 2 && (s.device vf 2).features.getLsbD 1 && c.port != BitVec.ofNat 32 servicePort
  if !(vsockAddressed vf bs) then s
  else if leAt bs 30 2 = 1 then (if known || !typeOk then s else { s with vsock := s.vsock ++ [c] })
  else s.vsockEnd vf c.guest c.port bs

/-- The bytes of a chain stay at the IO die: a vsock packet for the service protocol, or one that names other CIDs. -/
def staysAtIo (id : VqId) (bs : List Byte) : Bool :=
  id.dev == 2 && id.vq == vsockTx && (!(vsockAddressed id.vf bs) || (vsockDst bs).2 == BitVec.ofNat 32 servicePort)

/-! ### Items of a virtqueue (17 R380) -/

/-- The device and virtqueue field of items and completions. -/
def vqCode (v : VqId) : Nat := v.dev + v.vq * 4

def State.vq (s : State) (id : VqId) : Option Virtqueue := s.virtqueues.find? fun v => v.id == id

def State.modVq (s : State) (id : VqId) (f : Virtqueue → Virtqueue) : State :=
  { s with virtqueues := modFirst (fun v => v.id == id) f s.virtqueues }

/-- The agent that reads and writes a pool: the IO die, under the translation that VQ_BIND gave it. -/
def State.poolAgent (s : State) (v : Virtqueue) : GAgent :=
  { tile := v.tile, xc := v.xc, paddock := (s.getTile v.tile).paddock, wain := false }

/-- A place in a pool is free for a buffer. -/
def Virtqueue.placeFree (v : Virtqueue) (off n : Nat) : Bool :=
  decide (off + n ≤ v.poolBytes) && v.outstanding.all fun c => !(rangesOverlap (v.pool.toNat + off) n c.buf.toNat c.bytes)
where
  /-- Two byte ranges meet. -/
  rangesOverlap (a n b m : Nat) : Bool := decide (a < b + m) && decide (b < a + n)

/-- An item of the queue waits at the IO die, which then takes no further buffer of it (15 R324). -/
def State.vqWaits (s : State) (id : VqId) : Bool := s.flight.any fun i => i.src == .virtqueue id.vf id.dev id.vq

/-- The 64 bytes of an item. -/
def State.vqItem (s : State) (id : VqId) (r : NotifyReq) (buf : DW) : List Byte :=
  recordBytesOf [(0, 2, vqCode id), (2, 2, r.chain.toNat), (4, 4, r.readable.length), (8, 4, r.writable), (12, 8, buf.toNat),
    (20, 4, (s.device id.vf id.dev).epoch.toNat)]

/-- A place in the pool is free for a buffer. -/
def Virtqueue.hasRoom (v : Virtqueue) (n : Nat) : Bool := (0 :: v.outstanding.map fun c => c.buf.toNat + c.bytes - v.pool.toNat).any fun o => v.placeFree o n

/-- Bytes of the pool that a chain takes. -/
def chainBytes (r : NotifyReq) : Nat := if staysAtIo r.vq r.readable then 0 else max r.readable.length r.writable

/-- A virtqueue has a transfer waiting toward the device: one that has begun, or a notify that the queue's program and the pool can take. -/
def State.bringsIn (s : State) (v : Virtqueue) : Bool :=
  match v.pending, s.queueAt v.itemQ with
  | r :: _, some _ => v.moving.isSome || staysAtIo v.id r.readable || !(s.vqWaits v.id) && v.hasRoom (chainBytes r)
  | _, _ => false

/-- What a completion says: VQ, ID, RLEN, EPOCH (17 R380). -/
def complVq (i : ItemFlight) : Nat := leAt i.payload 0 2
def complId (i : ItemFlight) : BitVec 16 := BitVec.ofNat 16 (leAt i.payload 2 2)
def complLen (i : ItemFlight) : Nat := leAt i.payload 4 4
def complEpoch (i : ItemFlight) : Nat := leAt i.payload 20 4

/-- The chain that a completion answers: outstanding, and no smaller than the bytes to copy back. -/
def Virtqueue.answers (v : Virtqueue) (i : ItemFlight) : Option Chain :=
  v.outstanding.find? fun c => c.id == complId i && decide (complLen i ≤ c.writable)

/-- A virtqueue has a transfer waiting toward the host: a completion of this epoch, first of its queue, that answers a chain of it. -/
def State.bringsBack (s : State) (v : Virtqueue) : Bool :=
  (s.queueAt v.compQ).any (fun q => !q.frozen) && s.flight.zipIdx.any fun p =>
    p.1.qcb == v.compQ && p.1.kind == 0 && vqCode v.id == complVq p.1 && s.itemFirst p.2 p.1 &&
      complEpoch p.1 == (s.device v.id.vf v.id.dev).epoch.toNat && (v.answers p.1).isSome

/-- A transfer of a paddock's virtqueues waits at a PCIe port. -/
def State.vqWaiting (s : State) (port p : Nat) : Bool :=
  s.virtqueues.any fun v => v.id.vf / 32 == port && (s.getTile v.tile).paddock.toNat == p && (s.bringsIn v || s.bringsBack v)

/-- Bytes of one DMA transfer at most (17 R375). -/
def dmaBytes : Nat := 256

/-- The DMA engine of a VF's PCIe port is granted to a paddock for one transfer (17 R375, R377). -/
def State.dmaTurn (s : State) (p : BitVec 5) (vf : Nat) : Option State :=
  (((s.dmaArbs[vf / 32]?).getD Arbiter.reset).grants s.weight (fun q => q == p.toNat || s.vqWaiting (vf / 32) q) p.toNat).map fun b =>
    { s with dmaArbs := s.dmaArbs.setIfInBounds (vf / 32) b }

/-- Pages of the host that the IO die writes become dirty. -/
def State.markDirty (s : State) (vf first n : Nat) : State :=
  { s with bitmaps := s.bitmaps.map fun b => if b.vf == vf then
      { b with dirty := (List.range n).foldl (fun d i => insertNat (first + i) d) b.dirty } else b }

/-- The available ring is read past a chain. -/
def State.takeAvail (s : State) (v : Virtqueue) (descs : Nat) : Virtqueue :=
  let d := s.device v.id.vf v.id.dev
  let r := ringStep d.packed (d.conf v.id.vq).size.toNat descs v.lastAvail v.availWrap
  { v with lastAvail := r.1, availWrap := r.2 }

/-- The used ring is written past a chain. -/
def State.putUsed (s : State) (v : Virtqueue) (descs : Nat) : Virtqueue :=
  let d := s.device v.id.vf v.id.dev
  let r := ringStep d.packed (d.conf v.id.vq).size.toNat descs v.used v.usedWrap
  { v with used := r.1, usedWrap := r.2 }

/-- The bytes of a chain have been copied: its item is pushed; a packet for the service protocol is used up at once. -/
def State.endChain (s : State) (v : Virtqueue) (q : Queue) (r : NotifyReq) (rest : List NotifyReq) (off : Nat) : State :=
  let buf := v.pool + BitVec.ofNat 64 off
  if staysAtIo v.id r.readable then
    let s1 := s.modVq v.id fun v => { s.putUsed (s.takeAvail v r.descs) r.descs with pending := rest, moving := none }
    (({ s1 with hostOut := s1.hostOut ++ [.used v.id r.chain 0, .interrupt v.id] } : State).markDirty v.id.vf s.input.bits.toNat s.input.j).vsockFrom
      v.id.vf r.readable
  else
    let c : Chain := { id := r.chain, descs := r.descs, writable := r.writable, buf := buf, bytes := chainBytes r }
    let s1 := s.modVq v.id fun v => { s.takeAvail v r.descs with pending := rest, moving := none, outstanding := v.outstanding ++ [c] }
    (if v.id.dev == 2 && v.id.vq == vsockTx then s1.vsockFrom v.id.vf r.readable else s1).agentPush q q.qcb.members
      (.virtqueue v.id.vf v.id.dev v.id.vq) (s.vqItem v.id r buf)

/-- The oldest notify of a virtqueue is served by one transfer, at a place of the pool that its first transfer takes: at most 256 bytes of
its readable part are copied; when all of them are, the item is pushed. A chain without a readable part takes one grant too. -/
def State.serveVq (s : State) (id : VqId) (off : Nat) : State :=
  match s.vq id with
  | none => s
  | some v =>
    match v.pending, s.queueAt v.itemQ with
    | r :: rest, some q =>
      let stays := staysAtIo id r.readable
      let m := v.moving.getD { off := off, done := 0 }
      let piece := (r.readable.drop m.done).take dmaBytes
      if v.moving.isNone && !stays && (s.vqWaits id || !(v.placeFree off (chainBytes r))) then s
      else match s.dmaTurn (s.getTile v.tile).paddock id.vf with
      | none => s
      | some s =>
        match if stays then (.ok (), s)
          else s.gWrites (s.poolAgent v) (lineFuel piece.length) (v.pool + BitVec.ofNat 64 (m.off + m.done)) piece with
        | (.ok _, s1) =>
          let n := m.done + piece.length
          if n < r.readable.length then s1.modVq id fun v => { v with moving := some { m with done := n } } else s1.endChain v q r rest m.off
        | (.miss (.walk va k), s1) => s1.missed v.tile .slot v.xc (.walk va k)
        | _ => s
    | _, _ => s

/-- A buffer that a driver has made available is taken in and, if it can be, served. -/
def State.takeBuffer (s : State) (r : NotifyReq) : State :=
  (s.modVq r.vq fun v => { v with pending := v.pending ++ [r] }).serveVq r.vq s.input.offset.toNat

/-- A virtqueue is in use: DRIVER_OK is set, the driver has enabled it, no reset is under way. -/
def State.vqLive (s : State) (id : VqId) : Bool :=
  let d := s.device id.vf id.dev
  !d.resetting && d.status.getLsbD 2 && (d.conf id.vq).enabled

/-- `NOTIFY` (17 R380, R384, R387): a driver makes a buffer available. `offset` is the place in the pool that the IO die takes. -/
def execNotify (r : NotifyReq) (s : State) : Host.Outcome State Fault Refusal :=
  event (if s.vqLive r.vq then (s.noteNotify r.vq).takeBuffer r else s)

/-- A buffer that the IO die finds in a ring to which an import's NOTIFY bit sends it (17 R387). -/
def State.available (s : State) (r : NotifyReq) (last : Bool) : State :=
  if s.vqLive r.vq && (s.vq r.vq).any (fun v => v.notified) then (s.modVq r.vq fun v => { v with notified := !last }).takeBuffer r else s

/-- `AGENT_PUSH_RETRY` (15 R324): agent push `k` is placed when its ring has room; beyond the items in flight, the next notify of
a virtqueue is served. -/
def execAgentPushRetry (s : State) : Host.Outcome State Fault Refusal :=
  event (match s.flight[s.input.k]? with
  | some i => if i.kind = 3 ∨ i.refused ∨ i.travel ∨ !i.agent ∨ !(s.itemFirst s.input.k i) then s else s.arriveItem s.input.k i
  | none =>
    match s.virtqueues[s.input.k - s.flight.length]? with
    | some v => s.serveVq v.id s.input.offset.toNat
    | none => s)

/-! ### Completions (17 R380, R384) -/

/-- An item of a completion queue leaves it, consumed. -/
def State.takeCompletion (s : State) (i : ItemFlight) : State :=
  ({ s with flight := dropFirst (fun x => x == i) s.flight } : State).consumed i.qcb i.id

/-- One transfer of a completion that answers a chain: at most 256 bytes of the device-written part go to the host; with the last of them
the item is taken, and the ring entry and the interrupt follow (12 R279). A vsock packet to the guest may end its connection. -/
def State.answerChain (s : State) (q : Queue) (i : ItemFlight) (v : Virtqueue) (c : Chain) : State :=
  let n := min dmaBytes (complLen i - v.back)
  match s.dmaTurn (s.getTile v.tile).paddock v.id.vf with
  | none => s
  | some s =>
    match s.gReads (s.poolAgent v) (lineFuel n) (c.buf + BitVec.ofNat 64 v.back) n with
    | (.ok data, s1) =>
      let out : List HostOut := [.buffer v.id c.id v.back data]
      let s2 := ({ s1 with hostOut := s1.hostOut ++ out } : State).markDirty v.id.vf s.input.bits.toNat s.input.j
      let s3 := if v.id.dev == 2 && v.id.vq == vsockRx && v.back == 0 then
        s2.vsockEnd v.id.vf (vsockDst data).2 (vsockSrc data).2 data else s2
      if v.back + n < complLen i then s3.modVq v.id fun v => { v with back := v.back + n }
      else
        let s4 := (s3.takeCompletion i).modVq v.id fun v =>
          { s.putUsed v c.descs with outstanding := dropFirst (fun x => x.id == c.id) v.outstanding, back := 0 }
        { s4 with hostOut := s4.hostOut ++ [.used v.id c.id (complLen i), .interrupt v.id] }
    | (.fail cause _, s1) => ((s1.takeCompletion i).modVq v.id fun v => { v with back := 0 }).queueRecord q.qcb.paddock i.tile cause i.qcb
    | (.miss (.walk va k), _) => s.missed v.tile .slot v.xc (.walk va k)
    | _ => s

/-- A completion with an old epoch is discarded without a trace; one that fits no chain leaves a queue record. -/
def State.completeVq (s : State) (q : Queue) (i : ItemFlight) : State :=
  match s.virtqueues.find? fun v => v.compQ == i.qcb && vqCode v.id == complVq i with
  | none => (s.takeCompletion i).queueRecord q.qcb.paddock i.tile .none i.qcb
  | some v =>
    if complEpoch i ≠ (s.device v.id.vf v.id.dev).epoch.toNat then s.takeCompletion i
    else
      match v.answers i with
      | none => (s.takeCompletion i).queueRecord q.qcb.paddock i.tile .none i.qcb
      | some c => s.answerChain q i v c

/-- `VIRTQUEUE_COMPLETION` (17 R380): the IO die takes item `k`, a completion. The host pages that it then writes are `j` from page
`bits` on. -/
def execVirtqueueCompletion (s : State) : Host.Outcome State Fault Refusal :=
  event (match s.flight[s.input.k]? with
  | none => s
  | some i =>
    match s.queueAt i.qcb with
    | none => s
    | some q =>
      if q.frozen || !(s.virtqueues.any fun v => v.compQ == i.qcb) || !(s.itemFirst s.input.k i) then s
      else if i.kind = 0 then s.completeVq q i
      else ({ s with flight := dropAt s.input.k s.flight } : State).consumed i.qcb i.id)

/-! ### Resets (17 R384, R385) -/

/-- The virtqueues of a device forget their notifies and chains; items at the IO die are dropped. -/
def State.resetQueues (s : State) (vf dev : Nat) : State :=
  let mine := fun (i : ItemFlight) => (match i.src with
    | .virtqueue v d _ => v == vf && d == dev
    | _ => false)
  { s with flight := s.flight.filter fun i => !(mine i),
           virtqueues := s.virtqueues.map fun v => if v.id.vf == vf && v.id.dev == dev then v.clear else v }

/-- The three devices of a VF. -/
def vfDevices : List Nat := [0, 1, 2]

/-- `FLR` (17 R384): the reset point of VF `k`. -/
def execFlr (s : State) : Host.Outcome State Fault Refusal :=
  event (
    let vf := s.input.k
    if 64 ≤ vf then s
    else
      let one := fun (s : State) (dev : Nat) =>
        (s.resetQueues vf dev).modDevice vf dev fun d => { d with resetting := true, epoch := d.epoch + 1 }
      let s1 := vfDevices.foldl one s
      ({ s1 with handles := s1.handles.filter (fun h => h.vf != vf), bitmaps := s1.bitmaps.filter (fun b => b.vf != vf),
                 hostOut := s1.hostOut ++ [.connectionsReset vf none] } : State).closeConns fun c => c.vf == vf)

/-- `FLR_COMPLETE` (17 R384): the devices of VF `k` read status 0. -/
def execFlrComplete (s : State) : Host.Outcome State Fault Refusal :=
  event (
    let vf := s.input.k
    let one := fun (s : State) (dev : Nat) =>
      if (s.device vf dev).resetting then s.modDevice vf dev fun d => freshDevice vf dev d.epoch else s
    vfDevices.foldl one s)

/-- A driver writes 0 to the status of a device (17 R385). One that an FLR is resetting comes out of it only when the FLR completes. -/
def State.resetDevice (s : State) (vf dev : Nat) : State :=
  if 64 ≤ vf ∨ 2 < dev then s
  else
    let s1 := (s.resetQueues vf dev).modDevice vf dev fun d => { freshDevice vf dev (d.epoch + 1) with resetting := d.resetting }
    ({ s1 with hostOut := s1.hostOut ++ [.connectionsReset vf (some dev)] } : State).closeConns fun c => c.vf == vf && dev == 2

/-- `DEVICE_RESET` (17 R385): a driver writes 0 to the status of device `j` of VF `k`. -/
def execDeviceReset (s : State) : Host.Outcome State Fault Refusal := event (s.resetDevice s.input.k s.input.j)

/-! ### Writes into the common structure (17 R378) -/

/-- Bytes of a 64-bit register replaced from a place on. -/
def putBytes (v : DW) (o : Nat) (bs : List Byte) : DW :=
  let old := leBytes 8 v.toNat
  BitVec.ofNat 64 (ofLe ((old.take o ++ bs ++ old.drop (o + bs.length)).take 8))

/-- A write of the status: 0 resets the device; ACKNOWLEDGE, DRIVER and FAILED are kept; FEATURES_OK and DRIVER_OK are checked. -/
def State.writeStatus (s : State) (vf dev : Nat) (v : BitVec 8) : State :=
  if v = 0 then s.resetDevice vf dev
  else
    let s1 := s.modDevice vf dev fun d => { d with status := d.status ||| v &&& 0x83 }
    let s2 := if v.getLsbD 3 && !(s.device vf dev).status.getLsbD 3 then s1.featuresOk vf dev else s1
    if v.getLsbD 2 then s2.driverOk vf dev else s2

/-- A write of a register of the selected virtqueue: size, vector, enable, areas; of one that is enabled only the vector changes. -/
def VqConf.write (c : VqConf) (off : Nat) (bs : List Byte) : VqConf :=
  let v := ofLe bs
  match off, bs.length with
  | 24, 2 => if c.enabled || v == 0 || decide (vqEntries < v) then c else { c with size := BitVec.ofNat 16 v }
  | 26, 2 => { c with vector := vqVector (BitVec.ofNat 16 v) }
  | 28, 2 => if v = 1 then { c with enabled := true } else c
  | o, n =>
    if c.enabled || decide (o < 32) || decide (56 ≤ o) || decide (8 < o % 8 + n) then c
    else if o < 40 then { c with desc := putBytes c.desc (o - 32) bs }
    else if o < 48 then { c with driver := putBytes c.driver (o - 40) bs }
    else { c with device := putBytes c.device (o - 48) bs }

/-- A write into the common structure of a device of a VF; registers that are only read stay, and the driver's features once they are
accepted. -/
def State.barWrite (s : State) (vf dev off : Nat) (bs : List Byte) : State :=
  let d := s.device vf dev
  let v := ofLe bs
  if !(s.deviceUp vf dev) then s
  else match off, bs.length with
  | 0, 4 => s.modDevice vf dev fun d => { d with featSel := BitVec.ofNat 32 v }
  | 8, 4 => s.modDevice vf dev fun d => { d with driverSel := BitVec.ofNat 32 v }
  | 12, 4 =>
    if d.status.getLsbD 3 ∨ 2 ≤ d.driverSel.toNat then s
    else s.modDevice vf dev fun d => { d with driverFeatures := putBytes d.driverFeatures (4 * d.driverSel.toNat) bs }
  | 16, 2 => s.modDevice vf dev fun d => { d with cfgVector := vqVector (BitVec.ofNat 16 v) }
  | 20, 1 => s.writeStatus vf dev (BitVec.ofNat 8 v)
  | 22, 2 => s.modDevice vf dev fun d => { d with queueSel := BitVec.ofNat 16 v }
  | o, _ =>
    if o < 24 ∨ vqCount dev ≤ d.queueSel.toNat then s else s.modDevice vf dev fun d => d.modConf d.queueSel.toNat fun c => c.write o bs

end Sys2Proof.Machine
end

