-- ==== Sys2Proof/Machine/Power.lean ====
section
/-! DEFINITION. Sys2Proof/Machine/Power.lean: the configuration of paddocks, the IO dies, power and heat (01 R15, 17 R371-R373,
R377, R391). -/
namespace Sys2Proof.Machine

/-! ### Configuration (17 R371-R373, R377) -/

/-- Two ranges of numbers overlap. -/
def rangesMeet (a n b m : Nat) : Bool := n != 0 && m != 0 && decide (a < b + m) && decide (b < a + n)

/-- Two records of one configuration do not share anything (17 R371, R372). -/
def cfgApart (a b : PaddockCfg) : Bool :=
  a.pnum != b.pnum && a.rows &&& b.rows == 0 && a.chans &&& b.chans == 0 && a.vfs &&& b.vfs == 0 &&
  !(rangesMeet a.kbase.toNat a.kcount.toNat b.kbase.toNat b.kcount.toNat) &&
  !(rangesMeet a.barBase.toNat a.barCount.toNat b.barBase.toNat b.barCount.toNat) &&
  !(rangesMeet a.t2Base.toNat a.t2Count.toNat b.t2Base.toNat b.t2Count.toNat)

/-- A record by itself: rows, channels and VFs; its number is its lowest channel index; its service tiles are its own; its key
range leaves out 0; its weight is 1 to 64 (17 R371, R372). -/
def cfgSound (c : PaddockCfg) : Bool :=
  c.rows != 0 && c.chans != 0 && c.vfs != 0 && c.pnum.toNat == lowestOne 32 c.chans.toNat &&
  cfgHasTile c c.svc0.toNat && cfgHasTile c c.svc1.toNat && c.svc0 != c.svc1 && decide (1 ≤ c.kbase.toNat) &&
  decide (1 ≤ c.weight.toNat) && decide (c.weight.toNat ≤ 64)

/-- The records are apart, each from the ones behind it. -/
def cfgsApart : List PaddockCfg → Bool
  | [] => true
  | c :: cs => cs.all (cfgApart c) && cfgsApart cs

/-- A configuration that the monitor accepts: row 0 is owned, by a paddock that owns a VF (17 R372, R377). -/
def cfgOk (cs : List PaddockCfg) : Bool :=
  cs.all cfgSound && cfgsApart cs && cs.any fun c => c.rows.getLsbD 0 && c.vfs != 0

/-- The L1 descriptor that grants the whole scratchpad (16 R363). -/
def wholeSpad : DW := BitVec.ofNat 64 (7 + 0x3FFF * 2 ^ 26)

/-- Every tile of a paddock's rows learns its paddock, its features and its L1 region 0 (16 R363, R364). -/
def State.setTiles (s : State) (c : PaddockCfg) : State :=
  ((List.range Config.tileCount).filter (cfgHasTile c)).foldl (fun s l => s.modTile l fun t =>
    { t with paddock := c.pnum, feat := maskedFeat c, regions1 := t.regions1.setIfInBounds 0 wholeSpad }) s

/-- The channel owner tables of a configuration (03 R65). -/
def ownersOf (cs : List PaddockCfg) : List (Nat × BitVec 5) :=
  (List.range 32).filterMap fun ch => (cs.find? fun c => c.chans.getLsbD ch).map fun c => (ch, c.pnum)

/-- Records take effect. -/
def State.configure (s : State) (cs : List PaddockCfg) : State :=
  cs.foldl (fun s c => s.setTiles c) { s with paddocks := cs, chanOwner := ownersOf cs }

/-! ### IO dies (01 R15) -/

/-- `IO_DIE_FAILOVER` (01 R15): the monitor declares IO die 0's units failed, and those of IO die 1 take over. -/
def execIoDieFailover (s : State) : Host.Outcome State Fault Refusal := event { s with ioInCharge := 1 }

/-! ### Power and heat (17 R391) -/

/-- `DROOP` (17 R391): a supply sag stretches the tile clock. -/
def execDroop (s : State) : Host.Outcome State Fault Refusal := event { s with droop := true }

/-- `DROOP_RECOVERY` (17 R391). -/
def execDroopRecovery (s : State) : Host.Outcome State Fault Refusal := event { s with droop := false }

/-- A step of 25 MHz down. -/
def slower (mhz : Nat) : Nat := mhz - 25
/-- A step of 25 MHz up, to the nominal clock (00 R6). -/
def faster (mhz : Nat) : Nat := min 800 (mhz + 25)

/-- `POWER_CAP` (17 R391): the average power of the last window is `bits` watts: above 2,600 the clocks of all eight dies go down
a step, below 2,500 up. -/
def execPowerCap (s : State) : Host.Outcome State Fault Refusal :=
  event (
    let w := s.input.bits.toNat
    { s with watts := w,
             clocks := if 2600 < w then s.clocks.map slower else if w < 2500 then s.clocks.map faster else s.clocks })

/-- `THERMAL_LIMIT` (17 R391): die `k` is at `j` °C: from 105 on its clock goes down a step, from 115 on the package's tiles halt. -/
def execThermalLimit (s : State) : Host.Outcome State Fault Refusal :=
  event (
    let s1 : State := { s with temps := upsert (fun p => p.1 == s.input.k) (fun _ => (s.input.k, s.input.j)) s.temps }
    if 115 ≤ s.input.j then { s1 with halted := true, hostOut := s1.hostOut ++ [.pfReport 3] }
    else if 105 ≤ s.input.j then { s1 with clocks := s1.clocks.setIfInBounds s.input.k (slower ((s1.clocks[s.input.k]?).getD 800)) }
    else s1)

end Sys2Proof.Machine
end

