-- ==== Sys2Proof/Machine/Bind.lean ====
section
/-! DEFINITION. Sys2Proof/Machine/Bind.lean: the loader: the checks of a bind request in their order, the places of rings, and what
a bind writes (15 R318, R319, R339-R342; 16 R363; 18 R393-R398). -/
namespace Sys2Proof.Machine

/-! ### The image (18 R393-R395) -/

/-- One of the four sections: where its bytes are in the file, and its origin. -/
structure Section where
  off : Nat
  bytes : Nat
  origin : Nat
  deriving DecidableEq, Repr

/-- Section i of an image: 0 `code`, 1 `spad`, 2 `global`, 3 `meta`. -/
def sectionOf (img : List Byte) (i : Nat) : Section :=
  { off := leAt img (16 + 16 * i) 4, bytes := leAt img (20 + 16 * i) 4, origin := leAt img (24 + 16 * i) 8 }

/-- The bytes of a section. -/
def sectionBytes (img : List Byte) (i : Nat) : List Byte := (img.drop (sectionOf img i).off).take (sectionOf img i).bytes

/-- A relocation record (18 R394). -/
structure Reloc where
  site : Nat
  sec : Nat
  kind : Nat
  zero : Nat
  addend : Int
  deriving DecidableEq, Repr

/-- Record i of an image. -/
def relocOf (img : List Byte) (i : Nat) : Reloc :=
  let o := leAt img 84 4 + 16 * i
  { site := leAt img o 4, sec := leAt img (o + 4) 1, kind := leAt img (o + 5) 1, zero := leAt img (o + 6) 2,
    addend := signed 64 (leAt img (o + 8) 8) }

/-- The records of an image. -/
def relocsOf (img : List Byte) : List Reloc := (List.range (leAt img 80 4)).map (relocOf img)

/-- An `ximm` word. -/
def isXimmWord (w : Nat) : Bool := bitsOf w 26 6 == 0x3F

/-- A word whose IMM-format immediate is signed and unscaled. -/
def isSignedImmWord (w : Nat) : Bool := [0x02, 0x03, 0x04, 0x05, 0x06, 0x07, 0x0B, 0x13].contains (bitsOf w 26 6)

/-- A record whose site lies in its section and is of its kind. -/
def relocOk (img : List Byte) (r : Reloc) : Bool :=
  let sec := sectionOf img r.sec
  let at' := fun (o : Nat) => leAt img (sec.off + r.site + o) 4
  decide (r.sec < 3) && r.zero == 0 && decide (1 ≤ r.kind) && decide (r.kind ≤ 4) && decide (r.site + 8 ≤ sec.bytes) &&
  (if r.kind ≤ 2 then r.site % 4 == 0 && isXimmWord (at' 0) && isSignedImmWord (at' 4) else r.site % 8 == 0)

/-- The image is well formed: header, section bounds, relocations; its `spad` section and entries lie where they must. -/
def imageWf (img : List Byte) (m : ImageMeta) : Bool :=
  let sec := sectionOf img
  let inside := fun (i : Nat) => decide ((sec i).off + (sec i).bytes ≤ img.length)
  let entryOk := fun (o : Nat) => o % 4 == 0 && decide (o < (sec 0).bytes)
  decide (128 ≤ img.length) && leAt img 0 4 == 0x3149584B && leAt img 4 2 == 1 && decide (leAt img 6 2 < 2) && leAt img 88 40 == 0 &&
  bitsOf (leAt img 8 8) 41 23 == 0 && inside 0 && inside 1 && inside 2 && inside 3 &&
  (sec 0).off % 4 == 0 && (sec 0).bytes % 4 == 0 && (sec 0).origin == 0 && (sec 2).origin == 0 && (sec 3).origin == 0 &&
  decide ((sec 1).origin + (sec 1).bytes ≤ Config.spadSize) &&
  ((sec 1).bytes == 0 ||
    (decide (m.spadOrg ≤ (sec 1).origin) && decide ((sec 1).origin + (sec 1).bytes ≤ m.spadOrg + m.spadBytes))) &&
  decide (leAt img 84 4 + 16 * leAt img 80 4 ≤ img.length) && (relocsOf img).all (relocOk img) &&
  m.contexts.all (fun c => entryOk c.entry && (c.fallow.map entryOk).getD true) && m.handlers.all fun h => entryOk h.2.2

/-- PART, STEP and GRADE of the image fit the part (18 R395). -/
def confsigOk (img : List Byte) : Bool :=
  let v := leAt img 8 8
  bitsOf v 0 16 == 0x0909 && decide (bitsOf v 16 8 ≤ 0xB2) && bitsOf v 24 8 == 0x01

/-- Bytes replaced from a place on. -/
def patched (bs : List Byte) (o : Nat) (new : List Byte) : List Byte := bs.take o ++ new ++ bs.drop (o + new.length)

/-- One relocation applied to the sections (18 R394). -/
def applyReloc (cb gb : Nat) (secs : List (List Byte)) (r : Reloc) : List (List Byte) :=
  let v := wrap 64 ((if r.kind = 1 ∨ r.kind = 3 then cb else gb : Nat) + r.addend)
  modAt (fun bs =>
    if r.kind ≤ 2 then
      let w0 := leAt bs r.site 4 / 2 ^ 26 * 2 ^ 26 + bitsOf v 16 26
      let w1 := leAt bs (r.site + 4) 4 / 2 ^ 16 * 2 ^ 16 + bitsOf v 0 16
      patched bs r.site (leBytes 4 w0 ++ leBytes 4 w1)
    else patched bs r.site (leBytes 8 v)) r.sec secs

/-- The `code`, `spad` and `global` sections of an image, relocated. -/
def relocated (m : ImagePlace) : List (List Byte) :=
  (relocsOf m.image).foldl (applyReloc m.codeBase m.globalBase) ((List.range 3).map (sectionBytes m.image))

/-! ### Queues of a request -/

/-- Endpoints of every context of an image. -/
def declsOf (m : ImageMeta) : List (CtxDecl × EpDecl) := m.contexts.flatMap fun c => c.endpoints.map fun e => (c, e)

/-- The tiles that a request binds, each once; the images it places on a tile; the contexts of all its images. -/
def bindTiles (r : BindReq) : List Nat := (r.images.flatMap ImagePlace.tiles).foldl (fun l x => if l.contains x then l else l ++ [x]) []
def imagesOn (r : BindReq) (l : Nat) : List ImagePlace := r.images.filter fun m => m.tiles.contains l
def bindContexts (r : BindReq) : List CtxDecl := r.images.flatMap fun m => m.decls.contexts

/-- The declaration of an endpoint of a tile that the request binds, and its image. -/
def imageAt (r : BindReq) (p : Nat × QReg) (input : Bool) : Option (ImagePlace × CtxDecl × EpDecl) :=
  (imagesOn r p.1).findSome? fun m => ((declsOf m.decls).find? fun d => d.2.ep == p.2 && d.2.input == input).map fun d => (m, d)
def declAt (r : BindReq) (p : Nat × QReg) (input : Bool) : Option (CtxDecl × EpDecl) := (imageAt r p input).map (·.2)

/-- The queue of the request that an endpoint belongs to. -/
def bindQueueOf (r : BindReq) (l : Nat) (e : EpDecl) : Option Nat :=
  (r.queues.zipIdx.find? fun q => (if e.input then q.1.members else q.1.producers).contains (l, e.ep)).map (·.2)

/-- The window of a queue: its placement's, its first member's, or the default (15 R319). -/
def bindWindowOf (r : BindReq) (q : QueueDecl) : Nat :=
  match q.window, (q.members.head?.bind fun p => declAt r p true).bind fun d => d.2.window with
  | some w, _ => w
  | none, some w => w
  | none, none => max 1 ((2 ^ q.logCap - q.agent) / q.producers.length)

/-- ISIZE, FMT, counts and the window of a queue (15 R318, R323, R325). -/
def bindGeomOk (r : BindReq) (q : QueueDecl) : Bool :=
  let w := bindWindowOf r q
  decide (1 ≤ q.itemUnits) && decide (q.itemUnits ≤ 64) && decide (q.logCap ≤ 15) && decide (q.qprio ≤ 7) && decide (q.agent ≤ 255) &&
  q.fmt != 13 && q.fmt != 15 && (q.fmt != 14 || q.itemUnits == 36) && decide (1 ≤ q.members.length) && decide (q.members.length ≤ 16) &&
  (!q.gring || q.members.length == 1) && decide (q.producers.length ≤ 64) && decide (1 ≤ w) && decide (w ≤ 2 ^ q.logCap) &&
  decide (q.producers.length * w + q.agent ≤ 2 ^ q.logCap) &&
  q.members.all (fun p => (declAt r p true).all fun d => d.2.itemUnits == q.itemUnits && d.2.logCap == q.logCap) &&
  q.producers.all fun p => (declAt r p false).all fun d => d.2.itemUnits == q.itemUnits

/-! ### Rings (15 R319) -/

/-- A byte range. -/
abbrev Span := Nat × Nat

/-- Two byte ranges share a byte: an empty one meets none. -/
def spansMeet (a b : Span) : Bool := a.2 != 0 && b.2 != 0 && decide (a.1 < b.1 + b.2) && decide (b.1 < a.1 + a.2)

/-- One byte range lies in another. -/
def spanIn (a b : Span) : Bool := decide (b.1 ≤ a.1) && decide (a.1 + a.2 ≤ b.1 + b.2)

/-- Bytes of a queue's ring. -/
def ringBytes (q : QueueDecl) : Nat := 2 ^ q.logCap * q.itemUnits * 16

/-- The address that rules 1 and 2 fix for a queue's ring. -/
def bindFixedRing (r : BindReq) (q : QueueDecl) : Option Nat :=
  match (q.members.head?.bind fun p => declAt r p true).bind fun d => d.2.ring with
  | some a => some a
  | none => q.ringAddr

/-- The lowest multiple of 128 from an address on at which a range of `n` bytes meets none that are taken. -/
def lowestFree (taken : List Span) (n limit : Nat) : Nat → Nat → Option Nat
  | 0, _ => none
  | fuel + 1, a =>
    if limit < a + n then none
    else if taken.all fun t => !(spansMeet (a, n) t) then some a
    else lowestFree taken n limit fuel (a + 128)

/-- What is taken on each tile: (tile, range). -/
abbrev Taken := List (Nat × Span)

def takenOn (t : Taken) (l : Nat) : List Span := (t.filter fun x => x.1 == l).map (·.2)

/-- The claimed range of an image. -/
def claimedBy (m : ImageMeta) : Span := (m.spadOrg, m.spadBytes)

/-- The claimed range of the image that binds a member: one of this request, or one that is bound already (15 R319). -/
def State.claimOf (s : State) (r : BindReq) (p : Nat × QReg) : Option Span :=
  match imageAt r p true with
  | some d => some (claimedBy d.1.decls)
  | none =>
    let t := s.getTile p.1
    let e := t.ep p.2
    if e.role = .input then
      (t.images.find? fun i => i.id == (t.ctxs[e.ctx.toNat]'(e.ctx.isLt)).image).map fun i => (i.spadOrg, i.spadBytes)
    else none

/-- A ring at an address lies wholly and free in the claimed range of every member that is bound (15 R319). -/
def State.bindRingFits (s : State) (r : BindReq) (taken : Taken) (q : QueueDecl) (a : Nat) : Bool :=
  a % 16 == 0 && q.members.all fun p => (s.claimOf r p).all fun c =>
    spanIn (a, ringBytes q) c && (takenOn taken p.1).all fun t => !(spansMeet (a, ringBytes q) t)

/-- The ring takes its range on every member's tile. -/
def takeRing (taken : Taken) (q : QueueDecl) (a : Nat) : Taken := taken ++ q.members.map fun p => (p.1, (a, ringBytes q))

/-- The queue has a ring in scratchpad. -/
def hasLocalRing (q : QueueDecl) : Bool := !q.gring

/-- Fixed rings are placed first; one that does not fit names its queue. -/
def State.bindPlaceFixed (s : State) (r : BindReq) : List (QueueDecl × Nat) → Taken × List (Nat × Nat) → Except Nat (Taken × List (Nat × Nat))
  | [], acc => .ok acc
  | (q, i) :: rest, (t, rs) =>
    match bindFixedRing r q with
    | some a => if s.bindRingFits r t q a then s.bindPlaceFixed r rest (takeRing t q a, rs ++ [(i, a)]) else .error i
    | none => s.bindPlaceFixed r rest (t, rs)

/-- The loader places the others, in ascending order of endpoint. The claimed range of the first member has to be known. -/
def State.bindPlaceRest (s : State) (r : BindReq) : List (QueueDecl × Nat) → Taken × List (Nat × Nat) → Except Nat (Taken × List (Nat × Nat))
  | [], acc => .ok acc
  | (q, i) :: rest, (t, rs) =>
    let l := (q.members.head?.map (·.1)).getD 0
    match q.members.head?.bind (s.claimOf r) with
    | none => .error i
    | some c =>
      match lowestFree (takenOn t l) (ringBytes q) (c.1 + c.2) 8193 ((c.1 + 127) / 128 * 128) with
      | some a => if s.bindRingFits r t q a then s.bindPlaceRest r rest (takeRing t q a, rs ++ [(i, a)]) else .error i
      | none => .error i

/-- Insert a queue by the endpoint of its first member. -/
def insertQueue (x : QueueDecl × Nat) : List (QueueDecl × Nat) → List (QueueDecl × Nat)
  | [] => [x]
  | y :: ys =>
    let key := fun (z : QueueDecl × Nat) => (z.1.members.head?.map fun p => p.2.toNat).getD 0
    if key x < key y then x :: y :: ys else y :: insertQueue x ys

/-- What is taken before a ring is placed: the `spad` sections of the images of the request and of those bound on its members' tiles, and
the rings of bound queues that the request does not name (15 R319). -/
def State.bindTaken (s : State) (r : BindReq) : Taken :=
  let tiles := (r.queues.flatMap fun q => q.members.map (·.1)).foldl (fun l x => if l.contains x then l else l ++ [x]) []
  (r.images.flatMap fun m => m.tiles.map fun l => (l, ((sectionOf m.image 1).origin, (sectionOf m.image 1).bytes))) ++
  (tiles.flatMap fun l => (s.getTile l).images.map fun i => (l, i.spadAt)) ++
  ((s.queues.filter fun q => !q.qcb.gring && !(r.queues.any fun d => d.qcb == q.pa)).flatMap fun q =>
    q.qcb.members.map fun m => (m.1, (q.qcb.ringAddr.toNat, q.qcb.cap * q.qcb.bytes)))

/-- The ring address of every queue with a ring in scratchpad, by its place in the request; or the first that does not fit. -/
def State.bindRings (s : State) (r : BindReq) : Except Nat (List (Nat × Nat)) :=
  let qs := r.queues.zipIdx.filter fun q => hasLocalRing q.1
  match s.bindPlaceFixed r qs (s.bindTaken r, []) with
  | .error i => .error i
  | .ok acc =>
    let free := (qs.filter fun q => (bindFixedRing r q.1).isNone).foldr insertQueue []
    match s.bindPlaceRest r free acc with
    | .error i => .error i
    | .ok (_, rs) => .ok rs

/-! ### Cycles (15 R342) -/

/-- A queue from one context to another, with the items an activation of each releases or takes. -/
structure Edge where
  q : Nat
  src : Nat × BitVec 2
  dst : Nat × BitVec 2
  out : Nat
  inp : Nat
  deriving DecidableEq, Repr

/-- A queue as the cycle check sees it. -/
structure FlowQueue where
  window : Nat
  seeds : Nat
  members : List (Nat × QReg)
  producers : List (Nat × QReg)
  deriving DecidableEq, Repr

/-- Endpoints of a bound queue by number. -/
def qregs (l : List (Nat × Nat)) : List (Nat × QReg) := l.map fun p => (p.1, BitVec.ofNat 4 p.2)

/-- The queues of a request, and those that earlier requests have bound. -/
def State.flowQueues (s : State) (r : BindReq) : List FlowQueue :=
  r.queues.map (fun q => { window := bindWindowOf r q, seeds := q.seeds, members := q.members, producers := q.producers }) ++
  (s.queues.filter fun q => !(r.queues.any fun d => d.qcb == q.pa)).map fun q =>
    { window := q.qcb.window, seeds := q.seeds, members := qregs q.qcb.members, producers := qregs q.producers }

/-- The context of an endpoint and the items that an activation of it takes or releases there: as the request declares, or as the image
declared that bound it. -/
def State.flowAt (s : State) (r : BindReq) (p : Nat × QReg) (input : Bool) : Option ((Nat × BitVec 2) × Nat) :=
  match declAt r p input with
  | some d => some ((p.1, d.1.num), d.2.rate)
  | none =>
    let e := s.epOf p.1 p.2.toNat
    if e.role = (if input then .input else .output) then some ((p.1, e.ctx), e.rate) else none

/-- The edges between contexts. -/
def State.bindEdges (s : State) (r : BindReq) : List Edge :=
  (s.flowQueues r).zipIdx.flatMap fun q => q.1.producers.flatMap fun p => q.1.members.filterMap fun m =>
    match s.flowAt r p false, s.flowAt r m true with
    | some a, some b => some { q := q.2, src := a.1, dst := b.1, out := a.2, inp := b.2 }
    | _, _ => none

/-- Simple cycles that begin with a path. -/
def cyclesFrom (es : List Edge) (start : Nat × BitVec 2) : Nat → List Edge → Nat × BitVec 2 → List (List Edge)
  | 0, _, _ => []
  | fuel + 1, path, at' =>
    (es.filter fun e => e.src == at' && !(path.any fun p => p.q == e.q || p.src == e.dst && e.dst != start)).flatMap fun e =>
      let path' := path ++ [e]
      if e.dst = start then [path'] else cyclesFrom es start fuel path' e.dst

/-- The cycles of the queues. -/
def State.bindCycles (s : State) (r : BindReq) : List (List Edge) :=
  let es := s.bindEdges r
  (es.map Edge.src).flatMap fun v => cyclesFrom es v ((s.flowQueues r).length + 1) [] v

/-- Neighbouring edges: no context releases more than it takes. -/
def ratesOk : Edge → List Edge → Bool
  | _, [] => true
  | e, f :: rest => decide (f.out ≤ e.inp) && ratesOk f rest

/-- A cycle that meets both conditions of 15 R342. -/
def State.bindCycleOk (s : State) (r : BindReq) (c : List Edge) : Bool :=
  let nodes := c.map Edge.src
  let qs := c.filterMap fun e => (s.flowQueues r)[e.q]?
  let windows := qs.foldl (fun n q => n + q.window) 0
  let seeds := qs.foldl (fun n q => n + q.seeds) 0
  (match c.getLast? with
   | some last => ratesOk last c
   | none => true) &&
  qs.all (fun q => q.producers.all fun p => (s.flowAt r p false).any fun d => nodes.contains d.1) && decide (seeds ≤ windows - 1)

/-! ### The checks in their order (18 R397) -/

/-- The place of the first element that a test accepts. -/
def firstAt {α : Type} (p : α → Bool) (l : List α) : Option Nat := (l.zipIdx.find? fun x => p x.1).map (·.2)

/-- A refusal: its code and the index of what offends. Contexts, handlers and banks are counted over the images of the request in order
(log 60). -/
abbrev Refused := Option (Nat × Nat)

/-- Refuse with a code and the index of the first offender, if there is one. -/
def refuseAt (code : Nat) (i : Option Nat) : Refused := i.map fun n => (code, n)

/-- Refuse with a code unless a condition holds. -/
def refuseUnless (code : Nat) (ok : Bool) : Refused := if ok then none else some (code, 0)

/-- Free L0 region indices of a tile, lowest first (16 R363). -/
def Tile.freeRegions (t : Tile) : List Nat :=
  (List.range 16).filter fun i => !((t.regions0[i]?.getD 0).getLsbD 0) && !(t.images.any fun m => m.region == some i)

/-- The loader may write a handler entry anew while its context is PARKED (15 R339). -/
def Tile.handlerOpen (t : Tile) (idx : Nat) (c : BitVec 2) : Bool :=
  t.handlers.all fun e => e.idx != idx || (e.ctx == c && (t.ctxs[c.toNat]'(c.isLt)).state == .parked)

/-- An image needs a region of its own on a tile: it has an L0 context and claims bytes. -/
def needsRegion (m : ImageMeta) : Bool := m.contexts.any (fun c => c.level == 0) && m.spadBytes != 0

/-- Every context of a bound image is PARKED, or unbound: a request without contexts may write its code, scratchpad and handler entries
(15 R339). -/
def Tile.imageRests (t : Tile) (i : BoundImage) : Bool :=
  t.ctxs.toList.all fun c => c.image != i.id || c.state == .parked || c.state == .unbound

/-- Two images may stand on a tile together: no accumulator and no byte of a claimed range in common (15 R319, R340). -/
def together (m1 : BitVec 16) (c1 : Span) (m2 : BitVec 16) (c2 : Span) : Bool := m1 &&& m2 == 0 && !(spansMeet c1 c2)

/-- Images that may all stand together. -/
def allTogether : List ImageMeta → Bool
  | [] => true
  | m :: ms => (ms.all fun n => together m.accMask (claimedBy m) n.accMask (claimedBy n)) && allTogether ms

/-- The sum of what some images declare. -/
def totalOf {α : Type} (f : α → Nat) (l : List α) : Nat := l.foldl (fun n x => n + f x) 0

/-- What an image reserves of each resource: its `.resources` total, or what it lists where that is more. -/
def ctxsOf (m : ImageMeta) : Nat := max m.ctxTotal m.contexts.length
def epsNeeded (m : ImageMeta) : Nat := max m.epTotal (declsOf m).length
def entriesOf (m : ImageMeta) : Nat := max m.handlerTotal m.handlers.length

/-- The images that a request places on a tile may stand there with those that are bound: contexts, endpoints, handler entries,
accumulators and claimed ranges (01 R20, 15 R340). -/
def State.resourceOk (s : State) (r : BindReq) (l : Nat) : Bool :=
  let t := s.getTile l
  let ms := (imagesOn r l).map ImagePlace.decls
  let again := (t.handlers.filter fun e => ms.any fun m => m.handlers.any fun h => h.1 == e.idx).length
  ms.all (fun m => decide (m.spadOrg + m.spadBytes ≤ Config.spadSize)) &&
  decide (totalOf BoundImage.ctxTotal t.images + totalOf ctxsOf ms ≤ 4) &&
  decide (totalOf BoundImage.epTotal t.images + totalOf epsNeeded ms ≤ 16) &&
  decide (totalOf BoundImage.handlerTotal t.images + totalOf entriesOf ms ≤ 240 + again) &&
  allTogether ms &&
  t.images.all fun i => ms.all fun m =>
    together i.accMask (i.spadOrg, i.spadBytes) m.accMask (claimedBy m) || (m.contexts.isEmpty && t.imageRests i)

/-- An L0 region index is free for every image of the request that needs one. -/
def State.regionOk (s : State) (r : BindReq) (l : Nat) : Bool :=
  decide (((imagesOn r l).filter fun m => needsRegion m.decls).length ≤ (s.getTile l).freeRegions.length)

/-- The numbers of a list, without repeats. -/
def distinct : List Nat → Bool
  | [] => true
  | x :: xs => !(xs.contains x) && distinct xs

/-- What a tile holds under a name of the request, by place: a context number, an endpoint, a handler index. -/
def State.ctxTaken (s : State) (r : BindReq) : Option Nat :=
  (r.images.flatMap fun m => m.decls.contexts.map fun c => (m, c)).zipIdx.findSome? fun p =>
    let same := fun (l : Nat) => ((imagesOn r l).flatMap fun n => n.decls.contexts).filter fun c => c.num == p.1.2.num
    if p.1.1.tiles.any fun l => (s.ctxOf l p.1.2.num).state != .unbound || decide (1 < (same l).length) then some p.2 else none
def State.epTaken (s : State) (r : BindReq) : Option Nat :=
  (r.images.flatMap fun m => (declsOf m.decls).map fun d => (m, d.2)).findSome? fun p =>
    let same := fun (l : Nat) => ((imagesOn r l).flatMap fun n => declsOf n.decls).filter fun d => d.2.ep == p.2.ep
    (p.1.tiles.find? fun l => ((s.getTile l).ep p.2.ep).role != .unbound || decide (1 < (same l).length)).map fun l =>
      (bindQueueOf r l p.2).getD 0
def State.handlerTaken (s : State) (r : BindReq) : Option Nat :=
  (r.images.flatMap fun m => m.decls.handlers.map fun h => (m, h)).zipIdx.findSome? fun p =>
    let h := p.1.2
    let same := fun (l : Nat) => ((imagesOn r l).flatMap fun n => n.decls.handlers).filter fun g => g.1 == h.1
    let bad := decide (h.1 < 16) || decide (256 ≤ h.1) ||
      p.1.1.tiles.any fun l => !((s.getTile l).handlerOpen h.1 h.2.1) || decide (1 < (same l).length)
    if bad then some p.2 else none

/-- A bank of an image conflicts with another image of its tiles, bound or of the request, or has a layout that its format does not have
(06 R134, R135). -/
def State.bankConflict (s : State) (r : BindReq) (m : ImagePlace) (b : BitVec 4 × BitVec 5) : Bool :=
  (bankPlane b.2 && !(planeCapable (bankFmt b.2))) ||
  m.tiles.any fun l =>
    ((s.getTile l).images.any fun i => i.banks.any fun x => x.1 == b.1 && x.2 != b.2) ||
    (imagesOn r l).any fun n => n.decls.banks.any fun x => x.1 == b.1 && x.2 != b.2

/-- A tile that an image may use: of the paddock and not retired; L1 contexts stand on service tiles (16 R361). -/
def State.placeOk (s : State) (c : PaddockCfg) (m : ImagePlace) (l : Nat) : Bool :=
  cfgHasTile c l && !(s.retired.contains l) &&
  m.decls.contexts.all fun d => d.level == 0 || (d.level == 1 && (l == c.svc0.toNat || l == c.svc1.toNat))

/-- The first entry of a table of n entries that the space an image declares for it does not hold (18 R398). -/
def tableOver (place : Option (Nat × Nat)) (n : Nat) : Option Nat :=
  match place with
  | some (_, space) => if 8 * n ≤ space then none else some (space / 8)
  | none => none

/-- Members or producers of a bound queue and those that a request adds. -/
def withNew (old : List (Nat × QReg)) (new : List (Nat × QReg)) : List (Nat × QReg) := old ++ new.filter fun p => !(old.contains p)

/-- The loader may give a bound queue other privileged fields: a context at one of its ends is PARKED (15 R339), or no context is at its
ends (which moments the loader accepts is the model's choice, log 51). -/
def State.queueOpen (s : State) (q : Queue) : Bool :=
  let ends := (q.qcb.members ++ q.producers).filter fun m => (s.epOf m.1 m.2).role != .unbound
  ends.isEmpty || ends.any fun m => (s.ctxOf m.1 (s.epOf m.1 m.2).ctx).state == .parked

/-- A queue that an earlier request has bound keeps its endpoints; this request's join them. Unless it is open, it keeps its window and its
ring too. -/
def State.attachQueue (s : State) (d : QueueDecl) : QueueDecl :=
  match s.queueAt d.qcb with
  | none => d
  | some q =>
    let d1 : QueueDecl :=
      { d with members := withNew (qregs q.qcb.members) d.members, producers := withNew (qregs q.producers) d.producers, seeds := max q.seeds d.seeds }
    if s.queueOpen q then
      { d1 with window := some (d.window.getD q.qcb.window), ringAddr := some (d.ringAddr.getD q.qcb.ringAddr.toNat) }
    else { d1 with window := some q.qcb.window, agent := q.qcb.agent, ringAddr := some q.qcb.ringAddr.toNat }

/-- A request with what is bound already taken into it. -/
def State.attach (s : State) (r : BindReq) : BindReq := { r with queues := r.queues.map s.attachQueue }

/-- The geometry of a queue that is bound already is the one this request gives. -/
def State.queueAgrees (s : State) (d : QueueDecl) : Bool :=
  match s.queueAt d.qcb with
  | none => true
  | some q => s.queueOpen q || q.qcb.fmt == d.fmt && q.qcb.logCap == d.logCap && q.qcb.isize == d.itemUnits && q.qcb.qprio == d.qprio && q.qcb.gring == d.gring

/-- The ring of a queue that is bound already stays where it is. -/
def State.ringAgrees (s : State) (r : BindReq) (d : QueueDecl) : Bool :=
  match s.queueAt d.qcb with
  | none => true
  | some q => s.queueOpen q || d.gring || bindFixedRing r d == some q.qcb.ringAddr.toNat

/-- FEATURE (18 R397): every bit that an image needs is there. -/
def featOk (c : PaddockCfg) (img : List Byte) : Bool :=
  let req := bitsOf (leAt img 8 8) 32 9
  req.land (maskedFeat c).toNat == req

/-- Tiles of the images in order, each with its image. -/
def bindPlaces (r : BindReq) : List (ImagePlace × Nat) := r.images.flatMap fun m => m.tiles.map fun l => (m, l)

/-- The checks about the images and the tiles: codes 1 to 6. -/
def State.tileChecks (s : State) (c : PaddockCfg) (r : BindReq) : List Refused :=
  [refuseUnless 1 (r.images.all fun m => imageWf m.image m.decls),
   refuseUnless 2 (r.images.all fun m => confsigOk m.image),
   refuseUnless 3 (r.images.all fun m => featOk c m.image),
   refuseAt 4 (firstAt (fun p => !(s.placeOk c p.1 p.2)) (bindPlaces r)),
   refuseAt 4 (firstAt (fun q => !((q.members ++ q.producers).all fun p => cfgHasTile c p.1 && !(s.retired.contains p.1))) r.queues),
   refuseUnless 5 ((bindTiles r).all (s.resourceOk r)),
   (if (bindTiles r).all (s.regionOk r) then none else some (5, (firstAt (fun (x : CtxDecl) => x.level == 0) (bindContexts r)).getD 0)),
   refuseAt 6 (s.ctxTaken r), refuseAt 6 (s.epTaken r), refuseAt 6 (s.handlerTaken r)]

/-- The checks about banks, contexts, rings and queues: codes 7 to 11. A cycle names its first queue among those of the request. -/
def State.queueChecks (s : State) (r : BindReq) : List Refused :=
  [refuseAt 7 (firstAt (fun b => s.bankConflict r b.1 b.2) (r.images.flatMap fun m => m.decls.banks.map fun b => (m, b))),
   refuseAt 8 (firstAt (fun (x : CtxDecl) => !(x.endpoints.any EpDecl.input)) (bindContexts r)),
   (match s.bindRings r with
    | .error i => some (9, i)
    | .ok _ => none),
   refuseAt 9 (firstAt (fun q => !(s.ringAgrees r q)) r.queues),
   refuseAt 10 (firstAt (fun q => !(bindGeomOk r q && s.queueAgrees q)) r.queues),
   ((s.bindCycles r).find? fun c => !(s.bindCycleOk r c)).map fun c =>
     (11, ((c.map Edge.q).find? fun i => decide (i < r.queues.length)).getD 0)]

/-- The checks about budgets and tables: codes 12 and 13. -/
def State.tableChecks (s : State) (c : PaddockCfg) (r : BindReq) : List Refused :=
  [refuseAt 12 (firstAt (fun (x : CtxDecl) => x.level == 0 && x.budget == 0) (bindContexts r)),
   refuseAt 13 (r.images.findSome? fun m => tableOver m.decls.kxCores (bindTiles r).length),
   refuseAt 13 (r.images.findSome? fun m => tableOver m.decls.kxRoutes r.routes.length),
   refuseAt 13 (firstAt (fun x => !(s.routes.any fun e => e.route == x && e.paddock == c.pnum)) r.routes)]

/-- The first check that fails. -/
def State.bindCheck (s : State) (c : PaddockCfg) (r : BindReq) : Refused :=
  (s.tileChecks c r ++ s.queueChecks r ++ s.tableChecks c r).findSome? id

/-- The placement is complete: images and their tiles, aligned bases, tables and control blocks, and a queue for every declared endpoint.
The spec has no code for a ROOT_PA that is not 8 KiB-aligned (04 R92): such a request is malformed, status 1 (DESIGN CHOICE, log 52). -/
def bindPlaced (r : BindReq) : Bool :=
  !r.images.isEmpty && r.images.all (fun m =>
    !m.tiles.isEmpty && distinct m.tiles && m.codeBase % 65536 == 0 && decide (m.codeBase < 2 ^ 41) && decide (m.globalBase < 2 ^ 41) &&
    m.tiles.all fun l => (declsOf m.decls).all fun d => (bindQueueOf r l d.2).isSome) &&
  r.maps.all (fun x => x.1 % 8 == 0) && r.rootPa % 8192 == 0 && r.queues.all (fun q => q.qcb % 128 == 0) && distinct (r.queues.map QueueDecl.qcb)

/-! ### What a bind writes (15 R318, R341; 16 R363; 18 R394, R398) -/

/-- The loader writes bytes at a physical address under a key, as the monitor does (03 R65). -/
def State.loadBytes (s : State) (key : BitVec 13) : Nat → Nat → List Byte → State
  | 0, _, _ => s
  | fuel + 1, pa, bs =>
    if bs.isEmpty then s
    else
      let n := 64 - pa % 64
      (s.sliceWrite (s.askerOf s.tile.ltn 31 true key) pa (bs.take n)).2.loadBytes key fuel (pa + n) (bs.drop n)

/-- Steps that loading bytes can take. -/
def loadFuel (bs : List Byte) : Nat := bs.length / 64 + 2

/-- The loader may use bytes for a paddock: they are of its channels and in no window (03 R65, 04 R90). -/
def State.loaderMay (s : State) (p : BitVec 5) (key : BitVec 13) (pa n : Nat) : Bool :=
  s.keyOk p key && s.physOk p 1 false false pa n && s.ownerOk (s.askerOf s.tile.ltn p false key) pa

/-- The table walk of the loader for an address: the physical address and the key of its leaf; none where the address is not mapped, or
mapped to what is not the paddock's (04 R93-R95; log 52). -/
def State.loaderWalk (s : State) (p : BitVec 5) (va : Nat) : Nat → Nat → Nat → BitVec 13 → Option (Nat × BitVec 13)
  | 0, _, _, _ => none
  | n + 1, lvl, table, key =>
    let ea := entryAddr table lvl va
    if !(s.loaderMay p key ea 8) then none
    else
      let (st, bs, _) := s.sliceRead (s.askerOf s.tile.ltn 31 true key) ea 8
      if !st.good then none
      else match walkEntry lvl ea (BitVec.ofNat 64 (ofLe bs)) with
      | .inl (.finds lf) =>
        if lf.pte.getLsbD 2 && lf.frame % 2 ^ pageBits lf.lvl == 0 && s.loaderMay p lf.key (lf.pa va) 1 then some (lf.pa va, lf.key) else none
      | .inl (.fails _) => none
      | .inr (t, k) => s.loaderWalk p va n (lvl + 1) t k

/-- Where the loader puts the bytes of a section: line by line, the physical address and key of each piece. -/
def State.loaderLines (s : State) (p : BitVec 5) (r : BindReq) : Nat → Nat → List Byte → Option (List (Nat × BitVec 13 × List Byte))
  | 0, _, _ => some []
  | fuel + 1, va, bs =>
    if bs.isEmpty then some []
    else
      let n := 64 - va % 64
      match s.loaderWalk p va 4 0 r.rootPa r.rootKey, s.loaderLines p r fuel (va + n) (bs.drop n) with
      | some (pa, key), some rest => some ((pa, key, bs.take n) :: rest)
      | _, _ => none

/-- The pieces of the code and global sections of a request's images; none where one of them is not mapped. -/
def State.sectionLines (s : State) (p : BitVec 5) (r : BindReq) : Option (List (Nat × BitVec 13 × List Byte)) :=
  r.images.foldl (fun acc m =>
    let secs := relocated m
    let code := secs.getD 0 []
    let glob := secs.getD 2 []
    match acc, s.loaderLines p r (loadFuel code) m.codeBase code, s.loaderLines p r (loadFuel glob) m.globalBase glob with
    | some a, some b, some c => some (a ++ b ++ c)
    | _, _, _ => none) (some [])

/-- The table entries of a request, which the loader writes under the paddock's key. -/
def State.writeMaps (s : State) (r : BindReq) : State :=
  r.maps.foldl (fun s x => s.loadBytes r.key 2 x.1 (leBytes 8 x.2.toNat)) s

/-- The pieces that the loader writes for the sections, once the table entries are there; none where the request does not map them, or
names entries that are not the paddock's. -/
def State.loaderPlan (s : State) (p : BitVec 5) (r : BindReq) : Option (List (Nat × BitVec 13 × List Byte)) :=
  if r.maps.all fun x => s.loaderMay p r.key x.1 8 then (s.writeMaps r).sectionLines p r else none

/-- The cached control block of a queue of a request. -/
def bindQcb (r : BindReq) (p : BitVec 5) (q : QueueDecl) (ring : Option Nat) : Qcb :=
  { fmt := q.fmt, logCap := q.logCap, isize := q.itemUnits, qprio := q.qprio, paddock := p, gring := q.gring, agent := q.agent,
    ringAddr := BitVec.ofNat 64 (if q.gring then q.ringAddr.getD 0 else ring.getD 0), window := bindWindowOf r q, nprod := q.producers.length,
    members := q.members.map fun m => (m.1, m.2.toNat) }

/-- Items of a producer endpoint that are out (15 R323). -/
def State.creditsOut (s : State) (q : Queue) (m : Nat × Nat) : Nat := q.qcb.window - (s.epOf m.1 m.2).credits

/-- The endpoints that a queue had before have its new ring and window; a producer's credits are those that are not out. -/
def State.refit (s : State) (q : Queue) (cb : Qcb) : State :=
  let s1 := q.qcb.members.foldl (fun s m => s.modTile m.1 fun t => t.modEp m.2 fun e => { e with ringAddr := cb.ringAddr.toNat }) s
  q.producers.foldl (fun s m => s.modTile m.1 fun t => t.modEp m.2 fun e => { e with credits := cb.window - (q.qcb.window - e.credits) }) s1

/-- A queue that is bound already: a rebind (15 R320). Its cached fields are compared with memory first; a difference freezes it. It takes
the request's fields, in memory and in every cached copy, and is frozen no longer where the two agreed (log 51). -/
def State.rebindQueue (s : State) (q : Queue) (cb : Qcb) (prods : List (Nat × Nat)) (seeds : Nat) : State :=
  let (same, s1) := s.compareQcb q ((q.qcb.members.head?.map (·.1)).getD 0)
  let s2 := (s1.refit q cb).modQueue q.pa fun x =>
    { x with qcb := cb, producers := prods, seeds := seeds, frozen := !same, bindGen := x.bindGen + 1 }
  match s2.queueAt q.pa with
  | none => s2
  | some x => ((s2.loadBytes x.key 3 q.pa (s2.qcbBytes cb)).writeQueueState x (if same then 1 else 2)).wakeMembers x

/-- A queue becomes BOUND, or is rebound: its control block is written, BINDGEN counts the bind. -/
def State.bindQueue (s : State) (p : BitVec 5) (r : BindReq) (rings : List (Nat × Nat)) (q : QueueDecl) (i : Nat) : State :=
  let cb := bindQcb r p q ((rings.find? fun x => x.1 == i).map (·.2))
  let prods := q.producers.map fun m => (m.1, m.2.toNat)
  match s.queueAt q.qcb with
  | some y => s.rebindQueue y cb prods q.seeds
  | none =>
    let (_, old, s0) := s.sliceRead (s.askerOf s.tile.ltn 31 true r.key) (q.qcb + 100) 4
    let x : Queue :=
      { pa := q.qcb, key := r.key, qcb := cb, producers := prods, seeds := q.seeds, frozen := false, bindGen := BitVec.ofNat 32 (ofLe old + 1),
        released := 0, etime := 0 }
    let s1 : State := { s0 with queues := s0.queues ++ [x] }
    (s1.loadBytes x.key 3 q.qcb (s1.qcbBytes cb)).writeQueueState x 1

/-- A context as its bind leaves it: BINDING. -/
def boundCtx (r : BindReq) (m : ImagePlace) (image : Nat) (c : CtxDecl) : Ctx :=
  { Ctx.reset with
      state := .binding, image := image, entry := BitVec.ofNat 64 (m.codeBase + c.entry),
      fallow := c.fallow.map fun o => BitVec.ofNat 64 (m.codeBase + o), mode := c.mode, prio := c.prio, lvl := c.level, accMask := m.decls.accMask,
      rootPa := r.rootPa, rootKey := r.rootKey, asid := r.asid, budget := c.budget, cbase := BitVec.ofNat 64 m.codeBase,
      clim := BitVec.ofNat 64 (m.codeBase + (sectionOf m.image 0).bytes) }

/-- An endpoint as its bind leaves it; an output has its window in credits. -/
def State.boundEp (s : State) (r : BindReq) (l : Nat) (c : CtxDecl) (e : EpDecl) : Endpoint :=
  match (bindQueueOf r l e).bind fun i => r.queues[i]? with
  | none => Endpoint.reset
  | some q =>
    { Endpoint.reset with
        role := if e.input then .input else .output, ctx := c.num, qcb := q.qcb, rate := e.rate,
        ringAddr := if e.input then ((s.queueAt q.qcb).map fun x => x.qcb.ringAddr.toNat).getD 0 else 0,
        credits := if e.input then 0 else bindWindowOf r q }

/-- The descriptor that grants a claimed range (16 R363). -/
def claimedRegion (m : ImageMeta) : DW :=
  BitVec.ofNat 64 (7 + (m.spadOrg / 64) * 2 ^ 6 + ((m.spadOrg + m.spadBytes - 1) / 64) * 2 ^ 26)

/-- A table of doublewords that the image asks for (18 R398). -/
def putTable (t : Tile) (place : Option (Nat × Nat)) (vs : List Nat) : Tile :=
  match place with
  | some (a, _) => t.writeSpad a (vs.flatMap (leBytes 8))
  | none => t

/-- New code is not read from old copies (14 R314). -/
def Tile.forgetCode (t : Tile) : Tile := { t with icache := [], codeBad := [] }

/-- The handler entries that an image writes: an entry is of the image of its context (15 R339, 16 R363). -/
def Tile.newHandlers (t : Tile) (m : ImagePlace) (image : Nat) : List HandlerEntry :=
  m.decls.handlers.map fun h =>
    { idx := h.1, ctx := h.2.1, pc := BitVec.ofNat 64 (m.codeBase + h.2.2),
      image := if m.decls.contexts.isEmpty then (t.ctxs[h.2.1.toNat]'(h.2.1.isLt)).image else image }

/-- An image of the request is bound on a tile. One without contexts writes the code, the scratchpad and the handler entries of what stands
there, and is no image of its own (15 R339). -/
def State.bindTile (s : State) (r : BindReq) (p : BitVec 5) (m : ImagePlace) (image : Nat) (l : Nat) : State :=
  let d := m.decls
  let sec := sectionOf m.image 1
  s.modTile l fun t =>
    let region := if needsRegion d then t.freeRegions.head? else none
    let img : BoundImage :=
      { id := image, spadOrg := d.spadOrg, spadBytes := d.spadBytes, spadAt := (sec.origin, sec.bytes), ctxTotal := ctxsOf d, epTotal := epsNeeded d,
        handlerTotal := entriesOf d, ctxs := d.contexts.map CtxDecl.num, accMask := d.accMask, region := region, banks := d.banks, vf := r.svc.vf }
    let t := (t.writeSpad sec.origin ((relocated m).getD 1 [])).forgetCode
    let t := putTable (putTable t d.kxCores ((bindTiles r).map s.gid)) d.kxRoutes (r.routes.map BitVec.toNat)
    let t := d.contexts.foldl (fun t c => t.modCtx c.num fun _ => boundCtx r m image c) t
    let t := (declsOf d).foldl (fun t x => { t with eps := t.eps.set x.2.ep.toNat (s.boundEp r l x.1 x.2) x.2.ep.isLt }) t
    let t := d.banks.foldl (fun t b => { t with bfmt := t.bfmt.set b.1.toNat b.2 b.1.isLt }) t
    { t with paddock := p, refusals := 0, images := if d.contexts.isEmpty then t.images else t.images ++ [img],
             handlers := (t.handlers.filter fun e => !(d.handlers.any fun h => h.1 == e.idx)) ++ t.newHandlers m image,
             regions0 := match region with
               | some i => t.regions0.setIfInBounds i (claimedRegion d)
               | none => t.regions0 }

/-- A bind marker on an output, which takes a credit (15 R341). -/
def State.bindMarker (s : State) (l ep : Nat) : State :=
  (s.releaseItem l ep 3 0 0 0 []).modTile l fun t => t.modEp ep fun e => { e with credits := e.credits - 1 }

/-- The markers of the bind wave: the contexts' own, and the loader's for queues fed from outside the region. -/
def State.bindWave (s : State) (r : BindReq) : State :=
  let outs := (bindPlaces r).flatMap fun p => ((declsOf p.1.decls).filter fun d => !d.2.input).map fun d => (p.2, d.2.ep.toNat)
  let s1 := outs.foldl (fun s o => s.bindMarker o.1 o.2) s
  (r.queues.filter QueueDecl.external).foldl (fun s q =>
    match s.queueAt q.qcb with
    | some x => s.launchItems x x.qcb.members .bindMarker 3 0 0 []
    | none => s) s1

/-- A bind cannot be written yet: a command in flight touches a bank that it formats (06 R135), a line that it writes has a request that
its slice has taken (03 R78, R80; 12 R268), or a producer has more items out than the window that the request gives it. -/
def State.bindBusy (s : State) (r : BindReq) (plan : List (Nat × BitVec 13 × List Byte)) : Bool :=
  (r.images.any fun m => m.tiles.any fun l => m.decls.banks.any fun b => (s.getTile l).bankBusy b.1.toNat) ||
  (r.queues.any fun d => s.qcbBusy d.qcb ||
    (s.queueAt d.qcb).any fun q => q.producers.any fun m => decide (bindWindowOf r d < s.creditsOut q m)) ||
  (r.maps.any fun x => s.lineBusy x.1) || plan.any fun x => s.lineBusy x.1

/-- The pieces of sections are written. -/
def State.writeLines (s : State) (plan : List (Nat × BitVec 13 × List Byte)) : State :=
  plan.foldl (fun s x => s.loadBytes x.2.1 2 x.1 x.2.2) s

/-- A bind that passed its checks. -/
def State.doBind (s : State) (p : BitVec 5) (r : BindReq) (rings : List (Nat × Nat)) (plan : List (Nat × BitVec 13 × List Byte)) : State :=
  let s2 := (s.writeMaps r).writeLines plan
  let s3 := r.queues.zipIdx.foldl (fun s q => s.bindQueue p r rings q.1 q.2) s2
  let s4 := r.images.zipIdx.foldl (fun s m => m.1.tiles.foldl (fun s l => s.bindTile r p m.1 (s3.imageNo + m.2) l) s) s3
  let h : BindHandle :=
    { handle := s.imageNo, vf := r.svc.vf, contexts := (bindPlaces r).flatMap fun x => x.1.decls.contexts.map fun c => (x.2, c.num),
      queues := r.queues.map QueueDecl.qcb }
  { s4.bindWave r with imageNo := s.imageNo + r.images.length, handles := s4.handles ++ [h] }

/-- What a bind request comes to. -/
inductive BindEnd where
  /-- Malformed: BADREQ. -/
  | malformed
  | refused (code index : Nat)
  /-- What it writes is in use: it waits. -/
  | busy
  | done (s : State)

/-- A bind request at the loader, for a paddock (17 R382, 18 R397). -/
def State.bindEnd (s : State) (c : PaddockCfg) (r0 : BindReq) : BindEnd :=
  let r := s.attach r0
  if !(bindPlaced r) then .malformed
  else
    match s.bindCheck c r, s.bindRings r, s.loaderPlan c.pnum r with
    | some (code, i), _, _ => .refused code i
    | none, .error i, _ => .refused 9 i
    | none, .ok _, none => .malformed
    | none, .ok rings, some plan => if s.bindBusy r plan then .busy else .done (s.doBind c.pnum r rings plan)

end Sys2Proof.Machine
end

