-- ==== Sys2Proof/Machine/Signature.lean ====
section
/-! DEFINITION. Sys2Proof/Machine/Signature.lean: verification of the two signatures of an image (17 R388), written out from their
standards (log 8): RSASSA-PSS with RSA-3072, SHA-384 and a salt of 48 bytes, and SLH-DSA-SHA2-192s of FIPS 205. -/
namespace Sys2Proof.Machine

/-! ### SHA-512 and SHA-256 -/

/-- SHA-512 of a message: 64 bytes. -/
def sha512 (m : List Byte) : List Byte :=
  let p := shaPad m
  (shaBlocks (p.length / 128) ((shaPrimes.take 8).map (rootFraction 2)) p).flatMap fun x => (leBytes 8 x.toNat).reverse

/-- The first 32 bits of the fraction of the `k`-th root of `p`. -/
def rootFraction32 (k p : Nat) : BitVec 32 := (rootFraction k p >>> 32).setWidth 32

/-- A message padded to whole 64-byte blocks: a one bit, zeros, its length in bits as 8 bytes. -/
def shaPad32 (m : List Byte) : List Byte :=
  m ++ 0x80 :: List.replicate ((119 - m.length % 64) % 64) 0 ++ (leBytes 8 (8 * m.length)).reverse

/-- The message schedule of SHA-256. -/
def shaSchedule32 : Nat → List (BitVec 32) → List (BitVec 32)
  | 0, _ => []
  | n + 1, w =>
    let x := fun i => w.getD i 0
    let s0 := fun (v : BitVec 32) => v.rotateRight 7 ^^^ v.rotateRight 18 ^^^ v >>> 3
    let s1 := fun (v : BitVec 32) => v.rotateRight 17 ^^^ v.rotateRight 19 ^^^ v >>> 10
    x 0 :: shaSchedule32 n (w.drop 1 ++ [s1 (x 14) + x 9 + s0 (x 1) + x 0])

/-- One round of SHA-256. -/
def shaRound32 (v : List (BitVec 32)) (kw : BitVec 32) : List (BitVec 32) :=
  let x := fun i => v.getD i 0
  let a := x 0
  let e := x 4
  let t := x 7 + (e.rotateRight 6 ^^^ e.rotateRight 11 ^^^ e.rotateRight 25) + (e &&& x 5 ^^^ ~~~e &&& x 6) + kw
  let u := (a.rotateRight 2 ^^^ a.rotateRight 13 ^^^ a.rotateRight 22) + (a &&& x 1 ^^^ a &&& x 2 ^^^ x 1 &&& x 2)
  [t + u, a, x 1, x 2, x 3 + t, e, x 5, x 6]

/-- The blocks of a padded message, folded into the hash words of SHA-256. -/
def shaBlocks32 : Nat → List (BitVec 32) → List Byte → List (BitVec 32)
  | 0, h, _ => h
  | n + 1, h, bs =>
    let w := (List.range 16).map fun i => BitVec.ofNat 32 (ofLe ((bs.drop (4 * i)).take 4).reverse)
    let kws := List.zipWith (· + ·) ((shaPrimes.take 64).map (rootFraction32 3)) (shaSchedule32 64 w)
    shaBlocks32 n (List.zipWith (· + ·) h (kws.foldl shaRound32 h)) (bs.drop 64)

/-- SHA-256 of a message: 32 bytes. -/
def sha256 (m : List Byte) : List Byte :=
  let p := shaPad32 m
  (shaBlocks32 (p.length / 64) ((shaPrimes.take 8).map (rootFraction32 2)) p).flatMap fun x => (leBytes 4 x.toNat).reverse

/-- The number that bytes spell, highest first, and `n` bytes that spell a number. -/
def ofBe (bs : List Byte) : Nat := ofLe bs.reverse
def beBytes (n v : Nat) : List Byte := (leBytes n v).reverse

/-- The mask generator MGF1 over a hash of `h` bytes: the first `n` bytes. -/
def mgf1 (hash : List Byte → List Byte) (h : Nat) (seed : List Byte) (n : Nat) : List Byte :=
  ((List.range ((n + h - 1) / h)).flatMap fun i => hash (seed ++ beBytes 4 i)).take n

/-! ### RSASSA-PSS (RFC 8017) -/

/-- A power modulo `n`, over the bits of the exponent from bit `k - 1` down. -/
def powMod (b e n : Nat) : Nat → Nat
  | 0 => 1 % n
  | k + 1 =>
    -- the exponent's bits above bit k come first
    let r := powMod b (e / 2) n k
    if e % 2 = 1 then r * r % n * b % n else r * r % n

/-- Bytes of an RSA-3072 signature, of a digest and of the salt. -/
def rsaBytes : Nat := 384
def pssHash : Nat := 48
def pssSalt : Nat := 48

/-- The encoded message of a signature belongs to a digest. -/
def pssOk (digest em : List Byte) : Bool :=
  let dbLen := rsaBytes - pssHash - 1
  let masked := em.take dbLen
  let h := (em.drop dbLen).take pssHash
  let db0 := xorBytes masked (mgf1 sha384 48 h dbLen)
  let db := match db0 with
    | b :: r => (b &&& 0x7F) :: r
    | [] => []
  let zeros := dbLen - pssSalt - 1
  em.getLastD 0 == 0xBC && !((masked.headD 0).getLsbD 7) && db.take zeros == List.replicate zeros 0 && db.getD zeros 0 == 1 &&
    sha384 (List.replicate 8 0 ++ digest ++ db.drop (zeros + 1)) == h

/-- RSASSA-PSS verification of a digest under a modulus of 3,072 bits and an exponent. -/
def rsaVerify (key : Nat × Nat) (digest sig : List Byte) : Bool :=
  let n := key.1
  decide (2 ^ 3071 ≤ n) && decide (n < 2 ^ 3072) && sig.length == rsaBytes && decide (ofBe sig < n) &&
    pssOk digest (beBytes rsaBytes (powMod (ofBe sig) key.2 n (Nat.log2 key.2 + 1)))

/-! ### SLH-DSA-SHA2-192s (FIPS 205) -/

/-- Sizes of the parameter set: n, the height of the hypertree, its layers, the height of one, the trees of FORS and their height, the
digits of a WOTS+ message and its checksum. -/
def slhN : Nat := 24
def slhH : Nat := 63
def slhD : Nat := 7
def slhHp : Nat := 9
def slhK : Nat := 17
def slhA : Nat := 14
def slhLen1 : Nat := 48
def slhLen2 : Nat := 3
def slhLen : Nat := slhLen1 + slhLen2

/-- An address of a hash: layer, tree, type, key pair, chain or height, hash or index. -/
structure SlhAddr where
  layer : Nat
  tree : Nat
  type : Nat
  pair : Nat
  chain : Nat
  hash : Nat
  deriving DecidableEq, Repr

/-- An address in its compressed form of 22 bytes. -/
def slhAddrBytes (a : SlhAddr) : List Byte :=
  beBytes 1 a.layer ++ beBytes 8 a.tree ++ beBytes 1 a.type ++ beBytes 4 a.pair ++ beBytes 4 a.chain ++ beBytes 4 a.hash

/-- The hash of one value, and that of several. -/
def slhF (seed : List Byte) (a : SlhAddr) (m : List Byte) : List Byte :=
  (sha256 (seed ++ List.replicate 40 0 ++ slhAddrBytes a ++ m)).take slhN
def slhT (seed : List Byte) (a : SlhAddr) (m : List Byte) : List Byte :=
  (sha512 (seed ++ List.replicate 104 0 ++ slhAddrBytes a ++ m)).take slhN

/-- The first `n` digits of `b` bits of a string, highest first. -/
def slhDigits (bs : List Byte) (b n : Nat) : List Nat :=
  let v := ofBe bs
  (List.range n).map fun i => v / 2 ^ (8 * bs.length - b * (i + 1)) % 2 ^ b

/-- The `i`-th value of n bytes. -/
def slhPart (bs : List Byte) (i : Nat) : List Byte := (bs.drop (slhN * i)).take slhN

/-- A hash chain from position `i` over `s` steps. -/
def slhChain (seed : List Byte) (a : SlhAddr) (i : Nat) : Nat → List Byte → List Byte
  | 0, x => x
  | s + 1, x => slhChain seed a (i + 1) s (slhF seed { a with hash := i } x)

/-- The root of a path: from height `j`, over the values of the path. -/
def slhPath (seed : List Byte) (a : SlhAddr) (idx : Nat) : Nat → List (List Byte) → List Byte → List Byte
  | _, [], node => node
  | j, p :: ps, node =>
    let b := { a with chain := j + 1, hash := idx / 2 }
    slhPath seed a (idx / 2) (j + 1) ps (slhT seed b (if idx % 2 = 0 then node ++ p else p ++ node))

/-- The WOTS+ public key that a signature gives for a message. -/
def slhWots (seed : List Byte) (a : SlhAddr) (sig msg : List Byte) : List Byte :=
  let ds := slhDigits msg 4 slhLen1
  let sum := ds.foldl (fun n d => n + (15 - d)) 0
  let all := ds ++ slhDigits (beBytes 2 (sum * 16)) 4 slhLen2
  slhT seed { a with type := 1, chain := 0, hash := 0 }
    (all.zipIdx.flatMap fun d => slhChain seed { a with type := 0, chain := d.2 } d.1 (15 - d.1) (slhPart sig d.2))

/-- The root of an XMSS tree that a signature gives for a message. -/
def slhXmss (seed : List Byte) (layer tree leaf : Nat) (sig msg : List Byte) : List Byte :=
  let a : SlhAddr := { layer := layer, tree := tree, type := 0, pair := leaf, chain := 0, hash := 0 }
  slhPath seed { a with type := 2, pair := 0 } leaf 0 ((List.range slhHp).map fun i => slhPart sig (slhLen + i)) (slhWots seed a sig msg)

/-- The layers of the hypertree from `j` on, `n` of them left. -/
def slhTree (seed sig : List Byte) : Nat → Nat → Nat → Nat → List Byte → List Byte
  | 0, _, _, _, node => node
  | n + 1, j, tree, leaf, node =>
    let part := sig.drop (slhN * (slhLen + slhHp) * j)
    slhTree seed sig n (j + 1) (tree / 2 ^ slhHp) (tree % 2 ^ slhHp) (slhXmss seed j tree leaf part node)

/-- The FORS public key that a signature gives for a digest. -/
def slhFors (seed : List Byte) (tree leaf : Nat) (sig md : List Byte) : List Byte :=
  let a : SlhAddr := { layer := 0, tree := tree, type := 3, pair := leaf, chain := 0, hash := 0 }
  let roots := (slhDigits md slhA slhK).zipIdx.flatMap fun d =>
    let part := sig.drop (slhN * (slhA + 1) * d.2)
    let idx := d.2 * 2 ^ slhA + d.1
    slhPath seed a idx 0 ((List.range slhA).map fun j => slhPart part (1 + j)) (slhF seed { a with hash := idx } (slhPart part 0))
  slhT seed { a with type := 4 } roots

/-- SLH-DSA verification of a message with an empty context, under a public key of 48 bytes. -/
def slhVerify (key msg sig : List Byte) : Bool :=
  let seed := key.take slhN
  let root := key.drop slhN
  let r := sig.take slhN
  let d := mgf1 sha512 64 (r ++ seed ++ sha512 (r ++ seed ++ root ++ [0, 0] ++ msg)) 39
  let tree := ofBe ((d.drop 30).take 7) % 2 ^ (slhH - slhHp)
  let leaf := ofBe ((d.drop 37).take 2) % 2 ^ slhHp
  let pk := slhFors seed tree leaf (sig.drop slhN) (d.take 30)
  key.length == 48 && sig.length == slhN * (1 + slhK * (1 + slhA) + slhH + slhD * slhLen) &&
    slhTree seed (sig.drop (slhN * (1 + slhK * (1 + slhA)))) slhD 0 tree leaf pk == root

end Sys2Proof.Machine
end

