-- ==== Sys2Proof/Machine/Boot.lean ====
section
/-! DEFINITION. Sys2Proof/Machine/Boot.lean: package reset, the verification of images and bring-up (17 R388, R389, R392). -/
namespace Sys2Proof.Machine

/-- Kinds of images: the monitor, the configuration, and from 2 on the service image of each paddock number. -/
def serviceKind (p : BitVec 5) : Nat := 2 + p.toNat

/-- An image is accepted when both signatures over its SHA-384 digest verify under the keys that the roots name, and its security version
is not below the minimum of its kind (17 R388, R389). -/
def imageOk (roots : List Byte) (mins : List (Nat × BitVec 32)) (i : BootImage) : Bool :=
  let d := sha384 i.bytes
  rsaVerify (Config.rsaKey roots) d i.rsa && slhVerify (Config.slhKey roots) d i.slh &&
  mins.all fun m => m.1 != i.kind || decide (m.2.toNat ≤ i.version.toNat)

/-- A tile that fails its self-test is remapped to the lowest free spare of its die, or retired where none is left (01 R23, 17 R392). -/
def State.failTile (s : State) (l : Nat) : State :=
  if Config.tileCount ≤ l then s
  else match s.sparesFree (dieOf l) with
  | [] => { s with retired := insertNat l s.retired }
  | slot :: _ => s.moveToSpare l slot

/-- A service program of a paddock is bound, as a bind request does it; the monitor keeps no handle of it (17 R392). -/
def State.bindService (s : State) (r : BindReq) : State :=
  match s.vfOwner r.svc.vf with
  | none => s
  | some c => match s.bindEnd c r with
    | .done s1 => { s1 with handles := s.handles }
    | _ => s

/-- The monitor takes over what the configuration image carries, replaces the tiles that fail their self-test, configures the paddocks whose
service images are not refused, and binds their service programs (17 R392). -/
def State.bringUp (s : State) (b : BootInput) (accepted : List BootImage) : State :=
  let refused := (b.images.filter fun i => !(accepted.contains i)).map BootImage.kind
  let cs := b.paddocks.filter fun c => !(refused.contains (serviceKind c.pnum))
  let s1 : State :=
    { s with pkg := b.pkg, tb := b.timeBase, large := b.regime, timeRoot := b.timeRoot, synced := b.timeRoot, spareMap := b.spareMap,
             images := accepted.map BootImage.bytes, roots := b.roots, minVersions := b.minVersions }
  let s2 := b.failedTiles.foldl State.failTile s1
  if cfgOk b.paddocks then b.services.foldl State.bindService (s2.configure cs) else s2

/-- The package as reset leaves it, with what is not the machine's own: what it has told the outside, the turns to come, the draw of
free values. -/
def State.afterReset (s : State) : State := { State.reset with hostOut := s.hostOut, agenda := s.agenda, free := s.free, input := s.input }

/-- `PACKAGE_RESET` (17 R388-R392): the boot block verifies the monitor image, the monitor the configuration image and then each other
image, and brings the package up. A failed monitor image holds the package in reset. -/
def execPackageReset (b : BootInput) (s : State) : Host.Outcome State Fault Refusal :=
  event (
    let s0 := s.afterReset
    let ok := imageOk b.roots b.minVersions
    match b.images with
    | m :: c :: rest =>
      if m.kind ≠ 0 ∨ !(ok m) then { s0 with bootFailed := true, halted := true, hostOut := s0.hostOut ++ [.pfReport 1] }
      else if c.kind ≠ 1 ∨ !(ok c) then { s0 with images := [m.bytes], roots := b.roots, hostOut := s0.hostOut ++ [.pfReport 2] }
      else s0.bringUp b (m :: c :: rest.filter ok)
    | _ => { s0 with bootFailed := true, halted := true, hostOut := s0.hostOut ++ [.pfReport 1] })

end Sys2Proof.Machine
end

