-- ==== Sys2Proof/Machine/Branch.lean ====
section
/-! DEFINITION. Sys2Proof/Machine/Branch.lean: branches and hardware loops (14 R304-R311). -/
namespace Sys2Proof.Machine

/-- `BEQ` (14 R305). -/
def execBeq (a b : SReg) (off : BitVec 11) (s : State) : Host.Outcome State Fault Refusal :=
  condBranch (.beq a b off) 0 a b off s

/-- `BNE` (14 R305). -/
def execBne (a b : SReg) (off : BitVec 11) (s : State) : Host.Outcome State Fault Refusal :=
  condBranch (.bne a b off) 1 a b off s

/-- `BLT` (14 R305). -/
def execBlt (a b : SReg) (off : BitVec 11) (s : State) : Host.Outcome State Fault Refusal :=
  condBranch (.blt a b off) 2 a b off s

/-- `BGE` (14 R305). -/
def execBge (a b : SReg) (off : BitVec 11) (s : State) : Host.Outcome State Fault Refusal :=
  condBranch (.bge a b off) 3 a b off s

/-- `BLTN` (14 R305). -/
def execBltn (a b : SReg) (off : BitVec 11) (s : State) : Host.Outcome State Fault Refusal :=
  condBranch (.bltn a b off) 4 a b off s

/-- `BGEN` (14 R305). -/
def execBgen (a b : SReg) (off : BitVec 11) (s : State) : Host.Outcome State Fault Refusal :=
  condBranch (.bgen a b off) 5 a b off s

/-- `JMP` (14 R306). -/
def execJmp (off : BitVec 26) (s : State) : Host.Outcome State Fault Refusal :=
  run (.jmp off) s fun s => s.branchTo (s.target off)

/-- `JMPR` (14 R307): the offset counts bytes. -/
def execJmpr (a : SReg) (i : BitVec 16) (s : State) : Host.Outcome State Fault Refusal :=
  run (.jmpr a i) s fun s => s.branchTo (s.reg a + s.imm i)

/-- Change a loop level of the issuing strand. -/
def Strand.onLoop (x : Strand) (lvl : BitVec 1) (f : LoopLevel → LoopLevel) : Strand :=
  if lvl = 0 then { x with loop0 := f x.loop0 } else { x with loop1 := f x.loop1 }

/-- `loop` and `loopi` (14 R308): the level is set, and a count of 0 skips the body. -/
def State.startLoop (s : State) (lvl : BitVec 1) (count : BitVec 32) (len : BitVec 11) : Exec :=
  let w := s.st.pc
  let last : DW := w + 4 * len.zeroExtend 64
  let s' := s.onSt fun x => x.onLoop lvl fun _ =>
    { lc := count, ls := w + 4, le := last, active := decide (count ≠ 0), pendLc := none, pendLs := none, pendLe := none }
  if count = 0 then s'.branchTo (last + 4) else .ok s'

/-- `LOOP` (14 R308). -/
def execLoop (lvl : BitVec 1) (a : SReg) (len : BitVec 11) (s : State) : Host.Outcome State Fault Refusal :=
  run (.loop lvl a len) s fun s =>
    if len = 0 then s.trap .ill else s.startLoop lvl ((s.reg a).truncate 32) len

/-- `LOOPI` (14 R308): a count of 2^32 or more raises ILL. -/
def execLoopi (lvl : BitVec 1) (cnt : BitVec 13) (len : BitVec 11) (s : State) : Host.Outcome State Fault Refusal :=
  run (.loopi lvl cnt len) s fun s =>
    if len = 0 ∨ 2 ^ 32 ≤ (s.immU cnt).toNat then s.trap .ill else s.startLoop lvl ((s.immU cnt).truncate 32) len

end Sys2Proof.Machine
end

