-- ==== Sys2Proof/Machine/Futures.lean ====
section
/-! DEFINITION. Sys2Proof/Machine/Futures.lean: futures, triggers and joins (13 R287-R292). -/
namespace Sys2Proof.Machine

/-- Translate the address of a future or a join for read and write (13 R290). -/
def State.xlateBoth (s : State) (va : DW) (n : Nat) : Except Stop (Nat × BitVec 13 × State) := do
  let (_, _, s1) ← s.xlate (.atomic s.cur) va n 0
  s1.xlate (.atomic s.cur) va n 1

/-- `FUT_RES` (13 R290): acts with rl at package scope. -/
def execFutRes (d a b : SReg) (s : State) : Host.Outcome State Fault Refusal :=
  run (.futRes d a b) s fun s => do
    s.checkAt ((s.reg a).toNat % 8 == 0) .align (s.reg a)
    let (pa, key, s1) ← s.xlateBoth (s.reg a) 8
    s1.check (decide ((s.reg b).toNat < 2 ^ 33)) .prot
    s1.release true 3
    (s1.localFence 3 true false).launch (.futRes ((s.reg b).setWidth 32) ((s.reg b).getLsbD 32)) (s.reg a) pa key 0 0 d true false

/-- `FUT_REG` (13 R290). -/
def execFutReg (d a b : SReg) (s : State) : Host.Outcome State Fault Refusal :=
  run (.futReg d a b) s fun s => do
    s.checkAt ((s.reg a).toNat % 8 == 0) .align (s.reg a)
    s.checkAt ((s.reg b).toNat % 16 == 0) .align (s.reg b)
    let (pa, key, s1) ← s.xlateBoth (s.reg a) 8
    let (join, _, s2) ← s1.xlateBoth (s.reg b) 16
    s2.launch (.futReg join) (s.reg a) pa key 0 0 d true false

/-- `FUT_RST` (13 R290). -/
def execFutRst (d a : SReg) (s : State) : Host.Outcome State Fault Refusal :=
  run (.futRst d a) s fun s => do
    s.checkAt ((s.reg a).toNat % 8 == 0) .align (s.reg a)
    let (pa, key, s1) ← s.xlateBoth (s.reg a) 8
    s1.launch .futRst (s.reg a) pa key 0 0 d true false

/-- `FUT_ON` (13 R290, R292): the entry fires when DONE reaches n, at once if it has. -/
def execFutOn (a b : SReg) (c : CReg) (s : State) : Host.Outcome State Fault Refusal :=
  run (.futOn a b c) s fun s => do
    s.checkAt ((s.reg a).toNat % 8 == 0) .align (s.reg a)
    let (pa, key, s1) ← s.xlateBoth (s.reg a) 8
    s1.check (decide ((s.reg b).toNat ≤ (s.tile.ctr c).issue)) .prot
    s1.check (decide (s.tile.triggers.length < 16)) .qfault
    let g : Trigger := { ctr := c, n := (s.reg b).toNat, pa := pa, key := key }
    .ok ((s1.onTile fun t => { t with triggers := t.triggers ++ [g] }).fireTriggers s.tile.ltn 17)

/-! ### Joins (13 R288, R289) -/

/-- The endpoint a join names takes its item: an input of a bound context of the join's paddock, with 16-byte items. -/
def State.joinTarget (s : State) (p : BitVec 5) (gid ep : Nat) : Option Queue :=
  let e := s.epOf (gid % 1024) ep
  if gid / 1024 = s.pkg.toNat ∧ s.inPaddock p (gid % 1024) ∧ e.role = .input then
    (s.queueAt e.qcb).filter fun q => q.qcb.bytes == 16
  else none

/-- `JOIN_DECREMENT` (13 R289): decrement `k` is applied at the home slice of its join. -/
def execJoinDecrement (s : State) : Host.Outcome State Fault Refusal :=
  event (match s.joins[s.input.k]? with
  | none => s
  | some j =>
    if s.lineBusy j.pa then s
    else
      let home := sliceOf j.pa
      let a : Asker :=
        { source := 2 ^ 22 + s.pkg.toNat * 2 ^ 10 + j.slice, paddock := j.paddock, l2 := false, key := j.key }
      let same := fun (e : IdEntry) => e.slice == home && e.source == BitVec.ofNat 23 a.source && e.lane == j.lane
      let gone := fun (s : State) => ({ s with joins := dropAt s.input.k s.joins } : State)
      if s.idTable.any fun e => same e && e.seq == j.seq then gone s
      else match s.idRoom home same with
      | none => s
      | some s0 =>
        let (st, bs, s1) := (gone s0).sliceRead a j.pa 16
        if !st.good then s1
        else
          let d0 := ofLe (bs.take 8)
          let d1 := ofLe (bs.drop 8)
          let entry : IdEntry :=
            { slice := home, source := BitVec.ofNat 23 a.source, lane := j.lane, seq := j.seq, old := BitVec.ofNat 64 d0,
              cause := .none, lastUse := s.tb.toNat }
          let s2 : State := { s1 with idTable := upsert same (fun _ => entry) s1.idTable }
          let count := bitsOf d0 0 16
          if bitOf d0 16 ∨ count = 0 then s2.postFault j.paddock 0 20 0 [(44, 8, j.pa)]
          else
            let fail := bitOf d0 17 || j.fail
            let w := (count - 1) + (if count = 1 then 2 ^ 16 else 0) + (if fail then 2 ^ 17 else 0) + bitsOf d0 18 46 * 2 ^ 18
            let s3 := s2.writeBack a j.pa 8 w
            if count ≠ 1 then s3
            else
              match s.joinTarget j.paddock (bitsOf d1 0 22) (bitsOf d1 22 4) with
              | some q => s3.agentPush q [(bitsOf d1 0 22 % 1024, bitsOf d1 22 4)] (.join j.pa) (leBytes 8 w ++ leBytes 8 d1)
              | none => s3.queueRecord j.paddock 0 .qfault j.pa)

end Sys2Proof.Machine
end

