-- ==== Sys2Proof/Machine/Links.lean ====
section
/-! DEFINITION. Sys2Proof/Machine/Links.lean: Kyxus links, the time base, and the passing of time (11 R261-R265, 17 R374, R375). -/
namespace Sys2Proof.Machine

/-! ### Links (11 R261-R263) -/

def flitSeq (f : Flit) : BitVec 12 := f.header.setWidth 12
def flitAck (f : Flit) : BitVec 12 := (f.header >>> 12).setWidth 12
def flitVc (f : Flit) : BitVec 2 := (f.header >>> 24).setWidth 2

/-- The CRC of a flit covers its bytes [247:0] (11 R261). -/
def flitCrc (header : BitVec 32) (body : List Byte) : BitVec 64 := BitVec.ofNat 64 (crc64 (leBytes 4 header.toNat ++ body))

/-- The flit that a link sends next: its SEQ, the last SEQ it has accepted, the channel and the beats. -/
def Link.makeFlit (k : Link) (vc : BitVec 2) (body : List Byte) : Flit :=
  let header : BitVec 32 := BitVec.ofNat 32 (k.nextSeq.toNat + (k.expected - 1).toNat * 2 ^ 12 + vc.toNat * 2 ^ 24)
  { header := header, body := body, crc := flitCrc header body }

/-- Flits leave a link that is up; those of one that trains wait (11 R262). -/
def State.sendFlits (s : State) (l : Nat) (fs : List SentFlit) : State :=
  if (s.link l).state = .up then { s with hostOut := s.hostOut ++ fs.map fun f => HostOut.flit l f.flit } else s

/-- What a transmitter sends next: time and control beats first, then the oldest beats of the paddock that its arbiter grants (17 R374,
R375). -/
def State.nextBeats (s : State) (k : Link) : Option (LinkBeats × Arbiter) :=
  match k.sendQ.find? fun b => b.paddock.isNone with
  | some b => some (b, k.arb)
  | none =>
    match k.arb.grant s.weight fun p => k.sendQ.any fun b => b.paddock == some (BitVec.ofNat 5 p) with
    | none => none
    | some (p, arb) => (k.sendQ.find? fun b => b.paddock == some (BitVec.ofNat 5 p)).map fun b => (b, arb)

/-- A link that is up transmits its next flit: it numbers the flit and keeps it until the far end acknowledges it. SEQ has 12 bits, so at
most 4,095 flits are unacknowledged. -/
def State.transmit (s : State) (l : Nat) : State :=
  let k := s.link l
  if k.state ≠ .up ∨ 4095 ≤ k.retained.length then s
  else match s.nextBeats k with
  | none => s
  | some (b, arb) =>
    let f : SentFlit := { paddock := b.paddock, flit := k.makeFlit b.vc b.body }
    let s1 := s.modLink l fun k =>
      { k with nextSeq := k.nextSeq + 1, retained := k.retained ++ [f], sinceAck := if k.retained.isEmpty then 0 else k.sinceAck,
               sendQ := dropFirst (fun x => x.paddock == b.paddock) k.sendQ, arb := arb }
    s1.sendFlits l [f]

/-- Flits up to an acknowledged one are dropped; an ACK that names none of them changes nothing. -/
def dropAcked (ack : BitVec 12) (fs : List SentFlit) : List SentFlit :=
  if fs.any fun f => flitSeq f.flit == ack then (fs.dropWhile fun f => flitSeq f.flit != ack).drop 1 else fs

/-- The receiver of link `l` takes flit `f` (11 R262). -/
def State.acceptFlit (s : State) (l : Nat) (f : Flit) : State :=
  s.modLink l fun k =>
    let rest := dropAcked (flitAck f) k.retained
    let moved := rest.length < k.retained.length
    { k with expected := k.expected + 1, received := k.received ++ [(flitVc f, f.body)], retained := rest,
             replays := if moved then 0 else k.replays, sinceAck := if moved then 0 else k.sinceAck }

/-- `FLIT` (11 R262): the next flit in sequence with a good CRC is accepted; any other is discarded and answered with a NAK. -/
def execFlit (l : Nat) (f : Flit) (s : State) : Host.Outcome State Fault Refusal :=
  event (
    let k := s.link l
    if 16 ≤ l ∨ k.state ≠ .up then s
    else if flitSeq f = k.expected ∧ f.crc = flitCrc f.header f.body then s.acceptFlit l f
    else { s with hostOut := s.hostOut ++ [.nak l k.expected] })

/-- A replay from a place in the retained flits. -/
def State.replay (s : State) (l : Nat) (fs : List SentFlit) : State :=
  (s.modLink l fun k => { k with replays := k.replays + 1, sinceAck := 0 }).sendFlits l fs

/-- `NAK` (11 R262): link `k` replays from the flit whose SEQ is `bits`. -/
def execNak (s : State) : Host.Outcome State Fault Refusal :=
  event (
    let l := s.input.k
    let k := s.link l
    let fs := k.retained.dropWhile fun f => flitSeq f.flit != s.input.bits.setWidth 12
    if 16 ≤ l ∨ k.state ≠ .up ∨ fs.isEmpty then s else s.replay l fs)

/-- `REPLAY_TIMEOUT` (11 R262): after 1,000 ns without an ACK link `k` replays from its oldest flit. -/
def execReplayTimeout (s : State) : Host.Outcome State Fault Refusal :=
  event (
    let l := s.input.k
    let k := s.link l
    if 16 ≤ l ∨ k.state ≠ .up ∨ k.retained.isEmpty ∨ k.sinceAck < 1000 then s else s.replay l k.retained)

/-- `LINK_RETRAIN` (11 R262): after 16 replays without progress link `k` trains; its flits wait. -/
def execLinkRetrain (s : State) : Host.Outcome State Fault Refusal :=
  event (
    let l := s.input.k
    let k := s.link l
    if 16 ≤ l ∨ k.state ≠ .up ∨ k.replays < 16 then s else s.modLink l fun k => { k with state := .training })

/-- `LINK_RETRAIN_COMPLETE` (11 R262): link `k` is up again and its flits go on. -/
def execLinkRetrainComplete (s : State) : Host.Outcome State Fault Refusal :=
  event (
    let l := s.input.k
    let k := s.link l
    if 16 ≤ l ∨ k.state ≠ .training then s
    else (s.modLink l fun k => { k with state := .up, replays := 0, sinceAck := 0 }).sendFlits l k.retained)

/-- Messages to other packages for which no link remains are answered UNREACH; replies have nothing to answer and are dropped, as sheaves
and acks are (11 R252, R263). -/
def State.unreach (s : State) : State :=
  let lost := fun (f : MsgFlight) => s.abroad f && s.ours f.msg && !(s.canLeave f.msg.paddock)
  { s with farSheaves := s.farSheaves.filter fun x => s.canLeave x.paddock,
           msgs := (s.msgs.filter fun f => !(lost f && f.msg.kind != 0)).map fun f => if lost f then { f with phase := .rejected 3 } else f }

/-- The link that takes over beats: the one that their paddock uses now; for time and control beats, which are no paddock's, the lowest
one left (11 R263; log 40). -/
def State.takesOver (s : State) (b : LinkBeats) : Option Nat :=
  match b.paddock with
  | some p => s.linkFor p
  | none => (List.range 16).find? fun l => (s.link l).state != .down

/-- Beats of a link that went down go to the link that takes over; with none left they are dropped (11 R263). -/
def State.moveBeats (s : State) (b : LinkBeats) : State :=
  match s.takesOver b with
  | none => s
  | some i => s.modLink i fun k => { k with sendQ := k.sendQ ++ [b] }

/-- The links that take over the traffic of a link that is down: those that the paddocks allowed on it use now (11 R263). -/
def State.rerouted (s : State) (l : Nat) : BitVec 16 :=
  BitVec.ofNat 16 (packList 1 ((List.range 16).map fun i =>
    if s.paddocks.any fun c => c.links.getLsbD l && s.linkFor c.pnum == some i then 1 else 0))

/-- `LINK_DOWN` (11 R263): the monitor declares link `k`, which has not come back from training, down. Its retained flits, then its send
queues, move in order to the links that remain, which SUMMARY names. -/
def execLinkDown (s : State) : Host.Outcome State Fault Refusal :=
  event (
    let l := s.input.k
    let k := s.link l
    if 16 ≤ l ∨ k.state ≠ .training then s
    else
      let s0 := s.modLink l fun k => { k with state := .down, retained := [], sendQ := [] }
      -- links that went down before may have lent their traffic to this one
      let s1 : State := { s0 with links := Vector.ofFn fun (i : Fin 16) =>
        let q := s0.links[i]
        if q.state = .down then { q with reroute := s0.rerouted i.val } else q }
      let sent : List LinkBeats := k.retained.map fun f => { paddock := f.paddock, vc := flitVc f.flit, body := f.flit.body }
      ((sent ++ k.sendQ).foldl State.moveBeats s1).unreach)

/-! ### The time base (11 R264, R265) -/

/-- `TIME_EXCHANGE` (11 R265): a package that is not the root exchanges times with the neighbour on link `j` over VC 3, 2^16 ns after the
last exchange there. `offset` is the difference of the two one-way delays that it finds, in nanoseconds, and half of it its offset. Above
4 ns the package runs on its own oscillator. Otherwise, where bit 0 of `bits` says that this neighbour is the one toward the root, it slews
the offset away, and `k` is its distance from the root (log 72). -/
def execTimeExchange (s : State) : Host.Outcome State Fault Refusal :=
  event (
    let l := s.input.j
    if s.timeRoot ∨ 16 ≤ l ∨ (s.link l).state ≠ .up ∨ (s.link l).sinceExchange < 2 ^ 16 then s
    else
      let far := decide (8 < s.input.offset) || decide (s.input.offset < -8)
      let b : LinkBeats := { paddock := none, vc := 3, body := leBytes flitBeats s.tb.toNat }
      let s1 : State := { s.modLink l fun k => { k with sendQ := k.sendQ ++ [b], sinceExchange := 0 } with sinceSync := 0 }
      if far then { s1 with slew := 0, synced := false }
      else if s.input.bits.getLsbD 0 then { s1 with slew := s.input.offset / 2, synced := true, hops := BitVec.ofNat 8 s.input.k }
      else s1)

/-- `SYNC_TIMEOUT` (11 R265): without an exchange for 2^24 ns a package runs on its own oscillator. -/
def execSyncTimeout (s : State) : Host.Outcome State Fault Refusal :=
  event (if s.timeRoot ∨ s.sinceSync < 2 ^ 24 then s else { s with synced := false, slew := 0, slewPart := 0 })

/-! ### Time passes (11 R264, R265; 16 R360; log 5) -/

/-- Cycles pass for the watchdog. -/
def Strand.elapse (n : Nat) (x : Strand) : Strand := if x.counts then { x with cycles := x.cycles + n } else x

/-- Cycles pass at a tile: the watchdog of each strand, the latencies of flags and the back-off of the send queue. -/
def Tile.elapse (n : Nat) (t : Tile) : Tile :=
  { (t.ageFlags n) with
      main := t.main.elapse n, handler := t.handler.elapse n,
      sendQ := t.sendQ.map fun e => { e with backoff := e.backoff - n } }

/-- How far the time base is slewed in `ns` nanoseconds: by at most 200 parts in a million. -/
def State.slewBy (s : State) (ns : Nat) : Int :=
  let room : Int := (((s.slewPart + 200 * ns) / 1000000 : Nat) : Int)
  clampInt (-room) room s.slew

/-- Cycles and nanoseconds pass. -/
def State.elapse (s : State) (cycles ns : Nat) : State :=
  let d := s.slewBy ns
  let part := if s.slew = 0 then 0 else (s.slewPart + 200 * ns) % 1000000
  { s with tile := s.tile.elapse cycles, others := s.others.map fun p => (p.1, p.2.elapse cycles),
           tb := BitVec.ofNat 64 (s.tb.toNat + ((ns : Int) + d).toNat), slew := s.slew - d, slewPart := part,
           sinceSync := s.sinceSync + ns, links := s.links.map fun k => { k with sinceAck := k.sinceAck + ns, sinceExchange := k.sinceExchange + ns } }

end Sys2Proof.Machine
end

