-- ==== Sys2Proof/Machine/Scalar.lean ====
section
/-! DEFINITION. Sys2Proof/Machine/Scalar.lean: the scalar integer operations and the two select instructions (14 R298-R303). -/
namespace Sys2Proof.Machine

/-- `ADD` (14 R300): x + y. -/
def execAdd (d a b : SReg) (s : State) : Host.Outcome State Fault Refusal :=
  scalarOp (.add d a b) d a b (fun x y => x + y) s

/-- `SUB` (14 R300): x − y. -/
def execSub (d a b : SReg) (s : State) : Host.Outcome State Fault Refusal :=
  scalarOp (.sub d a b) d a b (fun x y => x - y) s

/-- `MUL` (14 R300): Low half of the product. -/
def execMul (d a b : SReg) (s : State) : Host.Outcome State Fault Refusal :=
  scalarOp (.mul d a b) d a b (fun x y => x * y) s

/-- `MULH_I` (14 R300): Upper half of the signed product. -/
def execMulhI (d a b : SReg) (s : State) : Host.Outcome State Fault Refusal :=
  scalarOp (.mulhI d a b) d a b (fun x y => mulHighI x y) s

/-- `MULH_N` (14 R300): Upper half of the unsigned product. -/
def execMulhN (d a b : SReg) (s : State) : Host.Outcome State Fault Refusal :=
  scalarOp (.mulhN d a b) d a b (fun x y => mulHighN x y) s

/-- `DIV_I` (14 R300): Signed quotient. -/
def execDivI (d a b : SReg) (s : State) : Host.Outcome State Fault Refusal :=
  scalarOp (.divI d a b) d a b (fun x y => divI x y) s

/-- `DIV_N` (14 R300): Unsigned quotient. -/
def execDivN (d a b : SReg) (s : State) : Host.Outcome State Fault Refusal :=
  scalarOp (.divN d a b) d a b (fun x y => divN x y) s

/-- `REM_I` (14 R300): Signed remainder. -/
def execRemI (d a b : SReg) (s : State) : Host.Outcome State Fault Refusal :=
  scalarOp (.remI d a b) d a b (fun x y => remI x y) s

/-- `REM_N` (14 R300): Unsigned remainder. -/
def execRemN (d a b : SReg) (s : State) : Host.Outcome State Fault Refusal :=
  scalarOp (.remN d a b) d a b (fun x y => remN x y) s

/-- `AND` (14 R300): x and y. -/
def execAnd (d a b : SReg) (s : State) : Host.Outcome State Fault Refusal :=
  scalarOp (.and d a b) d a b (fun x y => x &&& y) s

/-- `OR` (14 R300): x or y. -/
def execOr (d a b : SReg) (s : State) : Host.Outcome State Fault Refusal :=
  scalarOp (.or d a b) d a b (fun x y => x ||| y) s

/-- `XOR` (14 R300): x xor y. -/
def execXor (d a b : SReg) (s : State) : Host.Outcome State Fault Refusal :=
  scalarOp (.xor d a b) d a b (fun x y => x ^^^ y) s

/-- `ANDN` (14 R300): x and not y. -/
def execAndn (d a b : SReg) (s : State) : Host.Outcome State Fault Refusal :=
  scalarOp (.andn d a b) d a b (fun x y => x &&& ~~~y) s

/-- `SHL` (14 R300): x << (y mod 64). -/
def execShl (d a b : SReg) (s : State) : Host.Outcome State Fault Refusal :=
  scalarOp (.shl d a b) d a b (fun x y => x <<< shiftCount y) s

/-- `SHR_N` (14 R300): Logical shift right. -/
def execShrN (d a b : SReg) (s : State) : Host.Outcome State Fault Refusal :=
  scalarOp (.shrN d a b) d a b (fun x y => x >>> shiftCount y) s

/-- `SHR_I` (14 R300): Arithmetic shift right. -/
def execShrI (d a b : SReg) (s : State) : Host.Outcome State Fault Refusal :=
  scalarOp (.shrI d a b) d a b (fun x y => x.sshiftRight (shiftCount y)) s

/-- `ROTR` (14 R300): Rotation right. -/
def execRotr (d a b : SReg) (s : State) : Host.Outcome State Fault Refusal :=
  scalarOp (.rotr d a b) d a b (fun x y => x.rotateRight (shiftCount y)) s

/-- `SLT_I` (14 R300): 1 if x < y as signed. -/
def execSltI (d a b : SReg) (s : State) : Host.Outcome State Fault Refusal :=
  scalarOp (.sltI d a b) d a b (fun x y => boolDW (x.slt y)) s

/-- `SLT_N` (14 R300): 1 if x < y as unsigned. -/
def execSltN (d a b : SReg) (s : State) : Host.Outcome State Fault Refusal :=
  scalarOp (.sltN d a b) d a b (fun x y => boolDW (x.ult y)) s

/-- `SEQ` (14 R300): 1 if x = y. -/
def execSeq (d a b : SReg) (s : State) : Host.Outcome State Fault Refusal :=
  scalarOp (.seq d a b) d a b (fun x y => boolDW (x == y)) s

/-- `MIN_I` (14 R300): Lesser, signed. -/
def execMinI (d a b : SReg) (s : State) : Host.Outcome State Fault Refusal :=
  scalarOp (.minI d a b) d a b (fun x y => if x.slt y then x else y) s

/-- `MAX_I` (14 R300): Greater, signed. -/
def execMaxI (d a b : SReg) (s : State) : Host.Outcome State Fault Refusal :=
  scalarOp (.maxI d a b) d a b (fun x y => if x.slt y then y else x) s

/-- `MIN_N` (14 R300): Lesser, unsigned. -/
def execMinN (d a b : SReg) (s : State) : Host.Outcome State Fault Refusal :=
  scalarOp (.minN d a b) d a b (fun x y => if x.ult y then x else y) s

/-- `MAX_N` (14 R300): Greater, unsigned. -/
def execMaxN (d a b : SReg) (s : State) : Host.Outcome State Fault Refusal :=
  scalarOp (.maxN d a b) d a b (fun x y => if x.ult y then y else x) s

/-- `ADDS_I` (14 R300): Saturated sum. -/
def execAddsI (d a b : SReg) (s : State) : Host.Outcome State Fault Refusal :=
  scalarOp (.addsI d a b) d a b (fun x y => satI64 (x.toInt + y.toInt)) s

/-- `SUBS_I` (14 R300): Saturated difference. -/
def execSubsI (d a b : SReg) (s : State) : Host.Outcome State Fault Refusal :=
  scalarOp (.subsI d a b) d a b (fun x y => satI64 (x.toInt - y.toInt)) s

/-- `ADDSC_1` (14 R300): x + (y << 1). -/
def execAddsc1 (d a b : SReg) (s : State) : Host.Outcome State Fault Refusal :=
  scalarOp (.addsc1 d a b) d a b (fun x y => x + y <<< 1) s

/-- `ADDSC_2` (14 R300): x + (y << 2). -/
def execAddsc2 (d a b : SReg) (s : State) : Host.Outcome State Fault Refusal :=
  scalarOp (.addsc2 d a b) d a b (fun x y => x + y <<< 2) s

/-- `ADDSC_3` (14 R300): x + (y << 3). -/
def execAddsc3 (d a b : SReg) (s : State) : Host.Outcome State Fault Refusal :=
  scalarOp (.addsc3 d a b) d a b (fun x y => x + y <<< 3) s

/-- `CLZ` (14 R300): Leading zero bits. -/
def execClz (d a : SReg) (s : State) : Host.Outcome State Fault Refusal :=
  scalarUn (.clz d a) d a (fun x => BitVec.ofNat 64 (leadingZeros 64 x.toNat)) s

/-- `CTZ` (14 R300): Trailing zero bits. -/
def execCtz (d a : SReg) (s : State) : Host.Outcome State Fault Refusal :=
  scalarUn (.ctz d a) d a (fun x => BitVec.ofNat 64 (lowestOne 64 x.toNat)) s

/-- `POP` (14 R300): One bits. -/
def execPop (d a : SReg) (s : State) : Host.Outcome State Fault Refusal :=
  scalarUn (.pop d a) d a (fun x => BitVec.ofNat 64 (popCount 64 x.toNat)) s

/-- `SEXT_I8` (14 R300): Sign extension of 8 bits. -/
def execSextI8 (d a : SReg) (s : State) : Host.Outcome State Fault Refusal :=
  scalarUn (.sextI8 d a) d a (fun x => (x.truncate 8).signExtend 64) s

/-- `SEXT_I16` (14 R300): Sign extension of 16 bits. -/
def execSextI16 (d a : SReg) (s : State) : Host.Outcome State Fault Refusal :=
  scalarUn (.sextI16 d a) d a (fun x => (x.truncate 16).signExtend 64) s

/-- `SEXT_I32` (14 R300): Sign extension of 32 bits. -/
def execSextI32 (d a : SReg) (s : State) : Host.Outcome State Fault Refusal :=
  scalarUn (.sextI32 d a) d a (fun x => (x.truncate 32).signExtend 64) s

/-- `ZEXT_N8` (14 R300): Zero extension of 8 bits. -/
def execZextN8 (d a : SReg) (s : State) : Host.Outcome State Fault Refusal :=
  scalarUn (.zextN8 d a) d a (fun x => (x.truncate 8).zeroExtend 64) s

/-- `ZEXT_N16` (14 R300): Zero extension of 16 bits. -/
def execZextN16 (d a : SReg) (s : State) : Host.Outcome State Fault Refusal :=
  scalarUn (.zextN16 d a) d a (fun x => (x.truncate 16).zeroExtend 64) s

/-- `ZEXT_N32` (14 R300): Zero extension of 32 bits. -/
def execZextN32 (d a : SReg) (s : State) : Host.Outcome State Fault Refusal :=
  scalarUn (.zextN32 d a) d a (fun x => (x.truncate 32).zeroExtend 64) s

/-- `BSWAP` (14 R300): Bytes in reverse order. -/
def execBswap (d a : SReg) (s : State) : Host.Outcome State Fault Refusal :=
  scalarUn (.bswap d a) d a (fun x => bswap64 x) s

/-- `ADDI` (14 R301): Sum with a signed immediate. -/
def execAddi (d a : SReg) (i : BitVec 16) (s : State) : Host.Outcome State Fault Refusal :=
  scalarImm (.addi d a i) d a i (fun x m => x + m) s

/-- `ANDI` (14 R301): And with a signed immediate. -/
def execAndi (d a : SReg) (i : BitVec 16) (s : State) : Host.Outcome State Fault Refusal :=
  scalarImm (.andi d a i) d a i (fun x m => x &&& m) s

/-- `ORI` (14 R301): Or with a signed immediate. -/
def execOri (d a : SReg) (i : BitVec 16) (s : State) : Host.Outcome State Fault Refusal :=
  scalarImm (.ori d a i) d a i (fun x m => x ||| m) s

/-- `XORI` (14 R301): Exclusive or with a signed immediate. -/
def execXori (d a : SReg) (i : BitVec 16) (s : State) : Host.Outcome State Fault Refusal :=
  scalarImm (.xori d a i) d a i (fun x m => x ^^^ m) s

/-- `SLTI` (14 R301): 1 if x < i as signed. -/
def execSlti (d a : SReg) (i : BitVec 16) (s : State) : Host.Outcome State Fault Refusal :=
  scalarImm (.slti d a i) d a i (fun x m => boolDW (x.slt m)) s

/-- `SLTNI` (14 R301): 1 if x < i as unsigned. -/
def execSltni (d a : SReg) (i : BitVec 16) (s : State) : Host.Outcome State Fault Refusal :=
  scalarImm (.sltni d a i) d a i (fun x m => boolDW (x.ult m)) s

/-- `ADDHI` (14 R301): x + (i << 32). -/
def execAddhi (d a : SReg) (i : BitVec 16) (s : State) : Host.Outcome State Fault Refusal :=
  scalarImm (.addhi d a i) d a i (fun x m => x + m <<< 32) s

/-- `SHLI` (14 R301): Shift left. -/
def execShli (d a : SReg) (i : BitVec 16) (s : State) : Host.Outcome State Fault Refusal :=
  scalarShift (.shli d a i) d a i (fun x n => x <<< n) s

/-- `SHRI_N` (14 R301): Logical shift right. -/
def execShriN (d a : SReg) (i : BitVec 16) (s : State) : Host.Outcome State Fault Refusal :=
  scalarShift (.shriN d a i) d a i (fun x n => x >>> n) s

/-- `SHRI_I` (14 R301): Arithmetic shift right. -/
def execShriI (d a : SReg) (i : BitVec 16) (s : State) : Host.Outcome State Fault Refusal :=
  scalarShift (.shriI d a i) d a i (fun x n => x.sshiftRight n) s

/-- `SEL` (14 R303): the condition reads the old sD. -/
def execSel (c : BitVec 3) (d a b : SReg) (s : State) : Host.Outcome State Fault Refusal :=
  run (.sel c d a b) s fun s =>
    if !(condOk c) then s.trap .ill
    else .ok (s.setReg d (if scalarCond c.toNat (s.reg d) 0 then s.reg a else s.reg b))

/-- `CMOV` (14 R303): sD keeps its value where the condition fails. -/
def execCmov (c : BitVec 3) (d a b : SReg) (s : State) : Host.Outcome State Fault Refusal :=
  run (.cmov c d a b) s fun s =>
    if !(condOk c) then s.trap .ill
    else .ok (if scalarCond c.toNat (s.reg b) 0 then s.setReg d (s.reg a) else s)

end Sys2Proof.Machine
end

