-- ==== Sys2Proof/Machine/Service.lean ====
section
/-! DEFINITION. Sys2Proof/Machine/Service.lean: the service protocol of a VF: bind and unbind, items from a host, status, the state
record, reconfiguration, export and import, evidence (17 R373, R381-R383, R386, R390). -/
namespace Sys2Proof.Machine

/-! ### Requests and replies (17 R381) -/

/-- Requests that a connection may have outstanding. -/
def connLimit : Nat := 16

/-- Bytes of a request's body at most. -/
def svcMaxLen : Nat := 2 ^ 24

/-- Requests of a connection that are outstanding, in request order. -/
def State.outstanding (s : State) (vf : Nat) (conn : BitVec 32) : List SvcJob :=
  s.svcJobs.filter fun j => j.vf == vf && j.conn == conn && !j.closed

/-- A request becomes outstanding. -/
def State.newJob (s : State) (r : SvcReq) (op : Nat) (stage : SvcStage) : State :=
  { s with svcJobs := s.svcJobs ++ [{ vf := r.vf, conn := r.conn, op := op, reqId := r.reqId, stage := stage, closed := false }] }

/-- A request is answered. -/
def State.reply (s : State) (r : SvcReq) (op status : Nat) (body : List Byte) : State := s.newJob r op (.answered status body)

/-- What a request comes to: an answer, or more to do. -/
inductive SvcEnd where
  | done (status : Nat) (body : List Byte) (s : State)
  | wait (w : SvcWork) (s : State)

/-- The bytes of a reply: OP, STATUS, LEN, REQID, and the body. -/
def replyBytes (op status : Nat) (reqId : DW) (body : List Byte) : List Byte :=
  leBytes 2 op ++ leBytes 2 status ++ leBytes 4 body.length ++ leBytes 8 reqId.toNat ++ body

/-- The reply to the oldest outstanding request of a connection goes out, once there is one, from the paddock's port of the service
protocol to the driver's CID (17 R379, R381). -/
def State.sendReply (s : State) (vf : Nat) (conn : BitVec 32) : State :=
  match s.outstanding vf conn with
  | [] => s
  | j :: _ =>
    match j.stage with
    | .waiting _ => s
    | .answered status body =>
      { s with svcJobs := dropFirst (fun y => y.vf == vf && y.conn == conn && !y.closed) s.svcJobs,
               hostOut := s.hostOut ++ [.reply (guestCid vf) servicePort conn (replyBytes j.op status j.reqId body)] }

/-- A request reaches the service: its VF is present, which it is once its paddock's supervisor is bound (17 R392), and its connection to
the service protocol's port is open (17 R379, R381). -/
def State.reachesService (s : State) (r : SvcReq) : Bool :=
  s.vfPresent r.vf && !(s.device r.vf 2).resetting &&
    s.vsock.any fun c => c.vf == r.vf && c.guest == r.conn && c.port == BitVec.ofNat 32 servicePort && !c.seqpacket

/-- A request of an operation: one that comes while 16 of its connection are outstanding is answered BUSY and not performed; one whose
header has a STATUS or a LEN above 2^24 is BADREQ (17 R381; log 60). -/
def service (r : SvcReq) (op : Nat) (f : PaddockCfg → State → SvcEnd) (s : State) : Host.Outcome State Fault Refusal :=
  event (match s.vfOwner r.vf with
  | some c =>
    if !(s.reachesService r) then s
    else if connLimit ≤ (s.outstanding r.vf r.conn).length then s.reply r op 4 []
    else if svcMaxLen < r.len.toNat ∨ r.status ≠ 0 then s.reply r op 1 []
    else match f c s with
      | .done status body s1 => s1.reply r op status body
      | .wait w s1 => s1.newJob r op (.waiting w)
  | none => s)

/-- A request with an OP that names no operation is BADREQ (17 R382; OP 0, of which the table says nothing, too: DESIGN CHOICE, log 60). -/
def unknownService (r : SvcReq) (op : BitVec 16) (s : State) : Host.Outcome State Fault Refusal :=
  if 1 ≤ op.toNat ∧ op.toNat ≤ 9 then .next s else service r op.toNat (fun _ s => .done 1 [] s) s

/-- The lowest VF of a paddock. -/
def lowestVf (c : PaddockCfg) : Nat := lowestOne 64 c.vfs.toNat

/-- The administrator VF: the lowest of the paddock that owns row 0 (17 R377). -/
def State.adminVf (s : State) : Option Nat := (s.paddocks.find? fun c => c.rows.getLsbD 0).map lowestVf

def State.isAdmin (s : State) (vf : Nat) : Bool := s.adminVf == some vf

/-! ### Bind and unbind (17 R382, 18 R397) -/

/-- A bind at the loader: one that passes its checks waits while what it writes is in use (17 R382, 18 R397). -/
def State.tryBind (s : State) (c : PaddockCfg) (r : BindReq) : SvcEnd :=
  match s.bindEnd c r with
  | .malformed => .done 1 [] s
  | .refused code i => .done 6 (leBytes 2 code ++ leBytes 2 i ++ leBytes 4 0) s
  | .busy => .wait (.bind r) s
  | .done s1 => .done 0 (leBytes 8 s.imageNo) s1

/-- `BIND` (17 R382, 18 R397). -/
def execBind (r : BindReq) (s : State) : Host.Outcome State Fault Refusal := service r.svc 1 (fun c s => s.tryBind c r) s

/-- A context is unbound at its next boundary (15 R334, 17 R382). -/
def State.unbindLater (s : State) (l : Nat) (c : BitVec 2) : State :=
  if (s.getTile l).runsCtx c then s.modTile l fun t => t.modCtx c fun x => { x with killPending := true }
  else if (s.ctxOf l c).state = .unbound then s
  else s.unbind l c

/-- Handles whose contexts are all unbound are gone. -/
def State.dropHandles (s : State) : State :=
  { s with handles := s.handles.filter fun h => h.contexts.any fun c => (s.ctxOf c.1 c.2).state != .unbound }

/-- `UNBIND` (17 R382): every context named lies on the paddock's tiles, or nothing is unbound. -/
def execUnbind (r : UnbindReq) (s : State) : Host.Outcome State Fault Refusal :=
  service r.svc 2 (fun c s =>
    if r.contexts.all fun x => cfgHasTile c x.1 then
      .done 0 [] (r.contexts.foldl (fun s x => s.unbindLater x.1 x.2) s).dropHandles
    else .done 5 [] s) s

/-! ### Items from a host (15 R324, 17 R382) -/

/-- The bind wave has crossed the regions that a queue belongs to (15 R341). -/
def State.waveDone (s : State) (qcb : Nat) : Bool :=
  (s.handles.filter fun h => h.queues.contains qcb).all fun h => h.contexts.all fun c => (s.ctxOf c.1 c.2).state != .binding

/-- Items are placed at once in every ring. -/
def State.injectAll (s : State) (qcb : Nat) : List (List Byte) → State
  | [] => s
  | p :: ps =>
    match s.queueAt qcb with
    | none => s
    | some q => ((s.agentPushNow q .inject p).getD s).injectAll qcb ps

/-- `INJECT` (15 R324, R341; 17 R382): all or nothing. -/
def execInject (r : InjectReq) (s : State) : Host.Outcome State Fault Refusal :=
  service r.svc 3 (fun c s =>
    match s.queueAt r.qcb with
    | none => .done 5 [] s
    | some q =>
      if q.qcb.paddock ≠ c.pnum then .done 5 [] s
      else if !(r.items.all fun p => p.length == q.qcb.bytes) then .done 1 [] s
      else if !(s.waveDone r.qcb) then .done 3 [] s
      else if q.frozen || !(s.roomForAll q r.items.length) then .done 4 [] s
      else .done 0 [] (s.injectAll r.qcb r.items)) s

/-! ### Status (17 R382) -/

/-- Code of a context's state. -/
def CtxState.code : CtxState → Nat
  | .unbound => 0
  | .binding => 1
  | .idle => 2
  | .running => 3
  | .final => 4
  | .parked => 5

/-- Items in the ring of each member of a queue, and what has been released. -/
def State.queueCounts (s : State) (qcb : Nat) : List Byte :=
  match s.queueAt qcb with
  | none => []
  | some q => leBytes 8 qcb ++ leBytes 8 q.released ++ q.qcb.members.flatMap fun m => leBytes 4 (s.epOf m.1 m.2).ring.length

/-- `STATUS` (17 R382): context states and queue counts of a handle that belongs to the VF. -/
def execStatus (r : SvcReq) (s : State) : Host.Outcome State Fault Refusal :=
  service r 4 (fun _ s =>
    match s.handles.find? fun h => h.handle == r.sel.toNat && h.vf == r.vf with
    | none => .done 5 [] s
    | some h =>
      .done 0 (h.contexts.flatMap (fun c => leBytes 2 c.1 ++ leBytes 1 c.2.toNat ++ leBytes 1 (s.ctxOf c.1 c.2).state.code) ++
        h.queues.flatMap s.queueCounts) s) s

/-! ### Summary (17 R383) -/

/-- A section: type, count, bytes, time, entries. -/
def State.section_ (s : State) (type : Nat) (entries : List (List Byte)) : List Byte :=
  let body := entries.flatten
  leBytes 2 type ++ leBytes 2 entries.length ++ leBytes 4 body.length ++ leBytes 8 s.tb.toNat ++ body

/-- The entry of a tile. -/
def State.tileEntry (s : State) (l : Nat) : List Byte :=
  let t := s.getTile l
  let cs := t.ctxs.toList
  leBytes 2 l ++ cs.flatMap (fun c => leBytes 1 c.state.code) ++ cs.flatMap (fun c => leBytes 1 c.prio) ++
    cs.flatMap (fun c => leBytes 2 c.cround.toNat) ++ cs.flatMap (fun c => leBytes 1 c.runs) ++ leBytes 1 t.triggers.length ++
    leBytes 1 t.retention.length ++ t.bfmt.toList.flatMap fun b => leBytes 1 b.toNat

/-- The entry of a queue: its state fields and its members' export records. -/
def State.queueEntry (s : State) (q : Queue) : List Byte :=
  leBytes 4 (if q.frozen then 2 else 1) ++ leBytes 4 q.bindGen.toNat ++ leBytes 8 q.released ++ leBytes 8 q.etime.toNat ++ leBytes 8 0 ++
    q.qcb.members.zipIdx.flatMap fun m => s.memberRecord q m.2 m.1

/-- Code of a channel state. -/
def chanCode : ChanState → Nat
  | .healthy => 0
  | .degraded => 1
  | .lost => 2

/-- The states of a channel index on the 16 stacks. -/
def State.chanEntry (s : State) (ch : Nat) : List Byte :=
  leBytes 1 ch ++ (List.range 16).flatMap fun stack => leBytes 1 (chanCode (s.chanState stack ch))

/-- The entry of a link. -/
def State.linkEntry (s : State) (l : Nat) : List Byte :=
  let k := s.link l
  leBytes 1 (match k.state with
    | .up => 0
    | .training => 1
    | .down => 2) ++ leBytes 2 k.reroute.toNat ++ leBytes 1 (if s.synced then 1 else 0)

/-- Fill of a record queue, and what it has lost. -/
def State.fillEntry (s : State) (p : BitVec 5) (qcb lost : Nat) : List Byte :=
  let n := ((s.queueAt qcb).map fun q => q.qcb.members.foldl (fun n m => n + (s.epOf m.1 m.2).ring.length) 0).getD 0
  leBytes 1 p.toNat ++ leBytes 8 qcb ++ leBytes 4 n ++ leBytes 4 lost

/-- The accumulator store of a tile. -/
def State.accEntry (s : State) (l : Nat) : List Byte := leBytes 2 l ++ (s.getTile l).acc.readBytes 0 65536

/-- The records that a SUMMARY shows, and their tiles: the administrator sees every tile of the package. -/
def State.summaryCfgs (s : State) (c : PaddockCfg) (admin : Bool) : List PaddockCfg := if admin then s.paddocks else [c]
def summaryTiles (cs : List PaddockCfg) (admin : Bool) : List Nat :=
  (List.range Config.tileCount).filter fun l => admin || cs.any fun c => cfgHasTile c l

/-- The sections of paddocks, with the tile entries taken; the whole device has two more. -/
def State.sections (s : State) (cs : List PaddockCfg) (admin : Bool) (entries : List (Nat × List Byte)) : List (List Byte) :=
  let tiles := summaryTiles cs admin
  let qs := s.queues.filter fun q => cs.any fun c => c.pnum == q.qcb.paddock
  let chans := (List.range 32).filter fun ch => cs.any fun c => c.chans.getLsbD ch
  let lost := fun (p : BitVec 5) => ((s.lost.find? fun x => x.1 == p).map (·.2)).getD 0
  [s.section_ 1 (cs.map cfgBytes), s.section_ 2 (tiles.filterMap fun l => (entries.find? fun e => e.1 == l).map (·.2)),
   s.section_ 3 (qs.map s.queueEntry), s.section_ 4 (chans.map s.chanEntry), s.section_ 5 ((List.range 16).map s.linkEntry),
   s.section_ 6 (cs.flatMap fun c => [s.fillEntry c.pnum c.faultQ.toNat 0, s.fillEntry c.pnum c.pagerQ.toNat 0,
     s.fillEntry c.pnum c.gleanQ.toNat (lost c.pnum)]),
   s.section_ 7 [s.clocks.toList.flatMap (leBytes 2) ++ leBytes 4 s.watts ++ (List.range 8).flatMap (fun d =>
     leBytes 2 (((s.temps.find? fun x => x.1 == d).map (·.2)).getD 0))],
   s.section_ 8 (s.retired.map (leBytes 2))] ++
  (if admin then [s.section_ 9 (tiles.map fun l => leBytes 2 l ++ leBytes 2 (s.physicalOf l)), s.section_ 10 (tiles.map s.accEntry)] else [])

/-- The body of a SUMMARY: the header, and the sections. -/
def State.summaryBytes (s : State) (c : PaddockCfg) (w : SummaryWork) : List Byte :=
  let secs := s.sections (s.summaryCfgs c w.admin) w.admin w.entries
  leBytes 8 (if w.admin then 0xFF else c.pnum.toNat) ++ leBytes 8 w.start.toNat ++ leBytes 8 w.seq.toNat ++ leBytes 8 secs.length ++ leBytes 32 0 ++
    secs.flatten

/-- A SUMMARY goes on: the entries of tiles that are at a boundary, with no activation running, are taken; when every tile's is, it ends
(17 R383, 15 R335). -/
def State.trySummary (s : State) (c : PaddockCfg) (w : SummaryWork) : SvcEnd :=
  let tiles := summaryTiles (s.summaryCfgs c w.admin) w.admin
  let left := tiles.filter fun l => !(w.entries.any fun e => e.1 == l)
  let now := left.filter fun l => (s.getTile l).act.isNone
  let w1 : SummaryWork := { w with entries := w.entries ++ now.map fun l => (l, s.tileEntry l) }
  if now.length = left.length then .done 0 (s.summaryBytes c w1) s else .wait (.summary w1) s

/-- `SUMMARY` (17 R383). -/
def execSummary (r : SvcReq) (s : State) : Host.Outcome State Fault Refusal :=
  service r 5 (fun c s =>
    ({ s with summarySeq := s.summarySeq + 1 } : State).trySummary c
      { admin := s.isAdmin r.vf, start := s.tb, seq := s.summarySeq, entries := [] }) s

/-! ### Reconfiguration (17 R373) -/

/-- Records that one configuration has and another has not. -/
def cfgsOnly (a b : List PaddockCfg) : List PaddockCfg := a.filter fun c => !(b.contains c)

/-- Owner of a tile's row in a configuration; the row changes where the two differ. -/
def rowOwner (cs : List PaddockCfg) (l : Nat) : Option (BitVec 5) := (cs.find? fun c => cfgHasTile c l).map PaddockCfg.pnum
def touched (old new : List PaddockCfg) (l : Nat) : Bool := rowOwner old l != rowOwner new l

/-- Owner of a VF in a configuration. -/
def ownerIn (cs : List PaddockCfg) (vf : Nat) : Option (BitVec 5) := (cs.find? fun c => c.vfs.getLsbD vf).map PaddockCfg.pnum

/-- Owner of a key id in a configuration. -/
def keyOwner (cs : List PaddockCfg) (k : BitVec 13) : Option (BitVec 5) :=
  (cs.find? fun c => decide (c.kbase.toNat ≤ k.toNat) && decide (k.toNat < c.kbase.toNat + c.kcount.toNat)).map PaddockCfg.pnum

/-- Every context on a tile is UNBOUND. -/
def State.tileFree (s : State) (l : Nat) : Bool := allCtxs.all fun c => (s.ctxOf l c).state == .unbound

/-- A reconfiguration may not be made now. -/
def State.reconfigBusy (s : State) (new : List PaddockCfg) : Bool :=
  let old := s.paddocks
  !(((List.range Config.tileCount).filter (touched old new)).all s.tileFree) ||
  (List.range 64).any fun vf => ownerIn old vf != ownerIn new vf && vfDevices.any fun d => (s.device vf d).status.getLsbD 2

/-- Paddocks whose record a reconfiguration changes. -/
def touchedPaddocks (old new : List PaddockCfg) : List (BitVec 5) := (cfgsOnly old new ++ cfgsOnly new old).map PaddockCfg.pnum

/-- A request is pending to a line under a key id that a reconfiguration reassigns, and the purge waits for it (05 R111); or an access of
a paddock that it touches, whose translations it drops, is under way (04 R98). -/
def State.purgeWaits (s : State) (new : List PaddockCfg) : Bool :=
  let moves := fun (k : BitVec 13) => keyOwner s.paddocks k != keyOwner new k
  (s.reqs.any fun r => r.kind != .pdelta && moves r.key) || (s.atomics.any fun a => a.reply.isNone && moves a.key) ||
  (touchedPaddocks s.paddocks new).any s.accessesOpen

/-- A reconfiguration is when a DEGRADED channel returns to HEALTHY, with a record (03 R70); a LOST one, whose data nothing can supply,
stays. R74's list of KIND has no code for the return: the record has KIND 4 (DESIGN CHOICES, log 46). -/
def State.restoreChannels (s : State) : State :=
  (s.channels.filter fun c => c.state == .degraded).foldl (fun (s : State) c =>
    (s.modChannel c.stack c.ch fun x => { x with state := .healthy, rebuilds := [] }).memEventAt 4 c.stack c.ch 0 0 0 false) s

/-- The reconfiguration itself: lines of reassigned keys and translations of the paddocks touched go; rows that no record owns any more
belong to no paddock. -/
def State.reconfigure (s : State) (new : List PaddockCfg) : State :=
  let old := s.paddocks
  let hit := touchedPaddocks old new
  let stays := fun (e : TlbEntry) => !(hit.contains e.paddock)
  let f := fun (t : Tile) => { t with tlb := t.tlb.filter stays }
  let s1 : State :=
    { s with lines := s.lines.filter (fun l => keyOwner old l.key == keyOwner new l.key), tile := f s.tile,
             others := s.others.map (fun p => (p.1, f p.2)), dieCache := s.dieCache.filter fun q => stays q.2 }
  let gone := (List.range Config.tileCount).filter fun l => old.any (fun c => cfgHasTile c l) && !(new.any fun c => cfgHasTile c l)
  let s2 := gone.foldl (fun s l => s.modTile l fun t => { t with paddock := 0, feat := 0x1FF, regions1 := t.regions1.setIfInBounds 0 0 }) s1
  (s2.configure new).restoreChannels

/-- A reconfiguration takes effect once no request is pending to the lines that it purges or through the translations that it drops. -/
def State.tryReconfig (s : State) (recs : List PaddockCfg) : SvcEnd :=
  if s.reconfigBusy recs then .done 4 [] s
  else if s.purgeWaits recs then .wait (.reconfig recs) s
  else .done 0 [] (s.reconfigure recs)

/-- `RECONFIG` (17 R372, R373, R377): the new set of records. -/
def execReconfig (r : SvcReq) (recs : List PaddockCfg) (s : State) : Host.Outcome State Fault Refusal :=
  service r 6 (fun _ s =>
    if !(s.isAdmin r.vf) then .done 2 [] s
    else if !(cfgOk recs) then .done 1 [] s
    else s.tryReconfig recs) s

/-! ### Export, import and evidence through the supervisor (17 R382, R386, R390) -/

/-- Reply status for the status of the supervisor's call: 1 DENIED, 2 BUSY, 3 BADREQ. -/
def svcStatus : Nat → Nat
  | 0 => 0
  | 1 => 2
  | 2 => 4
  | _ => 1

/-- The supervisor's bound context, if there is one. -/
def State.supervisorCtx (s : State) (c : PaddockCfg) : Option (BitVec 2) :=
  allCtxs.find? fun x => (s.ctxOf c.svc0.toNat x).state != .unbound && (s.ctxOf c.svc0.toNat x).lvl == 1

/-- An export through the supervisor, whose reply carries the records; it waits for the control block of its queue. -/
def State.tryExport (s : State) (c : PaddockCfg) (sel arg : Nat) : SvcEnd :=
  match s.supervisorCtx c with
  | none => .done 3 [] s
  | some _ =>
    if s.exportBusy sel arg then .wait (.exportState sel arg) s
    else match s.exportBytes c.pnum sel arg with
    | (0, bs, s1) => .done 0 bs s1
    | (v, _, _) => .done (svcStatus v) [] s

/-- `EXPORT_REQUEST` (17 R382, R386): the selector, and the QCB address or the VF; a body with more bytes than these is malformed. -/
def execExportRequest (r : SvcReq) (arg : DW) (records : List Byte) (s : State) : Host.Outcome State Fault Refusal :=
  service r 7 (fun c s => if records ≠ [] then .done 1 [] s else s.tryExport c r.sel.toNat arg.toNat) s

/-- `IMPORT_REQUEST` (17 R382, R386): the records stand in the body. -/
def execImportRequest (r : SvcReq) (arg : DW) (records : List Byte) (s : State) : Host.Outcome State Fault Refusal :=
  service r 8 (fun c s =>
    match s.supervisorCtx c with
    | none => .done 3 [] s
    | some _ =>
      if r.sel.toNat % 4 < 2 ∧ records.length ≠ s.importSize r.sel.toNat arg.toNat then .done 1 [] s
      else match s.importBytes c.pnum r.sel.toNat arg.toNat records with
      | (0, s1) => .done 0 [] s1
      | (v, _) => .done (svcStatus v) [] s) s

/-- `ATTEST_REQUEST` (17 R382, R390). -/
def execAttestRequest (r : SvcReq) (nonce : List Byte) (s : State) : Host.Outcome State Fault Refusal :=
  service r 9 (fun c s => if nonce.length ≠ 48 then .done 1 [] s else .done 0 (s.evidence c.pnum nonce) s) s

/-! ### Requests that wait (17 R381, R384) -/

/-- What a waiting request of a paddock comes to now. -/
def State.workOn (s : State) (c : PaddockCfg) : SvcWork → SvcEnd
  | .bind r => s.tryBind c r
  | .summary w => s.trySummary c w
  | .reconfig recs => s.tryReconfig recs
  | .exportState sel arg => s.tryExport c sel arg

/-- Outstanding request `k` is answered; one whose connection is closed is gone instead, with the handle that it was given (17 R384). -/
def State.answerJob (s : State) (k : Nat) (j : SvcJob) (handles : List BindHandle) (status : Nat) (body : List Byte) : State :=
  if j.closed then { s with svcJobs := dropAt k s.svcJobs, handles := handles }
  else { s with svcJobs := modAt (fun j => { j with stage := .answered status body }) k s.svcJobs }

/-- The service goes on with outstanding request `k`. -/
def State.serviceWork (s : State) (k : Nat) : State :=
  match s.svcJobs[k]? with
  | none => s
  | some j =>
    match j.stage, s.vfOwner j.vf with
    | .answered _ _, _ => s
    | .waiting _, none => s.answerJob k j s.handles 5 []
    | .waiting w, some c =>
      match s.workOn c w with
      | .done status body s1 => s1.answerJob k j s.handles status body
      | .wait w1 s1 => { s1 with svcJobs := modAt (fun j => { j with stage := .waiting w1 }) k s1.svcJobs }

end Sys2Proof.Machine
end

