-- ==== Sys2Proof/Machine/Flags.lean ====
section
/-! DEFINITION. Sys2Proof/Machine/Flags.lean: the status registers as software reads and writes them: SR_STATUS, SR_FLAGS, SR_FPCTL,
SR_MSTEP, the loop registers (02 R50-R57, 14 R310). -/
namespace Sys2Proof.Machine

/-- A bit at a place of a 64-bit value. -/
def bitAt (c : Bool) (i : Nat) : Nat := if c then 2 ^ i else 0

/-- SR_STATUS (02 R51): CTX reads 0 on the handler strand. -/
def Strand.status (x : Strand) (st : StrandId) : DW :=
  BitVec.ofNat 64 (x.lvl.toNat + bitAt (st == .handler) 2 + bitAt x.act 3 + (if st = .main then x.ctx.toNat * 16 else 0)
    + bitAt x.loop0.active 6 + bitAt x.loop1.active 7)

/-- SR_MSTEP (02 R52). -/
def Strand.mstepWord (x : Strand) : DW := BitVec.ofNat 64 (x.mstep.toNat + bitAt x.mstepValid 16)

/-- SR_FPCTL as it reads: STO reads 0 while FEAT0.STOCH is clear (02 R54, 07 R167). -/
def State.fpctl (s : State) : DW := BitVec.ofNat 64 (s.cx.rm.toNat + bitAt s.sto 2)

/-- A loop register as it reads: the latest value written, pending or installed (14 R310). -/
def LoopLevel.read (l : LoopLevel) (k : Nat) : DW :=
  match k with
  | 0 => (l.pendLc.getD l.lc).zeroExtend 64
  | 1 => l.pendLs.getD l.ls
  | _ => l.pendLe.getD l.le

/-- Bits [1:0] cleared. -/
def wordAligned (v : DW) : DW := v &&& ~~~3

/-- A write to a loop register is pending until the level's next test (14 R310). -/
def LoopLevel.write (l : LoopLevel) (k : Nat) (v : DW) : LoopLevel :=
  match k with
  | 0 => { l with pendLc := some (v.setWidth 32) }
  | 1 => { l with pendLs := some (wordAligned v) }
  | _ => { l with pendLe := some (wordAligned v) }

/-- What a system register reads as (02 R50). -/
def State.sysReg (s : State) (r : BitVec 12) : DW :=
  let x := s.st
  let n := r.toNat
  if 0x100 ≤ n then (if n = 0x200 then s.tb else (s.tile.bank (n - 0x100)).zeroExtend 64)
  else match n with
  | 0x000 => x.status s.cur
  | 0x001 => x.cause.zeroExtend 64
  | 0x002 => x.epc
  | 0x003 => x.mstepWord
  | 0x004 => x.fval
  | 0x008 => s.tile.feat.zeroExtend 64
  | 0x009 => BitVec.ofNat 64 (s.gid s.tile.ltn)
  | 0x00A => s.tile.paddock.zeroExtend 64
  | 0x010 => x.loop0.read 0
  | 0x011 => x.loop0.read 1
  | 0x012 => x.loop0.read 2
  | 0x013 => x.loop1.read 0
  | 0x014 => x.loop1.read 1
  | 0x015 => x.loop1.read 2
  | 0x018 => s.cx.budget.zeroExtend 64
  | 0x020 => s.cx.cbase
  | 0x021 => s.cx.clim
  | 0x030 => s.cx.flags.zeroExtend 64
  | 0x031 => s.fpctl
  | 0x040 => s.tile.phKey
  | 0x041 => s.tile.phCtrl
  | _ => s.tile.phCtrh

/-- Lowest level that may write a register: 1 for those that 02 R50 marks L1, else 0. -/
def writeLevel (r : BitVec 12) : Nat :=
  if [0x001, 0x002, 0x003, 0x004, 0x018, 0x020, 0x021].contains r.toNat then 1 else 0

/-- The effect of a write to a register outside the three groups with an instruction of their own; a register without a write column
ignores it (02 R50-R54, 00 R8). -/
def State.setSysReg (s : State) (r : BitVec 12) (v : DW) : State :=
  match r.toNat with
  | 0x001 => s.onSt fun x => { x with cause := v.setWidth 5 }
  | 0x002 => s.onSt fun x => { x with epc := v }
  | 0x003 => s.onSt fun x => { x with mstep := v.setWidth 16, mstepValid := v.getLsbD 16 }
  | 0x004 => s.onSt fun x => { x with fval := v }
  | 0x018 => s.onCx fun c => { c with budget := v.setWidth 32 }
  | 0x020 => s.onCx fun c => { c with cbase := wordAligned v }
  | 0x021 => s.onCx fun c => { c with clim := wordAligned v }
  | 0x030 => s.onCx fun c => { c with flags := c.flags &&& ~~~(v.setWidth 11) }
  | 0x031 => s.onCx fun c => { c with rm := v.setWidth 2, sto := if s.tile.feat.getLsbD 3 then v.getLsbD 2 else c.sto }
  | _ => s

end Sys2Proof.Machine
end

