-- ==== Sys2Proof/Machine/System.lean ====
section
/-! DEFINITION. Sys2Proof/Machine/System.lean: system registers, bank formats, hints and `ximm`, traps and breakpoints, waits and their
ends, code and translation invalidation, the budget watchdog, and records that are placed (02 R38-R57, 06 R134, R148, 11 R266, 14
R314, 16 R349-R370). -/
namespace Sys2Proof.Machine

/-! ### Hints and `ximm` (02 R40-R46) -/

/-- A word that joins the unit in progress. BUDGET is raised where the unit ends (16 R352). -/
def unitWord (i : Instr) (s : State) (join : Strand → Strand) : Host.Outcome State Fault Refusal :=
  .next (match gate i s with
    | some t => s.takeTrap t
    | none => s.onSt fun x => { join x with pc := x.pc + 4 })

/-- A hint word joins the unit in progress. -/
def hintWord (i : Instr) (s : State) : Host.Outcome State Fault Refusal := unitWord i s fun x => { x with hint := some i }

/-- `HINT_NOP` (02 R46). -/
def execHintNop (s : State) : Host.Outcome State Fault Refusal := hintWord .hintNop s

/-- `HINT_BR` (02 R46). -/
def execHintBr (lk : BitVec 2) (s : State) : Host.Outcome State Fault Refusal := hintWord (.hintBr lk) s

/-- `HINT_PF` (02 R46). -/
def execHintPf (a : SReg) (off : BitVec 16) (s : State) : Host.Outcome State Fault Refusal := hintWord (.hintPf a off) s

/-- `HINT_PG` (02 R46). -/
def execHintPg (a : SReg) (n : BitVec 16) (s : State) : Host.Outcome State Fault Refusal := hintWord (.hintPg a n) s

/-- `HINT_BANK` (02 R46). -/
def execHintBank (n : BitVec 4) (s : State) : Host.Outcome State Fault Refusal := hintWord (.hintBank n) s

/-- `XIMM` (02 R45). -/
def execXimm (e : BitVec 26) (s : State) : Host.Outcome State Fault Refusal :=
  unitWord (.ximm e) s fun x => { x with ximm := some e }

/-- `UNASSIGNED_ENCODING` (02 R34): ILL; an `ximm` before it takes the blame (R40). -/
def execUnassignedEncoding (w : IWord) (s : State) : Host.Outcome State Fault Refusal :=
  run (.unassignedEncoding w) s fun s => s.trap .ill

/-- The action of the unit's hint, at the issue of its bound instruction (02 R41, R46). The hint is then spent: a stalled
instruction that issues again does not repeat it. -/
def State.hintAction (s : State) : State :=
  match s.st.hint with
  | none => s
  | some h =>
    let s1 := s.onSt fun x => { x with hint := some .hintNop }
    match h with
    | .hintPf a off =>
      let va := s.reg a + off.signExtend 64 * 64
      match s1.translate s.tile.ltn s.xc s.tile.paddock va 1 0 false with
      | (.ok pa key, s2) => s2.prefetchLines key pa
      | (.walk, s2) =>
        s2.askWalk s2.tile.paddock { tile := s2.tile.ltn, agent := .prefetch, access := 0, xc := s2.xc, va := va }
      | _ => s1
    | .hintPg a n => s1.postRange (s.reg a) n.toNat
    | _ => s1

/-! ### System registers (16 R368) -/

/-- An `ximm` before `srd` or `swr` makes the immediate 2^16 or more unless its bits are 0 (16 R368). -/
def State.sysImmOk (s : State) : Bool :=
  match s.st.ximm with
  | none => true
  | some e => e == 0

/-- `SRD` (16 R368). One of SR_FLAGS stalls until every earlier instruction has completed: their flags are in what it reads (08 R180; log 80; the
time of the stall is not modelled, log 5). -/
def execSrd (d : SReg) (r : BitVec 12) (s : State) : Host.Outcome State Fault Refusal :=
  run (.srd d r) s fun s => if !s.sysImmOk then s.trap .ill else
      let s1 := if r = 0x030 then s.onCx Ctx.landFlags else s
      .ok (s1.setReg d (s1.sysReg r))

/-- `SWR` (16 R368). -/
def execSwr (r : BitVec 12) (a : SReg) (s : State) : Host.Outcome State Fault Refusal :=
  run (.swr r a) s fun s =>
    if !s.sysImmOk then s.trap .ill
    else if s.st.lvl.toNat < writeLevel r then s.trap .priv
    else .ok (s.setSysReg r (s.reg a))

/-- `SWR_LOOP_REG` (14 R310). -/
def execSwrLoopReg (r : BitVec 12) (a : SReg) (s : State) : Host.Outcome State Fault Refusal :=
  run (.swrLoopReg r a) s fun s =>
    if !s.sysImmOk then s.trap .ill
    else
      let k := r.toNat - 0x010
      .ok (s.onSt fun x =>
        if k < 3 then { x with loop0 := x.loop0.write k (s.reg a) } else { x with loop1 := x.loop1.write (k - 3) (s.reg a) })

/-- `SWR_PHILOX` (07 R164, 08 R190): stalls while a drawing command has not completed. -/
def execSwrPhilox (r : BitVec 12) (a : SReg) (s : State) : Host.Outcome State Fault Refusal :=
  run (.swrPhilox r a) s fun s =>
    if !s.sysImmOk then s.trap .ill
    else if s.tile.drawing then s.stall .engine
    else .ok (s.onTile fun t =>
      if r = 0x040 then { t with phKey := s.reg a } else if r = 0x041 then { t with phCtrl := s.reg a } else { t with phCtrh := s.reg a })

/-- A write to BFMTn (06 R134, R135): BANKFMT for a plane-major layout of a format that has none; a stall while a command in flight
touches the bank. -/
def State.setBank (s : State) (n : BitVec 4) (v : DW) : Exec :=
  let b : BitVec 5 := v.setWidth 5
  if bankPlane b && !(planeCapable (bankFmt b)) then s.trap .bankfmt
  else if s.tile.bankBusy n.toNat then s.stall .engine
  else .ok (s.onTile fun t => { t with bfmt := t.bfmt.set n.toNat b n.isLt })

/-- `SWR_BFMT` (06 R134, 16 R368). -/
def execSwrBfmt (n : BitVec 4) (a : SReg) (s : State) : Host.Outcome State Fault Refusal :=
  run (.swrBfmt n a) s fun s => if !s.sysImmOk then s.trap .ill else s.setBank n (s.reg a)

/-- `BFMT_SET` (06 R148). -/
def execBfmtSet (n : BitVec 4) (a : SReg) (s : State) : Host.Outcome State Fault Refusal :=
  run (.bfmtSet n a) s fun s => s.setBank n (s.reg a)

/-- `BFMT_GET` (06 R148). -/
def execBfmtGet (d : SReg) (n : BitVec 4) (s : State) : Host.Outcome State Fault Refusal :=
  run (.bfmtGet d n) s fun s => .ok (s.setReg d ((s.tile.bank n.toNat).zeroExtend 64))

/-! ### Time (11 R266) -/

/-- `TBRD` (11 R266). -/
def execTbrd (d : SReg) (s : State) : Host.Outcome State Fault Refusal := run (.tbrd d) s fun s => .ok (s.setReg d s.tb)

/-- `TBRD_ST` (11 R266). -/
def execTbrdSt (d : SReg) (s : State) : Host.Outcome State Fault Refusal :=
  run (.tbrdSt d) s fun s => .ok (s.setReg d (BitVec.ofNat 64 ((if s.synced then 1 else 0) + s.hops.toNat * 256)))

/-- `WAITT` (11 R266). -/
def execWaitt (a : SReg) (s : State) : Host.Outcome State Fault Refusal :=
  run (.waitt a) s fun s => if (s.reg a).toNat ≤ s.tb.toNat then .ok s else .error (.wait (.time (s.reg a)) s)

/-! ### Traps, returns, waits (16 R365-R367) -/

/-- `TRAP` (16 R365): at L0 TRAP; at L1 a monitor call without an assigned number, which returns 0xFF; at L2 ILL. -/
def execTrap (n : BitVec 10) (s : State) : Host.Outcome State Fault Refusal :=
  run (.trap n) s fun s =>
    if s.st.lvl = 0 then .error (.trap { cause := .trap, info := n.zeroExtend 32 } s)
    else if s.st.lvl = 1 then .error (.ended (s.enterMonitor.setReg 5 0xFF).exitMonitor)
    else s.trap .ill

/-- `BRK` (16 R365). -/
def execBrk (n : BitVec 10) (s : State) : Host.Outcome State Fault Refusal :=
  run (.brk n) s fun s => .error (.trap { cause := .brk, info := n.zeroExtend 32 } s)

/-- `ERET` (16 R365, R366). -/
def execEret (s : State) : Host.Outcome State Fault Refusal :=
  run .eret s fun s => if s.st.lvl ≠ 2 then s.trap .priv else .error (.ended s.exitMonitor)

/-- `HALT` (16 R365). -/
def execHalt (s : State) : Host.Outcome State Fault Refusal :=
  run .halt s fun s => if s.st.lvl ≠ 2 then s.trap .priv else .ok (s.onTile fun t => { t with halted := true })

/-- `WFI` (16 R367). -/
def execWfi (s : State) : Host.Outcome State Fault Refusal := run .wfi s fun s => .error (.wait (.event s.tb) s)

/-- A stall of a kind ends: the word is executed again, and asks anew for a walk that it still needs. A monitor call that waits does so
too. -/
def endWait (k : WaitKind) (s : State) : Host.Outcome State Fault Refusal :=
  event (if (s.tile.strand s.input.strand).wait = some (.retry k) ∨ (s.tile.strand s.input.strand).wait = some .monitor then
      (s.dropAskers s.tile.ltn s.input.strand).onTile fun t => t.modStrand s.input.strand fun x => { x with wait := none }
    else s)

/-- `MEMORY_WAIT_END` (02 R44). -/
def execMemoryWaitEnd (s : State) : Host.Outcome State Fault Refusal := endWait .memory s

/-- `ENGINE_WAIT_END` (02 R44). -/
def execEngineWaitEnd (s : State) : Host.Outcome State Fault Refusal := endWait .engine s

/-- `QUEUE_WAIT_END` (02 R44). -/
def execQueueWaitEnd (s : State) : Host.Outcome State Fault Refusal := endWait .queue s

/-- `TIME_WAIT_END` (11 R266): TB has reached the time that `waitt` of `strand` names. -/
def execTimeWaitEnd (s : State) : Host.Outcome State Fault Refusal :=
  event (match (s.tile.strand s.input.strand).wait with
  | some (.time t) =>
    if t.toNat ≤ s.tb.toNat then s.onTile fun u => u.modStrand s.input.strand Strand.retire else s
  | _ => s)

/-- `BUDGET_EXPIRY` (16 R360): the cycles of `strand`'s run exceed ACT_BUDGET. BUDGET is due at its next issue boundary, where a pending
asynchronous cause comes first (R352); a stall ends there, at the stalled unit. A page wait and the monitor are not counted and not cut. -/
def execBudgetExpiry (s : State) : Host.Outcome State Fault Refusal :=
  event (
    let x := s.tile.strand s.input.strand
    let b := (s.tile.ctxs[x.ctx.toNat]'(x.ctx.isLt)).budget.toNat
    if !x.counts || b == 0 || decide (x.cycles ≤ b) then s
    else (s.dropAskers s.tile.ltn s.input.strand).onTile fun t =>
      t.modStrand s.input.strand fun x => { x with budgetDue := true, wait := none })

/-! ### Code and translation (14 R314, 16 R369) -/

/-- Global tile ids that an `ifl` names (16 R369): every tile of the paddock for selector 2. -/
def State.iflTargets (s : State) (v : Nat) : List Nat :=
  let g := bitsOf v 0 22
  match bitsOf v 22 2 with
  | 0 => [g]
  | 1 => (List.range 32).map (· + g / 32 * 32)
  | _ => ((List.range 1024).map (· + g / 1024 * 1024)).filter s.destInPaddock

/-- The pieces of a virtual range, page by page of the smallest size, translated for reading. -/
def State.iflPages (s : State) (va n : Nat) : Nat → Except Stop (List (Nat × Nat) × State)
  | 0 => .ok ([], s)
  | fuel + 1 =>
    if n = 0 then .ok ([], s)
    else do
      let m := min n (65536 - va % 65536)
      let (pa, _, s1) ← s.xlate (.mrq s.cur) (BitVec.ofNat 64 va) 1 0
      let (rest, s2) ← s1.iflPages (va + m) (n - m) fuel
      .ok ((pa, m) :: rest, s2)

/-- Cached words of ranges leave an instruction cache; all of them where `all`. -/
def Tile.dropCode (t : Tile) (all : Bool) (rs : List (Nat × Nat)) : Tile :=
  let stays := fun (pa : Nat) => !(all || rs.any fun r => overlaps pa 4 r.1 r.2)
  { t with icache := t.icache.filter (fun w => stays w.1), codeBad := t.codeBad.filter stays }

/-- Cached words leave the instruction cache of a tile of this package. -/
def State.dropCodeAt (s : State) (rs : Option (List (Nat × Nat))) (g : Nat) : State :=
  if g / 1024 = s.pkg.toNat then s.modTile (g % 1024) fun t => t.dropCode rs.isNone (rs.getD []) else s

/-- A target strand passes its invalidation point at once: it is idle, its context is parked, or it waits on a page event (14 R314). -/
def State.passesNow (s : State) (t : Nat × StrandId) : Bool :=
  let x := (s.getTile (t.1 % 1024)).strand t.2
  t.1 / 1024 == s.pkg.toNat && (!x.act || x.wait == some .page)

/-- A target strand is between two issue units. When a strand of another package is, is an input of the turn (log 48). -/
def State.betweenUnits (s : State) (t : Nat × StrandId) : Bool :=
  let x := (s.getTile (t.1 % 1024)).strand t.2
  t.1 / 1024 != s.pkg.toNat || s.passesNow t || (x.wait.isNone && x.hint.isNone && x.ximm.isNone)

/-- The issuing strand has no `ifl` under way. -/
def State.dropIfl (s : State) : State := { s with ifls := s.ifls.filter fun f => !(f.tile == s.tile.ltn && f.strand == s.cur) }

/-- An `ifl` starts: the targets that pass at once lose the words, and the issuing strand itself is one of them, whose next unit begins
after the `ifl`; it waits for the others. -/
def State.startIfl (s : State) (ts : List Nat) (rs : Option (List (Nat × Nat))) : Exec :=
  let strands := ts.flatMap fun g => [(g, StrandId.main), (g, StrandId.handler)]
  let now := fun (t : Nat × StrandId) => s.passesNow t || t == (s.gid s.tile.ltn, s.cur)
  let s1 := ((strands.filter now).map (·.1)).foldl (State.dropCodeAt · rs) s.dropIfl
  let later := strands.filter fun t => !(now t)
  if later.isEmpty then .ok s1
  else
    ({ s1 with ifls := s1.ifls ++
      [{ tile := s.tile.ltn, strand := s.cur, run := s.runRef.run, ranges := rs, targets := later }] } : State).stall .memory

/-- `IFL` (16 R369, 14 R314): it completes when every target strand has passed its invalidation point. -/
def execIfl (a b n : SReg) (s : State) : Host.Outcome State Fault Refusal :=
  run (.ifl a b n) s fun s => do
    match s.ifls.find? fun f => f.tile == s.tile.ltn && f.strand == s.cur && f.run == s.runRef.run with
    | some f => if f.targets.isEmpty then .ok s.dropIfl else s.stall .memory
    | none =>
      let v := (s.reg a).toNat
      s.check (bitsOf v 10 12 == s.pkg.toNat || s.tile.feat.getLsbD 8) .ill
      s.check (decide (v < 2 ^ 24) && bitsOf v 22 2 != 3) .prot
      s.checkAt ((s.reg b).toNat % 4 == 0) .align (s.reg b)
      s.check (decide ((s.reg n).toNat ≤ 2 ^ 24)) .prot
      let ts := s.iflTargets v
      s.check (ts.all s.destInPaddock) .prot
      let (rs, s1) ← s.iflPages (s.reg b).toNat (s.reg n).toNat 258
      s1.startIfl ts (if s.reg n = 0 then none else some rs)

/-- Target strands of `ifl` `k` that are between two units pass their invalidation points (14 R314). -/
def State.passPoint (s : State) (k : Nat) : State :=
  match s.ifls[k]? with
  | none => s
  | some f =>
    let s1 := ((f.targets.filter s.betweenUnits).map (·.1)).foldl (State.dropCodeAt · f.ranges) s
    { s1 with ifls := modAt (fun f => { f with targets := f.targets.filter fun t => !(s.betweenUnits t) }) k s1.ifls }

/-- `TLBINV` (16 R369, 04 R98): L1 only; it completes when no access of the paddock that was translated before is outstanding and
no walk of it is under way. DESIGN CHOICE (log 75): a trigger that `fut.on` has stored, and a join decrement in flight, hold a translated
address and do not hold it back. -/
def execTlbinv (a b : SReg) (s : State) : Host.Outcome State Fault Refusal :=
  run (.tlbinv a b) s fun s => do
    s.check (!s.atL0) .priv
    s.checkAt ((s.reg a).toNat % 65536 == 0) .align (s.reg a)
    s.check (decide ((s.reg b).toNat < 2 ^ 48)) .prot
    let s1 := s.invalidate s.tile.paddock (BitVec.ofNat 16 (s.reg b).toNat) (s.reg a).toNat (bitsOf (s.reg b).toNat 16 32 * 65536)
    if s.accessesOpen s.tile.paddock then s1.stall .memory else .ok s1

/-! ### Records (15 R324, 16 R354, R355) -/

/-- The QCB of a paddock's queue for records (17 R372). -/
def State.recordQueue (s : State) (r : RecordWait) : Option Queue :=
  (s.pcfg r.paddock).bind fun c => s.queueAt (match r.queue with
    | .fault => c.faultQ.toNat
    | .pager => c.pagerQ.toNat
    | .gleaner => c.gleanQ.toNat)

/-- Records that a paddock's gleaner queue has lost since the last one delivered (10 R233). -/
def State.lostCount (s : State) (p : BitVec 5) : Nat := ((s.lost.find? fun x => x.1 == p).map (·.2)).getD 0
def State.setLost (s : State) (p : BitVec 5) (n : Nat) : State :=
  { s with lost := upsert (fun x => x.1 == p) (fun _ => (p, n)) s.lost }

/-- The record is a sheaf fault record (10 R233): its KIND is 1 to 10. -/
def sheafKind (bs : List Byte) : Bool := decide (1 ≤ ofLe (bs.take 1)) && decide (ofLe (bs.take 1) ≤ 10)

/-- A sheaf fault record takes the count of lost ones into byte [1]. -/
def withLost (bs : List Byte) (n : Nat) : List Byte := bs.take 1 ++ leBytes 1 (min 255 n) ++ bs.drop 2

/-- `FAULT_RECORD_PLACED` (16 R354, R355; 10 R233; 15 R324): record `k` is placed, earlier ones of its queue and kind first. A sheaf fault
record that finds no room is dropped and counted; the others wait, and take no count. -/
def execFaultRecordPlaced (s : State) : Host.Outcome State Fault Refusal :=
  event (match s.records[s.input.k]? with
  | none => s
  | some r =>
    let sheaf := sheafKind r.bytes && r.queue == .gleaner
    if (s.records.take s.input.k).any fun x => x.paddock == r.paddock && x.queue == r.queue && (sheafKind x.bytes == sheafKind r.bytes)
    then s
    else
      let rest : State := { s with records := dropAt s.input.k s.records }
      let n := s.lostCount r.paddock
      match (s.recordQueue r).bind fun q => rest.agentPushNow q .record (if sheaf then withLost r.bytes n else r.bytes) with
      | some s1 => if sheaf then s1.setLost r.paddock 0 else s1
      | none => if sheaf then rest.setLost r.paddock (n + 1) else s)

end Sys2Proof.Machine
end

