-- ==== Sys2Proof/Machine/Dispatch.lean ====
section
/-! DEFINITION. Sys2Proof/Machine/Dispatch.lean: one arm per constructor of Instr, each a direct call of its meaning. -/
namespace Sys2Proof.Machine

/-- The effect of an instruction or an event. -/
def exec (i : Instr) (s : State) : Host.Outcome State Fault Refusal :=
  match i with
  | .add d a b => Sys2Proof.Machine.execAdd d a b s
  | .sub d a b => Sys2Proof.Machine.execSub d a b s
  | .mul d a b => Sys2Proof.Machine.execMul d a b s
  | .mulhI d a b => Sys2Proof.Machine.execMulhI d a b s
  | .mulhN d a b => Sys2Proof.Machine.execMulhN d a b s
  | .divI d a b => Sys2Proof.Machine.execDivI d a b s
  | .divN d a b => Sys2Proof.Machine.execDivN d a b s
  | .remI d a b => Sys2Proof.Machine.execRemI d a b s
  | .remN d a b => Sys2Proof.Machine.execRemN d a b s
  | .and d a b => Sys2Proof.Machine.execAnd d a b s
  | .or d a b => Sys2Proof.Machine.execOr d a b s
  | .xor d a b => Sys2Proof.Machine.execXor d a b s
  | .andn d a b => Sys2Proof.Machine.execAndn d a b s
  | .shl d a b => Sys2Proof.Machine.execShl d a b s
  | .shrN d a b => Sys2Proof.Machine.execShrN d a b s
  | .shrI d a b => Sys2Proof.Machine.execShrI d a b s
  | .rotr d a b => Sys2Proof.Machine.execRotr d a b s
  | .sltI d a b => Sys2Proof.Machine.execSltI d a b s
  | .sltN d a b => Sys2Proof.Machine.execSltN d a b s
  | .seq d a b => Sys2Proof.Machine.execSeq d a b s
  | .minI d a b => Sys2Proof.Machine.execMinI d a b s
  | .maxI d a b => Sys2Proof.Machine.execMaxI d a b s
  | .minN d a b => Sys2Proof.Machine.execMinN d a b s
  | .maxN d a b => Sys2Proof.Machine.execMaxN d a b s
  | .addsI d a b => Sys2Proof.Machine.execAddsI d a b s
  | .subsI d a b => Sys2Proof.Machine.execSubsI d a b s
  | .clz d a => Sys2Proof.Machine.execClz d a s
  | .ctz d a => Sys2Proof.Machine.execCtz d a s
  | .pop d a => Sys2Proof.Machine.execPop d a s
  | .sextI8 d a => Sys2Proof.Machine.execSextI8 d a s
  | .sextI16 d a => Sys2Proof.Machine.execSextI16 d a s
  | .sextI32 d a => Sys2Proof.Machine.execSextI32 d a s
  | .zextN8 d a => Sys2Proof.Machine.execZextN8 d a s
  | .zextN16 d a => Sys2Proof.Machine.execZextN16 d a s
  | .zextN32 d a => Sys2Proof.Machine.execZextN32 d a s
  | .bswap d a => Sys2Proof.Machine.execBswap d a s
  | .addsc1 d a b => Sys2Proof.Machine.execAddsc1 d a b s
  | .addsc2 d a b => Sys2Proof.Machine.execAddsc2 d a b s
  | .addsc3 d a b => Sys2Proof.Machine.execAddsc3 d a b s
  | .addi d a imm => Sys2Proof.Machine.execAddi d a imm s
  | .andi d a imm => Sys2Proof.Machine.execAndi d a imm s
  | .ori d a imm => Sys2Proof.Machine.execOri d a imm s
  | .xori d a imm => Sys2Proof.Machine.execXori d a imm s
  | .slti d a imm => Sys2Proof.Machine.execSlti d a imm s
  | .sltni d a imm => Sys2Proof.Machine.execSltni d a imm s
  | .shli d a imm => Sys2Proof.Machine.execShli d a imm s
  | .shriN d a imm => Sys2Proof.Machine.execShriN d a imm s
  | .shriI d a imm => Sys2Proof.Machine.execShriI d a imm s
  | .addhi d a imm => Sys2Proof.Machine.execAddhi d a imm s
  | .ldN sz d base off => Sys2Proof.Machine.execLdN sz d base off s
  | .ldI sz d base off => Sys2Proof.Machine.execLdI sz d base off s
  | .st sz d base off => Sys2Proof.Machine.execSt sz d base off s
  | .stK sz d base off => Sys2Proof.Machine.execStK sz d base off s
  | .vld d base off => Sys2Proof.Machine.execVld d base off s
  | .vldM d base off m => Sys2Proof.Machine.execVldM d base off m s
  | .vldG32 d base idx m sc => Sys2Proof.Machine.execVldG32 d base idx m sc s
  | .vldG64 d base idx m sc => Sys2Proof.Machine.execVldG64 d base idx m sc s
  | .vldCvtF32 d base off => Sys2Proof.Machine.execVldCvtF32 d base off s
  | .vldCvtF64 d base off => Sys2Proof.Machine.execVldCvtF64 d base off s
  | .vst d base off => Sys2Proof.Machine.execVst d base off s
  | .vstM d base off m => Sys2Proof.Machine.execVstM d base off m s
  | .vstS32 d base idx m sc => Sys2Proof.Machine.execVstS32 d base idx m sc s
  | .vstS64 d base idx m sc => Sys2Proof.Machine.execVstS64 d base idx m sc s
  | .mrqRd sz t a d off => Sys2Proof.Machine.execMrqRd sz t a d off s
  | .mrqWr sz t a d off => Sys2Proof.Machine.execMrqWr sz t a d off s
  | .mrqWrm t a d mask => Sys2Proof.Machine.execMrqWrm t a d mask s
  | .mrqWait d t => Sys2Proof.Machine.execMrqWait d t s
  | .mrqPoll d t => Sys2Proof.Machine.execMrqPoll d t s
  | .beq a b off => Sys2Proof.Machine.execBeq a b off s
  | .bne a b off => Sys2Proof.Machine.execBne a b off s
  | .blt a b off => Sys2Proof.Machine.execBlt a b off s
  | .bge a b off => Sys2Proof.Machine.execBge a b off s
  | .bltn a b off => Sys2Proof.Machine.execBltn a b off s
  | .bgen a b off => Sys2Proof.Machine.execBgen a b off s
  | .jmp off => Sys2Proof.Machine.execJmp off s
  | .jmpr a imm => Sys2Proof.Machine.execJmpr a imm s
  | .loop lvl a len => Sys2Proof.Machine.execLoop lvl a len s
  | .loopi lvl cnt len => Sys2Proof.Machine.execLoopi lvl cnt len s
  | .sel c d a b => Sys2Proof.Machine.execSel c d a b s
  | .cmov c d a b => Sys2Proof.Machine.execCmov c d a b s
  | .vaddFp ty d a b k => Sys2Proof.Machine.execVaddFp ty d a b k s
  | .vsubFp ty d a b k => Sys2Proof.Machine.execVsubFp ty d a b k s
  | .vmulFp ty d a b k => Sys2Proof.Machine.execVmulFp ty d a b k s
  | .vfma ty d a b k => Sys2Proof.Machine.execVfma ty d a b k s
  | .vfms ty d a b k => Sys2Proof.Machine.execVfms ty d a b k s
  | .vdiv ty d a b k => Sys2Proof.Machine.execVdiv ty d a b k s
  | .vsqrt ty d a k => Sys2Proof.Machine.execVsqrt ty d a k s
  | .vminFp ty d a b k => Sys2Proof.Machine.execVminFp ty d a b k s
  | .vmaxFp ty d a b k => Sys2Proof.Machine.execVmaxFp ty d a b k s
  | .vabsFp ty d a k => Sys2Proof.Machine.execVabsFp ty d a k s
  | .vnegFp ty d a k => Sys2Proof.Machine.execVnegFp ty d a k s
  | .vrcp ty d a k => Sys2Proof.Machine.execVrcp ty d a k s
  | .vrsq ty d a k => Sys2Proof.Machine.execVrsq ty d a k s
  | .vaddInt es sg d a b k => Sys2Proof.Machine.execVaddInt es sg d a b k s
  | .vsubInt es sg d a b k => Sys2Proof.Machine.execVsubInt es sg d a b k s
  | .vadds es sg d a b k => Sys2Proof.Machine.execVadds es sg d a b k s
  | .vsubs es sg d a b k => Sys2Proof.Machine.execVsubs es sg d a b k s
  | .vmulInt es sg d a b k => Sys2Proof.Machine.execVmulInt es sg d a b k s
  | .vmulh es sg d a b k => Sys2Proof.Machine.execVmulh es sg d a b k s
  | .vminInt es sg d a b k => Sys2Proof.Machine.execVminInt es sg d a b k s
  | .vmaxInt es sg d a b k => Sys2Proof.Machine.execVmaxInt es sg d a b k s
  | .vand es sg d a b k => Sys2Proof.Machine.execVand es sg d a b k s
  | .vor es sg d a b k => Sys2Proof.Machine.execVor es sg d a b k s
  | .vxor es sg d a b k => Sys2Proof.Machine.execVxor es sg d a b k s
  | .vshl es sg d a b k => Sys2Proof.Machine.execVshl es sg d a b k s
  | .vshr es sg d a b k => Sys2Proof.Machine.execVshr es sg d a b k s
  | .vabsInt es d a k => Sys2Proof.Machine.execVabsInt es d a k s
  | .vcmpEq ty d a b k => Sys2Proof.Machine.execVcmpEq ty d a b k s
  | .vcmpNe ty d a b k => Sys2Proof.Machine.execVcmpNe ty d a b k s
  | .vcmpLt ty d a b k => Sys2Proof.Machine.execVcmpLt ty d a b k s
  | .vcmpLe ty d a b k => Sys2Proof.Machine.execVcmpLe ty d a b k s
  | .vcmpUn ty d a b k => Sys2Proof.Machine.execVcmpUn ty d a b k s
  | .vcvt g f d a => Sys2Proof.Machine.execVcvt g f d a s
  | .vlog2 d a k => Sys2Proof.Machine.execVlog2 d a k s
  | .vexp2 d a k => Sys2Proof.Machine.execVexp2 d a k s
  | .vrand d k => Sys2Proof.Machine.execVrand d k s
  | .vrandF32 d k => Sys2Proof.Machine.execVrandF32 d k s
  | .vsum ty d a k => Sys2Proof.Machine.execVsum ty d a k s
  | .vmaxi ty d a b k => Sys2Proof.Machine.execVmaxi ty d a b k s
  | .vmini ty d a b k => Sys2Proof.Machine.execVmini ty d a b k s
  | .vperm d a b k => Sys2Proof.Machine.execVperm d a b k s
  | .vrot d a b k => Sys2Proof.Machine.execVrot d a b k s
  | .vbcast32 d a k => Sys2Proof.Machine.execVbcast32 d a k s
  | .vbcast64 d a k => Sys2Proof.Machine.execVbcast64 d a k s
  | .vins32 d a n => Sys2Proof.Machine.execVins32 d a n s
  | .vext32 d a n => Sys2Proof.Machine.execVext32 d a n s
  | .vlane d k => Sys2Proof.Machine.execVlane d k s
  | .vsel32 d a b k => Sys2Proof.Machine.execVsel32 d a b k s
  | .vmov32 d a k => Sys2Proof.Machine.execVmov32 d a k s
  | .vins64 d a n => Sys2Proof.Machine.execVins64 d a n s
  | .vext64 d a n => Sys2Proof.Machine.execVext64 d a n s
  | .vsel64 d a b k => Sys2Proof.Machine.execVsel64 d a b k s
  | .vmov64 d a k => Sys2Proof.Machine.execVmov64 d a k s
  | .kand d a b => Sys2Proof.Machine.execKand d a b s
  | .kor d a b => Sys2Proof.Machine.execKor d a b s
  | .kxor d a b => Sys2Proof.Machine.execKxor d a b s
  | .kandn d a b => Sys2Proof.Machine.execKandn d a b s
  | .kset d a => Sys2Proof.Machine.execKset d a s
  | .kget d a => Sys2Proof.Machine.execKget d a s
  | .kpop d a => Sys2Proof.Machine.execKpop d a s
  | .kffs d a => Sys2Proof.Machine.execKffs d a s
  | .mma acc a b n c => Sys2Proof.Machine.execMma acc a b n c s
  | .mmaZ acc a b n c => Sys2Proof.Machine.execMmaZ acc a b n c s
  | .mmaT acc a b n c => Sys2Proof.Machine.execMmaT acc a b n c s
  | .mmaTZ acc a b n c => Sys2Proof.Machine.execMmaTZ acc a b n c s
  | .accZero acc n c => Sys2Proof.Machine.execAccZero acc n c s
  | .accLd acc d c => Sys2Proof.Machine.execAccLd acc d c s
  | .accSt d acc c => Sys2Proof.Machine.execAccSt d acc c s
  | .accCvt f d acc c => Sys2Proof.Machine.execAccCvt f d acc c s
  | .sqQuant f d acc a b c => Sys2Proof.Machine.execSqQuant f d acc a b c s
  | .sqDeq f acc d b c => Sys2Proof.Machine.execSqDeq f acc d b c s
  | .sqAlign d a b c => Sys2Proof.Machine.execSqAlign d a b c s
  | .sqScale d a b c => Sys2Proof.Machine.execSqScale d a b c s
  | .bfmtSet n a => Sys2Proof.Machine.execBfmtSet n a s
  | .bfmtGet d n => Sys2Proof.Machine.execBfmtGet d n s
  | .cp dl sl c d a b => Sys2Proof.Machine.execCp dl sl c d a b s
  | .cpZ dl c d b => Sys2Proof.Machine.execCpZ dl c d b s
  | .cpPf c a b => Sys2Proof.Machine.execCpPf c a b s
  | .cp2 dl sl c d a b => Sys2Proof.Machine.execCp2 dl sl c d a b s
  | .cpSq dl sl c d a b => Sys2Proof.Machine.execCpSq dl sl c d a b s
  | .cpSqt dl sl c d a b => Sys2Proof.Machine.execCpSqt dl sl c d a b s
  | .cpFill c d a b => Sys2Proof.Machine.execCpFill c d a b s
  | .cpWait c a => Sys2Proof.Machine.execCpWait c a s
  | .cpWaitq d c a => Sys2Proof.Machine.execCpWaitq d c a s
  | .cpRdc d c sel => Sys2Proof.Machine.execCpRdc d c sel s
  | .amoAdd w aq rl sc d a b => Sys2Proof.Machine.execAmoAdd w aq rl sc d a b s
  | .amoAnd w aq rl sc d a b => Sys2Proof.Machine.execAmoAnd w aq rl sc d a b s
  | .amoOr w aq rl sc d a b => Sys2Proof.Machine.execAmoOr w aq rl sc d a b s
  | .amoXor w aq rl sc d a b => Sys2Proof.Machine.execAmoXor w aq rl sc d a b s
  | .amoSwap w aq rl sc d a b => Sys2Proof.Machine.execAmoSwap w aq rl sc d a b s
  | .amoMin w aq rl sc d a b => Sys2Proof.Machine.execAmoMin w aq rl sc d a b s
  | .amoMax w aq rl sc d a b => Sys2Proof.Machine.execAmoMax w aq rl sc d a b s
  | .amoMinn w aq rl sc d a b => Sys2Proof.Machine.execAmoMinn w aq rl sc d a b s
  | .amoMaxn w aq rl sc d a b => Sys2Proof.Machine.execAmoMaxn w aq rl sc d a b s
  | .amoCas w aq rl sc d a b => Sys2Proof.Machine.execAmoCas w aq rl sc d a b s
  | .amoFadd w aq rl sc d a b => Sys2Proof.Machine.execAmoFadd w aq rl sc d a b s
  | .lamoAdd w aq rl sc d a b => Sys2Proof.Machine.execLamoAdd w aq rl sc d a b s
  | .lamoAnd w aq rl sc d a b => Sys2Proof.Machine.execLamoAnd w aq rl sc d a b s
  | .lamoOr w aq rl sc d a b => Sys2Proof.Machine.execLamoOr w aq rl sc d a b s
  | .lamoXor w aq rl sc d a b => Sys2Proof.Machine.execLamoXor w aq rl sc d a b s
  | .lamoSwap w aq rl sc d a b => Sys2Proof.Machine.execLamoSwap w aq rl sc d a b s
  | .lamoMin w aq rl sc d a b => Sys2Proof.Machine.execLamoMin w aq rl sc d a b s
  | .lamoMax w aq rl sc d a b => Sys2Proof.Machine.execLamoMax w aq rl sc d a b s
  | .lamoMinn w aq rl sc d a b => Sys2Proof.Machine.execLamoMinn w aq rl sc d a b s
  | .lamoMaxn w aq rl sc d a b => Sys2Proof.Machine.execLamoMaxn w aq rl sc d a b s
  | .lamoCas w aq rl sc d a b => Sys2Proof.Machine.execLamoCas w aq rl sc d a b s
  | .lamoFadd w aq rl sc d a b => Sys2Proof.Machine.execLamoFadd w aq rl sc d a b s
  | .futRes d a b => Sys2Proof.Machine.execFutRes d a b s
  | .futReg d a b => Sys2Proof.Machine.execFutReg d a b s
  | .futOn a b c => Sys2Proof.Machine.execFutOn a b c s
  | .futRst d a => Sys2Proof.Machine.execFutRst d a s
  | .barArr d a => Sys2Proof.Machine.execBarArr d a s
  | .barWait d a b => Sys2Proof.Machine.execBarWait d a b s
  | .barPoll d a b => Sys2Proof.Machine.execBarPoll d a b s
  | .barJoin a => Sys2Proof.Machine.execBarJoin a s
  | .barLeave a => Sys2Proof.Machine.execBarLeave a s
  | .barCfg a b => Sys2Proof.Machine.execBarCfg a b s
  | .fence sc p q => Sys2Proof.Machine.execFence sc p q s
  | .qpush q a => Sys2Proof.Machine.execQpush q a s
  | .qpushAt q a b => Sys2Proof.Machine.execQpushAt q a b s
  | .qmark q => Sys2Proof.Machine.execQmark q s
  | .qmarkF q => Sys2Proof.Machine.execQmarkF q s
  | .qpop d q => Sys2Proof.Machine.execQpop d q s
  | .qpopm d q b => Sys2Proof.Machine.execQpopm d q b s
  | .qpeek d q => Sys2Proof.Machine.execQpeek d q s
  | .qstat d q sel => Sys2Proof.Machine.execQstat d q sel s
  | .amSend d a b => Sys2Proof.Machine.execAmSend d a b s
  | .amReply a b => Sys2Proof.Machine.execAmReply a b s
  | .amStat d sel => Sys2Proof.Machine.execAmStat d sel s
  | .shTag d a b => Sys2Proof.Machine.execShTag d a b s
  | .shChk d a b => Sys2Proof.Machine.execShChk d a b s
  | .shRed a b => Sys2Proof.Machine.execShRed a b s
  | .shAck a b => Sys2Proof.Machine.execShAck a b s
  | .shRel d a b => Sys2Proof.Machine.execShRel d a b s
  | .trap n => Sys2Proof.Machine.execTrap n s
  | .brk n => Sys2Proof.Machine.execBrk n s
  | .srd d r => Sys2Proof.Machine.execSrd d r s
  | .swr r a => Sys2Proof.Machine.execSwr r a s
  | .swrBfmt n a => Sys2Proof.Machine.execSwrBfmt n a s
  | .swrLoopReg r a => Sys2Proof.Machine.execSwrLoopReg r a s
  | .swrPhilox r a => Sys2Proof.Machine.execSwrPhilox r a s
  | .ifl a b n => Sys2Proof.Machine.execIfl a b n s
  | .tlbinv a b => Sys2Proof.Machine.execTlbinv a b s
  | .tbrd d => Sys2Proof.Machine.execTbrd d s
  | .tbrdSt d => Sys2Proof.Machine.execTbrdSt d s
  | .waitt a => Sys2Proof.Machine.execWaitt a s
  | .hintBr lk => Sys2Proof.Machine.execHintBr lk s
  | .hintPf a off => Sys2Proof.Machine.execHintPf a off s
  | .hintPg a n => Sys2Proof.Machine.execHintPg a n s
  | .hintBank n => Sys2Proof.Machine.execHintBank n s
  | .ximm e => Sys2Proof.Machine.execXimm e s
  | .flit l f => Sys2Proof.Machine.execFlit l f s
  | .notify r => Sys2Proof.Machine.execNotify r s
  | .bind r => Sys2Proof.Machine.execBind r s
  | .unbind r => Sys2Proof.Machine.execUnbind r s
  | .inject r => Sys2Proof.Machine.execInject r s
  | .status r => Sys2Proof.Machine.execStatus r s
  | .summary r => Sys2Proof.Machine.execSummary r s
  | .reconfig r recs => Sys2Proof.Machine.execReconfig r recs s
  | .exportRequest r arg records => Sys2Proof.Machine.execExportRequest r arg records s
  | .importRequest r arg records => Sys2Proof.Machine.execImportRequest r arg records s
  | .attestRequest r nonce => Sys2Proof.Machine.execAttestRequest r nonce s
  | .packageReset r => Sys2Proof.Machine.execPackageReset r s
  | .unassignedEncoding w => Sys2Proof.Machine.execUnassignedEncoding w s
  | .commit => Sys2Proof.Machine.execCommit s
  | .abort => Sys2Proof.Machine.execAbort s
  | .yield => Sys2Proof.Machine.execYield s
  | .amEnd => Sys2Proof.Machine.execAmEnd s
  | .eret => Sys2Proof.Machine.execEret s
  | .wfi => Sys2Proof.Machine.execWfi s
  | .halt => Sys2Proof.Machine.execHalt s
  | .info => Sys2Proof.Machine.execInfo s
  | .ctxPark => Sys2Proof.Machine.execCtxPark s
  | .ctxResume => Sys2Proof.Machine.execCtxResume s
  | .ctxKill => Sys2Proof.Machine.execCtxKill s
  | .quarantine => Sys2Proof.Machine.execQuarantine s
  | .regionSet => Sys2Proof.Machine.execRegionSet s
  | .keyLoad => Sys2Proof.Machine.execKeyLoad s
  | .keyClear => Sys2Proof.Machine.execKeyClear s
  | .routeSet => Sys2Proof.Machine.execRouteSet s
  | .routeClear => Sys2Proof.Machine.execRouteClear s
  | .vqBind => Sys2Proof.Machine.execVqBind s
  | .exportCall => Sys2Proof.Machine.execExportCall s
  | .importCall => Sys2Proof.Machine.execImportCall s
  | .attest => Sys2Proof.Machine.execAttest s
  | .hintNop => Sys2Proof.Machine.execHintNop s
  | .mrqReplyArrival => Sys2Proof.Machine.execMrqReplyArrival s
  | .thresherStep => Sys2Proof.Machine.execThresherStep s
  | .thresherStop => Sys2Proof.Machine.execThresherStop s
  | .thresherCommandComplete => Sys2Proof.Machine.execThresherCommandComplete s
  | .tailFault => Sys2Proof.Machine.execTailFault s
  | .wainCommandStart => Sys2Proof.Machine.execWainCommandStart s
  | .wainTransfer => Sys2Proof.Machine.execWainTransfer s
  | .wainCommandComplete => Sys2Proof.Machine.execWainCommandComplete s
  | .atomicAtHomeSlice => Sys2Proof.Machine.execAtomicAtHomeSlice s
  | .globalAtomicReply => Sys2Proof.Machine.execGlobalAtomicReply s
  | .asyncAtomicFault => Sys2Proof.Machine.execAsyncAtomicFault s
  | .atomicReplay => Sys2Proof.Machine.execAtomicReplay s
  | .atomicGiveUp => Sys2Proof.Machine.execAtomicGiveUp s
  | .joinDecrement => Sys2Proof.Machine.execJoinDecrement s
  | .barrierTimeout => Sys2Proof.Machine.execBarrierTimeout s
  | .shRedDeparture => Sys2Proof.Machine.execShRedDeparture s
  | .memoryWaitEnd => Sys2Proof.Machine.execMemoryWaitEnd s
  | .engineWaitEnd => Sys2Proof.Machine.execEngineWaitEnd s
  | .queueWaitEnd => Sys2Proof.Machine.execQueueWaitEnd s
  | .timeWaitEnd => Sys2Proof.Machine.execTimeWaitEnd s
  | .faultRecordPlaced => Sys2Proof.Machine.execFaultRecordPlaced s
  | .budgetExpiry => Sys2Proof.Machine.execBudgetExpiry s
  | .remap => Sys2Proof.Machine.execRemap s
  | .rd => Sys2Proof.Machine.execRd s
  | .wr => Sys2Proof.Machine.execWr s
  | .wrm => Sys2Proof.Machine.execWrm s
  | .sqrd => Sys2Proof.Machine.execSqrd s
  | .sqwr => Sys2Proof.Machine.execSqwr s
  | .atomwb => Sys2Proof.Machine.execAtomwb s
  | .walk => Sys2Proof.Machine.execWalk s
  | .pdelta => Sys2Proof.Machine.execPdelta s
  | .memoryEventForward => Sys2Proof.Machine.execMemoryEventForward s
  | .scrub => Sys2Proof.Machine.execScrub s
  | .channelStateChange => Sys2Proof.Machine.execChannelStateChange s
  | .homeSliceRead => Sys2Proof.Machine.execHomeSliceRead s
  | .homeSliceWrite => Sys2Proof.Machine.execHomeSliceWrite s
  | .baseDieReply => Sys2Proof.Machine.execBaseDieReply s
  | .pageEventOpen => Sys2Proof.Machine.execPageEventOpen s
  | .pageEventTimeout => Sys2Proof.Machine.execPageEventTimeout s
  | .pageResume => Sys2Proof.Machine.execPageResume s
  | .agentPushRetry => Sys2Proof.Machine.execAgentPushRetry s
  | .switchArrival => Sys2Proof.Machine.execSwitchArrival s
  | .reductionEmit => Sys2Proof.Machine.execReductionEmit s
  | .redtimeout => Sys2Proof.Machine.execRedtimeout s
  | .messageArrival => Sys2Proof.Machine.execMessageArrival s
  | .handlerStart => Sys2Proof.Machine.execHandlerStart s
  | .acceptance => Sys2Proof.Machine.execAcceptance s
  | .refusal => Sys2Proof.Machine.execRefusal s
  | .messageResend => Sys2Proof.Machine.execMessageResend s
  | .reject => Sys2Proof.Machine.execReject s
  | .remoteStore => Sys2Proof.Machine.execRemoteStore s
  | .remoteLoad => Sys2Proof.Machine.execRemoteLoad s
  | .loadReply => Sys2Proof.Machine.execLoadReply s
  | .remoteAtomic => Sys2Proof.Machine.execRemoteAtomic s
  | .atomicReply => Sys2Proof.Machine.execAtomicReply s
  | .sheafResend => Sys2Proof.Machine.execSheafResend s
  | .ackDelivery => Sys2Proof.Machine.execAckDelivery s
  | .nak => Sys2Proof.Machine.execNak s
  | .replayTimeout => Sys2Proof.Machine.execReplayTimeout s
  | .linkRetrain => Sys2Proof.Machine.execLinkRetrain s
  | .linkDown => Sys2Proof.Machine.execLinkDown s
  | .timeExchange => Sys2Proof.Machine.execTimeExchange s
  | .syncTimeout => Sys2Proof.Machine.execSyncTimeout s
  | .itemArrival => Sys2Proof.Machine.execItemArrival s
  | .bindMarkerArrival => Sys2Proof.Machine.execBindMarkerArrival s
  | .nbtReached => Sys2Proof.Machine.execNbtReached s
  | .creditReturn => Sys2Proof.Machine.execCreditReturn s
  | .schedulerBoundary => Sys2Proof.Machine.execSchedulerBoundary s
  | .fallowSteps => Sys2Proof.Machine.execFallowSteps s
  | .virtqueueCompletion => Sys2Proof.Machine.execVirtqueueCompletion s
  | .flr => Sys2Proof.Machine.execFlr s
  | .flrComplete => Sys2Proof.Machine.execFlrComplete s
  | .deviceReset => Sys2Proof.Machine.execDeviceReset s
  | .featuresOk => Sys2Proof.Machine.execFeaturesOk s
  | .ioDieFailover => Sys2Proof.Machine.execIoDieFailover s
  | .droop => Sys2Proof.Machine.execDroop s
  | .powerCap => Sys2Proof.Machine.execPowerCap s
  | .thermalLimit => Sys2Proof.Machine.execThermalLimit s
  | .itemRefusal => Sys2Proof.Machine.execItemRefusal s
  | .linkRetrainComplete => Sys2Proof.Machine.execLinkRetrainComplete s
  | .droopRecovery => Sys2Proof.Machine.execDroopRecovery s
  | .parityAck => Sys2Proof.Machine.execParityAck s
  | .driverOk => Sys2Proof.Machine.execDriverOk s
  | .atomicEntryExpiry => Sys2Proof.Machine.execAtomicEntryExpiry s

end Sys2Proof.Machine
end

