-- ==== Sys2Proof/Machine/Fetch.lean ====
section
/-! DEFINITION. Sys2Proof/Machine/Fetch.lean: fetching a word through the instruction cache, the issue of a word by a strand, and the
turns that are no strand's (02 R29, R30, R38-R42; 14 R314, R315; 16 R352). -/
namespace Sys2Proof.Machine

/-! ### Fetch (02 R29, R30) -/

/-- What the fetch of a word comes to. -/
inductive Fetched where
  | word (w : IWord) (s : State)
  | trap (t : TrapReq) (s : State)
  /-- PAGE: the strand waits on the entry. -/
  | page (s : State)
  /-- The page is walked, or the line has a request outstanding. -/
  | busy (s : State)

/-- The word at a physical address: from the instruction cache, or read through its home slice and cached (14 R314, R315). -/
def State.fetchPhys (s : State) (pa : Nat) (key : BitVec 13) : Fetched :=
  match s.tile.icache.find? fun p => p.1 == pa with
  | some p => if s.tile.codeBad.contains pa then .trap { cause := .uncorr, addr := s.st.pc, localSrc := true } s else .word p.2 s
  | none =>
    if s.lineBusy pa || s.olderWaits (s.gid s.tile.ltn) (sliceOf pa) s.reqSerial then .busy s
    else
      let (st, bs, s1) := s.sliceRead (s.askerOf s.tile.ltn s.tile.paddock (s.st.lvl == 2) key) pa 4
      match st.cause with
      | some c => .trap { cause := c, addr := s.st.pc } s1
      | none =>
        let w : IWord := BitVec.ofNat 32 (ofLe bs)
        .word w (s1.onTile fun t => { t with icache := t.icache ++ [(pa, w)] })

/-- The word at the issuing strand's program counter: PROT outside the code region, before any translation (02 R30). -/
def State.fetch (s : State) : Fetched :=
  let pc := s.st.pc
  if pc.toNat < s.cx.cbase.toNat ∨ s.cx.clim.toNat ≤ pc.toNat then .trap { cause := .prot, addr := pc } s
  else
    match s.translate s.tile.ltn s.xc s.tile.paddock pc 4 2 false with
    | (.ok pa key, s1) => s1.fetchPhys pa key
    | (.fault c, s1) => .trap { cause := c, addr := pc } s1
    | (.page lvl ptePa pte, s1) => .page (s1.waitPage s.tile.ltn (.fetch s.cur) s.xc 2 pc lvl ptePa pte)
    | (.walk, s1) =>
      .busy (s1.askWalk s.tile.paddock { tile := s.tile.ltn, agent := .fetch s.cur, access := 2, xc := s.xc, va := pc })

/-- The instruction that a fetched word stands for; a word that stands for none is an unassigned encoding (02 R34). -/
def instrOf (w : IWord) : Instr :=
  match decodeWord w with
  | .ok i => i
  | .error _ => .unassignedEncoding w

/-- A word raises ILL or PRIV, which come before its issue (16 R352 step 3): it is tried without its hint, and its strand shows the cause
it takes. -/
def State.stopsFirst (s : State) (i : Instr) : Bool :=
  match exec i (s.onSt fun x => { x with hint := some .hintNop, cause := 0 }) with
  | .next u => (u.tile.strand s.cur).cause == Cause.ill.code || (u.tile.strand s.cur).cause == Cause.priv.code
  | _ => false

/-- A word is issued. The action of its unit's hint comes first when the word ends the unit and issues: it is assigned, neither ILL nor
PRIV stops it, and no BUDGET takes its place (02 R41, 16 R352). -/
def State.issueWord (s : State) (w : IWord) : Host.Outcome State Fault Refusal :=
  let i := instrOf w
  let ends := !(isHint i) && (match i with
    | .ximm _ => false
    | .unassignedEncoding _ => false
    | _ => true)
  exec i (if ends && (gate i s).isNone && !s.st.budgetDue && s.st.hint.isSome && !(s.stopsFirst i) then s.hintAction else s)

/-- The strand of the tile at turn issues (16 R352): a pending asynchronous cause comes first, then the fetch, then the word. -/
def State.issue (s : State) (st : StrandId) : Host.Outcome State Fault Refusal :=
  let s0 := s.onTile fun t => { (t.ageFlags 1) with lastIssued := st }
  if (s0.tile.strand st).asyncFaults ≠ [] then .next (s0.raiseAsync st)
  else
    match s0.fetch with
    | .word w s1 => s1.issueWord w
    | .trap t s1 => .next (s1.takeTrap t)
    | .page s1 => .next (s1.onSt fun x => { x with wait := some .page })
    | .busy s1 => .next (s1.onSt fun x => { x with wait := some (.retry .memory) })

/-! ### Whose turn it is (01 R17) -/

/-- A strand of the tile at turn has an instruction to issue. -/
def State.ready (s : State) (st : StrandId) : Bool :=
  !s.halted && !s.tile.halted && (s.tile.strand st).act && (s.tile.strand st).wait.isNone

/-- The strand of the tile at turn that issues when no turn is given: the one that did not issue last, if both are ready. -/
def State.nextStrand (s : State) : Option StrandId :=
  let o := match s.tile.lastIssued with
    | .main => StrandId.handler
    | .handler => StrandId.main
  if s.ready o then some o else if s.ready s.tile.lastIssued then some s.tile.lastIssued else none

/-! ### Turns (log 5, 6) -/

/-- An instruction word is no event. -/
def isWord (i : Instr) : Bool :=
  (encode i).isSome || (match i with
    | .unassignedEncoding _ => true
    | _ => false)

/-- The event of a turn happens at a tile. -/
def State.happen (s : State) (l : Nat) (e : Instr) (inp : EventInput) : Host.Outcome State Fault Refusal :=
  if Config.tileCount ≤ l then .fault (.noSuchTile l)
  else if isWord e then .refused .wordAsEvent
  else exec e { s.switchTo l with input := inp }

/-- A strand's turn: nothing happens where it has nothing to issue. -/
def State.turnOf (s : State) (l : Nat) (st : StrandId) : Host.Outcome State Fault Refusal :=
  if Config.tileCount ≤ l then .fault (.noSuchTile l)
  else
    let s1 := s.switchTo l
    if s1.ready st then s1.issue st else .next s1

/-- A change of a tile of the package. -/
def State.onLtn (s : State) (l : Nat) (f : Tile → Tile) : Host.Outcome State Fault Refusal :=
  if Config.tileCount ≤ l then .fault (.noSuchTile l) else .next (s.modTile l f)

/-- A granule of main memory or of the second tier. -/
def granuleExists (g : Nat) : Bool :=
  decide (g * 32 + 32 ≤ Config.mainSize) || (decide (Config.tier2Base ≤ g * 32) && decide (g * 32 + 32 ≤ Config.tier2End))

/-- An error befalls a granule: one that the code corrects (`soft`), which the next read of main memory finds and a second-tier port
corrects by itself; or one that it only detects, which main memory finds at the next read and by which a second-tier granule is poisoned
(03 R71, 04 R91). -/
def State.upsetGranule (s : State) (g : Nat) (soft : Bool) : State :=
  if !(granuleExists g) then s
  else if Config.mainSize ≤ g * 32 then (if soft then s else { s with poison := insertNat g s.poison })
  else if soft then { s with eccSoft := insertNat g s.eccSoft }
  else { s with eccBad := insertNat g s.eccBad }

/-- The same befalls a parity granule, by its place among those of a channel index (03 R63). -/
def State.upsetParity (s : State) (g : Nat) (soft : Bool) : State :=
  if 2 ^ 31 ≤ g then s
  else if soft then { s with paritySoft := insertNat g s.paritySoft } else { s with parityBad := insertNat g s.parityBad }

/-- What a turn does. -/
def State.turn (s : State) : Turn → Host.Outcome State Fault Refusal
  | .issue l st => s.turnOf l st
  | .event l e inp => s.happen l e inp
  | .elapse c ns => .next (s.elapse c ns).giveUpDue
  | .evictLine k => .next { s with lines := dropAt k s.lines }
  | .evictTlb l k => s.onLtn l fun t => { t with tlb := dropAt k t.tlb }
  | .evictCode l k => s.onLtn l fun t =>
    { t with icache := dropAt k t.icache, codeBad := t.codeBad.filter fun a => (t.icache[k]?).map (·.1) != some a }
  | .evictDie k => .next { s with dieCache := dropAt k s.dieCache }
  | .upset g soft => .next (s.upsetGranule g soft)
  | .upsetParity g soft => .next (s.upsetParity g soft)
  | .upsetSpad l w => s.onLtn l fun t => if w < 131072 then { t with spadBad := insertNat w t.spadBad } else t
  | .upsetAcc l w => s.onLtn l fun t => if w < 8192 then { t with accBad := insertNat w t.accBad } else t
  | .upsetCode l pa => s.onLtn l fun t =>
    if t.icache.any fun p => p.1 == pa then { t with codeBad := insertNat pa t.codeBad } else t
  | .inbound m => .next (if m.source.toNat / 1024 = s.pkg.toNat then s else { s with msgs := s.msgs ++ [{ msg := m, rel := 0, phase := .toDest }] })
  | .transmit l => .next (if l < 16 then s.transmit l else s)
  | .sendReply vf conn => .next (s.sendReply vf conn)
  | .unknownRequest r op => unknownService r op s
  | .serviceWork k => .next (s.serviceWork k)
  | .barWrite vf dev off bs => .next (s.barWrite vf dev off bs)
  | .available r last => .next (s.available r last)
  | .passPoint k => .next (s.passPoint k)
  | .early l st w => s.onLtn l fun t => t.lookEarly st w
  | .acceptedAbroad k => .next (s.acceptedAbroad k)
  | .barrier k => .next (s.applyBar k)
  | .barrierResend k => .next (s.resendBar k)

/-! ### The state that runs one word next -/

/-- The page that `withFetchWord` maps, its physical frame and its leaf: readable, writable, executable, for L0, resident. -/
def probePc : DW := 0x10000
def probePa : Nat := 0x10000
def probeLeaf (key : BitVec 13) : BitVec 64 := BitVec.ofNat 64 (0x7F + 8 * 2 ^ 12 + key.toNat * 2 ^ 51)

/-- A configuration record for a paddock that has none: it owns what the fetch needs. -/
def probeCfg (p : BitVec 5) : PaddockCfg :=
  { pnum := p, rows := BitVec.allOnes 32, chans := 1 <<< p.toNat, vfs := 1, svc0 := 0, svc1 := 1, kbase := 1, kcount := 1, barBase := 0,
    barCount := 0, t2Base := 0, t2Count := 0, links := 0, featMask := 0, weight := 1, faultQ := 0, pagerQ := 0, gleanQ := 0 }

/-- An activation for a main strand that has none. -/
def probeAct : Activation :=
  { run := 1, final := false, popped := 0, firstId := 0, staged := [], outputs := [], recFlags := 0, recCtrl := 0, recCtrh := 0,
    recCarry := Vector.replicate 8 0, recOround := [], recCround := 0 }

/-- A word placed where the main strand of the tile at turn fetches next: its context runs, its program counter is at a mapped page of
its code region, the instruction cache holds the word of that page, and no turn is given. -/
def State.placeWord (s : State) (w : IWord) : State :=
  let t := s.tile
  let c := t.main.ctx
  let key : BitVec 13 := ((s.pcfg t.paddock).map PaddockCfg.kbase).getD 1
  let asid := (t.ctxs[c.toNat]'(c.isLt)).asid
  let e : TlbEntry := { paddock := t.paddock, asid := asid, page := probePc.toNat / 65536, lvl := 3, pte := probeLeaf key }
  let cfgs := if (s.pcfg t.paddock).isSome then s.paddocks else probeCfg t.paddock :: s.paddocks
  { s with paddocks := cfgs, halted := false, agenda := [],
           mem := s.mem.writeBytes probePa (bytesOfWord w),
           tile := { (t.modCtx c fun x => { x with state := .running, cbase := probePc, clim := probePc + 4 }) with
             tlb := e :: t.tlb, icache := (probePa, w) :: t.icache, codeBad := t.codeBad.filter (· != probePa), halted := false,
             lastIssued := .handler, act := some (t.act.getD probeAct),
             main := { t.main with pc := probePc, unit := probePc, hint := none, ximm := none, act := true, wait := none, sample := none,
                                   budgetDue := false, asyncFaults := [] } } }

end Sys2Proof.Machine
end

