-- ==== Sys2Proof/Machine/Step.lean ====
section
/-! DEFINITION. Sys2Proof/Machine/Step.lean: one step of the package: the next turn of the agenda, or, with none given, the next word of
the tile at turn (log 5). -/
namespace Sys2Proof.Machine

/-- One step. -/
def step (s : State) : Host.Outcome State Fault Refusal :=
  match s.agenda with
  | t :: rest => ({ s with agenda := rest } : State).turn t
  | [] =>
    match s.nextStrand with
    | some st => s.issue st
    | none => .next s

/-- The state in which the next step fetches and runs the word whose bits are `w`. -/
def State.withFetchWord (s : State) (nbits w : Nat) : State :=
  s.placeWord (BitVec.ofNat 32 (w % 2 ^ nbits))

end Sys2Proof.Machine
end

