-- ==== Sys2Proof/Safety.lean ====
section
/-! DEFINITION. Sys2Proof/Safety.lean: the terms that statements are made in: when a word issues with nothing in its way, what a
word leaves alone, and the invariant of the sparse memories. -/
namespace Sys2Proof.Machine

/-! ### When a word issues -/

/-- Nothing stops the word before its own checks: an `ximm` that is pending extends it (02 R40), the unit has no second hint
(02 R37), its strand may execute it (02 R36), FEAT0 does not mask it (16 R364), and no BUDGET has fallen due (16 R360). -/
abbrev Issues (i : Instr) (s : State) : Prop :=
  (s.st.ximm = none ∨ hasExtImm i = true) ∧ (s.st.hint = none ∨ isHint i = false) ∧ strandMay s.cur i = true ∧
  featureMasked s.tile.feat i = false ∧ s.st.budgetDue = false

/-- The state in which a strand of the tile at turn is the one that issues: a cycle has passed for the flags on their way (08 R180). -/
abbrev State.issuing (s : State) (st : StrandId) : State := s.onTile fun t => { (t.ageFlags 1) with lastIssued := st }

/-- BranchTo (14 R304): ALIGN before PROT, both at the branch; otherwise the target starts a new issue unit. -/
def branchOutcome (s : State) (t : DW) : Host.Outcome State Fault Refusal :=
  if t.toNat % 4 ≠ 0 then .next (s.takeTrap { cause := .align, addr := t })
  else if t.toNat < s.cx.cbase.toNat ∨ s.cx.clim.toNat ≤ t.toNat then .next (s.takeTrap { cause := .prot, addr := t })
  else .next (s.onSt fun x => x.startUnit t)

/-- The immediate of a signed field: its own bits, or those and the pending `ximm`'s above them (02 R40). -/
abbrev SignedImm {n : Nat} (s : State) (f : BitVec n) (m : DW) : Prop :=
  (s.st.ximm = none ∧ m = f.signExtend 64) ∨ ∃ e : BitVec 26, s.st.ximm = some e ∧ m = (e ++ f).signExtend 64

/-- The immediate of an unsigned field (02 R40). -/
abbrev UnsignedImm {n : Nat} (s : State) (f : BitVec n) (m : DW) : Prop :=
  (s.st.ximm = none ∧ m = f.zeroExtend 64) ∨ ∃ e : BitVec 26, s.st.ximm = some e ∧ m = (e ++ f).zeroExtend 64

/-- LocalCheck passes (06 R131): aligned, within the scratchpad, permitted by a region of the running level (16 R362). -/
abbrev LocalOk (s : State) (a : DW) (n : Nat) (wr : Bool) : Prop :=
  a.toNat % n = 0 ∧ a.toNat + n ≤ 0x100000 ∧
  (s.st.lvl = 2 ∨ ∃ d ∈ (if s.st.lvl = 0 then s.tile.regions0 else s.tile.regions1).toList, regionHolds d a.toNat n wr = true)

/-- The cause of LocalCheck for an access that fails it: ALIGN first, then PROT. -/
def localCause (a : DW) (n : Nat) : Cause := if a.toNat % n ≠ 0 then .align else .prot

/-- No 64-bit word of the bytes has an uncorrectable error (16 R350). -/
abbrev Readable (s : State) (a n : Nat) : Prop := ∀ w ∈ s.tile.spadBad, w * 8 + 8 ≤ a ∨ a + n ≤ w * 8

/-! ### What a word leaves alone -/

/-- Every byte of main memory, of the scratchpad and of the accumulator store reads as before. -/
abbrev SameBytes (s t : State) : Prop :=
  (∀ a, t.mem.read a = s.mem.read a) ∧ (∀ a, t.tile.spad.read a = s.tile.spad.read a) ∧
  ∀ a, t.tile.acc.read a = s.tile.acc.read a

/-- Every scalar register but `d` reads as before. -/
abbrev SameRegsBut (d : SReg) (s t : State) : Prop := ∀ r, r ≠ d → t.reg r = s.reg r

/-- Every vector register and every mask reads as before. -/
abbrev SameVectors (s t : State) : Prop := (∀ r, t.vreg r = s.vreg r) ∧ ∀ r, t.kreg r = s.kreg r

/-- The special registers that are not kept in a context, the Philox counter aside: the bank formats, the Philox key, the trap
registers and the status of the issuing strand, the counters, the request tags and the protection regions. -/
abbrev SameControl (s t : State) : Prop :=
  t.tile.bfmt = s.tile.bfmt ∧ t.tile.phKey = s.tile.phKey ∧ t.st.cause = s.st.cause ∧ t.st.epc = s.st.epc ∧ t.st.fval = s.st.fval ∧ t.st.mstep = s.st.mstep ∧
  t.st.mstepValid = s.st.mstepValid ∧ t.st.lvl = s.st.lvl ∧ t.st.act = s.st.act ∧ t.st.ctx = s.st.ctx ∧
  t.tile.ctrs = s.tile.ctrs ∧ t.tile.tags = s.tile.tags ∧ t.tile.regions0 = s.tile.regions0 ∧ t.tile.regions1 = s.tile.regions1

/-- The special registers that are not kept in a context. -/
abbrev SameSpecial (s t : State) : Prop :=
  SameControl s t ∧ t.tile.phCtrl = s.tile.phCtrl ∧ t.tile.phCtrh = s.tile.phCtrh

/-- The contexts: flags, rounding control, carry set, CROUND, and all the rest that a context keeps. -/
abbrev SameContexts (s t : State) : Prop := t.tile.ctxs = s.tile.ctxs

/-- What an instruction that writes one vector register leaves alone, its context's flags aside. -/
abbrev VectorFrame (d : VReg) (s t : State) : Prop :=
  (∀ r, r ≠ d → t.vreg r = s.vreg r) ∧ (∀ r, t.kreg r = s.kreg r) ∧ (∀ r, t.reg r = s.reg r) ∧ SameSpecial s t ∧ SameBytes s t

/-- What an instruction that writes one vector register and draws leaves alone, its context's flags aside: the Philox counter advances
by `n` (07 R165). -/
abbrev DrawFrame (d : VReg) (n : Nat) (s t : State) : Prop :=
  (∀ r, r ≠ d → t.vreg r = s.vreg r) ∧ (∀ r, t.kreg r = s.kreg r) ∧ (∀ r, t.reg r = s.reg r) ∧ SameControl s t ∧ SameBytes s t ∧
  t.tile.philoxC = (s.tile.philoxC + n) % 2 ^ 128

/-- The contexts are as before but for flags that are ORed into the issuing strand's when the latency of the instruction, some n cycles,
is over (02 R53, 08 R180). -/
abbrev OnlyFlags (f : Flags) (s t : State) : Prop :=
  ∃ n, t.tile.ctxs = (s.tile.modCtx s.st.ctx fun c => { c with due := if f = 0 then c.due else c.due ++ [(n, f)] }).ctxs

/-- The flags that the active elements of a masked operation raise (08 R178, R180). -/
def activeFlags (s : State) (w : Nat) (k : KReg) (f : Nat → Flags) : Flags :=
  ((List.range (1024 / w)).filter fun e => maskBit w (s.kreg k) e).foldl (fun a e => a ||| f e) 0

/-- A masked operation completes: an element whose mask bit is 1 takes its value, another keeps its own, the flags of the active
elements are ORed into the running context's, and nothing else changes (08 R178, R180). -/
def VectorResult (o : Host.Outcome State Fault Refusal) (s : State) (w : Nat) (d : VReg) (k : KReg) (f : Nat → Nat × Flags) :
    Prop :=
  ∃ t, o = .next t ∧ VectorFrame d s t ∧ OnlyFlags (activeFlags s w k fun e => (f e).2) s t ∧
    ∀ e, e < 1024 / w → vElem w (t.vreg d) e =
      if maskBit w (s.kreg k) e then (f e).1 % 2 ^ w else vElem w (s.vreg d) e

/-- A word completes that writes one scalar register and nothing else; s0 discards the write (02 R47). -/
def ScalarResult (o : Host.Outcome State Fault Refusal) (s : State) (d : SReg) (v : DW) : Prop :=
  ∃ t, o = .next t ∧ (∀ r, t.reg r = if r = d ∧ d ≠ 0 then v else s.reg r) ∧ SameVectors s t ∧ SameContexts s t ∧
    SameSpecial s t ∧ SameBytes s t

/-- A word completes that writes the pair sD, sD+1, the second write last, s0 discarding its own (02 R47), and what `p` says. -/
def PairResult (o : Host.Outcome State Fault Refusal) (s : State) (d : SReg) (v w : DW) (p : State → Prop) : Prop :=
  ∃ t, o = .next t ∧ (∀ r, t.reg r = if r = d + 1 ∧ r ≠ 0 then w else if r = d ∧ r ≠ 0 then v else s.reg r) ∧ SameVectors s t ∧
    SameContexts s t ∧ SameSpecial s t ∧ SameBytes s t ∧ p t

/-- A monitor call returns (16 R366): its status is in s5, SR_CAUSE, SR_EPC and SR_FVAL name the call, the strand goes on at the next
word in the level it called from, with its other registers as before, and what `p` says. -/
def CallResult (o : Host.Outcome State Fault Refusal) (s : State) (v : Nat) (p : State → Prop) : Prop :=
  ∃ t, o = .next t ∧ (∀ r, t.reg r = if r = 5 then BitVec.ofNat 64 v else s.reg r) ∧ t.st.lvl = s.st.lvl ∧ t.st.pc = s.st.pc + 4 ∧
    t.st.cause = 0x0E ∧ t.st.epc = s.st.unit ∧ t.st.fval = s.st.pc ∧ SameVectors s t ∧ p t

/-- A word completes that writes one mask and nothing else; k0 discards the write (02 R47). -/
def MaskResult (o : Host.Outcome State Fault Refusal) (s : State) (d : KReg) (v : BitVec 32) : Prop :=
  ∃ t, o = .next t ∧ (∀ r, t.kreg r = if r = d ∧ d ≠ 0 then v else s.kreg r) ∧ (∀ r, t.vreg r = s.vreg r) ∧
    (∀ r, t.reg r = s.reg r) ∧ SameContexts s t ∧ SameSpecial s t ∧ SameBytes s t

/-- A word completes that writes every element of one vector register and nothing else. -/
def WholeVector (o : Host.Outcome State Fault Refusal) (s : State) (w : Nat) (d : VReg) (f : Nat → Nat) : Prop :=
  ∃ t, o = .next t ∧ VectorFrame d s t ∧ SameContexts s t ∧ ∀ e, e < 1024 / w → vElem w (t.vreg d) e = f e % 2 ^ w

/-- The new value of an integer atomic operation on n bits, none where nothing is written (13 R282): ADD, AND, OR, XOR, SWAP,
signed and unsigned minimum and maximum, compare and swap. -/
def atomicNew (n op : Nat) (o x c : BitVec n) : Option (BitVec n) :=
  match op with
  | 0 => some (o + x)
  | 1 => some (o &&& x)
  | 2 => some (o ||| x)
  | 3 => some (o ^^^ x)
  | 4 => some x
  | 5 => some (if x.toInt < o.toInt then x else o)
  | 6 => some (if o.toInt < x.toInt then x else o)
  | 7 => some (if x.toNat < o.toNat then x else o)
  | 8 => some (if o.toNat < x.toNat then x else o)
  | 9 => if o = c then some x else none
  | _ => none

/-- What a store to the scratchpad leaves alone, the bytes it stores aside. -/
abbrev StoreFrame (s t : State) : Prop :=
  (∀ r, t.reg r = s.reg r) ∧ SameVectors s t ∧ SameContexts s t ∧ SameSpecial s t ∧
  (∀ a, t.mem.read a = s.mem.read a) ∧ ∀ a, t.tile.acc.read a = s.tile.acc.read a

/-- The special registers of the tile, the counters aside, are as before. -/
abbrev SameTileControl (s t : State) : Prop :=
  t.tile.bfmt = s.tile.bfmt ∧ t.tile.phKey = s.tile.phKey ∧ t.tile.phCtrl = s.tile.phCtrl ∧ t.tile.phCtrh = s.tile.phCtrh ∧
  t.tile.tags = s.tile.tags ∧ t.tile.regions0 = s.tile.regions0 ∧ t.tile.regions1 = s.tile.regions1

/-- A thresher command is issued: it begins at step 0, or where SR_MSTEP says, and holds the main strand at its word while it has a step to
do. It takes the next number of its counter, the next place in issue order and C0 from the generator; where a stop record exists it keeps the
record's number, place and C0 instead, and the record is deleted. Nothing else changes (05 R114, 09 R197, R198, R203). -/
def ThrIssued (o : Host.Outcome State Fault Refusal) (s : State) (c : CReg) (op : ThrOp) (z f64 draws : Bool) (acc n : Nat)
    (a b d : DW) : Prop :=
  ∃ (u : State) (k : ThrCmd), o = .next u ∧ u.tile.thresher = s.tile.thresher ++ [k] ∧ k.op = op ∧ k.z = z ∧ k.f64 = f64 ∧
    k.sto = draws ∧ k.acc = acc ∧ k.steps = n ∧ k.addrA = a ∧ k.addrB = b ∧ k.addrD = d ∧
    k.next = (if s.st.mstepValid = true then s.st.mstep.toNat else 0) ∧
    k.c0 = (if draws then some ((s.tile.stop.bind ThrCmd.c0).getD (BitVec.ofNat 128 s.tile.philoxC)) else none) ∧
    (s.tile.stop = none → k.ctr = c ∧ k.num = (s.tile.ctr c).issue + 1 ∧ k.order = s.tile.orderNo ∧
      (u.tile.ctr c).issue = (s.tile.ctr c).issue + 1 ∧ (u.tile.ctr c).done = (s.tile.ctr c).done ∧
      ∀ r, r ≠ c → u.tile.ctr r = s.tile.ctr r) ∧
    (∀ r, s.tile.stop = some r → k.ctr = r.ctr ∧ k.num = r.num ∧ k.order = r.order ∧ u.tile.ctrs = s.tile.ctrs) ∧
    u.tile.stop = none ∧ u.tile.orderNo = s.tile.orderNo + 1 ∧
    (k.next < n → u.st = { s.st with mstep := 0, mstepValid := false, wait := some .thresher }) ∧
    (n ≤ k.next → u.st = ({ s.st with mstep := 0, mstepValid := false } : Strand).retire) ∧
    (∀ r, u.reg r = s.reg r) ∧ SameVectors s u ∧ SameContexts s u ∧ SameTileControl s u ∧ SameBytes s u

/-- The next step of the thresher command at place `k` is done: the command goes on to its next step with the step's flags among its own,
memory, the registers and the contexts stay, and `p` says what else holds of the state and of the command after it (09 R199). -/
def StepDone (s : State) (k : Nat) (c : ThrCmd) (f : Flags) (p : State → ThrCmd → Prop) : Prop :=
  ∃ (u : State) (v : ThrCmd), exec .thresherStep s = .next u ∧ u.tile.thresher[k]? = some v ∧ v.next = c.next + 1 ∧
    v.flags = c.flags ||| f ∧ u.mem = s.mem ∧ (∀ r, u.reg r = s.reg r) ∧ SameVectors s u ∧ SameContexts s u ∧ p u v

/-- The first `n` blocks of an operand lie where 09 R205 lets them lie. -/
abbrev Placed (o : Operand) (n : Nat) : Prop := o.base < 2 ^ 20 ∧ o.aligned = true ∧ o.fits n = true

/-- No byte of a scratchpad changes outside block `b` of an operand and its header; none of the accumulator store. -/
abbrev OnlyBlock (s u : State) (o : Operand) (b : Nat) : Prop :=
  u.tile.acc = s.tile.acc ∧ ∀ a, (∀ r ∈ o.ranges b, a < r.lo ∨ r.hi ≤ a) → u.tile.spad.read a = s.tile.spad.read a

/-- No byte of the accumulator store changes outside a tile, or a pair of them; none of the scratchpad. -/
abbrev OnlyAcc (s u : State) (f64 : Bool) (n : Nat) : Prop :=
  u.tile.spad = s.tile.spad ∧
  ∀ a, a < 4096 * n ∨ 4096 * n + (if f64 then 8192 else 4096) ≤ a → u.tile.acc.read a = s.tile.acc.read a

/-- Piece `q` of the copy command at place `k` is over (05 R125). -/
abbrev PieceOver (s u : State) (k q : Nat) : Prop :=
  ∀ v, s.tile.wain[k]? = some v → ∃ x, u.tile.wain[k]? = some x ∧ x.done.contains q = true

/-- A piece is over and has failed: the first failure of a counter whose run lives is its ERR (05 R124, R125). -/
abbrev PieceFailed (s u : State) (w : WainCmd) (k q : Nat) (c : Cause) (detail unit : Nat) (loc : Bool) : Prop :=
  PieceOver s u k q ∧ (s.tile.live w.owner = true → (s.tile.ctr w.ctr).err.valid = false → (u.tile.ctr w.ctr).err =
    { valid := true, cause := c.code, detail := BitVec.ofNat 4 detail, unit := BitVec.ofNat 16 (min unit 0xFFFF), num := w.num,
      owner := w.owner, localSrc := loc })

/-- The bytes of the scratchpad from `a` on are given, all others are as in another state. -/
abbrev BytesAt (s u : State) (a n : Nat) (f : Nat → Byte) : Prop :=
  ∀ x, u.tile.spad.read x = if a ≤ x ∧ x < a + n then f (x - a) else s.tile.spad.read x

/-- A record with a header and codes has become block `b` of an operand, transposed or not, its format that of the operand: a tag's
residue follows the payload, and HOP is 0 in a record that has travelled to the tile (05 R122, 10 R227; log 34). -/
def SquareLands (u : State) (o : Operand) (b : Nat) (tr home : Bool) (h : Nat) (code : Nat → Nat → Nat) : Prop :=
  ∀ g, g = o.header u.tile b →
    (∀ i j, i < 32 → j < 32 → (o.codes u.tile b).getD (32 * i + j) 0 = if tr then code j i else code i j) ∧
    hE g = hE h ∧ hSpecial g = hSpecial h ∧ hFormat g % 16 = o.fmt ∧ hVersion g = hVersion h ∧ hChunk g = hChunk h ∧ hTensor g = hTensor h ∧
    hRowX g = (if tr then hColX h else hRowX h) ∧ hColX g = (if tr then hRowX h else hColX h) ∧ (hTag h = 0 → hTag g = 0) ∧
    (hTag h ≠ 0 → tagResidue (hTag g) = (if tr then residueOf o.fmt g (o.codes u.tile b) else tagResidue (hTag h)) ∧
      tagRoute (hTag g) = tagRoute (hTag h) ∧ tagGen (hTag g) = tagGen (hTag h) ∧ tagBad (hTag g) = tagBad (hTag h) ∧
      tagPlain (hTag g) = tagPlain (hTag h) ∧ tagHop (hTag g) = if home then tagHop (hTag h) else 0)

/-- A copy is issued: it takes the next number of its counter and the next place in issue order, the strand goes on, and nothing
else changes (05 R114). -/
def CopyIssued (o : Host.Outcome State Fault Refusal) (s : State) (c : CReg) (p : WainCmd → Prop) : Prop :=
  ∃ (u : State) (w : WainCmd), o = .next u ∧ u.tile.wain = s.tile.wain ++ [w] ∧ p w ∧ w.ctr = c ∧
    w.num = (s.tile.ctr c).issue + 1 ∧ w.order = s.tile.orderNo ∧ w.started = false ∧ w.done = [] ∧
    u.tile.orderNo = s.tile.orderNo + 1 ∧ (u.tile.ctr c).issue = (s.tile.ctr c).issue + 1 ∧
    (u.tile.ctr c).done = (s.tile.ctr c).done ∧ (∀ r, r ≠ c → u.tile.ctr r = s.tile.ctr r) ∧ u.st = s.st.retire ∧
    SameVectors s u ∧ SameContexts s u ∧ SameTileControl s u ∧ SameBytes s u

/-- A copy of nothing completes where it issues, when no earlier command of its counter is open and no trigger waits: ISSUE and DONE
both take its number, and the strand goes on (05 R114, R125). -/
def CopyOfNothing (o : Host.Outcome State Fault Refusal) (s : State) (c : CReg) : Prop :=
  (s.tile.ctr c).ahead = [] → (s.tile.ctr c).done = (s.tile.ctr c).issue → s.tile.triggers = [] → s.st.wait = none →
    ∃ u : State, o = .next u ∧ u.tile.wain = s.tile.wain ∧ (u.tile.ctr c).issue = (s.tile.ctr c).issue + 1 ∧
      (u.tile.ctr c).done = (s.tile.ctr c).issue + 1 ∧ (∀ r, r ≠ c → u.tile.ctr r = s.tile.ctr r) ∧ u.st.pc = s.st.retire.pc ∧
      (∀ r, u.reg r = s.reg r) ∧ SameVectors s u ∧ SameContexts s u ∧ SameTileControl s u ∧ SameBytes s u

/-- A copy whose ends pass their checks: with 64 commands in flight its strand waits; otherwise it is issued, or completes at once where
there is nothing to move (05 R114). -/
def CopyTaken (o : Host.Outcome State Fault Refusal) (s : State) (c : CReg) (work : Nat) (p : WainCmd → Prop) : Prop :=
  (64 ≤ s.tile.wain.length → o = .next (s.onSt fun x => { x with wait := some (.retry .engine) })) ∧
  (s.tile.wain.length < 64 → (0 < work → CopyIssued o s c p) ∧ (work = 0 → CopyOfNothing o s c))

/-- An output is no item of a square queue, which its network interface checks and may mark (10 R225). -/
def State.plainOutput (s : State) : Output → Bool
  | .push q kind _ _ _ _ => kind != 0 || (s.queueAt (s.tile.ep q).qcb).all fun z => z.qcb.fmt != 14
  | _ => true

/-- The items that buffered outputs of a tile become as they are released in order: one for each member of the queue of a push, with the
next number of that queue (15 R321, R330). -/
def State.itemsOf (s : State) (l : Nat) (os : List Output) : List ItemFlight :=
  os.zipIdx.flatMap fun x => match x.1 with
    | .push q kind round nbt _ p =>
      (match s.queueAt (s.epOf l q.toNat).qcb with
       | none => []
       | some z =>
         let before := (os.take x.2).filter fun o => match o with
           | .push b _ _ _ _ _ => (s.epOf l b.toNat).qcb == z.pa
           | _ => false
         z.qcb.members.map fun m =>
           ItemFlight.fresh z.pa m (.producer l q.toNat) kind round nbt (BitVec.ofNat 32 (z.released + before.length)) p)
    | _ => []

/-- The sheaf send of an output; route and doubleword of an ack, buffered and in a packet (10 R240, R241). -/
def Output.sheafSend : Output → Option ShSend
  | .red addr auto => some { addr := addr, auto := auto, resend := false }
  | _ => none
def Output.ackWord : Output → Option (BitVec 16 × DW)
  | .ack ident route gen => some (route, BitVec.ofNat 64 (ident.toNat + gen.toNat * 2 ^ 48))
  | _ => none
def Packet.ackWord (k : Packet) : Option (BitVec 16 × DW) :=
  match k.body with
  | .ack m _ => some (k.route, m.dw 0)
  | _ => none

/-! ### The scheduler (15 R326-R338) -/

/-- The scheduler of the tile at turn may start an activation. -/
abbrev SchedulerActs (s : State) : Prop :=
  s.tile.act = none ∧ s.tile.halted = false ∧ s.tile.remapping = false ∧ s.halted = false

/-- A context by number. -/
abbrev Tile.cx (t : Tile) (c : BitVec 2) : Ctx := t.ctxs[c.toNat]'(c.isLt)

/-- The scheduler starts the one candidate before the other (15 R335): the higher effective priority, then the one never started since
bind, the lower number first, then the one started earlier. -/
def StartsBefore (c d : BitVec 2) (x y : Ctx) : Prop :=
  y.prio + y.boost < x.prio + x.boost ∨ y.prio + y.boost = x.prio + x.boost ∧
    ((x.lastStart = none ∧ (y.lastStart ≠ none ∨ c < d)) ∨ ∃ a b, x.lastStart = some a ∧ y.lastStart = some b ∧ a < b)

/-- One context of the tile is IDLE and no other, and none is registered at a barrier. -/
abbrev OnlyIdle (s : State) (c : BitVec 2) : Prop :=
  (s.tile.cx c).state = .idle ∧ (s.tile.cx c).fallowOut = none ∧ (∀ d, d ≠ c → (s.tile.cx d).state ≠ .idle) ∧
  ∀ d, (s.tile.cx d).barriers = []

/-- An item stands deliverable at the head of an endpoint (15 R320, R322); one stands there, its time come or not. -/
abbrev HeadIs (s : State) (q : Nat) (e : Endpoint) (z : Queue) (i : RingItem) : Prop :=
  s.tile.eps[q]? = some e ∧ s.queueAt e.qcb = some z ∧ z.frozen = false ∧ (e.ring.find? fun y => !y.held) = some i ∧
    i.nbt.toNat ≤ s.tb.toNat
abbrev AnyHead (s : State) (q : Nat) (i : RingItem) : Prop :=
  ∃ e : Endpoint, s.tile.eps[q]? = some e ∧ (e.ring.find? fun y => !y.held) = some i

/-- An activation of a context starts at an entry, with s1 to s4 given and the carry set; the heads of the endpoints `qs` are held, what
`abort` restores is recorded, and nothing else of the tile changes (15 R328). -/
def Starts (o : Host.Outcome State Fault Refusal) (s : State) (c : BitVec 2) (final : Bool) (pc r1 r2 r3 r4 : DW) (round : BitVec 16)
    (qs : List Nat) : Prop :=
  ∃ (u : State) (a : Activation), o = .next u ∧ u.tile.act = some a ∧ a.final = final ∧ a.staged = [] ∧ a.outputs = [] ∧
    a.firstId = r4.setWidth 32 ∧ a.recFlags = (s.tile.cx c).landFlags.flags ∧ a.recCarry = (s.tile.cx c).carry ∧
    a.recCround = (s.tile.cx c).cround ∧ a.recCtrl = s.tile.phCtrl ∧ a.recCtrh = s.tile.phCtrh ∧
    (u.tile.cx c).state = (if final then .final else .running) ∧ (u.tile.cx c).cround = round ∧
    u.tile.main.ctx = c ∧ u.tile.main.act = true ∧ u.tile.main.lvl = (s.tile.cx c).lvl ∧ u.tile.main.pc = pc ∧ u.tile.main.wait = none ∧
    u.tile.main.mstepValid = false ∧ u.tile.main.loop0.active = false ∧ u.tile.main.loop1.active = false ∧
    u.tile.main.regs.toList[1]? = some r1 ∧ u.tile.main.regs.toList[2]? = some r2 ∧ u.tile.main.regs.toList[3]? = some r3 ∧
    u.tile.main.regs.toList[4]? = some r4 ∧
    (∀ j, j < 8 → u.tile.main.regs.toList[24 + j]? = (s.tile.cx c).carry.toList[j]?) ∧
    (∀ q, u.tile.eps[q]? = (s.tile.eps[q]?).map fun e =>
      if q ∈ qs then { e with ring := modFirst (fun y => !y.held) (fun y => { y with held := true }) e.ring } else e) ∧ SameBytes s u

/-! ### Services -/

/-- The reply to a service request: what waits to go out on its connection gains a message with the operation, a status and a body; the
tile, its contexts and memory stay (17 R381). -/
def Answers (o : Host.Outcome State Fault Refusal) (s : State) (r : SvcReq) (op status : Nat) (body : List Byte) : Prop :=
  o = .next { s with svcJobs := s.svcJobs ++ [{ vf := r.vf, conn := r.conn, op := op, reqId := r.reqId, stage := .answered status body, closed := false }] }

/-- A state has one more reply waiting than another: OK, with a body (17 R381). -/
def RepliedOk (s u : State) (r : SvcReq) (op : Nat) (body : List Byte) : Prop :=
  u.svcJobs = s.svcJobs ++ [{ vf := r.vf, conn := r.conn, op := op, reqId := r.reqId, stage := .answered 0 body, closed := false }]

/-- A service request becomes outstanding with work that is still to do; nothing else changes (17 R381). -/
def Waits (o : Host.Outcome State Fault Refusal) (s : State) (r : SvcReq) (op : Nat) (w : SvcWork) : Prop :=
  o = .next { s with svcJobs := s.svcJobs ++ [{ vf := r.vf, conn := r.conn, op := op, reqId := r.reqId, stage := .waiting w, closed := false }] }

/-- What holds of every request of the service protocol that a header can head, by operation (17 R382). -/
def EachRequest (s : State) (r : SvcReq) (p : Nat → Host.Outcome State Fault Refusal → Prop) : Prop :=
  (∀ b : BindReq, b.svc = r → p 1 (exec (.bind b) s)) ∧ (∀ b : UnbindReq, b.svc = r → p 2 (exec (.unbind b) s)) ∧
  (∀ b : InjectReq, b.svc = r → p 3 (exec (.inject b) s)) ∧ p 4 (exec (.status r) s) ∧ p 5 (exec (.summary r) s) ∧
  (∀ cs, p 6 (exec (.reconfig r cs) s)) ∧ (∀ arg bs, p 7 (exec (.exportRequest r arg bs) s)) ∧
  (∀ arg bs, p 8 (exec (.importRequest r arg bs) s)) ∧ ∀ n, p 9 (exec (.attestRequest r n) s)

/-- What a translation changes: the caches of leaves (04 R95, R96). -/
def OnlyCaches (s t : State) : Prop :=
  t = { s with tile := { s.tile with tlb := t.tile.tlb }, others := t.others, dieCache := t.dieCache }

/-- What a read at a home slice changes: the line array, and what the DRAM read brings with it (05 R109, 03 R69-R74, R77). -/
def OnlyDram (s t : State) : Prop :=
  t = { s with mem := t.mem, lines := t.lines, poison := t.poison, eccBad := t.eccBad, eccSoft := t.eccSoft, channels := t.channels,
               memEvents := t.memEvents, free := t.free }

/-- What a write at a home slice changes: memory and its parity, what reading them brings with it, and the line array (05 R109-R111, 03
R68-R74, R77). -/
def OnlyStore (s t : State) : Prop :=
  t = { s with mem := t.mem, parity := t.parity, lines := t.lines, poison := t.poison, eccBad := t.eccBad, eccSoft := t.eccSoft,
               parityBad := t.parityBad, paritySoft := t.paritySoft, parityStale := t.parityStale, granKeys := t.granKeys,
               channels := t.channels, memEvents := t.memEvents, free := t.free }

/-- Main memory and its parity are in canonical form (04 R90, 03 R67; log 2). -/
abbrev MemoryCanonical (s : State) : Prop := s.mem.wf = true ∧ s.parity.wf = true

/-- The destination of an instruction that writes one scalar register and nothing else, or `s0` for one that writes none. -/
def scalarDest : Instr → Option SReg
  | .add d _ _ | .sub d _ _ | .mul d _ _ | .mulhI d _ _ | .mulhN d _ _ | .divI d _ _ | .divN d _ _ => some d
  | .remI d _ _ | .remN d _ _ | .and d _ _ | .or d _ _ | .xor d _ _ | .andn d _ _ | .shl d _ _ => some d
  | .shrN d _ _ | .shrI d _ _ | .rotr d _ _ | .sltI d _ _ | .sltN d _ _ | .seq d _ _ | .minI d _ _ => some d
  | .maxI d _ _ | .minN d _ _ | .maxN d _ _ | .addsI d _ _ | .subsI d _ _ | .addsc1 d _ _ | .addsc2 d _ _ => some d
  | .addsc3 d _ _ => some d
  | .clz d _ | .ctz d _ | .pop d _ | .sextI8 d _ | .sextI16 d _ | .sextI32 d _ | .zextN8 d _ | .zextN16 d _ => some d
  | .zextN32 d _ | .bswap d _ => some d
  | .addi d _ _ | .andi d _ _ | .ori d _ _ | .xori d _ _ | .slti d _ _ | .sltni d _ _ | .addhi d _ _ => some d
  | .shli d _ _ | .shriN d _ _ | .shriI d _ _ => some d
  | .sel _ d _ _ | .cmov _ d _ _ => some d
  | .beq .. | .bne .. | .blt .. | .bge .. | .bltn .. | .bgen .. | .jmp .. | .jmpr .. | .loop .. | .loopi .. => some 0
  | .vext32 d _ _ | .vext64 d _ _ | .kget d _ | .kpop d _ | .kffs d _ => some d
  | _ => none

end Sys2Proof.Machine
end

