-- ==== Sys2Proof/Certificates/Slice0/Obligations.lean ====
section
/-! DEFINITION. Sys2Proof/Certificates/Slice0/Obligations.lean: the statements for the provers, in the order of the spec's
chapters. -/
section
open Sys2Proof Sys2Proof.Machine

/-! ### Encoding and fetch (02 R29-R46) -/

/-- 02 R31: the word of a well-formed instruction decodes to that instruction, every operand at every value its field admits. -/
def Obligations.DecodeOfEncode : Prop :=
  ∀ (i : Instr) (w : IWord), wellFormed i = true → encode i = some w → decodeWord w = .ok i

/-- 02 R31-R34: a word that decodes is the word of its instruction, and the instruction is well-formed: no bit of the word is
ignored, and a reserved field that is not zero is refused. -/
def Obligations.EncodeOfDecode : Prop :=
  ∀ (i : Instr) (w : IWord), decodeWord w = .ok i → encode i = some w ∧ wellFormed i = true

/-- Words that the spec writes out bit by bit decode to the instructions they stand for. -/
def Obligations.DecodeSpecWords : Prop :=
  decodeWord 0x04A63800 = .ok (.add 5 6 7) ∧ decodeWord 0x05292026 = .ok (.addsc3 9 9 4) ∧
  decodeWord 0x08A0CDEF = .ok (.addi 5 0 0xCDEF) ∧ decodeWord 0x54A63809 = .ok (.cmov 1 5 6 7) ∧
  decodeWord 0x48000040 = .ok (.jmp 0x40) ∧ decodeWord 0x4C0C0000 = .ok (.jmpr 12 0) ∧
  decodeWord 0xFFFF89AB = .ok (.ximm 0x3FF89AB) ∧ decodeWord 0x60611203 = .ok (.vfma 0 3 1 2 2) ∧
  decodeWord 0x814B6250 = .ok (.mmaZ 4 10 11 12 2) ∧ decodeWord 0x84007800 = .ok (.accZero 0 15 0) ∧
  decodeWord 0xC0000318 = .ok (.fence 3 1 8) ∧ decodeWord 0xD0EC6800 = .ok (.amSend 7 12 13) ∧
  decodeWord 0xD4EA6000 = .ok (.shTag 7 10 12) ∧ decodeWord 0xD414AA00 = .ok (.shRed 20 21) ∧
  decodeWord 0xE0000001 = .ok .eret ∧ decodeWord 0xE4A00001 = .ok (.srd 5 1) ∧
  decodeWord 0xE4071012 = .ok (.swrLoopReg 0x012 7) ∧ decodeWord 0xE0010000 = .ok .keyLoad ∧
  decodeWord 0x00000000 = .error .permanentIll

/-- 02 R41, R46, 16 R352 and the model's own split of a step: when a strand that is to issue, and has no asynchronous cause pending,
fetches a word, the step executes the instruction it decodes to. An instruction that ends its unit and issues, which is to say that the
checks of every word, a BUDGET that has fallen due and its own ILL and PRIV do not stop it, is preceded by the action of the unit's hint.
A word that decodes to nothing is executed as an unassigned encoding (02 R34). -/
def Obligations.StepRunsDecodedWord : Prop :=
  ∀ (s s' : State) (st : StrandId) (w : IWord) (i : Instr), s.agenda = [] → s.nextStrand = some st →
    (s.tile.strand st).asyncFaults = [] → (s.issuing st).fetch = .word w s' →
    (decodeWord w = .ok i ∨ ((∃ r, decodeWord w = .error r) ∧ i = .unassignedEncoding w)) →
    (isHint i = false → (∀ e, i ≠ .ximm e) → (∀ v, i ≠ .unassignedEncoding v) → gate i s' = none → s'.st.budgetDue = false →
      s'.stopsFirst i = false → step s = exec i s'.hintAction) ∧
    ((isHint i = true ∨ (∃ e, i = .ximm e) ∨ (∃ v, i = .unassignedEncoding v) ∨ gate i s' ≠ none ∨ s'.st.budgetDue = true ∨
      s'.stopsFirst i = true ∨ s'.st.hint = none) → step s = exec i s') ∧
    (s'.st.hint = none → s'.hintAction = s')

/-- 02 R30, 14 R314, R315, 16 R350: what a fetch reads. Outside the code region it is PROT before any translation, and a translation
that fails gives its cause; the cause names the word's address. At an address that translates, a word the instruction cache holds is
read from there, or is UNCORR with the local-source flag where it is bad; another is read from sound main memory through its home
slice, least significant byte first, and cached; a page that has to be walked, a line with a request outstanding and an earlier request
of the tile that the slice has not taken make the strand wait. -/
def Obligations.FetchReadsWord : Prop :=
  ∀ (s s' : State) (pa : Nat) (key : BitVec 13),
    ((s.st.pc.toNat < s.cx.cbase.toNat ∨ s.cx.clim.toNat ≤ s.st.pc.toNat) →
      s.fetch = .trap { cause := .prot, addr := s.st.pc } s) ∧
    (s.cx.cbase.toNat ≤ s.st.pc.toNat → s.st.pc.toNat < s.cx.clim.toNat →
      (∀ c, s.translate s.tile.ltn s.xc s.tile.paddock s.st.pc 4 2 false = (.fault c, s') →
        s.fetch = .trap { cause := c, addr := s.st.pc } s') ∧
      (s.translate s.tile.ltn s.xc s.tile.paddock s.st.pc 4 2 false = (.walk, s') →
        ∃ t, s.fetch = .busy t ∧ t.mem = s.mem ∧ t.tile = s'.tile)) ∧
    (s.cx.cbase.toNat ≤ s.st.pc.toNat → s.st.pc.toNat < s.cx.clim.toNat →
      s.translate s.tile.ltn s.xc s.tile.paddock s.st.pc 4 2 false = (.ok pa key, s') →
      (∀ w, s'.tile.icache.find? (fun p => p.1 == pa) = some (pa, w) → s'.tile.codeBad.contains pa = false →
        s.fetch = .word w s') ∧
      (∀ w, s'.tile.icache.find? (fun p => p.1 == pa) = some (pa, w) → s'.tile.codeBad.contains pa = true →
        s.fetch = .trap { cause := .uncorr, addr := s'.st.pc, localSrc := true } s') ∧
      (s'.tile.icache.find? (fun p => p.1 == pa) = none →
        s'.lineBusy pa = true ∨ s'.olderWaits (s'.gid s'.tile.ltn) (sliceOf pa) s'.reqSerial = true → s.fetch = .busy s') ∧
      (s'.tile.icache.find? (fun p => p.1 == pa) = none → s'.reqs = [] → s'.atomics = [] → s'.lineHit pa key = none →
        s'.askCheck (s'.askerOf s'.tile.ltn s'.tile.paddock (s'.st.lvl == 2) key) pa = .ok →
        s'.eccBad = [] → s'.eccSoft = [] → s'.channels = [] → s'.poison = [] → s'.rangeStale key pa 4 = false →
        ∃ t, s.fetch = .word (wordOfBytes (s'.mem.read pa) (s'.mem.read (pa + 1)) (s'.mem.read (pa + 2)) (s'.mem.read (pa + 3))) t ∧
          t.mem = s'.mem ∧ t.tile.icache = s'.tile.icache ++
            [(pa, wordOfBytes (s'.mem.read pa) (s'.mem.read (pa + 1)) (s'.mem.read (pa + 2)) (s'.mem.read (pa + 3)))]))

/-! ### Reset and memory -/

/-- 02 R50, R56, 00 R9, 16 R349, 05 R125, 03 R75, R88, 15 R334, 13 R295: what the spec says reset leaves. Every strand is inactive at
level 0 with SR_CAUSE, SR_EPC, SR_MSTEP and SR_FVAL 0; FEAT0 is 0x1FF; the Philox registers, the bank formats, SR_FLAGS and SR_FPCTL
are 0, with no flags on their way; every context and endpoint is UNBOUND, every counter 0, every tag IDLE; no barrier, queue, item,
message, page event, request, connection, service request or command is there, nothing is poisoned, no paddock has a record, and the
monitor's key alone is in a slot, slot 0. The general, vector and mask registers and the loop registers LCn, LSn and LEn, which R50 leaves
undefined, hold values of the model's choice (log 1), and so do the bytes of memory (log 2): the statement says nothing about them. -/
def Obligations.ResetState : Prop :=
  (∀ l, (∀ x : Strand, x = (State.reset.getTile l).main ∨ x = (State.reset.getTile l).handler →
      x.act = false ∧ x.lvl = 0 ∧ x.cause = 0 ∧ x.epc = 0 ∧ x.fval = 0 ∧ x.mstep = 0 ∧ x.mstepValid = false) ∧
    (State.reset.getTile l).feat = 0x1FF ∧ (State.reset.getTile l).phKey = 0 ∧ (State.reset.getTile l).phCtrl = 0 ∧
    (State.reset.getTile l).phCtrh = 0 ∧ (∀ b ∈ (State.reset.getTile l).bfmt.toList, b = 0) ∧
    (∀ c ∈ (State.reset.getTile l).ctxs.toList, c.flags = 0 ∧ c.due = [] ∧ c.rm = 0 ∧ c.sto = false) ∧
    (State.reset.getTile l).act = none ∧ (State.reset.getTile l).handlerRun = none ∧ (State.reset.getTile l).wain = [] ∧
    (State.reset.getTile l).thresher = [] ∧ (State.reset.getTile l).mailbox = [] ∧
    (∀ c ∈ (State.reset.getTile l).ctxs.toList, c.state = .unbound) ∧
    (∀ e ∈ (State.reset.getTile l).eps.toList, e.role = .unbound ∧ e.ring = []) ∧
    (∀ k ∈ (State.reset.getTile l).ctrs.toList, k.issue = 0 ∧ k.done = 0 ∧ k.err.valid = false) ∧
    (∀ t ∈ (State.reset.getTile l).tags.toList, t.phase = .idle)) ∧
  State.reset.reqs = [] ∧ State.reset.atomics = [] ∧ State.reset.barriers = [] ∧ State.reset.barReqs = [] ∧ State.reset.queues = [] ∧
  State.reset.vsock = [] ∧ State.reset.svcJobs = [] ∧
  State.reset.flight = [] ∧ State.reset.msgs = [] ∧ State.reset.pageEvents = [] ∧ State.reset.poison = [] ∧
  State.reset.lines = [] ∧ State.reset.paddocks = [] ∧
  (∀ k, (State.reset.keySlot k).isSome = true ↔ k = 0)

/-- 00 R4 and the model's canonical form (log 2): after a write of bytes to a memory in canonical form, the memory is in
canonical form, the bytes written are read back, and every other byte reads as before. A little-endian number that is
written is read back. -/
def Obligations.MemoryReadAfterWrite : Prop :=
  ∀ (m : Memory) (a : Nat) (bs : List Byte) (n v : Nat), m.wf = true →
    (m.writeBytes a bs).wf = true ∧ (∀ k, k < bs.length → (m.writeBytes a bs).read (a + k) = bs.getD k 0) ∧
    (∀ b, b < a ∨ a + bs.length ≤ b → (m.writeBytes a bs).read b = m.read b) ∧
    (m.writeLe a n v).wf = true ∧ (m.writeLe a n v).readLe a n = v % 256 ^ n

/-! ### Scalar instructions (14 R298-R311) -/

/-- 14 R300: the sums, products, quotients and saturated sums of two registers.

14 R300: the bitwise operations, shifts, comparisons, minima and maxima of two registers. -/
def Obligations.ScalarRegisterResults : Prop :=
  (∀ (s : State) (d a b : SReg),
     (Issues (.add d a b) s → exec (.add d a b) s = .next (s.setReg d (s.reg a + s.reg b)).retire) ∧
     (Issues (.sub d a b) s → exec (.sub d a b) s = .next (s.setReg d (s.reg a - s.reg b)).retire) ∧
     (Issues (.mul d a b) s → exec (.mul d a b) s = .next (s.setReg d (s.reg a * s.reg b)).retire) ∧
     (Issues (.mulhI d a b) s → exec (.mulhI d a b) s =
       .next (s.setReg d (BitVec.ofInt 64 ((s.reg a).toInt * (s.reg b).toInt / 2 ^ 64))).retire) ∧
     (Issues (.mulhN d a b) s → exec (.mulhN d a b) s =
       .next (s.setReg d (BitVec.ofNat 64 ((s.reg a).toNat * (s.reg b).toNat / 2 ^ 64))).retire) ∧
     (Issues (.divI d a b) s → exec (.divI d a b) s =
       .next (s.setReg d (if s.reg b = 0 then -1 else BitVec.ofInt 64 ((s.reg a).toInt.tdiv (s.reg b).toInt))).retire) ∧
     (Issues (.divN d a b) s → exec (.divN d a b) s =
       .next (s.setReg d (if s.reg b = 0 then -1 else BitVec.ofNat 64 ((s.reg a).toNat / (s.reg b).toNat))).retire) ∧
     (Issues (.remI d a b) s → exec (.remI d a b) s =
       .next (s.setReg d (if s.reg b = 0 then s.reg a else BitVec.ofInt 64 ((s.reg a).toInt.tmod (s.reg b).toInt))).retire) ∧
     (Issues (.remN d a b) s → exec (.remN d a b) s =
       .next (s.setReg d (if s.reg b = 0 then s.reg a else BitVec.ofNat 64 ((s.reg a).toNat % (s.reg b).toNat))).retire) ∧
     (Issues (.addsI d a b) s → exec (.addsI d a b) s =
       .next (s.setReg d (BitVec.ofInt 64 (max (-2 ^ 63) (min (2 ^ 63 - 1) ((s.reg a).toInt + (s.reg b).toInt))))).retire) ∧
     (Issues (.subsI d a b) s → exec (.subsI d a b) s =
       .next (s.setReg d (BitVec.ofInt 64 (max (-2 ^ 63) (min (2 ^ 63 - 1) ((s.reg a).toInt - (s.reg b).toInt))))).retire) ∧
     (Issues (.addsc1 d a b) s → exec (.addsc1 d a b) s = .next (s.setReg d (s.reg a + s.reg b <<< 1)).retire) ∧
     (Issues (.addsc2 d a b) s → exec (.addsc2 d a b) s = .next (s.setReg d (s.reg a + s.reg b <<< 2)).retire) ∧
     (Issues (.addsc3 d a b) s → exec (.addsc3 d a b) s = .next (s.setReg d (s.reg a + s.reg b <<< 3)).retire)) ∧
  (∀ (s : State) (d a b : SReg),
     (Issues (.and d a b) s → exec (.and d a b) s = .next (s.setReg d (s.reg a &&& s.reg b)).retire) ∧
     (Issues (.or d a b) s → exec (.or d a b) s = .next (s.setReg d (s.reg a ||| s.reg b)).retire) ∧
     (Issues (.xor d a b) s → exec (.xor d a b) s = .next (s.setReg d (s.reg a ^^^ s.reg b)).retire) ∧
     (Issues (.andn d a b) s → exec (.andn d a b) s = .next (s.setReg d (s.reg a &&& ~~~ (s.reg b))).retire) ∧
     (Issues (.shl d a b) s → exec (.shl d a b) s = .next (s.setReg d (s.reg a <<< ((s.reg b).toNat % 64))).retire) ∧
     (Issues (.shrN d a b) s → exec (.shrN d a b) s = .next (s.setReg d (s.reg a >>> ((s.reg b).toNat % 64))).retire) ∧
     (Issues (.shrI d a b) s → exec (.shrI d a b) s = .next (s.setReg d ((s.reg a).sshiftRight ((s.reg b).toNat % 64))).retire) ∧
     (Issues (.rotr d a b) s → exec (.rotr d a b) s = .next (s.setReg d ((s.reg a).rotateRight ((s.reg b).toNat % 64))).retire) ∧
     (Issues (.sltI d a b) s → exec (.sltI d a b) s =
       .next (s.setReg d (if (s.reg a).toInt < (s.reg b).toInt then 1 else 0)).retire) ∧
     (Issues (.sltN d a b) s → exec (.sltN d a b) s =
       .next (s.setReg d (if (s.reg a).toNat < (s.reg b).toNat then 1 else 0)).retire) ∧
     (Issues (.seq d a b) s → exec (.seq d a b) s = .next (s.setReg d (if s.reg a = s.reg b then 1 else 0)).retire) ∧
     (Issues (.minI d a b) s → exec (.minI d a b) s =
       .next (s.setReg d (BitVec.ofInt 64 (min (s.reg a).toInt (s.reg b).toInt))).retire) ∧
     (Issues (.maxI d a b) s → exec (.maxI d a b) s =
       .next (s.setReg d (BitVec.ofInt 64 (max (s.reg a).toInt (s.reg b).toInt))).retire) ∧
     (Issues (.minN d a b) s → exec (.minN d a b) s =
       .next (s.setReg d (BitVec.ofNat 64 (min (s.reg a).toNat (s.reg b).toNat))).retire) ∧
     (Issues (.maxN d a b) s → exec (.maxN d a b) s =
       .next (s.setReg d (BitVec.ofNat 64 (max (s.reg a).toNat (s.reg b).toNat))).retire))

/-- 14 R300: the operations on one register. `clz`, `ctz` and `pop` are pinned by their bits: `clz` n means that bit 63 − n is
the highest one, `ctz` n that bit n is the lowest.

14 R301, 02 R40: the immediate operations, with the immediate that an `ximm` widens to 42 bits; a shift count of 64 or more
raises ILL at the word and writes nothing.

14 R299, R303: `sel` chooses by the old sD against 0, `cmov` writes sD only where sB's comparison against 0 holds; the
comparison codes 6 and 7 raise ILL. -/
def Obligations.ScalarUnaryImmediatesAndMoves : Prop :=
  (∀ (s : State) (d a : SReg),
     (Issues (.clz d a) s → ∃ n : Nat, exec (.clz d a) s = .next (s.setReg d (BitVec.ofNat 64 n)).retire ∧
       ((s.reg a = 0 ∧ n = 64) ∨ (2 ^ (63 - n) ≤ (s.reg a).toNat ∧ (s.reg a).toNat < 2 ^ (64 - n) ∧ n < 64))) ∧
     (Issues (.ctz d a) s → ∃ n : Nat, exec (.ctz d a) s = .next (s.setReg d (BitVec.ofNat 64 n)).retire ∧ n ≤ 64 ∧
       (∀ i, i < n → (s.reg a).getLsbD i = false) ∧ (n < 64 → (s.reg a).getLsbD n = true)) ∧
     (Issues (.pop d a) s → exec (.pop d a) s = .next (s.setReg d
       (BitVec.ofNat 64 ((List.range 64).filter fun i => (s.reg a).getLsbD i).length)).retire) ∧
     (Issues (.sextI8 d a) s → exec (.sextI8 d a) s = .next (s.setReg d (((s.reg a).extractLsb' 0 8).signExtend 64)).retire) ∧
     (Issues (.sextI16 d a) s → exec (.sextI16 d a) s = .next (s.setReg d (((s.reg a).extractLsb' 0 16).signExtend 64)).retire) ∧
     (Issues (.sextI32 d a) s → exec (.sextI32 d a) s = .next (s.setReg d (((s.reg a).extractLsb' 0 32).signExtend 64)).retire) ∧
     (Issues (.zextN8 d a) s → exec (.zextN8 d a) s = .next (s.setReg d (((s.reg a).extractLsb' 0 8).zeroExtend 64)).retire) ∧
     (Issues (.zextN16 d a) s → exec (.zextN16 d a) s = .next (s.setReg d (((s.reg a).extractLsb' 0 16).zeroExtend 64)).retire) ∧
     (Issues (.zextN32 d a) s → exec (.zextN32 d a) s = .next (s.setReg d (((s.reg a).extractLsb' 0 32).zeroExtend 64)).retire) ∧
     (Issues (.bswap d a) s → ∃ v : DW, exec (.bswap d a) s = .next (s.setReg d v).retire ∧
       ∀ i, i < 8 → v.extractLsb' (8 * i) 8 = (s.reg a).extractLsb' (56 - 8 * i) 8)) ∧
  (∀ (s : State) (d a : SReg) (i : BitVec 16) (m : DW),
     (SignedImm s i m →
       (Issues (.addi d a i) s → exec (.addi d a i) s = .next (s.setReg d (s.reg a + m)).retire) ∧
       (Issues (.andi d a i) s → exec (.andi d a i) s = .next (s.setReg d (s.reg a &&& m)).retire) ∧
       (Issues (.ori d a i) s → exec (.ori d a i) s = .next (s.setReg d (s.reg a ||| m)).retire) ∧
       (Issues (.xori d a i) s → exec (.xori d a i) s = .next (s.setReg d (s.reg a ^^^ m)).retire) ∧
       (Issues (.slti d a i) s → exec (.slti d a i) s = .next (s.setReg d (if (s.reg a).toInt < m.toInt then 1 else 0)).retire) ∧
       (Issues (.sltni d a i) s → exec (.sltni d a i) s = .next (s.setReg d (if (s.reg a).toNat < m.toNat then 1 else 0)).retire) ∧
       (Issues (.addhi d a i) s → exec (.addhi d a i) s = .next (s.setReg d (s.reg a + m <<< 32)).retire)) ∧
     (UnsignedImm s i m →
       (m.toNat < 64 →
         (Issues (.shli d a i) s → exec (.shli d a i) s = .next (s.setReg d (s.reg a <<< m.toNat)).retire) ∧
         (Issues (.shriN d a i) s → exec (.shriN d a i) s = .next (s.setReg d (s.reg a >>> m.toNat)).retire) ∧
         (Issues (.shriI d a i) s → exec (.shriI d a i) s = .next (s.setReg d ((s.reg a).sshiftRight m.toNat)).retire)) ∧
       (64 ≤ m.toNat →
         (Issues (.shli d a i) s → exec (.shli d a i) s = .next (s.takeTrap (raise .ill))) ∧
         (Issues (.shriN d a i) s → exec (.shriN d a i) s = .next (s.takeTrap (raise .ill))) ∧
         (Issues (.shriI d a i) s → exec (.shriI d a i) s = .next (s.takeTrap (raise .ill)))))) ∧
  (∀ (s : State) (d a b : SReg) (c : BitVec 3) (p : DW → Bool),
     ((c = 0 ∧ (p = fun x => decide (x = 0))) ∨ (c = 1 ∧ (p = fun x => decide (x ≠ 0))) ∨
     (c = 2 ∧ (p = fun x => decide (x.toInt < 0))) ∨ (c = 3 ∧ (p = fun x => decide (0 ≤ x.toInt))) ∨
     (c = 4 ∧ (p = fun _ => false)) ∨ (c = 5 ∧ (p = fun _ => true)) →
     (Issues (.sel c d a b) s → exec (.sel c d a b) s =
       .next (s.setReg d (if p (s.reg d) then s.reg a else s.reg b)).retire) ∧
     (Issues (.cmov c d a b) s → exec (.cmov c d a b) s =
       .next (if p (s.reg b) then s.setReg d (s.reg a) else s).retire)) ∧
     (6 ≤ c.toNat →
       (Issues (.sel c d a b) s → exec (.sel c d a b) s = .next (s.takeTrap (raise .ill))) ∧
       (Issues (.cmov c d a b) s → exec (.cmov c d a b) s = .next (s.takeTrap (raise .ill)))))

/-- 14 R304, R305: a conditional branch compares and, where the comparison holds, performs BranchTo on its own address plus the
offset in words; otherwise it completes in sequential flow.

14 R306, R307: `jmp`, of major 0x12, performs BranchTo on its own address plus its offset in words, `jmpr` on its register plus its
offset in bytes. -/
def Obligations.BranchesAndJumps : Prop :=
  (∀ (s : State) (a b : SReg) (off : BitVec 11) (m : DW), SignedImm s off m →
     (Issues (.beq a b off) s → exec (.beq a b off) s =
       if s.reg a = s.reg b then branchOutcome s (s.st.pc + m * 4) else .next s.retire) ∧
     (Issues (.bne a b off) s → exec (.bne a b off) s =
       if s.reg a ≠ s.reg b then branchOutcome s (s.st.pc + m * 4) else .next s.retire) ∧
     (Issues (.blt a b off) s → exec (.blt a b off) s =
       if (s.reg a).toInt < (s.reg b).toInt then branchOutcome s (s.st.pc + m * 4) else .next s.retire) ∧
     (Issues (.bge a b off) s → exec (.bge a b off) s =
       if (s.reg b).toInt ≤ (s.reg a).toInt then branchOutcome s (s.st.pc + m * 4) else .next s.retire) ∧
     (Issues (.bltn a b off) s → exec (.bltn a b off) s =
       if (s.reg a).toNat < (s.reg b).toNat then branchOutcome s (s.st.pc + m * 4) else .next s.retire) ∧
     (Issues (.bgen a b off) s → exec (.bgen a b off) s =
       if (s.reg b).toNat ≤ (s.reg a).toNat then branchOutcome s (s.st.pc + m * 4) else .next s.retire)) ∧
  (∀ (s : State) (a : SReg) (off : BitVec 26) (i : BitVec 16) (m : DW),
     (SignedImm s off m → Issues (.jmp off) s → exec (.jmp off) s = branchOutcome s (s.st.pc + m * 4)) ∧
     decodeWord (0x12#6 ++ off) = .ok (.jmp off) ∧
     (SignedImm s i m → Issues (.jmpr a i) s → exec (.jmpr a i) s = branchOutcome s (s.reg a + m)))

/-- 14 R308: `loop` and `loopi` set the level, clear its pending writes and enter the body; a count of 0 skips it with the level
inactive; a length of 0 and a count of 2^32 or more raise ILL.

14 R309: a unit that completes in sequential flow at LE of an active level tests it, level 1 first: pending writes are
installed, a loop whose new end lies before the word is dead, a count of 1 or less ends the loop, and otherwise the count falls
by one and flow goes back to LS. Where neither level is tested the next word follows. -/
def Obligations.Loops : Prop :=
  (∀ (s : State) (lvl : BitVec 1) (a : SReg) (cnt : BitVec 13) (len : BitVec 11) (n : DW) (c : BitVec 32),
     let set : State := s.onSt fun x =>
       let l : LoopLevel := { lc := c, ls := s.st.pc + 4, le := s.st.pc + 4 * len.zeroExtend 64, active := decide (c ≠ 0),
                              pendLc := none, pendLs := none, pendLe := none }
       if lvl = 0 then { x with loop0 := l } else { x with loop1 := l }
     let enter := if c = 0 then branchOutcome set (s.st.pc + 4 * len.zeroExtend 64 + 4) else .next set.retire
     (Issues (.loop lvl a len) s → (s.reg a).extractLsb' 0 32 = c →
       exec (.loop lvl a len) s = if len = 0 then .next (s.takeTrap (raise .ill)) else enter) ∧
     (Issues (.loopi lvl cnt len) s → UnsignedImm s cnt n → n.extractLsb' 0 32 = c →
       exec (.loopi lvl cnt len) s = if len = 0 ∨ 2 ^ 32 ≤ n.toNat then .next (s.takeTrap (raise .ill)) else enter)) ∧
  (∀ (x : Strand) (l : LoopLevel),
     ((x.loop1.active && x.loop1.le == x.pc) = false → (x.loop0.active && x.loop0.le == x.pc) = false →
       x.retire = x.startUnit (x.pc + 4)) ∧
     ((x.loop1.active && x.loop1.le == x.pc) = true → l = x.loop1.install →
       (2 ≤ l.lc.toNat → x.pc.toNat ≤ l.le.toNat →
         x.retire = ({ x with loop1 := { l with lc := l.lc - 1 } } : Strand).startUnit l.ls) ∧
       ((l.le.toNat < x.pc.toNat ∨ l.lc.toNat ≤ 1) → (x.loop0.active && x.loop0.le == x.pc) = false →
         x.retire = ({ x with loop1 := { l with active := false, lc := 0 } } : Strand).startUnit (x.pc + 4))) ∧
     ((x.loop1.active && x.loop1.le == x.pc) = false → (x.loop0.active && x.loop0.le == x.pc) = true → l = x.loop0.install →
       (2 ≤ l.lc.toNat → x.pc.toNat ≤ l.le.toNat →
         x.retire = ({ x with loop0 := { l with lc := l.lc - 1 } } : Strand).startUnit l.ls) ∧
       ((l.le.toNat < x.pc.toNat ∨ l.lc.toNat ≤ 1) →
         x.retire = ({ x with loop0 := { l with active := false, lc := 0 } } : Strand).startUnit (x.pc + 4))))

/-- 14 R298: what a scalar instruction that writes one register, or a conditional branch or jump that does not trap, leaves
alone: every register but its destination, every vector register, mask, context (flags with it), special register, counter and
tag, and every byte of memory; only the loop levels may change besides (R309). s0 discards the write (02 R47). A trap leaves the
issuing strand inactive, so the premise says that the word did not trap. -/
def Obligations.ScalarFrame : Prop :=
  ∀ (i : Instr) (d : SReg) (s t : State), scalarDest i = some d → Issues i s → exec i s = .next t → t.st.act = true →
    SameRegsBut d s t ∧ t.reg 0 = 0 ∧ SameVectors s t ∧ SameContexts s t ∧ SameSpecial s t ∧ SameBytes s t

/-! ### Scratchpad access (06 R131-R147) -/

/-- 06 R131, 16 R350, R361, R362: what stops a scalar load or store: ALIGN, then PROT outside the scratchpad or the regions of the
running level, with the address in the record; UNCORR with the local-source flag where a word it reads has an uncorrectable
error; ILL for a sign-extending load of 8 bytes. Nothing is written. -/
def Obligations.LocalAccessTraps : Prop :=
  ∀ (s : State) (sz : BitVec 2) (d base : SReg) (off : BitVec 11) (m a : DW) (n : Nat), SignedImm s off m → n = 2 ^ sz.toNat →
    a = s.reg base + m * BitVec.ofNat 64 n →
    (¬ LocalOk s a n false →
      (Issues (.ldN sz d base off) s →
        exec (.ldN sz d base off) s = .next (s.takeTrap { cause := localCause a n, addr := a })) ∧
      (Issues (.ldI sz d base off) s → sz ≠ 3 →
        exec (.ldI sz d base off) s = .next (s.takeTrap { cause := localCause a n, addr := a }))) ∧
    (¬ LocalOk s a n true →
      (Issues (.st sz d base off) s →
        exec (.st sz d base off) s = .next (s.takeTrap { cause := localCause a n, addr := a })) ∧
      (Issues (.stK sz d base off) s →
        exec (.stK sz d base off) s = .next (s.takeTrap { cause := localCause a n, addr := a }))) ∧
    (LocalOk s a n false → ¬ Readable s a.toNat n →
      (Issues (.ldN sz d base off) s →
        exec (.ldN sz d base off) s = .next (s.takeTrap { cause := .uncorr, addr := a, localSrc := true })) ∧
      (Issues (.ldI sz d base off) s → sz ≠ 3 →
        exec (.ldI sz d base off) s = .next (s.takeTrap { cause := .uncorr, addr := a, localSrc := true }))) ∧
    (Issues (.ldI 3 d base off) s → exec (.ldI 3 d base off) s = .next (s.takeTrap (raise .ill)))

/-- 06 R131, R140, R144, R145 and their frame. A scalar load reads its bytes of the scratchpad as its strand sees it, least significant
first, with zero or sign extension into its register, s0 discarding the value; a strand that has performed no load early sees the
scratchpad itself (12 R276, log 64), and sees what it stores (06 R141). A store writes the low bytes of its register, or the 128 bytes of a vector register, at
the computed address and changes no other byte. `vld` moves 128 bytes; the masked forms move the lanes whose mask bit is 1 and leave
the others. 06 R142: a staged store changes no byte and appends its address, size and register value to the commit buffer; the 65th
raises QFAULT and is not recorded.
06 R146 and its frame: a gather reads, and a scatter writes, the elements whose mask bit is 1, each at its own checked
address; the highest element wins where a scatter's addresses meet, and no byte outside the addressed elements changes. -/
def Obligations.LoadsAndStores : Prop :=
  (∀ (s : State) (sz : BitVec 2) (d base : SReg) (off : BitVec 11) (m a : DW) (n : Nat), SignedImm s off m → n = 2 ^ sz.toNat →
     a = s.reg base + m * BitVec.ofNat 64 n →
     (LocalOk s a n false → Readable s a.toNat n →
       (Issues (.ldN sz d base off) s →
         ScalarResult (exec (.ldN sz d base off) s) s d (BitVec.ofNat 64 (s.seen.readLe a.toNat n))) ∧
       (Issues (.ldI sz d base off) s → sz ≠ 3 → ScalarResult (exec (.ldI sz d base off) s) s d
         ((BitVec.ofNat (8 * n) (s.seen.readLe a.toNat n)).signExtend 64))) ∧
     (s.tile.early = [] → s.seen = s.tile.spad) ∧
     (LocalOk s a n true → s.tile.spad.wf = true →
       (Issues (.st sz d base off) s → ∃ t : State, exec (.st sz d base off) s = .next t ∧
         t.tile.spad.readLe a.toNat n = (s.reg d).toNat % 256 ^ n ∧ t.seen.readLe a.toNat n = (s.reg d).toNat % 256 ^ n ∧
         (∀ b, b < a.toNat ∨ a.toNat + n ≤ b → t.tile.spad.read b = s.tile.spad.read b) ∧ StoreFrame s t) ∧
       (Issues (.stK sz d base off) s → ∀ x, s.tile.act = some x →
         (x.staged.length < 64 → ∃ t : State, exec (.stK sz d base off) s = .next t ∧
           t.tile.act = some { x with staged := x.staged ++ [{ addr := a.toNat, size := n, data := s.reg d }] } ∧
           SameBytes s t ∧ (∀ r, t.reg r = s.reg r) ∧ SameVectors s t ∧ SameContexts s t ∧ SameSpecial s t) ∧
         (64 ≤ x.staged.length →
           exec (.stK sz d base off) s = .next (s.takeTrap { cause := .qfault, addr := a }))))) ∧
  (∀ (s : State) (d : VReg) (base : SReg) (off : BitVec 11) (off8 : BitVec 8) (k : KReg) (m m8 a am : DW),
     a = s.reg base + m * 128 → am = s.reg base + m8 * 128 → s.tile.spad.wf = true →
     (SignedImm s off m → Issues (.vld d base off) s → LocalOk s a 128 false → Readable s a.toNat 128 →
       ∃ t : State, exec (.vld d base off) s = .next t ∧ t.vreg d = BitVec.ofNat 1024 (s.seen.readLe a.toNat 128) ∧
         SameContexts s t ∧ VectorFrame d s t) ∧
     (SignedImm s off8 m8 → Issues (.vldM d base off8 k) s → LocalOk s am 128 false → Readable s am.toNat 128 →
       ∃ t : State, exec (.vldM d base off8 k) s = .next t ∧
         (∀ e, e < 32 → vElem 32 (t.vreg d) e =
           if (s.kreg k).getLsbD e then s.seen.readLe (am.toNat + 4 * e) 4 else vElem 32 (s.vreg d) e) ∧
         SameContexts s t ∧ VectorFrame d s t) ∧
     (SignedImm s off m → Issues (.vst d base off) s → LocalOk s a 128 true →
       ∃ t : State, exec (.vst d base off) s = .next t ∧ t.tile.spad.readLe a.toNat 128 = (s.vreg d).toNat ∧
         (∀ b, b < a.toNat ∨ a.toNat + 128 ≤ b → t.tile.spad.read b = s.tile.spad.read b) ∧ StoreFrame s t) ∧
     (SignedImm s off8 m8 → Issues (.vstM d base off8 k) s → LocalOk s am 128 true →
       ∃ t : State, exec (.vstM d base off8 k) s = .next t ∧
         (∀ e, e < 32 → t.tile.spad.readLe (am.toNat + 4 * e) 4 =
           if (s.kreg k).getLsbD e then vElem 32 (s.vreg d) e else s.tile.spad.readLe (am.toNat + 4 * e) 4) ∧
         (∀ b, b < am.toNat ∨ am.toNat + 128 ≤ b → t.tile.spad.read b = s.tile.spad.read b) ∧ StoreFrame s t)) ∧
  (∀ (s : State) (n : Nat) (i : Instr) (d : VReg) (base : SReg) (idx : VReg) (k : KReg) (sc : BitVec 3) (adr : Nat → DW),
     (∀ e, adr e = s.reg base + BitVec.ofNat 64 (vElem 32 (s.vreg idx) e) <<< sc.toNat) → Issues i s → s.tile.spad.wf = true →
     ((n = 4 ∧ i = .vldG32 d base idx k sc) ∨ (n = 8 ∧ i = .vldG64 d base idx k sc) →
       (∀ e, e < 128 / n → (s.kreg k).getLsbD e = true → LocalOk s (adr e) n false ∧ Readable s (adr e).toNat n) →
       ∃ t : State, exec i s = .next t ∧
         (∀ e, e < 128 / n → vElem (8 * n) (t.vreg d) e =
           if (s.kreg k).getLsbD e then s.seen.readLe (adr e).toNat n else vElem (8 * n) (s.vreg d) e) ∧
         SameContexts s t ∧ VectorFrame d s t) ∧
     ((n = 4 ∧ i = .vstS32 d base idx k sc) ∨ (n = 8 ∧ i = .vstS64 d base idx k sc) →
       (∀ e, e < 128 / n → (s.kreg k).getLsbD e = true → LocalOk s (adr e) n true) →
       ∃ t : State, exec i s = .next t ∧
         (∀ e, e < 128 / n → (s.kreg k).getLsbD e = true →
           (∀ f, e < f → f < 128 / n → (s.kreg k).getLsbD f = true → adr f ≠ adr e) →
           t.tile.spad.readLe (adr e).toNat n = vElem (8 * n) (s.vreg d) e) ∧
         (∀ b, (∀ e, e < 128 / n → (s.kreg k).getLsbD e = true → b < (adr e).toNat ∨ (adr e).toNat + n ≤ b) →
           t.tile.spad.read b = s.tile.spad.read b) ∧
         StoreFrame s t))

/-- 06 R147 and its frame: a decoded load of a readable source. In a linear bank element e is the e-th code of w bits from the
address on. In a plane-major bank bit w − 1 − j of a code is the bit of its column in row i of plane j of the slot (06 R136),
decoded with the slot's header for sq8 and sq4 (AIC32 has no plane-major layout). Each value is converted to FP32 or FP64,
rounding to nearest even; the flags that the conversions raise are ORed into the running context's, and nothing but the register
changes besides.

06 R147, 16 R350: where there is no such source, BANKFMT for a square format in a linear bank, ALIGN for an address between
elements, BANKFMT past the bank's end, ALIGN for a place that is no row or half row of a slot, PROT for a slot that the bank does
not have, and UNCORR with the local-source flag where a source word is bad; the register keeps its value. -/
def Obligations.DecodedLoads : Prop :=
  ∀ (s : State) (i : Instr) (g w cnt fmt bw bank o len : Nat) (d : VReg) (base : SReg) (off : BitVec 11) (m a : DW) (done : (Nat → Nat × Flags) → Prop),
    SignedImm s off m → a = s.reg base + m → Issues i s → LocalOk s a 1 false → bank = a.toNat / 65536 → o = a.toNat % 65536 →
    fmt = bankFmt (s.tile.bank bank) → bw = bankWidth fmt → cnt = 1024 / w → len = (bw * cnt + 7) / 8 →
    ((g = 7 ∧ w = 32 ∧ i = .vldCvtF32 d base off) ∨ (g = 6 ∧ w = 64 ∧ i = .vldCvtF64 d base off)) →
    (∀ f, done f ↔ ∃ t : State, exec i s = .next t ∧ (∀ e, e < cnt → vElem w (t.vreg d) e = (f e).1 % 2 ^ w) ∧
      OnlyFlags ((List.range cnt).foldl (fun x e => x ||| (f e).2) 0) s t ∧ VectorFrame d s t) →
    (bankPlane (s.tile.bank bank) = false →
      (isSquareFmt fmt = true → exec i s = .next (s.takeTrap { cause := .bankfmt, addr := a })) ∧
      (isSquareFmt fmt = false → o % ((bw + 7) / 8) ≠ 0 → exec i s = .next (s.takeTrap { cause := .align, addr := a })) ∧
      (isSquareFmt fmt = false → o % ((bw + 7) / 8) = 0 → 65536 < o + len →
        exec i s = .next (s.takeTrap { cause := .bankfmt, addr := a })) ∧
      (isSquareFmt fmt = false → o % ((bw + 7) / 8) = 0 → o + len ≤ 65536 →
        (¬ Readable s a.toNat len → exec i s = .next (s.takeTrap { cause := .uncorr, addr := a, localSrc := true })) ∧
        (Readable s a.toNat len →
          done fun e => cvtElem fmt g .near (s.seen.readLe a.toNat len / 2 ^ (bw * e) % 2 ^ bw)))) ∧
    (bankPlane (s.tile.bank bank) = true → fmt ≠ 15 → ∀ slot row h : Nat, slot = o / (128 * bw) → row = o % (128 * bw) / 4 → h = o % 4 / 2 →
      (32 ≤ row ∨ o % 2 = 1 ∨ (w = 32 ∧ h = 1) → exec i s = .next (s.takeTrap { cause := .align, addr := a })) ∧
      (row < 32 → o % 2 = 0 → (w = 32 → h = 0) → slotCount fmt ≤ slot → exec i s = .next (s.takeTrap { cause := .prot, addr := a })) ∧
      (row < 32 → o % 2 = 0 → (w = 32 → h = 0) → slot < slotCount fmt →
        ((∃ j, j < bw ∧ ¬ Readable s (bank * 65536 + slot * (128 * bw) + 128 * j + 4 * row + 2 * h) (cnt / 8)) ∨
            ((fmt = 13 ∨ fmt = 14) ∧ ¬ Readable s (sideAddr fmt bank slot) 64) →
          exec i s = .next (s.takeTrap { cause := .uncorr, addr := a, localSrc := true })) ∧
        ((∀ j, j < bw → Readable s (bank * 65536 + slot * (128 * bw) + 128 * j + 4 * row + 2 * h) (cnt / 8)) →
         (fmt = 13 ∨ fmt = 14 → Readable s (sideAddr fmt bank slot) 64) →
         ∀ code : Nat → Nat, (∀ e, e < cnt → code e < 2 ^ bw ∧ ∀ j, j < bw → (code e).testBit (bw - 1 - j) =
          (s.seen.readLe (bank * 65536 + slot * (128 * bw) + 128 * j + 4 * row) 4).testBit (16 * h + e)) →
         done fun e => if isSquareFmt fmt = true
          then cvtFromVal (squareValue fmt (s.seen.readLe (sideAddr fmt bank slot) 64) row (16 * h + e) (code e)) g .near
           else cvtElem fmt g .near (code e))))

/-! ### The vector unit (08 R178-R195) -/

/-- 08 R178-R183: floating-point arithmetic, element by element under the mask, rounded once in the mode of SR_FPCTL, with the
flags of R179 and R183 ORed into the running context. The exact operations and the rounding are those of Machine/Float.lean.
07 R152, 08 R179, R183: the special operands. A NaN result is the canonical quiet NaN with the sign of the first NaN operand,
an invalid operation gives the NaN with sign 0 and NV, ∞ × 0 beside a NaN addend too, a finite value over zero gives an
infinity and DZ, an exact zero sum is +0 and under rounding toward −∞ it is −0. -/
def Obligations.VectorFloat : Prop :=
  (∀ (s : State) (ty : BitVec 1) (d a b : VReg) (k : KReg) (g : Fmt) (w : Nat) (x y z : Nat → FVal) (cx cy : Nat → Nat),
     g = (if ty = 0 then fp32 else fp64) → w = (if ty = 0 then 32 else 64) →
     (∀ e, cx e = vElem w (s.vreg a) e) → (∀ e, cy e = vElem w (s.vreg b) e) → (∀ e, x e = decodeFmt g (cx e)) →
     (∀ e, y e = decodeFmt g (cy e)) → (∀ e, z e = decodeFmt g (vElem w (s.vreg d) e)) →
     (Issues (.vaddFp ty d a b k) s →
       VectorResult (exec (.vaddFp ty d a b k) s) s w d k fun e => fAdd g s.rm (x e) (y e)) ∧
     (Issues (.vsubFp ty d a b k) s →
       VectorResult (exec (.vsubFp ty d a b k) s) s w d k fun e => fSub g s.rm (x e) (y e)) ∧
     (Issues (.vmulFp ty d a b k) s →
       VectorResult (exec (.vmulFp ty d a b k) s) s w d k fun e => fMul g s.rm (x e) (y e)) ∧
     (Issues (.vfma ty d a b k) s →
       VectorResult (exec (.vfma ty d a b k) s) s w d k fun e => fFma g s.rm (x e) (y e) (z e)) ∧
     (Issues (.vfms ty d a b k) s →
       VectorResult (exec (.vfms ty d a b k) s) s w d k fun e => fFms g s.rm (x e) (y e) (z e)) ∧
     (Issues (.vdiv ty d a b k) s →
       VectorResult (exec (.vdiv ty d a b k) s) s w d k fun e => fDiv g s.rm (x e) (y e)) ∧
     (Issues (.vminFp ty d a b k) s →
       VectorResult (exec (.vminFp ty d a b k) s) s w d k fun e => fMinMax g false (cx e) (cy e)) ∧
     (Issues (.vmaxFp ty d a b k) s →
       VectorResult (exec (.vmaxFp ty d a b k) s) s w d k fun e => fMinMax g true (cx e) (cy e)) ∧
     (Issues (.vsqrt ty d a k) s →
       VectorResult (exec (.vsqrt ty d a k) s) s w d k fun e => fSqrt g s.rm (x e)) ∧
     (Issues (.vrcp ty d a k) s →
       VectorResult (exec (.vrcp ty d a k) s) s w d k fun e => fDiv g s.rm (.fin false 1 0) (x e)) ∧
     (Issues (.vrsq ty d a k) s →
       VectorResult (exec (.vrsq ty d a k) s) s w d k fun e => fRsqrt g s.rm (x e)) ∧
     (Issues (.vabsFp ty d a k) s →
       VectorResult (exec (.vabsFp ty d a k) s) s w d k fun e => (cx e % 2 ^ (w - 1), 0)) ∧
     (Issues (.vnegFp ty d a k) s →
       VectorResult (exec (.vnegFp ty d a k) s) s w d k fun e => (if cx e < 2 ^ (w - 1) then cx e + 2 ^ (w - 1) else cx e - 2 ^ (w - 1), 0))) ∧
  (∀ (g : Fmt) (rm : RMode) (v : FVal) (p q n : Bool) (m : Nat) (e : Int), 0 < m →
     (v.isNan = false → fAdd g rm (.nan p false) v = (g.signBit p + g.nanCode, 0)) ∧
     (v.isNan = false → fAdd g rm (.nan p true) v = (g.signBit p + g.nanCode, flNV)) ∧
     fAdd g rm (.nan p false) (.nan q false) = (g.signBit p + g.nanCode, 0) ∧
     fAdd g rm (.inf p) (.inf (!p)) = (g.nanCode, flNV) ∧ fAdd g rm (.inf p) (.inf p) = (g.signBit p + g.infCode, 0) ∧
     fMul g rm (.inf p) (.fin q 0 e) = (g.nanCode, flNV) ∧ fFma g rm (.inf p) (.fin q 0 e) (.nan n false) = (g.nanCode, flNV) ∧
     fDiv g rm (.fin p 0 e) (.fin q 0 e) = (g.nanCode, flNV) ∧ fDiv g rm (.inf p) (.inf q) = (g.nanCode, flNV) ∧
     fDiv g rm (.fin p m e) (.fin q 0 e) = (g.signBit (p != q) + g.infCode, flDZ) ∧
     fAdd g rm (.fin p m e) (.fin (!p) m e) = (g.signBit (rm == .down), 0) ∧
     fSqrt g rm (.fin true 0 e) = (g.signBit true, 0) ∧ fSqrt g rm (.fin true m e) = (g.nanCode, flNV) ∧
     fRsqrt g rm (.fin n 0 e) = (g.signBit n + g.infCode, flDZ))

/-- 08 R178, R184: integer arithmetic, element by element under the mask, modulo 2^w or saturated with SAT. -/
def Obligations.VectorInteger : Prop :=
  ∀ (s : State) (es : BitVec 2) (sg : BitVec 1) (d a b : VReg) (k : KReg) (w : Nat) (x y : Nat → Nat) (xi yi : Nat → Int)
      (lo hi : Int) (sat : Int → Nat × Flags),
    ((es = 0 ∧ w = 32) ∨ (es = 1 ∧ w = 64) ∨ (es = 2 ∧ w = 16) ∨ (es = 3 ∧ w = 8)) →
    (∀ e, x e = vElem w (s.vreg a) e) → (∀ e, y e = vElem w (s.vreg b) e) →
    (∀ e, xi e = if sg = 1 then (BitVec.ofNat w (x e)).toInt else x e) →
    (∀ e, yi e = if sg = 1 then (BitVec.ofNat w (y e)).toInt else y e) →
    (lo = if sg = 1 then -2 ^ (w - 1) else 0) → (hi = if sg = 1 then 2 ^ (w - 1) - 1 else 2 ^ w - 1) →
    (∀ v, sat v = ((BitVec.ofInt w (max lo (min hi v))).toNat, if lo ≤ v ∧ v ≤ hi then 0 else flSAT)) →
    (Issues (.vaddInt es sg d a b k) s →
      VectorResult (exec (.vaddInt es sg d a b k) s) s w d k fun e => (x e + y e, 0)) ∧
    (Issues (.vsubInt es sg d a b k) s →
      VectorResult (exec (.vsubInt es sg d a b k) s) s w d k fun e => (x e + 2 ^ w - y e, 0)) ∧
    (Issues (.vadds es sg d a b k) s →
      VectorResult (exec (.vadds es sg d a b k) s) s w d k fun e => sat (xi e + yi e)) ∧
    (Issues (.vsubs es sg d a b k) s →
      VectorResult (exec (.vsubs es sg d a b k) s) s w d k fun e => sat (xi e - yi e)) ∧
    (Issues (.vmulInt es sg d a b k) s →
      VectorResult (exec (.vmulInt es sg d a b k) s) s w d k fun e => (x e * y e, 0)) ∧
    (Issues (.vmulh es sg d a b k) s →
      VectorResult (exec (.vmulh es sg d a b k) s) s w d k fun e => ((BitVec.ofInt w (xi e * yi e / 2 ^ w)).toNat, 0)) ∧
    (Issues (.vminInt es sg d a b k) s →
      VectorResult (exec (.vminInt es sg d a b k) s) s w d k fun e => (if xi e < yi e then x e else y e, 0)) ∧
    (Issues (.vmaxInt es sg d a b k) s →
      VectorResult (exec (.vmaxInt es sg d a b k) s) s w d k fun e => (if xi e < yi e then y e else x e, 0)) ∧
    (Issues (.vand es sg d a b k) s →
      VectorResult (exec (.vand es sg d a b k) s) s w d k fun e => (x e &&& y e, 0)) ∧
    (Issues (.vor es sg d a b k) s →
      VectorResult (exec (.vor es sg d a b k) s) s w d k fun e => (x e ||| y e, 0)) ∧
    (Issues (.vxor es sg d a b k) s →
      VectorResult (exec (.vxor es sg d a b k) s) s w d k fun e => (x e ^^^ y e, 0)) ∧
    (Issues (.vshl es sg d a b k) s →
      VectorResult (exec (.vshl es sg d a b k) s) s w d k fun e => (x e * 2 ^ (y e % w), 0)) ∧
    (Issues (.vshr es sg d a b k) s →
      VectorResult (exec (.vshr es sg d a b k) s) s w d k fun e => ((BitVec.ofInt w (xi e / 2 ^ (y e % w))).toNat, 0)) ∧
    (sg = 1 → Issues (.vabsInt es d a k) s →
      VectorResult (exec (.vabsInt es d a k) s) s w d k fun e => sat (xi e).natAbs)

/-- 08 R186-R190, 07 R165 and their frame: a conversion writes the whole register, its elements from bit 0 and zero bits above them,
and ORs their flags; `vlog2` and `vexp2` work under the mask; the random forms draw a word for every lane, masked off or not, set no
flag and advance the tile's generator by eight counter values; a conversion draws only with SR_FPCTL.STO between two different float
formats, one word an element. A conversion from or to code 15 is ILL. An instruction that draws waits while a drawing thresher command
is incomplete. -/
def Obligations.ConversionsAndRandom : Prop :=
  ∀ (s : State) (g f : BitVec 4) (d a : VReg) (k : KReg) (n : Nat) (drawn : Bool),
    (n = if cvtWidth f.toNat = 64 ∨ cvtWidth g.toNat = 64 then 16 else 32) →
    (drawn = (s.sto && (fmtOf f.toNat).isSome && (fmtOf g.toNat).isSome && f != g)) →
    (Issues (.vcvt g f d a) s → (g = 15 ∨ f = 15) → exec (.vcvt g f d a) s = .next (s.takeTrap (raise .ill))) ∧
    (Issues (.vcvt g f d a) s → g ≠ 15 → f ≠ 15 → (drawn = false ∨ s.tile.drawing = false) →
      ∃ t : State, exec (.vcvt g f d a) s = .next t ∧
        (∀ e, e < n → vElem (cvtWidth g.toNat) (t.vreg d) e = (cvtOne f.toNat g.toNat s.rm (if drawn then some (s.draw e) else none)
          (vElem (cvtWidth f.toNat) (s.vreg a) e)).1 % 2 ^ cvtWidth g.toNat) ∧
        (t.vreg d).toNat < 2 ^ (n * cvtWidth g.toNat) ∧
        OnlyFlags ((List.range n).foldl (fun x e => x ||| (cvtOne f.toNat g.toNat s.rm (if drawn then some (s.draw e) else none)
          (vElem (cvtWidth f.toNat) (s.vreg a) e)).2) 0) s t ∧ DrawFrame d (if drawn then n / 4 else 0) s t) ∧
    (Issues (.vcvt g f d a) s → g ≠ 15 → f ≠ 15 → drawn = true → s.tile.drawing = true →
      exec (.vcvt g f d a) s = .next (s.onSt fun x => { x with wait := some (.retry .engine) })) ∧
    (Issues (.vlog2 d a k) s → VectorResult (exec (.vlog2 d a k) s) s 32 d k fun e => fLog2 (vElem 32 (s.vreg a) e)) ∧
    (Issues (.vexp2 d a k) s → VectorResult (exec (.vexp2 d a k) s) s 32 d k fun e => fExp2 (vElem 32 (s.vreg a) e)) ∧
    (Issues (.vrand d k) s → s.tile.drawing = false → ∃ t : State, exec (.vrand d k) s = .next t ∧
      (∀ e, e < 32 → vElem 32 (t.vreg d) e = if (s.kreg k).getLsbD e then s.draw e % 2 ^ 32 else vElem 32 (s.vreg d) e) ∧
      SameContexts s t ∧ DrawFrame d 8 s t) ∧
    (Issues (.vrandF32 d k) s → s.tile.drawing = false → ∃ t : State, exec (.vrandF32 d k) s = .next t ∧
      (∀ e, e < 32 → vElem 32 (t.vreg d) e = if (s.kreg k).getLsbD e then
        (roundVal fp32 .near false (2 * (s.draw e / 512) + 1) (-24) false).1 % 2 ^ 32 else vElem 32 (s.vreg d) e) ∧
      SameContexts s t ∧ DrawFrame d 8 s t) ∧
    (s.tile.drawing = true →
      (Issues (.vrand d k) s → exec (.vrand d k) s = .next (s.onSt fun x => { x with wait := some (.retry .engine) })) ∧
      (Issues (.vrandF32 d k) s → exec (.vrandF32 d k) s = .next (s.onSt fun x => { x with wait := some (.retry .engine) })))

/-! ### Reductions, permutes, masks (08 R191-R195) -/

/-- 08 R192, R193: `vsum` of integers adds the active elements exactly; of floats it rounds the exact sum once. `vmaxi` and `vmini`
answer the extreme one of the candidates, the active elements that are no NaN and the running result, with its index, the lowest among
equals, with −0 below +0 for floats; with no candidate they answer the quiet NaN, or 0, and no index. A pair that d cannot name and a
type of 4 or more raise ILL. -/
def Obligations.Reductions : Prop :=
  ∀ (s : State) (ty : BitVec 3) (d : SReg) (a : VReg) (b : SReg) (k : KReg) (mx : Bool) (i : Instr) (w : Nat)
      (act : List Nat) (ix : Nat → Nat) (cand : Nat × Nat → Prop),
    w = (if ty = 1 then 64 else 32) →
    (act = (List.range (1024 / w)).filter fun e => (s.kreg k).getLsbD e) →
    (∀ e, ix e = ((s.reg b).toNat + e) % 2 ^ 32) →
    (∀ p, cand p ↔ p.2 ≠ 0xFFFFFFFF ∧ (redNan ty p.1).1 = false ∧
      ((∃ e ∈ act, p = (vElem w (s.vreg a) e, ix e)) ∨ p = ((s.reg d).toNat % 2 ^ w, (s.reg (d + 1)).toNat % 2 ^ 32))) →
    (mx = true ∧ i = .vmaxi ty d a b k ∨ mx = false ∧ i = .vmini ty d a b k) →
    (Issues (.vsum ty d a k) s →
      (ty = 2 → ScalarResult (exec (.vsum ty d a k) s) s d (BitVec.ofInt 64
        (act.map fun e => (BitVec.ofNat 32 (vElem 32 (s.vreg a) e)).toInt).sum)) ∧
      (ty = 3 → ScalarResult (exec (.vsum ty d a k) s) s d (BitVec.ofNat 64 (act.map (vElem 32 (s.vreg a))).sum)) ∧
      (ty = 0 → ∃ r, r = floatSum fp32 s.rm (act.map fun e => decodeFmt fp32 (vElem 32 (s.vreg a) e)) ∧
        exec (.vsum ty d a k) s = .next ((s.setReg d (BitVec.ofNat 64 r.1)).orFlags 6 r.2).retire) ∧
      (ty = 1 → ∃ r, r = floatSum fp64 s.rm (act.map fun e => decodeFmt fp64 (vElem 64 (s.vreg a) e)) ∧
        exec (.vsum ty d a k) s = .next ((s.setReg d (BitVec.ofNat 64 r.1)).orFlags 6 r.2).retire) ∧
      (4 ≤ ty.toNat → exec (.vsum ty d a k) s = .next (s.takeTrap (raise .ill)))) ∧
    (Issues i s →
      (d = 0 ∨ d = 31 ∨ 4 ≤ ty.toNat → exec i s = .next (s.takeTrap (raise .ill))) ∧
      (d ≠ 0 → d ≠ 31 → ty.toNat < 4 →
        ∃ (f : Flags) (v : DW) (n : Nat), exec i s = .next ((s.orFlags 5 f).setPair d v (BitVec.ofNat 64 n)).retire ∧
          (f = flNV ∨ f = 0) ∧ (f = flNV ↔ ∃ e ∈ act, (redNan ty (vElem w (s.vreg a) e)).2 = true) ∧
          ((∃ p, cand p ∧ n = p.2 ∧ (v = if ty = 2 then (BitVec.ofNat 32 p.1).signExtend 64 else BitVec.ofNat 64 p.1) ∧
              ∀ q, cand q → beyond mx ty q.1 p.1 = false ∧ (q.1 = p.1 → p.2 ≤ q.2)) ∨
            ((∀ p, ¬ cand p) ∧ n = 0xFFFFFFFF ∧
              v = if ty = 0 then 0x7FC00000 else if ty = 1 then 0x7FF8000000000000 else 0))))

/-- 08 R194, R195 and their frame: the permutes and moves of vector registers, under the mask or whole, and the mask instructions; no
flag is set. k0 reads all ones and discards a write; s0 discards a write. `kffs` answers the lowest one bit, 32 when there is none. -/
def Obligations.PermutesMovesAndMasks : Prop :=
  ∀ (s : State) (d a b : VReg) (sd sa sb : SReg) (k l j : KReg) (n5 : BitVec 5) (n4 : BitVec 4),
    (Issues (.vperm d a b k) s → VectorResult (exec (.vperm d a b k) s) s 32 d k fun e =>
      (vElem 32 (s.vreg a) (vElem 32 (s.vreg b) e % 32), 0)) ∧
    (Issues (.vrot d a sb k) s → VectorResult (exec (.vrot d a sb k) s) s 32 d k fun e =>
      (vElem 32 (s.vreg a) ((e + (s.reg sb).toNat) % 32), 0)) ∧
    (Issues (.vbcast32 d sa k) s → VectorResult (exec (.vbcast32 d sa k) s) s 32 d k fun _ => ((s.reg sa).toNat, 0)) ∧
    (Issues (.vbcast64 d sa k) s → VectorResult (exec (.vbcast64 d sa k) s) s 64 d k fun _ => ((s.reg sa).toNat, 0)) ∧
    (Issues (.vlane d k) s → VectorResult (exec (.vlane d k) s) s 32 d k fun e => (e, 0)) ∧
    (Issues (.vmov32 d a k) s → VectorResult (exec (.vmov32 d a k) s) s 32 d k fun e => (vElem 32 (s.vreg a) e, 0)) ∧
    (Issues (.vmov64 d a k) s → VectorResult (exec (.vmov64 d a k) s) s 64 d k fun e => (vElem 64 (s.vreg a) e, 0)) ∧
    (Issues (.vins32 d sa n5) s → WholeVector (exec (.vins32 d sa n5) s) s 32 d fun e =>
      if e = n5.toNat then (s.reg sa).toNat else vElem 32 (s.vreg d) e) ∧
    (Issues (.vins64 d sa n4) s → WholeVector (exec (.vins64 d sa n4) s) s 64 d fun e =>
      if e = n4.toNat then (s.reg sa).toNat else vElem 64 (s.vreg d) e) ∧
    (Issues (.vsel32 d a b k) s → WholeVector (exec (.vsel32 d a b k) s) s 32 d fun e =>
      if (s.kreg k).getLsbD e then vElem 32 (s.vreg a) e else vElem 32 (s.vreg b) e) ∧
    (Issues (.vsel64 d a b k) s → WholeVector (exec (.vsel64 d a b k) s) s 64 d fun e =>
      if (s.kreg k).getLsbD e then vElem 64 (s.vreg a) e else vElem 64 (s.vreg b) e) ∧
    (Issues (.vext32 sd a n5) s →
      ScalarResult (exec (.vext32 sd a n5) s) s sd (BitVec.ofNat 64 (vElem 32 (s.vreg a) n5.toNat))) ∧
    (Issues (.vext64 sd a n4) s →
      ScalarResult (exec (.vext64 sd a n4) s) s sd (BitVec.ofNat 64 (vElem 64 (s.vreg a) n4.toNat))) ∧
    s.kreg 0 = BitVec.allOnes 32 ∧
    (Issues (.kand k l j) s → MaskResult (exec (.kand k l j) s) s k (s.kreg l &&& s.kreg j)) ∧
    (Issues (.kor k l j) s → MaskResult (exec (.kor k l j) s) s k (s.kreg l ||| s.kreg j)) ∧
    (Issues (.kxor k l j) s → MaskResult (exec (.kxor k l j) s) s k (s.kreg l ^^^ s.kreg j)) ∧
    (Issues (.kandn k l j) s → MaskResult (exec (.kandn k l j) s) s k (s.kreg l &&& ~~~ (s.kreg j))) ∧
    (Issues (.kset k sa) s → MaskResult (exec (.kset k sa) s) s k ((s.reg sa).extractLsb' 0 32)) ∧
    (Issues (.kget sd k) s → ScalarResult (exec (.kget sd k) s) s sd ((s.kreg k).zeroExtend 64)) ∧
    (Issues (.kpop sd k) s → ScalarResult (exec (.kpop sd k) s) s sd
      (BitVec.ofNat 64 ((List.range 32).filter fun i => (s.kreg k).getLsbD i).length)) ∧
    (Issues (.kffs sd k) s → ∃ n : Nat, ScalarResult (exec (.kffs sd k) s) s sd (BitVec.ofNat 64 n) ∧ n ≤ 32 ∧
      (∀ i, i < n → (s.kreg k).getLsbD i = false) ∧ (n < 32 → (s.kreg k).getLsbD n = true))

/-- 08 R185 and its frame: a compare writes its mask whole, bit e from the active element e of the two vectors alone, a mask bit of 0
and an element past a 64-bit type's sixteen giving 0. Integers compare signed or unsigned by the type and set no flag. Floats compare
by value: −0 equals +0; with a NaN `eq`, `lt` and `le` are false and `ne` and `un` true; NV is set by any NaN under `lt` and `le`, and
by a signalling one otherwise. A type of 6 or more, `un` of integers, and k0 as the destination raise ILL. -/
def Obligations.VectorCompares : Prop :=
  (∀ (s : State) (i : Instr) (c : VCond) (ty : BitVec 3) (d : KReg) (a b : VReg) (k : KReg) (w : Nat) (g : Fmt) (x y : Nat → Nat)
       (u v : Nat → FVal) (p q : Nat → Int) (un lt gt : Nat → Bool) (writes : (Nat → Bool × Flags) → Prop),
     ((c = .eq ∧ i = .vcmpEq ty d a b k) ∨ (c = .ne ∧ i = .vcmpNe ty d a b k) ∨ (c = .lt ∧ i = .vcmpLt ty d a b k) ∨
       (c = .le ∧ i = .vcmpLe ty d a b k) ∨ (c = .un ∧ i = .vcmpUn ty d a b k)) →
     (w = if ty = 1 ∨ ty = 4 ∨ ty = 5 then 64 else 32) → (∀ e, x e = vElem w (s.vreg a) e) → (∀ e, y e = vElem w (s.vreg b) e) →
     Issues i s →
     (∀ f, writes f ↔ ∃ t : State, exec i s = .next t ∧
       (∀ e, e < 32 → (t.kreg d).getLsbD e = (decide (e < 1024 / w) && (s.kreg k).getLsbD e && (f e).1)) ∧
       OnlyFlags (activeFlags s w k fun e => (f e).2) s t ∧ (∀ r, r ≠ d → t.kreg r = s.kreg r) ∧ (∀ r, t.vreg r = s.vreg r) ∧
       (∀ r, t.reg r = s.reg r) ∧ SameSpecial s t ∧ SameBytes s t) →
     (d = 0 ∨ 6 ≤ ty.toNat ∨ (c = .un ∧ 2 ≤ ty.toNat) → exec i s = .next (s.takeTrap (raise .ill))) ∧
     (d ≠ 0 → ty = 2 ∨ ty = 3 ∨ ty = 4 ∨ ty = 5 → c ≠ .un →
       (∀ e, p e = if ty = 2 ∨ ty = 4 then (BitVec.ofNat w (x e)).toInt else x e) →
       (∀ e, q e = if ty = 2 ∨ ty = 4 then (BitVec.ofNat w (y e)).toInt else y e) →
       writes fun e => (if c = .eq then decide (p e = q e) else if c = .ne then decide (p e ≠ q e)
         else if c = .lt then decide (p e < q e) else decide (p e ≤ q e), 0)) ∧
     (d ≠ 0 → ty = 0 ∨ ty = 1 → (g = if ty = 0 then fp32 else fp64) → (∀ e, u e = decodeFmt g (x e)) →
       (∀ e, v e = decodeFmt g (y e)) → (∀ e, un e = ((u e).isNan || (v e).isNan)) → (∀ e, lt e = fLess false (u e) (v e)) →
       (∀ e, gt e = fLess false (v e) (u e)) →
       writes fun e => (if c = .eq then !un e && !lt e && !gt e else if c = .ne then un e || lt e || gt e
         else if c = .lt then !un e && lt e else if c = .le then !un e && (lt e || !gt e) else un e,
         if (if c = .lt ∨ c = .le then un e else (u e).isSig || (v e).isSig) = true then flNV else 0))) ∧
  (∀ (n1 n2 : Bool) (m1 m2 i j : Nat) (e : Int),
     fLess false (.fin n1 m1 (e + i)) (.fin n2 m2 (e + j)) =
       decide ((if n1 then -1 else 1) * ((m1 * 2 ^ i : Nat) : Int) < (if n2 then -1 else 1) * ((m2 * 2 ^ j : Nat) : Int)) ∧
     fLess false (.inf n1) (.fin n2 m2 e) = n1 ∧ fLess false (.fin n1 m1 e) (.inf n2) = !n2 ∧
     fLess false (.inf n1) (.inf n2) = (n1 && !n2))

/-! ### Requests to main memory (03 R63-R88, 05 R108-R110) -/

/-- 03 R86: a tagged request whose address translates, whose local end passes its check and whose tag is IDLE, sends one packet
and makes its tag BUSY; a read names where its data go, a write carries the data read at issue. Only the caches that translation
fills change besides. A misaligned address raises ALIGN, an empty mask ILL, and a BUSY tag makes the strand wait. -/
def Obligations.RequestIssue : Prop :=
  ∀ (s s1 : State) (i : Instr) (kind : ReqKind) (sz : BitVec 2) (t : TReg) (a d : SReg) (off : BitVec 6) (mask : BitVec 8) (m va : DW)
      (n : Nat) (rd near : Bool) (pa : Nat) (key : BitVec 13),
    ((i = .mrqRd sz t a d off ∧ kind = .rd ∧ rd = true ∧ near = decide (sz ≠ 0) ∧ n = 8 * 2 ^ sz.toNat ∧
        SignedImm s off m ∧ va = s.reg a + m * BitVec.ofNat 64 n) ∨
      (i = .mrqWr sz t a d off ∧ kind = .wr ∧ rd = false ∧ near = decide (sz ≠ 0) ∧ n = 8 * 2 ^ sz.toNat ∧
        SignedImm s off m ∧ va = s.reg a + m * BitVec.ofNat 64 n) ∨
      (i = .mrqWrm t a d mask ∧ mask ≠ 0 ∧ kind = .wrm ∧ rd = false ∧ near = true ∧ n = 64 ∧ va = s.reg a)) →
    Issues i s →
    (va.toNat % n ≠ 0 → exec i s = .next (s.takeTrap { cause := .align, addr := va })) ∧
    (va.toNat % n = 0 → (near = true → LocalOk s (s.reg d) n rd) →
      s.translate s.tile.ltn s.xc s.tile.paddock va n (if rd then 0 else 1) false = (.ok pa key, s1) →
      ((s.tile.tag t).phase = .busy → exec i s = .next (s1.onSt fun x => { x with wait := some (.retry .memory) })) ∧
      ((s.tile.tag t).phase = .idle → (rd = false → near = true → Readable s (s.reg d).toNat n) →
        ∃ (u : State) (q : MemReq), exec i s = .next u ∧ u.reqs = s.reqs ++ [q] ∧ q.serial = s.reqSerial ∧ q.kind = kind ∧ q.handle = .tag t ∧
          q.strand = s.cur ∧ q.source = s.gid s.tile.ltn ∧ q.paddock = (if s.st.lvl = 2 then 31 else s.tile.paddock) ∧
          q.l2 = (s.st.lvl == 2) ∧ q.pa = pa ∧ q.key = key ∧ q.len = n ∧ q.phase = .toSlice ∧
          (kind = .wrm → ∀ j, j < 64 → q.bmask.getLsbD j = mask.getLsbD (j / 8)) ∧
          (∀ j, j < n → rd = false → q.data.getD j 0 =
            if near then s.seen.read ((s.reg d).toNat + j) else (s.reg d).extractLsb' (8 * j) 8) ∧
          (u.tile.tag t).phase = .busy ∧ (u.tile.tag t).dest = (if rd ∧ near then some (s.reg d).toNat else none) ∧
          (∀ r, r ≠ t → u.tile.tag r = s.tile.tag r) ∧ (∀ r, u.reg r = s.reg r) ∧ SameVectors s u ∧ SameContexts s u ∧
          SameBytes s u)) ∧
    (Issues (.mrqWrm t a d 0) s → exec (.mrqWrm t a d 0) s = .next (s.takeTrap (raise .ill)))

/-- 03 R87, R86: `mrq.wait` answers 0 for an IDLE tag, waits for a BUSY one, and consumes a DONE one: the data, or the cause of a
failed reply with the tag IDLE; `mrq.poll` answers the tag's state. A reply that arrives makes its tag DONE, and a good read puts
its data at the destination and nowhere else. -/
def Obligations.RequestReplies : Prop :=
  ∀ (s : State) (d : SReg) (t : TReg) (k : Nat) (q : MemReq),
    (Issues (.mrqWait d t) s →
      ((s.tile.tag t).phase = .idle → ScalarResult (exec (.mrqWait d t) s) s d 0) ∧
      ((s.tile.tag t).phase = .busy →
        exec (.mrqWait d t) s = .next (s.onSt fun x => { x with wait := some (.retry .memory) })) ∧
      ((s.tile.tag t).phase = .done → (s.tile.tag t).status = .ok → ∃ u : State, exec (.mrqWait d t) s = .next u ∧
        (∀ r, u.reg r = if r = d ∧ d ≠ 0 then (s.tile.tag t).data else s.reg r) ∧ (u.tile.tag t).phase = .idle ∧
        (∀ r, r ≠ t → u.tile.tag r = s.tile.tag r) ∧ SameVectors s u ∧ SameContexts s u ∧ SameBytes s u) ∧
      (∀ c, (s.tile.tag t).phase = .done →
        ((s.tile.tag t).status = .poison ∧ c = .uncorr ∨
          ((s.tile.tag t).status = .keyErr ∨ (s.tile.tag t).status = .ownErr) ∧ c = .prot) →
        exec (.mrqWait d t) s = .next ((s.setTag t { s.tile.tag t with phase := .idle }).takeTrap (raise c)))) ∧
    (Issues (.mrqPoll d t) s → ScalarResult (exec (.mrqPoll d t) s) s d
      (if (s.tile.tag t).phase = .busy then 0 else if (s.tile.tag t).phase = .done then 1 else 2)) ∧
    (s.input.k = k → s.reqs[k]? = some q → q.handle = .tag t → q.phase = .toTile → q.source = s.gid s.tile.ltn →
      s.tile.spad.wf = true →
      ∃ u : State, exec .mrqReplyArrival s = .next u ∧ u.reqs.length + 1 = s.reqs.length ∧ (u.tile.tag t).phase = .done ∧
        (u.tile.tag t).status = (if q.status = .rebuiltOk then .ok else q.status) ∧ (∀ r, r ≠ t → u.tile.tag r = s.tile.tag r) ∧
        (q.kind = .rd → q.len = 8 → q.status = .ok → (u.tile.tag t).data = BitVec.ofNat 64 (ofLe q.data)) ∧
        (q.kind ≠ .rd ∨ q.len ≠ 8 → (u.tile.tag t).data = 0) ∧
        ((s.tile.tag t).dest = none → SameBytes s u) ∧
        (∀ l, (s.tile.tag t).dest = some l → q.status = .ok →
          (∀ j, j < q.data.length → u.tile.spad.read (l + j) = q.data.getD j 0) ∧
          ∀ a, a < l ∨ l + q.data.length ≤ a → u.tile.spad.read a = s.tile.spad.read a) ∧
        (∀ r, u.reg r = s.reg r) ∧ u.mem = s.mem)

/-- 05 R109, R110, 03 R78, R83, 10 R225-R227: a home slice takes a tile's requests in issue order. A read that hits the line array, with
no square write to the line pending, is answered from it with the pending writes of its line laid over it; another read, a square read
and every write go on to the base die; the request taken becomes the youngest. A square write whose record is a sheaf is checked: a
sound one goes on with HOP 0, a bad one is refused. The reply of the oldest request of its lines passes back: to its tile, or away
where nothing waits for it. A good read fills its line whole, from main memory that needs no repair with memory's bytes, and main memory
changes only where a granule of the line has to be repaired; a read that failed leaves no line of its address. -/
def Obligations.RequestsAtHomeSlice : Prop :=
  ∀ (s : State) (k : Nat) (r : MemReq), s.input.k = k → s.reqs[k]? = some r →
    (s.sliceMay r = true →
      (∀ l : GranLine, (r.kind = .rd ∨ r.kind = .walk) → r.handle ≠ .none → (∀ n, r.handle ≠ .walker n) →
        (∀ q ∈ s.reqs, q.taken = true → q.kind = .sqwr → q.sameLine r = false) → s.lineHit r.pa r.key = some l →
        ∃ u : State, exec .homeSliceRead s = .next u ∧ u.reqs.length = s.reqs.length ∧ (∀ j, j ≠ k → u.reqs[j]? = s.reqs[j]?) ∧
          u.reqs[k]? = some { r with phase := .toTile, data := s.overlay r.pa ((l.data.drop (r.pa % 64)).take r.len) } ∧
          u.mem = s.mem ∧ u.lines = s.lines) ∧
      ((r.kind = .sqrd ∨ ((r.kind = .rd ∨ r.kind = .walk) ∧ (s.lineHit r.pa r.key = none ∨
            ∃ q ∈ s.reqs, q.taken = true ∧ q.kind = .sqwr ∧ q.sameLine r = true))) →
        ∃ u : State, exec .homeSliceRead s = .next u ∧
          u.reqs = dropAt k s.reqs ++ [{ r with phase := .toBase }] ∧ u.mem = s.mem ∧ u.lines = s.lines) ∧
      ((r.kind = .wr ∨ r.kind = .wrm ∨ r.kind = .atomwb ∨ (r.kind = .sqwr ∧ recTag r.data = 0)) →
        ∃ u : State, exec .homeSliceWrite s = .next u ∧
          u.reqs = dropAt k s.reqs ++ [{ r with phase := .toBase }] ∧ u.mem = s.mem ∧ u.lines = s.lines) ∧
      (r.kind = .sqwr → recTag r.data ≠ 0 →
        (tagBad (recTag r.data) = false → recResidue r.data = tagResidue (recTag r.data) →
          ∃ u : State, exec .homeSliceWrite s = .next u ∧ u.mem = s.mem ∧ u.lines = s.lines ∧ u.records = s.records ∧
            u.reqs = dropAt k s.reqs ++ [{ r with phase := .toBase, data := recSetTag r.data (tagSetHop (recTag r.data) 0) }]) ∧
        (tagBad (recTag r.data) = true ∨ recResidue r.data ≠ tagResidue (recTag r.data) →
          ∃ u : State, exec .homeSliceWrite s = .next u ∧ u.mem = s.mem ∧ u.lines = s.lines ∧
            (∀ j, j ≠ k → u.reqs[j]? = s.reqs[j]?) ∧ u.reqs[k]? = some { r with phase := .toTile, refused := true }))) ∧
    (s.sliceMay r = false → exec .homeSliceRead s = .next s ∧ exec .homeSliceWrite s = .next s) ∧
    (s.replyMay k r = true → r.kind ≠ .pdelta → (∀ n, r.handle ≠ .walker n) → ∃ u : State, exec .baseDieReply s = .next u ∧
      (s.eccBad = [] → s.channels = [] → u.mem = s.mem) ∧ (r.kind ≠ .rd → r.kind ≠ .walk → u.mem = s.mem) ∧
      ((r.kind = .rd ∨ r.kind = .walk) → r.status = .ok → s.eccBad = [] → s.eccSoft = [] → s.channels = [] → s.poison = [] →
        s.rangeStale r.key (r.pa / 64 * 64) 64 = false → ∃ l ∈ u.lines, l.pa = r.pa / 64 * 64 ∧ l.key = r.key ∧
          l.data = (List.range 64).map fun i => s.mem.read (r.pa / 64 * 64 + i)) ∧
      (r.handle = .none → u.reqs = dropAt k s.reqs) ∧
      (r.handle ≠ .none → (∀ j, j ≠ k → u.reqs[j]? = s.reqs[j]?) ∧ ∃ q, u.reqs[k]? = some q ∧ q.phase = .toTile ∧ q.status = r.status ∧
        q.handle = r.handle ∧ (r.kind ≠ .sqrd → q.data = r.data)) ∧
      ((r.kind = .rd ∨ r.kind = .walk) → r.status ≠ .ok → r.status ≠ .rebuiltOk → ∀ l ∈ u.lines, l.pa ≠ r.pa / 64 * 64)) ∧
    (s.replyMay k r = false → exec .baseDieReply s = .next s)

/-- 03 R65, R68, R72, R76, R80-R83: what a base die does with the oldest request at its granules. One whose paddock does not own
the channel is refused with OWNERR, one under an empty key slot with KEYERR, a square kind that breaks R82 with OWNERR, and
memory stays as it is. A read of sound memory is answered with its bytes, a poisoned one with POISON and no data. A write stores
its enabled bytes and no others and waits for its parity delta; a square write stores the version it found plus 1. A delta of whole
granules exclusive-ors the parity granules of their stripes, that of a paddock which does not own the channel nothing and is answered with
OWNERR; its acknowledgement releases the write, which then answers OWNERR too (that it does is the model's choice, log 57). -/
def Obligations.BaseDieRequests : Prop :=
  ∀ (s : State) (k : Nat) (r : MemReq) (e : Instr) (rd sq : Bool), s.input.k = k → s.reqs[k]? = some r → s.mem.wf = true →
    ((e = .rd ∧ r.kind = .rd ∧ rd = true ∧ sq = false) ∨ (e = .walk ∧ r.kind = .walk ∧ rd = true ∧ sq = false) ∨
      (e = .sqrd ∧ r.kind = .sqrd ∧ rd = true ∧ sq = true) ∨ (e = .wr ∧ r.kind = .wr ∧ rd = false ∧ sq = false) ∨
      (e = .wrm ∧ r.kind = .wrm ∧ rd = false ∧ sq = false) ∨ (e = .atomwb ∧ r.kind = .atomwb ∧ rd = false ∧ sq = false) ∨
      (e = .sqwr ∧ r.kind = .sqwr ∧ rd = false ∧ sq = true) →
      (s.baseMay k r = false → exec e s = .next s) ∧
      (s.baseMay k r = true →
        (∀ st : Status, (sq = true ∧ squarePlaceOk r.pa r.len = false ∧ st = .ownErr) ∨
            ((sq = true → squarePlaceOk r.pa r.len = true) ∧ s.askCheck r.asker r.pa = st ∧ st ≠ .ok) →
          ∃ (u : State) (q : MemReq), exec e s = .next u ∧ u.reqs[k]? = some q ∧ q.phase = .fromBase ∧ q.status = st ∧ u.mem = s.mem) ∧
        ((sq = true → squarePlaceOk r.pa r.len = true) → s.askCheck r.asker r.pa = .ok → s.eccBad = [] → s.eccSoft = [] → s.channels = [] →
          (rd = true → (∃ g ∈ granulesOf r.pa r.len, g ∈ s.poison) →
            ∃ (u : State) (q : MemReq), exec e s = .next u ∧ u.reqs[k]? = some q ∧ q.phase = .fromBase ∧ q.status = .poison ∧ q.data = [] ∧
              u.mem = s.mem) ∧
          (s.poison = [] → s.rangeStale r.key r.pa r.len = false →
            (rd = true → ∃ (u : State) (q : MemReq), exec e s = .next u ∧ u.reqs[k]? = some q ∧ q.phase = .fromBase ∧ q.status = .ok ∧
              q.data = ((List.range r.len).map fun i => s.mem.read (r.pa + i)) ∧ u.mem = s.mem) ∧
            (rd = false → r.data.length = r.len → (sq = true → 64 ≤ r.len) → ∃ (u : State) (q p : MemReq), exec e s = .next u ∧
              u.reqs[k]? = some q ∧ q.phase = .parity ∧ q.status = .ok ∧
              u.reqs.getLast? = some p ∧ p.kind = .pdelta ∧ p.handle = .delta r.serial ∧
              (sq = false → ∀ i, i < r.len → u.mem.read (r.pa + i) = if r.enabled i then r.data.getD i 0 else s.mem.read (r.pa + i)) ∧
              (sq = true → (∀ i, i < r.len → i ≠ 4 → i ≠ 5 → u.mem.read (r.pa + i) = r.data.getD i 0) ∧
                u.mem.readLe (r.pa + 4) 2 = (s.mem.readLe (r.pa + 4) 2 + 1) % 2 ^ 16) ∧
              ∀ a, a < r.pa ∨ r.pa + r.len ≤ a → u.mem.read a = s.mem.read a))))) ∧
    (r.kind = .pdelta → r.phase = .toBase →
      (s.ownerOk r.asker r.pa = false → ∃ (u : State) (q : MemReq), exec .pdelta s = .next u ∧ u.reqs[k]? = some q ∧ q.phase = .fromBase ∧
        q.status = .ownErr ∧ u.mem = s.mem ∧ u.parity = s.parity) ∧
      (s.ownerOk r.asker r.pa = true → s.channels = [] → s.parityBad = [] → s.paritySoft = [] → s.parity.wf = true → r.pa % 32 = 0 →
        r.data.length % 32 = 0 → r.data.length ≤ 4096 →
        ∃ (u : State) (q : MemReq), exec .pdelta s = .next u ∧ u.reqs[k]? = some q ∧ q.phase = .fromBase ∧ q.status = .ok ∧ u.mem = s.mem ∧
          (∀ i, i < r.data.length → u.parity.read (parityAddr (mainMap (r.pa + i))) =
            s.parity.read (parityAddr (mainMap (r.pa + i))) ^^^ r.data.getD i 0) ∧
          ∀ a, (∀ i, i < r.data.length → a ≠ parityAddr (mainMap (r.pa + i))) → u.parity.read a = s.parity.read a)) ∧
    (∀ n, r.kind = .pdelta → r.phase = .fromBase → r.handle = .delta n → ∃ u : State, exec .parityAck s = .next u ∧
      u.reqs.length + 1 = s.reqs.length ∧ (∀ q ∈ u.reqs, q.serial = n → q.phase ≠ .parity) ∧ u.mem = s.mem ∧
      ∀ q ∈ dropAt k s.reqs, q.serial = n → q.phase = .parity →
        { q with phase := .fromBase, status := if r.status = .ownErr then .ownErr else q.status } ∈ u.reqs)

/-- 03 R69-R74: a scrub meets the errors of one data granule behind the requests to it: it corrects one that the code can, repairs
an uncorrectable one where the 15 survivors of its stripe can be read, and poisons it otherwise, each with its event. The first
stack that fails at a channel index makes that channel DEGRADED; a second makes it and those that were DEGRADED LOST. An event becomes a
record in the fault queue of the paddock that owns its channel. Memory keeps its bytes, but for a granule whose survivors give others. The
model's choice: each stack that becomes LOST has a record of its own, the one that was DEGRADED too (log 55); the earlier correctable
events of a channel are folded into one record, and one goes out a second after the last (log 57). -/
def Obligations.MemoryUpkeep : Prop :=
  ∀ (s : State) (k j : Nat) (e : MemEvent) (p : BitVec 5), s.input.k = k → s.input.j = j →
    (j ≠ 1 → (∀ r ∈ s.reqs, r.taken = true → k ∉ granulesOf r.pa r.len) →
      s.chanState (mainMap (k * 32)).stack (mainMap (k * 32)).ch = .healthy →
      (k ∉ s.eccBad → k ∈ s.eccSoft → ∃ (u : State) (v : MemEvent), exec .scrub s = .next u ∧ u.mem = s.mem ∧ k ∉ u.eccSoft ∧
        u.memEvents = s.memEvents ++ [v] ∧ v.kind = 1 ∧ v.scrub = true ∧ u.poison = s.poison) ∧
      (k ∈ s.eccBad → s.canRebuild k = true → ∃ (u : State) (v : MemEvent) (l : List MemEvent), exec .scrub s = .next u ∧
        u.mem = (s.rebuild k).mem ∧ (s.survivors k = s.cipher k → u.mem = s.mem) ∧
        k ∉ u.eccBad ∧ u.memEvents = s.memEvents ++ v :: l ∧ v.kind = 2 ∧ v.scrub = true ∧ u.poison = s.poison ∧
        ((∀ c ∈ s.channels, c.rebuilds.length < 15) → l = [])) ∧
      (k ∈ s.eccBad → s.canRebuild k = false → ∃ (u : State) (v : MemEvent), exec .scrub s = .next u ∧ u.mem = s.mem ∧
        k ∉ u.eccBad ∧ k ∈ u.poison ∧ u.memEvents = s.memEvents ++ [v] ∧ v.kind = 3 ∧ v.scrub = true)) ∧
    (j ≠ 1 → (∃ r ∈ s.reqs, r.taken = true ∧ k ∈ granulesOf r.pa r.len) → exec .scrub s = .next s) ∧
    (k < 16 → j < 32 → s.chanState k j = .healthy → ∃ (u : State) (v : MemEvent) (l : List MemEvent),
      exec .channelStateChange s = .next u ∧ u.mem = s.mem ∧ (∀ st ch, ch ≠ j → u.chanState st ch = s.chanState st ch) ∧
      u.memEvents = s.memEvents ++ v :: l ∧
      (s.otherFailed k j = false → u.chanState k j = .degraded ∧ v.kind = 4 ∧ l = []) ∧
      (s.otherFailed k j = true → u.chanState k j = .lost ∧ v.kind = 5 ∧ (∀ x ∈ l, x.kind = 5) ∧
        ∀ st, s.chanState st j = .degraded → u.chanState st j = .lost)) ∧
    (16 ≤ k ∨ 32 ≤ j ∨ s.chanState k j ≠ .healthy → exec .channelStateChange s = .next s) ∧
    (s.memEvents[k]? = some e →
      (e.kind ≠ 1 → ∃ u : State, exec .memoryEventForward s = .next u ∧ u.mem = s.mem ∧ u.memEvents = dropAt k s.memEvents ∧
        ((s.chanOwner.find? fun x => x.1 == e.ch) = some (e.ch, p) →
          u.records = s.records ++ [{ paddock := p, queue := .fault, bytes := e.bytes e.count, holds := none }])) ∧
      (e.kind = 1 → (∃ x, s.corrAt e = some x ∧ s.tb.toNat < x + 10 ^ 9) → exec .memoryEventForward s = .next s) ∧
      (e.kind = 1 → (∀ x, s.corrAt e = some x → x + 10 ^ 9 ≤ s.tb.toNat) →
        ∃ (u : State) (n : Nat), exec .memoryEventForward s = .next u ∧ u.mem = s.mem ∧ u.corrAt e = some s.tb.toNat ∧
          u.memEvents = (dropAt k s.memEvents).filter (fun x => !(x.kind == 1 && x.stack == e.stack && x.ch == e.ch)) ∧
          n + u.memEvents.length + 1 = s.memEvents.length ∧
          ((s.chanOwner.find? fun x => x.1 == e.ch) = some (e.ch, p) →
            u.records = s.records ++ [{ paddock := p, queue := .fault, bytes := e.bytes (e.count + n), holds := none }])))

/-- 04 R99-R102: a walker joins a waiting agent to the open event of its entry, or opens one within the die's quota, under an id
that no open event of the die has, and posts its pager item; with the quota full the agent goes on waiting. An event whose posting
is 2^30 ns old closes as FAIL_PROT: the strand that waits on it alone takes PROT at its word. PAGE_RESUME with RETRY closes the
event and every strand that waited executes its word again. The model's choice: TIME and the 2^30 ns count from the opening, and a resume
takes effect at whatever tile it arrives (log 36); the quota is 32 for each channel index of the paddock (log 31). -/
def Obligations.PageEvents : Prop :=
  ∀ (s : State) (k : Nat) (w : PageWait) (e : PageEvent) (st : StrandId) (m : Msg), s.input.k = k →
    (s.pageWaits[k]? = some w → w.event = none →
      ((s.pageEvents.find? fun x => x.die == dieOf w.tile && x.ptePa == w.ptePa && x.paddock == w.paddock) = some e →
        ∃ u : State, exec .pageEventOpen s = .next u ∧ u.pageEvents = s.pageEvents ∧ u.pageWaits[k]? = some { w with event := some e.id } ∧
          u.records = s.records) ∧
      ((s.pageEvents.find? fun x => x.die == dieOf w.tile && x.ptePa == w.ptePa && x.paddock == w.paddock) = none →
        ((s.pageEvents.filter fun x => x.die == dieOf w.tile && x.paddock == w.paddock).length < s.eventQuota w.paddock →
          s.pageEvents.length < 2 ^ 16 →
          ∃ (u : State) (id : BitVec 16), exec .pageEventOpen s = .next u ∧ (∀ x ∈ s.pageEvents, x.die = dieOf w.tile → x.id ≠ id) ∧
            u.pageWaits[k]? = some { w with event := some id } ∧
            u.pageEvents = s.pageEvents ++
              [{ die := dieOf w.tile, id := id, paddock := w.paddock, ptePa := w.ptePa, postedAt := s.tb.toNat }] ∧
            u.records = s.records ++
              [{ paddock := w.paddock, queue := .pager, bytes := pageItem w id (s.gid w.tile) s.tb.toNat, holds := none }]) ∧
        (s.eventQuota w.paddock ≤ (s.pageEvents.filter fun x => x.die == dieOf w.tile && x.paddock == w.paddock).length →
          exec .pageEventOpen s = .next s))) ∧
    (s.pageEvents[k]? = some e →
      (s.tb.toNat < e.postedAt + 2 ^ 30 → exec .pageEventTimeout s = .next s) ∧
      (e.postedAt + 2 ^ 30 ≤ s.tb.toNat → s.pageWaits = [w] → dieOf w.tile = e.die → w.event = some e.id → w.agent = .mrq st →
        exec .pageEventTimeout s = .next (State.trapStrand
          { s with pageEvents := s.pageEvents.filter (fun x => !(x.die == e.die && x.id == e.id)), pageWaits := [] }
          w.tile st { cause := .prot, addr := w.va }
          ((s.getTile w.tile).strand st).unit ((s.getTile w.tile).strand st).pc))) ∧
    (s.builtin 12 = some m → e ∈ s.pageEvents → (∀ x ∈ s.pageEvents, x.die = e.die → x.id = e.id → x = e) →
      m.dw 0 = BitVec.ofNat 64 (e.id.toNat + e.die * 2 ^ 16) → e.die < 8 → s.pageWaits = [w] → dieOf w.tile = e.die →
      w.event = some e.id → (w.agent = .fetch st ∨ w.agent = .mrq st ∨ w.agent = .atomic st ∨ w.agent = .joined st) →
      ∃ u : State, exec .pageResume s = .next u ∧ e ∉ u.pageEvents ∧ u.pageWaits = [] ∧
        ((u.getTile w.tile).strand st).wait = none ∧ ((u.getTile w.tile).strand st).pc = ((s.getTile w.tile).strand st).unit ∧
        u.mem = s.mem)

/-! ### Atomics, futures, barriers (12 R270-R281, 13 R282-R296) -/

/-- 13 R284, R285: a global atomic translates its address for reading and for writing, waits for its release fence and for its
lane, takes the lane's next identifier and sends one request with its operands cut to its width. With a destination or aq the
strand waits for the reply at its word, otherwise it goes on. A misaligned address and a translation that fails are raised. No
register, flag, special register or byte of memory changes at issue. -/
def Obligations.GlobalAtomicIssue : Prop :=
  ∀ (s s1 s2 : State) (i : Instr) (op n : Nat) (w aq rl : BitVec 1) (sc : BitVec 3) (d a b : SReg) (pa0 pa : Nat)
      (key0 key : BitVec 13),
    ((i = .amoAdd w aq rl sc d a b ∧ op = 0) ∨
      (i = .amoAnd w aq rl sc d a b ∧ op = 1) ∨
      (i = .amoOr w aq rl sc d a b ∧ op = 2) ∨
      (i = .amoXor w aq rl sc d a b ∧ op = 3) ∨
      (i = .amoSwap w aq rl sc d a b ∧ op = 4) ∨
      (i = .amoMin w aq rl sc d a b ∧ op = 5) ∨
      (i = .amoMax w aq rl sc d a b ∧ op = 6) ∨
      (i = .amoMinn w aq rl sc d a b ∧ op = 7) ∨
      (i = .amoMaxn w aq rl sc d a b ∧ op = 8) ∨
      (i = .amoCas w aq rl sc d a b ∧ op = 9) ∨
      (i = .amoFadd w aq rl sc d a b ∧ op = 10)) →
    Issues i s → (n = if w = 1 then 8 else 4) →
    ((s.reg a).toNat % n ≠ 0 → exec i s = .next (s.takeTrap { cause := .align, addr := s.reg a })) ∧
    (∀ c, s.translate s.tile.ltn s.xc s.tile.paddock (s.reg a) n 0 false = (.fault c, s1) →
      exec i s = .next (s1.takeTrap { cause := c, addr := s.reg a })) ∧
    (s.translate s.tile.ltn s.xc s.tile.paddock (s.reg a) n 0 false = (.ok pa0 key0, s1) →
      s1.translate s1.tile.ltn s1.xc s1.tile.paddock (s.reg a) n 1 false = (.ok pa key, s2) →
      (rl = 1 → s2.fenceWaits sc 3 = true →
        exec i s = .next (s2.onSt fun x => { x with wait := some (.retry .memory) })) ∧
      ((rl = 1 → s2.fenceWaits sc 3 = false) →
        (s.laneBusy s.tile.ltn (laneOf pa) = true →
          exec i s = .next ((s2.localFence sc (rl == 1) false).onSt fun x => { x with wait := some (.retry .memory) })) ∧
        (s.laneBusy s.tile.ltn (laneOf pa) = false → ∃ (u : State) (q : AtomicReq), exec i s = .next u ∧ u.atomics = s.atomics ++ [q] ∧
          q.op = .amo op (w == 1) ∧ q.pa = pa ∧ q.key = key ∧ q.tile = s.tile.ltn ∧ q.strand = s.cur ∧ q.d = d ∧
          q.x.toNat = (s.reg b).toNat % 2 ^ (8 * n) ∧ q.c.toNat = (s.reg d).toNat % 2 ^ (8 * n) ∧
          q.seq = s.tile.amoSeq[(laneOf pa).toNat]'((laneOf pa).isLt) ∧ q.aq = (aq == 1 && sc != 0) ∧
          u.tile.amoSeq[(laneOf pa).toNat]'((laneOf pa).isLt) = q.seq + 1 ∧ q.reply = none ∧ q.atSlice = false ∧
          (d ≠ 0 ∨ aq = 1 → u.st.wait = some (.reply (laneOf pa)) ∧ u.st.pc = s.st.pc ∧ q.hold = true) ∧
          (d = 0 → aq = 0 → u.st = s.st.retire ∧ q.hold = false) ∧
          (∀ r, u.reg r = s.reg r) ∧ SameVectors s u ∧ SameContexts s u ∧ SameSpecial s u ∧ SameBytes s u)))

/-- 12 R281, 13 R284, R285, R290: at its home slice a request is applied once, in its tile's issue order: the old value is kept with
its identifier, the new one is written back, and a repeated identifier is answered with the kept value and not applied again. A
reply that a strand awaits gives it the old value at its word; a failed one raises its cause there; then the triggers that are ready
fire (13 R292). A request without reply is sent again after 65,536 ns and completes as POISON after 2^22 ns; an identifier is forgotten
2^24 ns after its last use. The model's choice (log 66): a reply and the triggers that it makes ready are one step, a request that is
given up is gone, and it and an identifier go when the time comes or later. -/
def Obligations.AtomicsAtHome : Prop :=
  ∀ (s : State) (k : Nat) (a : AtomicReq), s.input.k = k → s.atomics[k]? = some a →
    (∀ e : IdEntry, a.reply = none → s.lineBusy a.pa = false → s.olderWaits (s.gid a.tile) (sliceOf a.pa) a.serial = false →
      s.idTable.find? (s.idKey a) = some e → e.seq = a.seq →
      ∃ (u : State) (q : AtomicReq), exec .atomicAtHomeSlice s = .next u ∧ u.atomics[k]? = some q ∧ q.reply = some (e.old, .ok, e.cause) ∧
        u.reqs = s.reqs ∧ u.mem = s.mem) ∧
    (∀ (bs : List Byte) (s1 : State) (o : Nat), a.reply = none → s.lineBusy a.pa = false →
      s.olderWaits (s.gid a.tile) (sliceOf a.pa) a.serial = false → s.idTable = [] →
      s.sliceRead (s.atomAsker a) a.pa a.bytes = (.ok, bs, s1) → o = ofLe bs →
      ∃ (u : State) (q : AtomicReq), exec .atomicAtHomeSlice s = .next u ∧ u.atomics[k]? = some q ∧ q.reply = some (BitVec.ofNat 64 o, .ok, (a.effect o).cause) ∧
        (∃ x, x ∈ u.idTable ∧ s.idKey a x = true ∧ x.seq = a.seq ∧ x.old = BitVec.ofNat 64 o) ∧
        ((a.effect o).new = none → u.reqs = s.reqs) ∧
        (∀ v, (a.effect o).new = some v → ∃ r : MemReq, u.reqs = s.reqs ++ [r] ∧ r.kind = .atomwb ∧ r.pa = a.pa ∧ r.len = a.bytes ∧
          r.data = leBytes a.bytes v) ∧
        (∀ p, (a.effect o).decrement = some p → ∃ j : JoinDec, u.joins = s.joins ++ [j] ∧ j.pa = p.2 ∧ j.fail = p.1) ∧ u.mem = s1.mem) ∧
    (∀ (n op : Nat) (wide : Bool) (o x c : BitVec n), a.op = .amo op wide → (n = if wide then 64 else 32) → op < 10 →
      a.x = x.zeroExtend 64 → a.c = c.zeroExtend 64 →
      (a.effect o.toNat).new = (atomicNew n op o x c).map BitVec.toNat ∧ (a.effect o.toNat).cause = .none) ∧
    (∀ (o : DW) (x : Strand), a.reply = some (o, .ok, .none) → a.tile = s.tile.ltn → a.trigger = false → a.hold = true →
      x = s.tile.strand a.strand → x.wait = some (.reply a.lane) → (∀ g ∈ s.tile.triggers, (s.tile.ctr g.ctr).done < g.n) →
      ∃ u : State, exec .globalAtomicReply s = .next u ∧ u.atomics = dropAt k s.atomics ∧ SameBytes s u ∧ SameVectors s u ∧
        (u.tile.strand a.strand).regs = (if a.d = 0 then x.regs else x.regs.set a.d.toNat o a.d.isLt) ∧
        (u.tile.strand a.strand).pc = x.retire.pc ∧ (u.tile.strand a.strand).wait = none ∧
        ((∀ op wide, a.op = .amo op wide → op < 10) → SameContexts s u)) ∧
    (∀ (o : DW) (st : Status) (c f : Cause), a.reply = some (o, st, c) → a.tile = s.tile.ltn → a.trigger = false → a.hold = true →
      (s.tile.strand a.strand).wait = some (.reply a.lane) → replyCause st c = some f →
      exec .globalAtomicReply s = .next (State.fireTriggers (State.trapStrand { s with atomics := dropAt k s.atomics }
        a.tile a.strand { cause := f, addr := a.va } a.unit a.word) s.tile.ltn 17)) ∧
    (s.input.j ≠ 0 ∨ a.lastSent + 65536 ≤ s.tb.toNat → ∃ u : State, exec .atomicReplay s = .next u ∧
      u.atomics[k]? = some { a with lastSent := s.tb.toNat, reply := none }) ∧
    (a.tile = s.tile.ltn → a.sentAt + 2 ^ 22 ≤ s.tb.toNat → a.trigger = false → a.hold = true →
      (s.tile.strand a.strand).wait = some (.reply a.lane) →
      exec .atomicGiveUp s = .next (State.fireTriggers (State.trapStrand { s with atomics := dropAt k s.atomics }
        a.tile a.strand { cause := .uncorr, addr := a.va } a.unit a.word) s.tile.ltn 17)) ∧
    (∀ e : IdEntry, s.idTable[k]? = some e → ∃ u : State, exec .atomicEntryExpiry s = .next u ∧ u.idTable =
      if e.lastUse + 2 ^ 24 ≤ s.tb.toNat then dropAt k s.idTable else s.idTable)

/-- 13 R282, R283, R286 and its frame: a local atomic reads its word and writes the new value in one step; sD takes the old value,
zero-extended; FADD rounds to nearest and ORs its flags, the others set none; only the word and sD change. -/
def Obligations.LocalAtomics : Prop :=
  ∀ (s : State) (i : Instr) (op n : Nat) (w aq rl : BitVec 1) (sc : BitVec 3) (d a b : SReg) (va : DW) (o x c : BitVec n),
    ((i = .lamoAdd w aq rl sc d a b ∧ op = 0) ∨
      (i = .lamoAnd w aq rl sc d a b ∧ op = 1) ∨
      (i = .lamoOr w aq rl sc d a b ∧ op = 2) ∨
      (i = .lamoXor w aq rl sc d a b ∧ op = 3) ∨
      (i = .lamoSwap w aq rl sc d a b ∧ op = 4) ∨
      (i = .lamoMin w aq rl sc d a b ∧ op = 5) ∨
      (i = .lamoMax w aq rl sc d a b ∧ op = 6) ∨
      (i = .lamoMinn w aq rl sc d a b ∧ op = 7) ∨
      (i = .lamoMaxn w aq rl sc d a b ∧ op = 8) ∨
      (i = .lamoCas w aq rl sc d a b ∧ op = 9) ∨
      (i = .lamoFadd w aq rl sc d a b ∧ op = 10)) →
    Issues i s → (n = if w = 1 then 64 else 32) → va = s.reg a → o = BitVec.ofNat n (s.tile.spad.readLe va.toNat (n / 8)) →
    x = (s.reg b).setWidth n → c = (s.reg d).setWidth n →
    (¬ LocalOk s va (n / 8) false → exec i s = .next (s.takeTrap { cause := localCause va (n / 8), addr := va })) ∧
    (LocalOk s va (n / 8) false → ¬ LocalOk s va (n / 8) true →
      exec i s = .next (s.takeTrap { cause := localCause va (n / 8), addr := va })) ∧
    (LocalOk s va (n / 8) false → LocalOk s va (n / 8) true →
      (rl = 1 → s.fenceWaits (if sc = 0 then 0 else 1) 3 = true →
        exec i s = .next (s.onSt fun x => { x with wait := some (.retry .memory) })) ∧
      ((rl = 1 → s.fenceWaits (if sc = 0 then 0 else 1) 3 = false) →
        (¬ Readable s va.toNat (n / 8) →
          exec i s = .next (s.takeTrap { cause := .uncorr, addr := va, localSrc := true })) ∧
        (Readable s va.toNat (n / 8) → s.tile.spad.wf = true → ∃ u : State, exec i s = .next u ∧
          (∀ r, u.reg r = if r = d ∧ d ≠ 0 then o.zeroExtend 64 else s.reg r) ∧
          (op < 10 → SameContexts s u ∧ u.tile.spad.readLe va.toNat (n / 8) = ((atomicNew n op o x c).getD o).toNat) ∧
          (op = 10 → ∃ (g : Fmt) (r : Nat × Flags), g = (if w = 1 then fp64 else fp32) ∧
            r = fAdd g .near (decodeFmt g o.toNat) (decodeFmt g x.toNat) ∧ OnlyFlags r.2 s u ∧
            u.tile.spad.readLe va.toNat (n / 8) = r.1 % 2 ^ n) ∧
          (∀ e, e < va.toNat ∨ va.toNat + n / 8 ≤ e → u.tile.spad.read e = s.tile.spad.read e) ∧
          SameVectors s u ∧ SameSpecial s u ∧ (∀ e, u.mem.read e = s.mem.read e) ∧ ∀ e, u.tile.acc.read e = s.tile.acc.read e)))

/-- 13 R287-R290, R292: `fut.res`, `fut.reg` and `fut.rst` send their request and wait for its reply; what the slice does with the
future word by its state. A decrement takes one from a join's count, and the last one sets DONE, with a record where the join's
endpoint takes no item; a join that is over leaves a record. `fut.on` keeps an entry until its counter reaches n, and fires it at
once if it has. A future that is not 8-byte aligned and a join that is not 16-byte aligned raise ALIGN; `fut.res` raises PROT for a value
with a bit of [63:33] set. -/
def Obligations.FuturesAndJoins : Prop :=
  ∀ (s s1 s2 : State) (d a b : SReg) (c : CReg) (i : Instr) (op : AtomOp) (pa0 pa : Nat) (key0 key : BitVec 13),
    ((i = .futRes d a b ∨ i = .futReg d a b ∨ i = .futRst d a ∨ i = .futOn a b c) → Issues i s → (s.reg a).toNat % 8 ≠ 0 →
      exec i s = .next (s.takeTrap { cause := .align, addr := s.reg a })) ∧
    (Issues (.futReg d a b) s → (s.reg a).toNat % 8 = 0 → (s.reg b).toNat % 16 ≠ 0 →
      exec (.futReg d a b) s = .next (s.takeTrap { cause := .align, addr := s.reg b })) ∧
    (Issues (.futRes d a b) s → s.translate s.tile.ltn s.xc s.tile.paddock (s.reg a) 8 0 false = (.ok pa0 key0, s1) →
      s1.translate s1.tile.ltn s1.xc s1.tile.paddock (s.reg a) 8 1 false = (.ok pa key, s2) → 2 ^ 33 ≤ (s.reg b).toNat →
      (s.reg a).toNat % 8 = 0 → exec (.futRes d a b) s = .next (s2.takeTrap (raise .prot))) ∧
    ((i = .futRes d a b ∧ op = .futRes ((s.reg b).setWidth 32) ((s.reg b).getLsbD 32) ∧ (s.reg b).toNat < 2 ^ 33 ∧
        s2.fenceWaits 3 3 = false) ∨ (i = .futRst d a ∧ op = .futRst) →
      Issues i s → s.translate s.tile.ltn s.xc s.tile.paddock (s.reg a) 8 0 false = (.ok pa0 key0, s1) →
      s1.translate s1.tile.ltn s1.xc s1.tile.paddock (s.reg a) 8 1 false = (.ok pa key, s2) →
      s.laneBusy s.tile.ltn (laneOf pa) = false →
      ∃ (u : State) (q : AtomicReq), exec i s = .next u ∧ u.atomics = s.atomics ++ [q] ∧ q.op = op ∧ q.pa = pa ∧ q.key = key ∧ q.d = d ∧ q.hold = true ∧
        u.st.wait = some (.reply (laneOf pa)) ∧ u.st.pc = s.st.pc ∧ (∀ r, u.reg r = s.reg r) ∧ SameBytes s u) ∧
    (∀ (s3 s4 : State) (j0 j : Nat) (k0 k1 : BitVec 13), Issues (.futReg d a b) s →
      s.translate s.tile.ltn s.xc s.tile.paddock (s.reg a) 8 0 false = (.ok pa0 key0, s1) →
      s1.translate s1.tile.ltn s1.xc s1.tile.paddock (s.reg a) 8 1 false = (.ok pa key, s2) →
      s2.translate s2.tile.ltn s2.xc s2.tile.paddock (s.reg b) 16 0 false = (.ok j0 k0, s3) →
      s3.translate s3.tile.ltn s3.xc s3.tile.paddock (s.reg b) 16 1 false = (.ok j k1, s4) →
      s.laneBusy s.tile.ltn (laneOf pa) = false →
      ∃ (u : State) (q : AtomicReq), exec (.futReg d a b) s = .next u ∧ u.atomics = s.atomics ++ [q] ∧ q.op = .futReg j ∧ q.pa = pa ∧ q.key = key ∧
        q.hold = true ∧ u.st.wait = some (.reply (laneOf pa)) ∧ SameBytes s u) ∧
    (∀ (q : AtomicReq) (o : Nat), o < 2 ^ 64 →
      (∀ v f, q.op = .futRes v f →
        (o % 4 = 0 → (q.effect o).new = some (2 + (if f then 4 else 0) + v.toNat * 2 ^ 32) ∧ (q.effect o).decrement = none ∧
          (q.effect o).cause = .none) ∧
        (o % 4 = 1 → (q.effect o).new = some (2 + (if f then 4 else 0) + v.toNat * 2 ^ 32) ∧
          (q.effect o).decrement = some (f, o / 256 % 2 ^ 48 * 16) ∧ (q.effect o).cause = .none) ∧
        (o % 4 = 2 → (q.effect o).new = none ∧ (q.effect o).cause = .futdbl) ∧
        (o % 4 = 3 → (q.effect o).new = none ∧ (q.effect o).cause = .qfault)) ∧
      (∀ j, q.op = .futReg j →
        (o % 4 = 0 → (q.effect o).new = some (1 + j / 16 % 2 ^ 48 * 2 ^ 8) ∧ (q.effect o).decrement = none ∧
          (q.effect o).cause = .none) ∧
        (o % 4 = 2 → (q.effect o).new = none ∧ (q.effect o).decrement = some (decide (o / 4 % 2 = 1), j) ∧
          (q.effect o).cause = .none) ∧
        (o % 4 = 1 ∨ o % 4 = 3 → (q.effect o).new = none ∧ (q.effect o).cause = .qfault)) ∧
      (q.op = .futRst →
        (o % 4 = 0 ∨ o % 4 = 2 → (q.effect o).new = some 0 ∧ (q.effect o).cause = .none) ∧
        (o % 4 = 1 ∨ o % 4 = 3 → (q.effect o).new = none ∧ (q.effect o).cause = .qfault))) ∧
    (Issues (.futOn a b c) s → s.translate s.tile.ltn s.xc s.tile.paddock (s.reg a) 8 0 false = (.ok pa0 key0, s1) →
      s1.translate s1.tile.ltn s1.xc s1.tile.paddock (s.reg a) 8 1 false = (.ok pa key, s2) →
      ((s.tile.ctr c).issue < (s.reg b).toNat → exec (.futOn a b c) s = .next (s2.takeTrap (raise .prot))) ∧
      ((s.reg b).toNat ≤ (s.tile.ctr c).issue → s.tile.triggers.length = 16 →
        exec (.futOn a b c) s = .next (s2.takeTrap (raise .qfault))) ∧
      ((s.reg b).toNat ≤ (s.tile.ctr c).issue → s.tile.triggers = [] →
        ((s.tile.ctr c).done < (s.reg b).toNat → ∃ u : State, exec (.futOn a b c) s = .next u ∧ u.atomics = s.atomics ∧
          u.tile.triggers = [{ ctr := c, n := (s.reg b).toNat, pa := pa, key := key }] ∧ (∀ r, u.reg r = s.reg r)) ∧
        ((s.reg b).toNat ≤ (s.tile.ctr c).done → s.laneBusy s.tile.ltn (laneOf pa) = false → (s.tile.ctr c).err.valid = false →
          ∃ (u : State) (q : AtomicReq), exec (.futOn a b c) s = .next u ∧ u.tile.triggers = [] ∧ u.atomics = s.atomics ++ [q] ∧ q.op = .futRes 0 false ∧
            q.pa = pa ∧ q.trigger = true ∧ (∀ r, u.reg r = s.reg r)))) ∧
    (∀ (k : Nat) (j : JoinDec) (d0 d1 : Nat) (t1 : State), s.input.k = k → s.joins[k]? = some j → s.lineBusy j.pa = false →
      s.idTable = [] → d0 < 2 ^ 64 → d1 < 2 ^ 64 →
      State.sliceRead { s with joins := dropAt k s.joins }
          { source := 2 ^ 22 + s.pkg.toNat * 2 ^ 10 + j.slice, paddock := j.paddock, l2 := false, key := j.key } j.pa 16 =
        (.ok, leBytes 8 d0 ++ leBytes 8 d1, t1) →
      (2 ≤ d0 % 2 ^ 16 → d0 / 2 ^ 16 % 2 = 0 → ∃ (u : State) (r : MemReq), exec .joinDecrement s = .next u ∧ u.joins = dropAt k s.joins ∧
        u.reqs = s.reqs ++ [r] ∧ r.kind = .atomwb ∧ r.pa = j.pa ∧ r.data = leBytes 8
          (d0 - 1 + if j.fail = true ∧ d0 / 2 ^ 17 % 2 = 0 then 2 ^ 17 else 0) ∧ u.records = s.records ∧ u.mem = t1.mem) ∧
      (d0 % 2 ^ 16 = 1 → d0 / 2 ^ 16 % 2 = 0 → s.joinTarget j.paddock (d1 % 2 ^ 22) (d1 / 2 ^ 22 % 16) = none →
        ∃ (u : State) (r : MemReq) (v : RecordWait), exec .joinDecrement s = .next u ∧ u.joins = dropAt k s.joins ∧
        u.reqs = s.reqs ++ [r] ∧ r.kind = .atomwb ∧ r.pa = j.pa ∧ r.data = leBytes 8
          (d0 - 1 + 2 ^ 16 + if j.fail = true ∧ d0 / 2 ^ 17 % 2 = 0 then 2 ^ 17 else 0) ∧ u.records = s.records ++ [v] ∧
        v.queue = .fault ∧ v.paddock = j.paddock ∧ u.mem = t1.mem) ∧
      (d0 % 2 ^ 16 = 0 ∨ d0 / 2 ^ 16 % 2 = 1 → ∃ (u : State) (r : RecordWait), exec .joinDecrement s = .next u ∧ u.joins = dropAt k s.joins ∧
        u.reqs = s.reqs ∧ u.records = s.records ++ [r] ∧ r.queue = .fault ∧ r.paddock = j.paddock ∧ r.bytes.head? = some 20))

/-- 13 R293-R297: the barrier instructions at the object that a register names: PROT outside the paddock's range. A request waits for room
in the queue of its die, goes to its object, and its strand waits for the reply, which it then takes; an arrival at an object that is not
configured raises QFAULT. At the object: an arrival answers the generation before it, and the last one opens the next phase, when every
wait that is pending for this one has its result. A wait answers 2 for a generation before the configuration, 1 when broken, 0 when the
phase is over, and is pending otherwise; a poll answers 3 then. A configuration, at L1, starts afresh with no token out. No other object
changes, and a request that the object has applied already is not applied again. Joining and leaving change the context's registrations,
and leaving withdraws its token; the timer breaks the barrier with a record. The model's choice: when a request is sent and applied, and
that a pending wait keeps the first result it has (log 25), and the layout of the timer's record (log 47). -/
def Obligations.Barriers : Prop :=
  (∀ (s : State) (d a b : SReg) (c : PaddockCfg) (obj : Nat) (x : Barrier) (g : BitVec 32) (own : Option BarReq), s.pcfg s.tile.paddock = some c →
    obj = c.barBase.toNat + (s.reg a).toNat → x = s.barrier obj → g = (s.reg b).setWidth 32 →
    (own = s.barReqs.find? fun r => r.of s.tile.ltn s.runRef) →
    ((4096 ≤ (s.reg a).toNat ∨ c.barCount.toNat ≤ (s.reg a).toNat) →
      (Issues (.barArr d a) s → exec (.barArr d a) s = .next (s.takeTrap (raise .prot))) ∧
      (Issues (.barWait d a b) s → exec (.barWait d a b) s = .next (s.takeTrap (raise .prot))) ∧
      (Issues (.barPoll d a b) s → exec (.barPoll d a b) s = .next (s.takeTrap (raise .prot))) ∧
      (Issues (.barJoin a) s → exec (.barJoin a) s = .next (s.takeTrap (raise .prot))) ∧
      (Issues (.barLeave a) s → exec (.barLeave a) s = .next (s.takeTrap (raise .prot))) ∧
      (Issues (.barCfg a b) s → s.st.lvl ≠ 0 → exec (.barCfg a b) s = .next (s.takeTrap (raise .prot)))) ∧
    ((s.reg a).toNat < 4096 → (s.reg a).toNat < c.barCount.toNat →
      (∀ (i : Instr) (op : BarOp),
        (i = .barArr d a ∧ op = .arr ∧ (own = none → s.fenceWaits 3 3 = false)) ∨ (i = .barWait d a b ∧ op = .wait g) ∨
          (i = .barPoll d a b ∧ op = .poll g) ∨
          (i = .barCfg a b ∧ op = .cfg ((s.reg b).extractLsb' 0 11) ((s.reg b).extractLsb' 11 24) ∧ s.st.lvl ≠ 0 ∧
            (s.reg b).toNat % 2 ^ 11 ≠ 0 ∧ (s.reg b).toNat % 2 ^ 11 ≤ 1024 ∧ (s.reg b).toNat < 2 ^ 35) →
        Issues i s →
        (own = none → s.barRoom (barDie obj) s.tile.paddock = true → ∃ (u : State) (r : BarReq), exec i s = .next u ∧
          u.barReqs = s.barReqs ++ [r] ∧ r.tile = s.tile.ltn ∧ r.strand = s.cur ∧ r.run = s.runRef.run ∧ r.paddock = s.tile.paddock ∧
          r.obj = obj ∧ r.op = op ∧ r.phase = .queued ∧ r.copy = false ∧ r.seq = (s.barId s.tile.ltn obj).sent ∧
          (u.barId s.tile.ltn obj).sent = r.seq + 1 ∧ u.st.wait = some (.retry .memory) ∧ u.st.pc = s.st.pc ∧ u.barriers = s.barriers ∧
          (∀ r, u.reg r = s.reg r) ∧ SameVectors s u ∧ SameContexts s u ∧ SameSpecial s u ∧ SameBytes s u) ∧
        ((own = none ∧ s.barRoom (barDie obj) s.tile.paddock = false) ∨ (∃ r, own = some r ∧ (r.phase = .queued ∨ r.phase = .pending)) →
          ∃ u : State, exec i s = .next u ∧ u.barReqs = s.barReqs ∧ u.st.wait = some (.retry .memory) ∧ u.st.pc = s.st.pc ∧
            u.barriers = s.barriers) ∧
        (∀ r v, own = some r → r.phase = .done (some v) →
          (i ≠ .barCfg a b → ScalarResult (exec i s) s d (BitVec.ofNat 64 v)) ∧
          ∃ u : State, exec i s = .next u ∧ (∀ q ∈ u.barReqs, q.of s.tile.ltn s.runRef = false) ∧ u.barriers = s.barriers ∧
            (i = .barCfg a b → (∀ r, u.reg r = s.reg r) ∧ SameVectors s u ∧ SameContexts s u ∧ SameSpecial s u ∧ SameBytes s u)) ∧
        (∀ r, own = some r → r.phase = .done none →
          ∃ u : State, exec i s = .next (u.takeTrap (raise .qfault)) ∧ u.st = s.st ∧ u.barriers = s.barriers ∧
            ∀ q ∈ u.barReqs, q.of s.tile.ltn s.runRef = false)) ∧
      ((s.barReqs.filter fun r => r.inQueue (barDie obj) && r.paddock == s.tile.paddock).length < 8 →
        s.barRoom (barDie obj) s.tile.paddock = true) ∧
      (Issues (.barArr d a) s → own = none → s.fenceWaits 3 3 = true →
        exec (.barArr d a) s = .next (s.onSt fun x => { x with wait := some (.retry .memory) })) ∧
      (Issues (.barJoin a) s →
        ((s.cx.barriers.any fun r => r.obj == obj) = true → exec (.barJoin a) s = .next s.retire) ∧
        ((s.cx.barriers.any fun r => r.obj == obj) = false → 2 ≤ s.cx.barriers.length →
          exec (.barJoin a) s = .next (s.takeTrap (raise .qfault))) ∧
        ((s.cx.barriers.any fun r => r.obj == obj) = false → s.cx.barriers.length < 2 → ∃ u : State, exec (.barJoin a) s = .next u ∧
          u.cx.barriers = s.cx.barriers ++ [{ obj := obj, token := false }] ∧ u.barriers = s.barriers ∧
          (∀ r, u.reg r = s.reg r) ∧ SameVectors s u ∧ SameSpecial s u ∧ SameBytes s u)) ∧
      (Issues (.barLeave a) s → ∃ u : State, exec (.barLeave a) s = .next u ∧
        u.cx.barriers = (s.cx.barriers.filter fun r => r.obj != obj) ∧
        ((∃ r ∈ s.cx.barriers, r.obj = obj ∧ r.token = true) → (u.barrier obj).absent = if x.absent = 0 then 0 else x.absent - 1) ∧
        ((∀ r ∈ s.cx.barriers, r.obj = obj → r.token = false) → u.barrier obj = x) ∧
        (∀ o, o ≠ obj → u.barrier o = s.barrier o) ∧ (∀ r, u.reg r = s.reg r) ∧ SameVectors s u ∧ SameSpecial s u ∧ SameBytes s u) ∧
      (Issues (.barCfg a b) s →
        (s.st.lvl = 0 → exec (.barCfg a b) s = .next (s.takeTrap (raise .priv))) ∧
        (s.st.lvl ≠ 0 → ((s.reg b).toNat % 2 ^ 11 = 0 ∨ 1024 < (s.reg b).toNat % 2 ^ 11 ∨ 2 ^ 35 ≤ (s.reg b).toNat) →
          exec (.barCfg a b) s = .next (s.takeTrap (raise .prot))))) ∧
    (∀ r, s.input.k = obj → x.timer = some r → x.absent = 0 → x.broken = false → x.since + r ≤ s.tb.toNat →
      ∃ (u : State) (v : RecordWait), exec .barrierTimeout s = .next u ∧ (u.barrier obj).broken = true ∧ (u.barrier obj).timer = none ∧
        (u.barrier obj).gen = x.gen ∧ (∀ o, o ≠ obj → u.barrier o = s.barrier o) ∧ u.records = s.records ++ [v] ∧
        v.queue = .fault ∧ v.bytes.head? = some 21 ∧ SameBytes s u)) ∧
  (∀ (s u : State) (k : Nat) (r : BarReq) (x : Barrier), s.barReqs[k]? = some r → x = s.barrier r.obj → s.turn (.barrier k) = .next u →
    (r.phase ≠ .queued ∨ (∃ q ∈ s.barReqs.take k, q.phase = .queued ∧ q.tile = r.tile ∧ q.obj = r.obj) → u = s) ∧
    (r.phase = .queued → (∀ q ∈ s.barReqs.take k, q.phase = .queued → q.tile = r.tile → q.obj ≠ r.obj) →
      ((s.barId r.tile r.obj).applied = some r.seq → u = { s with barReqs := dropAt k s.barReqs }) ∧
      ((s.barId r.tile r.obj).applied ≠ some r.seq →
        (∀ o, o ≠ r.obj → u.barrier o = s.barrier o) ∧ (u.barId r.tile r.obj).applied = some r.seq ∧
        (∀ q ∈ u.barReqs, ∀ h, q.phase = .pending → q.obj = r.obj → q.op = .wait h → (u.barrier r.obj).result h = none) ∧
        ((s.getTile r.tile).live { strand := r.strand, run := r.run } = false → u.barReqs.length + 1 = s.barReqs.length) ∧
        ((s.getTile r.tile).live { strand := r.strand, run := r.run } = true → ∃ q, u.barReqs[k]? = some q ∧ q.op = r.op ∧ q.obj = r.obj ∧
          (r.op = .arr → q.phase = .done (if x.members = 0 then none else some x.gen.toNat)) ∧
          (∀ h, r.op = .wait h → q.phase = if (x.gen - x.cfgGen).toNat < (x.gen - h).toNat then .done (some 2) else
            if x.broken = true then .done (some 1) else if x.gen ≠ h then .done (some 0) else .pending) ∧
          (∀ h, r.op = .poll h → q.phase = .done (some (if (x.gen - x.cfgGen).toNat < (x.gen - h).toNat then 2 else
            if x.broken = true then 1 else if x.gen ≠ h then 0 else 3)))) ∧
        (r.op = .arr → (x.members = 0 ∨ x.broken = true → u.barrier r.obj = x) ∧
          (x.members ≠ 0 → x.broken = false → x.arrived.toNat + 1 = x.members.toNat →
            u.barrier r.obj = { x with gen := x.gen + 1, arrived := 0, timer := none }) ∧
          (x.members ≠ 0 → x.broken = false → x.arrived.toNat + 1 ≠ x.members.toNat → (u.barrier r.obj).gen = x.gen ∧
            (u.barrier r.obj).arrived = x.arrived + 1 ∧
            (x.arrived = 0 → x.timeout ≠ 0 → (u.barrier r.obj).timer = some (x.timeout.toNat * 1024)))) ∧
        (∀ h, r.op = .wait h ∨ r.op = .poll h → u.barrier r.obj = x) ∧
        (∀ m n, r.op = .cfg m n → u.barrier r.obj = { x with
            members := m, timeout := n, arrived := 0, absent := 0, broken := false, gen := x.gen + 1, cfgGen := x.gen + 1, timer := none } ∧
          ∀ l, ∀ c ∈ (u.getTile l).ctxs.toList, ∀ z ∈ c.barriers, z.obj = r.obj → z.token = false))))

/-- 12 R271, R272: a fence with an empty set completes at once; another one completes when no predecessor access waits, and makes
the strand wait until then. It changes nothing but what the strands of the tile see of each other's stores (R276, log 64): with W before it
what its strand has stored is ready for the other strand, and with R after it its strand sees what the other one has made ready.

02 R34, R37, R40, R41, R45, R46: a hint or an `ximm` joins the unit in progress and changes nothing else; a word that decodes to
nothing raises ILL at itself; a word that an `ximm` cannot extend raises ILL with SR_FVAL at the `ximm`, a second hint raises ILL,
and so does a word that its strand may not execute. -/
def Obligations.FencesHintsAndUnits : Prop :=
  (∀ (s : State) (sc : BitVec 3) (p q : BitVec 4), Issues (.fence sc p q) s →
     (p = 0 ∨ q = 0 → exec (.fence sc p q) s = .next s.retire) ∧
     (p ≠ 0 → q ≠ 0 → s.fenceWaits sc p = false →
       (sc = 0 ∨ s.tile.early = [] → exec (.fence sc p q) s = .next s.retire) ∧
       (∃ u : State, exec (.fence sc p q) s = .next u ∧ u.st = s.st.retire ∧ SameVectors s u ∧ SameContexts s u ∧ SameTileControl s u ∧
         SameBytes s u ∧ u.tile.ctrs = s.tile.ctrs ∧ u.reqs = s.reqs) ∧
       ∀ e : EarlyWord, sc ≠ 0 → s.tile.early = [e] →
         (e.strand = s.cur → q.getLsbD 1 = true → ∃ u : State, exec (.fence sc p q) s = .next u ∧
           u.tile.early = [{ e with view := e.ready.getD e.view, ready := none }]) ∧
         (e.strand ≠ s.cur → p.getLsbD 0 = true → ∃ u : State, exec (.fence sc p q) s = .next u ∧
           u.tile.early = [{ e with ready := some (s.tile.spad.readBytes (8 * e.word) 8) }])) ∧
     (p ≠ 0 → q ≠ 0 → s.fenceWaits sc p = true →
       exec (.fence sc p q) s = .next (s.onSt fun x => { x with wait := some (.retry .memory) })) ∧
     (s.fenceWaits 0 p = false) ∧
     (s.reqs = [] → s.atomics = [] → s.flight = [] → s.tile.sendQ = [] → s.tile.shSends = [] → s.packets = [] → s.slots = [] → s.farSheaves = [] →
       s.msgs = [] → s.fenceWaits sc p = false)) ∧
  (∀ (s : State) (i : Instr) (lk : BitVec 2) (a : SReg) (off : BitVec 16) (n : BitVec 4) (e : BitVec 26) (w : IWord),
     ((i = .hintNop ∨ i = .hintBr lk ∨ i = .hintPf a off ∨ i = .hintPg a off ∨ i = .hintBank n) → Issues i s →
       exec i s = .next (s.onSt fun x => { x with hint := some i, pc := x.pc + 4 })) ∧
     (Issues (.ximm e) s → exec (.ximm e) s = .next (s.onSt fun x => { x with ximm := some e, pc := x.pc + 4 })) ∧
     (Issues (.unassignedEncoding w) s → exec (.unassignedEncoding w) s = .next (s.takeTrap (raise .ill))) ∧
     (∀ d b : SReg, s.st.ximm = some e →
       exec (.add d a b) s = .next (s.takeTrap { cause := .ill, back := true }) ∧
       exec (.unassignedEncoding w) s = .next (s.takeTrap { cause := .ill, back := true })) ∧
     (s.st.ximm = none → s.st.hint = some i → exec .hintNop s = .next (s.takeTrap (raise .ill))) ∧
     (s.st.ximm = none → s.st.hint = none → s.cur = .handler → exec .yield s = .next (s.takeTrap (raise .ill))) ∧
     (s.st.ximm = none → s.st.hint = none → s.cur = .main → exec .amEnd s = .next (s.takeTrap (raise .ill))))

/-! ### The thresher and the wain (05 R112-R130, 09 R197-R218) -/

/-- 09 R197, R198, R203, R205, R207, R212, R214: a thresher command whose operands pass their checks takes the next number of its
counter and the next place in issue order, and holds the main strand at its word; restarted from a stop record it keeps the number, the
place and C0 of the record, and with SR_MSTEP.VALID = 1 it begins at that step; no register, flag or byte changes. The conditions are
the spec's checks for each form: formats and FEAT0, alignment, the operand's own bank and regions, the context's accumulators, and the
fields of the control register; a form that draws waits for a drawing one before it. `acc.zero` past a15 raises ILL, and an `mma` on a tile
outside the context's accumulators PROT. -/
def Obligations.ThresherIssue : Prop :=
  ∀ (s : State) (i : Instr) (c : CReg) (acc : AReg) (a b d : SReg) (f : BitVec 1) (n5 : BitVec 5) (tr z f64 : Bool) (n : Nat)
      (oa ob od : Operand) (room : Prop),
    Issues i s → oa = s.tile.operand (s.reg a).toNat →
    ob = s.tile.operand (s.reg b).toNat → od = s.tile.operand (s.reg d).toNat → f64 = decide (f = 1) →
    (room ↔ (f64 = true → acc.toNat % 2 = 0) ∧ acc.toNat + (if f64 then 2 * n else n) ≤ 16 ∧
      ∀ k, k < (if f64 then 2 * n else n) → s.cx.accMask.getLsbD (acc.toNat + k) = true) →
    (∀ (ctl : DW) (e : SReg), ((i = .mma acc a b e c ∧ tr = false ∧ z = false) ∨ (i = .mmaZ acc a b e c ∧ tr = false ∧ z = true) ∨
        (i = .mmaT acc a b e c ∧ tr = true ∧ z = false) ∨ (i = .mmaTZ acc a b e c ∧ tr = true ∧ z = true)) → ctl = s.reg e →
      (f64 = true ∧ oa.fmt = 6 ∧ ob.fmt = 6 ∧ s.tile.feat.getLsbD 1 = true ∨
        f64 = false ∧ 7 ≤ oa.fmt ∧ oa.fmt ≤ 14 ∧ 7 ≤ ob.fmt ∧ ob.fmt ≤ 14 ∧
          (oa.fmt = 14 ∨ ob.fmt = 14 → s.tile.feat.getLsbD 2 = true)) →
      n = ctl.toNat % 2 ^ 7 → 1 ≤ n → n ≤ 64 → ctl.toNat < 2 ^ 14 → ctl.toNat / 2 ^ 7 % 2 = 0 → ctl.toNat / 2 ^ 8 ≤ 53 →
      ((s.cx.accMask.getLsbD acc.toNat = false → (f64 = true → acc.toNat % 2 = 0) → exec i s = .next (s.takeTrap (raise .prot))) ∧
        ((f64 = true → acc.toNat % 2 = 0 ∧ s.cx.accMask.getLsbD (acc.toNat + 1) = true) → s.cx.accMask.getLsbD acc.toNat = true →
          oa.aligned = true → ob.aligned = true → oa.rangeOk s.tile s.st.lvl n false = true →
          ob.rangeOk s.tile s.st.lvl n false = true →
          ThrIssued (exec i s) s c (.mma tr) z f64 false acc.toNat n (s.reg a) (s.reg b) 0))) ∧
    (i = .accZero acc n5 c →
      (15 < acc.toNat + n5.toNat → exec i s = .next (s.takeTrap (raise .ill))) ∧
      (acc.toNat + n5.toNat ≤ 15 → (∀ k, k ≤ n5.toNat → s.cx.accMask.getLsbD (acc.toNat + k) = true) →
        ThrIssued (exec i s) s c .accZero false false false acc.toNat (n5.toNat + 1) 0 0 0)) ∧
    (((i = .accLd acc d c ∧ z = false) ∨ (i = .accSt d acc c ∧ z = true)) → s.cx.accMask.getLsbD acc.toNat = true →
      (s.reg d).toNat % 64 = 0 → (s.reg d).toNat < 2 ^ 20 → (s.reg d).toNat % 2 ^ 16 + 4096 ≤ 2 ^ 16 →
      s.tile.regionOk s.st.lvl (s.reg d).toNat 4096 z = true →
      ThrIssued (exec i s) s c (if z then .accSt else .accLd) false false false acc.toNat 1 (if z then 0 else s.reg d) 0
        (if z then s.reg d else 0)) ∧
    (∀ draws : Bool, i = .accCvt f d acc c → n = 1 → room → isSquareFmt od.fmt = false → od.aligned = true →
      od.rangeOk s.tile s.st.lvl 1 true = true →
      draws = (s.sto && (fmtOf od.fmt).isSome && od.fmt != (if f64 then 6 else 7)) → (draws = true → s.tile.thresher.any ThrCmd.sto = false) →
      ThrIssued (exec i s) s c .accCvt false f64 draws acc.toNat 1 0 0 (s.reg d)) ∧
    (i = .sqQuant f d acc a b c → (s.reg b).toNat = n → 1 ≤ n → n ≤ 16 → (s.reg a).toNat < 2 ^ 48 → room →
      (od.fmt = 13 ∨ od.fmt = 14 ∧ s.tile.feat.getLsbD 2 = true) → od.aligned = true → od.rangeOk s.tile s.st.lvl n true = true →
      (s.sto = true → s.tile.thresher.any ThrCmd.sto = false) →
      ThrIssued (exec i s) s c .quant false f64 s.sto acc.toNat n 0 0 (s.reg d)) ∧
    (i = .sqDeq f acc d b c → (s.reg b).toNat = n → 1 ≤ n → n ≤ 16 → room →
      (od.fmt = 13 ∨ od.fmt = 15 ∨ od.fmt = 14 ∧ s.tile.feat.getLsbD 2 = true) → od.aligned = true →
      od.rangeOk s.tile s.st.lvl n false = true →
      ThrIssued (exec i s) s c .deq false f64 false acc.toNat n (s.reg d) 0 0) ∧
    (∀ et : Nat, i = .sqAlign d a b c → (s.reg b).toNat = n + et * 2 ^ 8 → et < 2 ^ 8 → 1 ≤ n → n ≤ 16 → od.fmt = 15 →
      (oa.fmt = 13 ∨ oa.fmt = 15 ∨ oa.fmt = 14 ∧ s.tile.feat.getLsbD 2 = true) → od.aligned = true → oa.aligned = true →
      od.rangeOk s.tile s.st.lvl n true = true → oa.rangeOk s.tile s.st.lvl n false = true →
      ThrIssued (exec i s) s c .align false false false 0 n (s.reg a) 0 (s.reg d)) ∧
    (i = .sqScale d a b c → (s.reg b).toNat = n → 1 ≤ n → n ≤ 16 →
      (od.fmt = 13 ∨ od.fmt = 15 ∨ od.fmt = 14 ∧ s.tile.feat.getLsbD 2 = true) → od.aligned = true →
      od.rangeOk s.tile s.st.lvl n true = true →
      ThrIssued (exec i s) s c .scale false false false 0 n 0 0 (s.reg d))

/-- 09 R198, R199, R201, R202, R209, R213: the next step of the command that holds the strand. It waits for an earlier copy it
conflicts with; an operand with an uncorrectable word, or a tagged square whose residue is wrong, ends the activation with UNCORR
or SHEAF and the step's number; a step of `mma`, on plain operands or on squares, accumulates each element's 32 products onto the old
element; the raw moves and the zeroing move bytes; a step changes no byte elsewhere. After the last step the strand goes on. A completed command ORs its flags
and moves DONE; a stopped one leaves the strand waiting on the page event.

05 R125, R126, 09 R198, R201, 07 R165: the oldest thresher command whose operands are all read completes: its flags are ORed, and
the generator moves past the words it drew, while its run lives, and DONE passes its number. A mismatch in a tail becomes a cause
of the main strand's next issue boundary, with SR_EPC and SR_FVAL those of the command, and the command completes. The model's choice: a
step, and a completion, is one event (log 9); a command whose run is over changes neither flags nor generator (log 13). -/
def Obligations.ThresherStepsAndEnds : Prop :=
  (∀ (s : State) (k : Nat) (c : ThrCmd), s.tile.stepping = some (k, c) →
     (s.tile.stepConflicts c c.next ≠ [] → exec .thresherStep s = .next s) ∧
     (s.tile.stepConflicts c c.next = [] → s.input.j = 0 →
       (∀ r : Range, (c.reads s.tile c.next).find? (fun r => s.tile.rangesBad [r]) = some r →
         exec .thresherStep s = .next (s.trapStrand s.tile.ltn .main
           { cause := .uncorr, addr := BitVec.ofNat 64 r.lo, localSrc := true, step := some (BitVec.ofNat 16 c.next) } c.unit c.word)) ∧
       (∀ h e f a, c.step s.tile = .bad .sheaf h e f a → exec .thresherStep s = .next ((s.localRecord h e f a).trapStrand s.tile.ltn .main
         { cause := .sheaf, addr := BitVec.ofNat 64 a, step := some (BitVec.ofNat 16 c.next) } c.unit c.word)) ∧
       (s.tile.rangesBad (c.reads s.tile c.next) = false → s.tile.accBad = [] → s.tile.acc.wf = true → s.tile.spad.wf = true →
         (∀ (tr : Bool) (oa ob : Operand) (g : Fmt), c.op = .mma tr → oa = s.tile.operand c.addrA.toNat →
           ob = s.tile.operand c.addrB.toNat →
           (isSquareFmt oa.fmt && tagBroken oa.fmt (oa.header s.tile c.next) (oa.codes s.tile c.next)) = false →
           (isSquareFmt ob.fmt && tagBroken ob.fmt (ob.header s.tile c.next) (ob.codes s.tile c.next)) = false →
           g = (if c.f64 then fp64 else fp32) →
           ∃ u : State, exec .thresherStep s = .next u ∧
             (∀ p, p < 1024 → (u.tile.accCodes c.f64 c.acc).getD p 0 =
               (accumulateStep g (max (windowOf oa.fmt) (windowOf ob.fmt))
                 (if c.z && c.next == 0 then 0 else (s.tile.accCodes c.f64 c.acc).getD p 0)
                 ((List.range 32).map fun r =>
                   let ra := if tr then r else p / 32
                   let ca := if tr then p / 32 else r
                   exactMul
                     (operandValue oa.fmt (oa.header s.tile c.next) (bitsOf c.ctl.toNat 8 6) ra ca ((oa.codes s.tile c.next).getD (32 * ra + ca) 0))
                     (operandValue ob.fmt (ob.header s.tile c.next) (bitsOf c.ctl.toNat 8 6) r (p % 32) ((ob.codes s.tile c.next).getD (32 * r + p % 32) 0))
                 )).1 % 2 ^ (if c.f64 then 64 else 32)) ∧
             (∀ a, a < 4096 * c.acc ∨ 4096 * c.acc + (if c.f64 then 8192 else 4096) ≤ a → u.tile.acc.read a = s.tile.acc.read a) ∧
             u.tile.spad = s.tile.spad ∧ u.mem = s.mem) ∧
         (c.op = .accZero → ∃ u : State, exec .thresherStep s = .next u ∧ u.tile.spad = s.tile.spad ∧ u.mem = s.mem ∧ ∀ a, u.tile.acc.read a =
           if 4096 * (c.acc + c.next) ≤ a ∧ a < 4096 * (c.acc + c.next) + 4096 then 0 else s.tile.acc.read a) ∧
         (c.op = .accLd → ∃ u : State, exec .thresherStep s = .next u ∧ u.tile.spad = s.tile.spad ∧ u.mem = s.mem ∧ ∀ a, u.tile.acc.read a =
           if 4096 * c.acc ≤ a ∧ a < 4096 * c.acc + 4096 then s.tile.spad.read (c.addrA.toNat + (a - 4096 * c.acc))
           else s.tile.acc.read a) ∧
         (c.op = .accSt → ∃ u : State, exec .thresherStep s = .next u ∧ u.tile.acc = s.tile.acc ∧ u.mem = s.mem ∧ ∀ a, u.tile.spad.read a =
           if c.addrD.toNat ≤ a ∧ a < c.addrD.toNat + 4096 then s.tile.acc.read (4096 * c.acc + (a - c.addrD.toNat))
           else s.tile.spad.read a) ∧
         ((∀ r e f h a, c.step s.tile ≠ .bad r e f h a) → (∀ e f h a, c.step s.tile ≠ .slip e f h a) → ∃ u : State, exec .thresherStep s = .next u ∧
           (c.next + 1 < c.steps → u.tile.main.wait = s.tile.main.wait) ∧
           (c.next + 1 = c.steps → s.tile.main.wait = some .thresher →
             u.tile.main.wait = none ∧ u.tile.main.pc = s.tile.main.retire.pc)))) ∧
     (∀ (w : WainCmd) (ws : List WainCmd) (p : PageWait), s.tile.stepConflicts c c.next = w :: ws → s.copyEvent w = some p →
       ∃ u : State, exec .thresherStop s = .next u ∧ u.tile.thresher = dropAt k s.tile.thresher ∧
         u.tile.stop = some c ∧ u.tile.main.wait = some .page ∧
         u.tile.main.mstep = BitVec.ofNat 16 c.next ∧ u.tile.main.mstepValid = true ∧ u.tile.main.epc = c.unit ∧
         u.pageWaits = s.pageWaits ++ [{ p with agent := .joined .main }] ∧ SameBytes s u)) ∧
  (∀ (s : State) (c : ThrCmd) (rest : List ThrCmd), s.tile.thresher = c :: rest → s.tile.triggers = [] →
     (c.next < c.steps ∨ c.fault.isSome = true → exec .thresherCommandComplete s = .next s) ∧
     (c.next = c.steps → c.fault = none → ∃ u : State, exec .thresherCommandComplete s = .next u ∧
       u.tile.thresher = rest ∧
       (s.tile.live c.owner = true → ∀ x : Fin 4, u.tile.ctxs[x] =
         if x.val = c.ctx.toNat then { s.tile.ctxs[x] with flags := s.tile.ctxs[x].flags ||| c.flags } else s.tile.ctxs[x]) ∧
       (∀ v, c.c0 = some v → s.tile.live c.owner = true → u.tile.philoxC = (v.toNat + 256 * c.steps) % 2 ^ 128) ∧
       (c.c0 = none → u.tile.philoxC = s.tile.philoxC) ∧
       (s.tile.live c.owner = false → SameContexts s u ∧ u.tile.philoxC = s.tile.philoxC) ∧
       ((s.tile.ctr c.ctr).ahead = [] → c.num = (s.tile.ctr c.ctr).done + 1 → (u.tile.ctr c.ctr).done = c.num) ∧
       (∀ r, r ≠ c.ctr → u.tile.ctr r = s.tile.ctr r) ∧ SameBytes s u) ∧
     (∀ (f : Cause) (a : DW), c.fault = some (f, a) → s.tile.live c.owner = true → ∃ (u : State) (x : AsyncFault), exec .tailFault s = .next u ∧
       u.tile.thresher = rest ∧ u.tile.main.asyncFaults = s.tile.main.asyncFaults ++ [x] ∧ x.cause = f ∧ x.addr = a ∧ x.epc = c.unit ∧
       x.fval = c.word ∧ x.step = some (BitVec.ofNat 16 (c.steps - 1)) ∧
       ((s.tile.ctr c.ctr).ahead = [] → c.num = (s.tile.ctr c.ctr).done + 1 → (u.tile.ctr c.ctr).done = c.num) ∧ SameBytes s u))

/-- 09 R205, R213, R215-R218, 07 R154-R166, R169, R170, R172, 10 R222: what a step of `acc.cvt` and of the square commands writes, and
what it leaves. `acc.cvt` converts each element into the destination's format, with word k of the generator for element k where it draws.
`sq.quant` writes square i with its payload, scales, chunk and tensor, untagged. `sq.deq` writes accumulator i with each element's value.
`sq.align` writes an AIC32 record at the common exponent, the largest of ET and the sources' own: a tagged source gives its tag with the
new residue, hop 0. `sq.scale` adds to E alone, saturating. The step's flags join the command's; no byte elsewhere changes. The model's
choice: a step is one event (log 9). -/
def Obligations.SquareSteps : Prop :=
  ∀ (s : State) (k : Nat) (c : ThrCmd) (b m : Nat) (oa od : Operand), s.tile.stepping = some (k, c) → b = c.next →
    s.tile.stepConflicts c b = [] → s.input.j = 0 → s.tile.rangesBad (c.reads s.tile b) = false → s.tile.accBad = [] →
    s.tile.acc.wf = true → s.tile.spad.wf = true → oa = s.tile.operand c.addrA.toNat → od = s.tile.operand c.addrD.toNat →
    m = c.acc + (if c.f64 then 2 * b else b) →
    (∀ r : Nat → Nat × Flags, c.op = .accCvt → isSquareFmt od.fmt = false → Placed od 1 →
      (∀ p, r p = cvtOne (if c.f64 then 6 else 7) od.fmt .near (c.c0.map fun v => draw s.tile.phKey.toNat v.toNat p)
        ((s.tile.accCodes c.f64 c.acc).getD p 0)) →
      StepDone s k c ((List.range 1024).foldl (fun x p => x ||| (r p).2) 0) fun u _ =>
        (∀ p, p < 1024 → (od.codes u.tile 0).getD p 0 = (r p).1 % 2 ^ bankWidth od.fmt) ∧ OnlyBlock s u od 0) ∧
    (∀ (h : Nat) (codes : List Nat) (f : Flags), c.op = .quant → od.fmt = 13 ∨ od.fmt = 14 → Placed od c.steps →
      squareQuant od.fmt (fun i j => decodeFmt (if c.f64 then fp64 else fp32) ((s.tile.accCodes c.f64 m).getD (32 * i + j) 0))
        (c.c0.map fun v => fun p => draw s.tile.phKey.toNat v.toNat (1024 * b + p)) = (h, codes, f) →
      StepDone s k c f fun u _ =>
        (∀ p, p < 1024 → (od.codes u.tile b).getD p 0 = codes.getD p 0 % 2 ^ bankWidth od.fmt) ∧
        od.header u.tile b % 2 ^ 192 = h ∧ hChunk (od.header u.tile b) = (c.ctl.toNat + b) % 2 ^ 24 ∧
        hTensor (od.header u.tile b) = c.ctl.toNat / 2 ^ 24 % 2 ^ 24 ∧ od.header u.tile b / 2 ^ 240 = 0 ∧ OnlyBlock s u od b) ∧
    (∀ r : Nat → Nat × Flags, c.op = .deq → isSquareFmt oa.fmt = true → tagBroken oa.fmt (oa.header s.tile b) (oa.codes s.tile b) = false →
      (∀ p, r p = cvtFromVal (squareValue oa.fmt (oa.header s.tile b) (p / 32) (p % 32) ((oa.codes s.tile b).getD p 0))
        (if c.f64 then 6 else 7) .near) →
      StepDone s k c ((List.range 1024).foldl (fun x p => x ||| (r p).2) 0) fun u _ =>
        (∀ p, p < 1024 → (u.tile.accCodes c.f64 m).getD p 0 = (r p).1 % 2 ^ (if c.f64 then 64 else 32)) ∧ OnlyAcc s u c.f64 m) ∧
    (∀ (el e h : Nat) (f : Flags) (x : Nat → Int × Flags) (y : Nat → Int × Int), c.op = .align → isSquareFmt oa.fmt = true →
      od.fmt = 15 → od.plane = false → Placed od c.steps → h = oa.header s.tile b → (e, f) = naturalExp oa.fmt h →
      tagBroken oa.fmt h (oa.codes s.tile b) = false → (∀ h e f a, c.step s.tile ≠ .slip h e f a) → el < 2 ^ 8 →
      (c.el = some el ∨ c.el = none ∧ c.ctl.toNat / 2 ^ 8 % 2 ^ 8 ≤ el ∧
        (∀ i, i < c.steps → (naturalExp oa.fmt (oa.header s.tile i)).1 ≤ el) ∧
        (el = c.ctl.toNat / 2 ^ 8 % 2 ^ 8 ∨ ∃ i, i < c.steps ∧ (naturalExp oa.fmt (oa.header s.tile i)).1 = el)) →
      (∀ p, x p = if oa.fmt = 15 then (signed 32 ((oa.codes s.tile b).getD p 0), 0)
        else toAic (squareValue oa.fmt h (p / 32) (p % 32) ((oa.codes s.tile b).getD p 0)) e) →
      (∀ p, y p = alignAic (x p).1 (el - e)) →
      StepDone s k c ((List.range 1024).foldl (fun a p => a ||| ((x p).2 ||| if (y p).2 = 0 then 0 else flAicLoss)) f) fun u v =>
        v.el = some el ∧ (∀ p, p < 1024 → (od.codes u.tile b).getD p 0 = wrap 32 (y p).1) ∧
        od.header u.tile b % 2 ^ 256 = el + 15 * 2 ^ 16 + hChunk h * 2 ^ 192 + hTensor h * 2 ^ 216 ∧
        (hTag h = 0 → hTag (od.header u.tile b) = 0) ∧
        (∀ g : Nat, hTag h ≠ 0 → g = hTag (od.header u.tile b) →
          tagResidue g = residueOf 15 (od.header u.tile b) (od.codes u.tile b) ∧ tagRoute g = tagRoute (hTag h) ∧ tagHop g = 0 ∧
          tagGen g = tagGen (hTag h) ∧ tagBad g = tagBad (hTag h) ∧ tagPlain g = tagPlain (hTag h)) ∧ OnlyBlock s u od b) ∧
    (∀ (e : Int) (h : Nat), c.op = .scale → isSquareFmt od.fmt = true → Placed od c.steps → h = od.header s.tile b →
      e = (hE h : Int) + c.ctl.toInt →
      StepDone s k c (if e < 0 ∨ 255 < e then flScaleSat else 0) fun u _ =>
        (hE (od.header u.tile b) : Int) = (if e < 0 then 0 else if 255 < e then 255 else e) ∧
        od.header u.tile b / 2 ^ 8 = h / 2 ^ 8 ∧ u.tile.acc = s.tile.acc ∧
        ∀ a, a < od.headerAddr b ∨ od.headerAddr b + 64 ≤ a → u.tile.spad.read a = s.tile.spad.read a)

/-- 05 R113-R120, R123: a copy whose ends pass their checks takes the next number of its counter and the next place in issue order,
and the strand goes on; a copy of nothing passes the same checks and completes at once; with 64 commands in flight the strand waits.
Local ends lie in the scratchpad and in regions of the running level; two local ends of different formats convert element by element.
More than 2^24 bytes between global ends raise PROT. `cp.fill` is for L1 and takes a key of the paddock. -/
def Obligations.CopyIssue : Prop :=
  ∀ (s : State) (i : Instr) (dl sl : BitVec 1) (c : CReg) (d a b : SReg) (dst src : DW) (fs fd : Nat) (conv : Bool) (od os : Operand),
    Issues i s → dst = s.reg d → src = s.reg a → os = s.tile.operand src.toNat →
    od = s.tile.operand dst.toNat → fs = os.fmt → fd = od.fmt →
    conv = (dl == 1 && sl == 1 && fs != fd) →
    (∀ (rows len nd : Nat) (ds ss : Int),
      ((i = .cp dl sl c d a b ∧ rows = 1 ∧ len = (s.reg b).toNat ∧ ds = 0 ∧ ss = 0) ∨
        (i = .cp2 dl sl c d a b ∧ b ≠ 31 ∧ rows = (s.reg b).toNat / 2 ^ 32 ∧ len = (s.reg b).toNat % 2 ^ 32 ∧
          ds = ((s.reg (b + 1)).extractLsb' 32 32).toInt ∧ ss = ((s.reg (b + 1)).extractLsb' 0 32).toInt)) →
      (nd = if conv then (convertedBytes fs fd len).1 else len) →
      (2 ^ 24 < rows * len → dl = 0 → sl = 0 → exec i s = .next (s.takeTrap (raise .prot))) ∧
      (rows * len ≤ 2 ^ 24 →
        (sl = 1 → localRowsIn src ss rows len = true ∧ localRowsOk s.tile s.st.lvl src ss rows len false = true) →
        (dl = 1 → localRowsIn dst ds rows nd = true ∧ localRowsOk s.tile s.st.lvl dst ds rows nd true = true) →
        (conv = true → src.toNat % elemBytes fs = 0 ∧ len % elemBytes fs = 0 ∧ ss % elemBytes fs = 0 ∧
          dst.toNat % elemBytes fd = 0 ∧ ds % elemBytes fd = 0 ∧ os.plane = false ∧ od.plane = false ∧
          isSquareFmt fs = false ∧ isSquareFmt fd = false ∧ rowsInBank src ss rows len = true ∧ rowsInBank dst ds rows nd = true) →
        CopyTaken (exec i s) s c (rows * len) fun w => w.form = (if conv then .convert else .plain) ∧ w.dl = (dl == 1) ∧
          w.sl = (sl == 1) ∧ w.dst = dst ∧ w.src = src ∧ w.rows = rows ∧ w.rowLen = len ∧ w.dStride = ds ∧ w.sStride = ss ∧
          w.fmtSrc.toNat = fs ∧ w.fmtDst.toNat = fd ∧ w.reads = [rowsRange (s.space (sl == 1)) src ss rows len] ∧
          w.writes = [rowsRange (s.space (dl == 1)) dst ds rows nd])) ∧
    (i = .cpZ dl c d b → (s.reg b).toNat ≤ 2 ^ 24 →
      (dl = 1 → 0 < (s.reg b).toNat →
        dst.toNat + (s.reg b).toNat ≤ 2 ^ 20 ∧ s.tile.regionOk s.st.lvl dst.toNat (s.reg b).toNat true = true) →
      CopyTaken (exec i s) s c (s.reg b).toNat fun w =>
        w.form = .zero ∧ w.dl = (dl == 1) ∧ w.dst = dst ∧ w.rows = 1 ∧ w.rowLen = (s.reg b).toNat) ∧
    (i = .cpPf c a b →
      (2 ^ 24 < (s.reg b).toNat → exec i s = .next (s.takeTrap (raise .prot))) ∧
      ((s.reg b).toNat ≤ 2 ^ 24 → CopyTaken (exec i s) s c (s.reg b).toNat fun w =>
        w.form = .prefetch ∧ w.src = src ∧ w.rows = 1 ∧ w.rowLen = (s.reg b).toNat)) ∧
    (∀ (tr : Bool) (cnt : Nat) (fmt : Option Nat), ((i = .cpSq dl sl c d a b ∧ tr = false) ∨ (i = .cpSqt dl sl c d a b ∧ tr = true)) →
      cnt = (s.reg b).toNat → cnt ≤ 4096 → fmt = (if sl = 1 then some fs else if dl = 1 then some fd else none) →
      (∀ x, fmt = some x → (x = 13 ∨ x = 15 ∨ x = 14 ∧ s.tile.feat.getLsbD 2 = true)) → (sl = 1 → dl = 1 → fd = fs) →
      (∀ (near : BitVec 1) (o : Operand) (x : DW) (wr : Bool), ((near = sl ∧ o = os ∧ x = src ∧ wr = false) ∨
          (near = dl ∧ o = od ∧ x = dst ∧ wr = true)) →
        (near = 0 → x.toNat % 64 = 0 ∧ ∀ f, fmt = some f → f = 15 ∨ x.toNat % 4096 + recordBytes f ≤ 4096) ∧
        (near = 1 → (o.plane = true → x.toNat % 65536 % slotBytes o.fmt = 0) ∧
          (0 < cnt → (o.plane = true → o.slot 0 + cnt ≤ slotCount o.fmt) ∧
            x.toNat + (if o.plane then slotBytes o.fmt else recordBytes o.fmt) * cnt ≤ 2 ^ 20 ∧
            o.regionsOk s.tile s.st.lvl cnt wr = true))) →
      CopyTaken (exec i s) s c cnt fun w => w.form = .square tr ∧ w.dl = (dl == 1) ∧ w.sl = (sl == 1) ∧ w.dst = dst ∧ w.src = src ∧
        w.cnt = cnt ∧ w.fmt = fmt.map (BitVec.ofNat 4)) ∧
    (∀ (n : Nat) (key : BitVec 13), i = .cpFill c d a b →
      (s.st.lvl = 0 → exec i s = .next (s.takeTrap (raise .priv))) ∧
      (s.st.lvl ≠ 0 → (s.reg b).toNat = n + key.toNat * 2 ^ 16 → n < 2 ^ 16 → dst.toNat % 65536 = 0 → src.toNat % 64 = 0 →
        s.keyOk s.tile.paddock key = true →
        CopyTaken (exec i s) s c n fun w => w.form = .fill ∧ w.dst = dst ∧ w.src = src ∧ w.cnt = n ∧ w.key = key))

/-- 05 R126, R127: `cp.wait` and `cp.waitq` wait until DONE reaches the value, or ISSUE where that is less, sampled at the first
issue; then a failure up to it is raised as its cause, or answered and cleared. `cp.rdc` reads DONE, ISSUE or ERR, and clears
ERR with selector 3.

05 R112, R115, R118, R125, R128: a copy starts when no earlier command conflicts with it. A piece of a one-row plain copy between two
local ends that do not meet moves its bytes, one of a local one-row zeroing copy writes zeros, neither touches another byte, and the
piece is over; a copy whose pieces are all over completes, with its flags ORed and DONE moved. The model's choice: ADDR of the trap holds
the command's number, not its counter's (log 59), and which copies meet is judged by bounding intervals (log 58). -/
def Obligations.CopyWaitsAndTransfers : Prop :=
  (∀ (s : State) (c : CReg) (d a : SReg) (sel : BitVec 2) (k : Counter) (m : Nat), k = s.tile.ctr c →
     (s.st.sample = none → m = min (s.reg a).toNat k.issue) → (∀ v, s.st.sample = some v → m = v.toNat) →
     (k.done < m →
       (Issues (.cpWait c a) s → exec (.cpWait c a) s = .next (s.onSt fun x =>
         { x with sample := some (BitVec.ofNat 64 m), wait := some (.retry .engine) })) ∧
       (Issues (.cpWaitq d c a) s → exec (.cpWaitq d c a) s = .next (s.onSt fun x =>
         { x with sample := some (BitVec.ofNat 64 m), wait := some (.retry .engine) }))) ∧
     (m ≤ k.done → (k.err.valid = false ∨ m < k.err.num) →
       (Issues (.cpWait c a) s → exec (.cpWait c a) s = .next s.retire) ∧
       (Issues (.cpWaitq d c a) s → exec (.cpWaitq d c a) s = .next (s.setReg d 0).retire)) ∧
     (m ≤ k.done → k.err.valid = true → k.err.num ≤ m →
       (Issues (.cpWait c a) s → exec (.cpWait c a) s = .next ((s.takeErr c).takeTrap
         { cause := Cause.ofCode k.err.cause, addr := BitVec.ofNat 64 k.err.num, info := k.err.info c,
           localSrc := k.err.localSrc })) ∧
       (Issues (.cpWaitq d c a) s → ∃ u : State, exec (.cpWaitq d c a) s = .next u ∧ (u.tile.ctr c).err.valid = false ∧
         (∀ r, u.reg r = if r = d ∧ d ≠ 0 then k.err.word else s.reg r) ∧ (∀ r, r ≠ c → u.tile.ctr r = s.tile.ctr r) ∧ SameBytes s u)) ∧
     (Issues (.cpRdc d c sel) s → ∃ u : State, exec (.cpRdc d c sel) s = .next u ∧
       (∀ r, u.reg r = if r = d ∧ d ≠ 0 then
         (if sel = 0 then BitVec.ofNat 64 k.done else if sel = 1 then BitVec.ofNat 64 k.issue else k.err.word) else s.reg r) ∧
       (u.tile.ctr c).err.valid = (if sel = 3 then false else k.err.valid) ∧ (u.tile.ctr c).done = k.done ∧
       (u.tile.ctr c).issue = k.issue ∧ (∀ r, r ≠ c → u.tile.ctr r = s.tile.ctr r) ∧ SameVectors s u ∧ SameContexts s u ∧ SameTileControl s u ∧
       SameBytes s u)) ∧
  (∀ (s : State) (k : Nat) (w : WainCmd), s.input.k = k → s.tile.wain[k]? = some w →
     (w.started = false → s.tile.copyFree w = true → ∃ u : State, exec .wainCommandStart s = .next u ∧
       u.tile.wain[k]? = some { w with started := true } ∧ SameBytes s u) ∧
     (s.tile.copyFree w = false → exec .wainCommandStart s = .next s) ∧
     (∀ q off n : Nat, w.started = true → w.dl = true → w.rows = 1 → s.input.j = q → q < w.rowPieces 0 → q < w.moves → q < w.pieces →
       w.done.contains q = false → w.stages = [] → w.dStride = 0 → w.sStride = 0 → s.tile.spad.wf = true →
       pieceSpan (w.cuts 0).1 (w.cuts 0).2 w.rowLen q = some (off, n) → w.dst.toNat + w.rowLen ≤ 2 ^ 20 →
       (w.form = .plain ∧ w.sl = true ∧ w.src.toNat + w.rowLen ≤ 2 ^ 20 ∧ s.tile.spadBad = [] ∧
           w.reads = [rowsRange .loc w.src 0 1 w.rowLen] ∧ w.writes = [rowsRange .loc w.dst 0 1 w.rowLen] ∧
           (w.src.toNat + w.rowLen ≤ w.dst.toNat ∨ w.dst.toNat + w.rowLen ≤ w.src.toNat) ∨
         w.form = .zero ∧ w.reads = []) →
       ∃ u : State, exec .wainTransfer s = .next u ∧
         (∀ x, u.tile.spad.read x = if w.dst.toNat + off ≤ x ∧ x < w.dst.toNat + off + n then
           (if w.form = .zero then 0 else s.tile.spad.read (w.src.toNat + (x - w.dst.toNat))) else s.tile.spad.read x) ∧
         (∃ v : WainCmd, u.tile.wain[k]? = some v ∧ v.done.contains q = true) ∧ u.mem = s.mem ∧ ∀ r, u.reg r = s.reg r) ∧
     (w.started = false ∨ w.done.contains s.input.j = true ∨ w.pieces ≤ s.input.j ∨ w.stages.contains (s.input.j, .paged) = true → exec .wainTransfer s = .next s) ∧
     (w.done.length < w.pieces → exec .wainCommandComplete s = .next s) ∧
     (w.pieces ≤ w.done.length → s.tile.triggers = [] →
       ∃ u : State, exec .wainCommandComplete s = .next u ∧ u.tile.wain = dropAt k s.tile.wain ∧
         (∀ x : Fin 4, u.tile.ctxs[x] =
           if x.val = w.xc.ctx.toNat then { s.tile.ctxs[x] with flags := s.tile.ctxs[x].flags ||| w.flags } else s.tile.ctxs[x]) ∧
         ((s.tile.ctr w.ctr).ahead = [] → w.num = (s.tile.ctr w.ctr).done + 1 → (u.tile.ctr w.ctr).done = w.num) ∧ SameBytes s u))

/-- 05 R113, R115-R117, R120-R125, 10 R226, R227, 04 R104-R106: what one piece of a started copy moves. A plain piece of any row moves
its source bytes, local or read through translation, to its destination, and a zeroing one zeros; a row of a converting copy converts
each element and ORs the flags, and keeps the other half of a half byte; no other byte of the scratchpad changes. A square record is
checked, transposed where that is asked for, and written as one unit; from or to main memory it goes by SQRD and SQWR, an AIC32
record by lines, of which one that fails leaves the others to go on. A fill unit is read, decompressed and written. A piece that fails is
over, and the first failure is its counter's ERR; a line that is in use makes it come again. The model's choices: source and
destination ranges that meet as bounding intervals, and local pieces by lines and rows (log 58); DETAIL 2 of a bad local word (log
59); HOP of a record that has travelled (log 34); a fill unit as one step, whose failure leaves free values (log 37). -/
def Obligations.CopyPieces : Prop :=
  ∀ (s : State) (k q : Nat) (w : WainCmd), s.input.k = k → s.input.j = q → s.tile.wain[k]? = some w → w.started = true → q < w.pieces →
    q < w.moves → w.done.contains q = false → s.tile.spad.wf = true →
    (∀ (row off n : Nat) (sa da : DW), w.pieceAt q = some (row, off, n) → w.stages = [] → 0 < n → sa = rowAddr w.src w.sStride row + BitVec.ofNat 64 off →
      da = rowAddr w.dst w.dStride row + BitVec.ofNat 64 off → (∀ a, da.toNat ≤ a → a < da.toNat + n → w.skips row a = false) →
      (w.form = .zero → w.dl = true → ∃ u : State, exec .wainTransfer s = .next u ∧ BytesAt s u da.toNat n (fun _ => 0) ∧ PieceOver s u k q ∧
        u.mem = s.mem ∧ ∀ r, u.reg r = s.reg r) ∧
      (w.form = .plain → w.sl = true → wordsBad s.tile.spadBad sa.toNat n = false →
        (w.dl = true → ∃ u : State, exec .wainTransfer s = .next u ∧ BytesAt s u da.toNat n (fun i => s.tile.spad.read (sa.toNat + i)) ∧
          PieceOver s u k q ∧ u.mem = s.mem ∧ ∀ r, u.reg r = s.reg r) ∧
        (∀ (bs : List Byte), w.dl = false → bs.length = n → (∀ i, i < n → bs[i]? = some (s.tile.spad.read (sa.toNat + i))) →
          (∀ (y : Unit) (s1 : State), s.vaWrite w da bs = (.ok y, s1) → ∃ u : State, exec .wainTransfer s = .next u ∧ PieceOver s1 u k q ∧
            SameBytes s1 u) ∧
          (∀ (s1 : State), s.vaWrite w da bs = (.busy, s1) → exec .wainTransfer s = .next s) ∧
          (∀ (c : Cause) (d : Nat) (s1 : State), s.vaWrite w da bs = (.fail c d, s1) → ∃ u : State, exec .wainTransfer s = .next u ∧
            PieceFailed s1 u w k q c d 0 false ∧ SameBytes s1 u))) ∧
      (w.form = .plain → w.sl = true → wordsBad s.tile.spadBad sa.toNat n = true → ∃ u : State, exec .wainTransfer s = .next u ∧
        PieceFailed s u w k q .uncorr 2 0 true ∧ (w.dl = false → SameBytes s u)) ∧
      (∀ (bs : List Byte) (s1 : State), w.form = .plain → w.sl = false →
        (s.vaRead w sa n = (.ok bs, s1) → bs.length = n →
          (w.dl = true → s1.tile.spad.wf = true → ∃ u : State, exec .wainTransfer s = .next u ∧ BytesAt s1 u da.toNat n (fun i => bs.getD i 0) ∧
            PieceOver s1 u k q ∧ u.mem = s1.mem) ∧
          (∀ (y : Unit) (s2 : State), w.dl = false → s1.vaWrite w da bs = (.ok y, s2) → ∃ u : State, exec .wainTransfer s = .next u ∧
            PieceOver s2 u k q ∧ SameBytes s2 u)) ∧
        (s.vaRead w sa n = (.busy, s1) → exec .wainTransfer s = .next s) ∧
        (∀ (c : Cause) (d : Nat), s.vaRead w sa n = (.fail c d, s1) → ∃ u : State, exec .wainTransfer s = .next u ∧
          PieceFailed s1 u w k q c d 0 false ∧ (w.dl = false → SameBytes s1 u)))) ∧
    (∀ (f g len : Nat) (sa da : Nat) (r : Nat → Nat × Flags), w.form = .convert → w.dl = true → w.sl = true → f = w.fmtSrc.toNat → g = w.fmtDst.toNat →
      len = w.rowLen * 8 / bankWidth f →
      sa = (rowAddr w.src w.sStride q).toNat → da = (rowAddr w.dst w.dStride q).toNat → 0 < len → (∀ a, da ≤ a → a < da + (len * bankWidth g + 7) / 8 → w.skips q a = false) →
      (∀ e, r e = cvtElem f g .near (s.tile.spad.readLe sa w.rowLen / 2 ^ (bankWidth f * e) % 2 ^ bankWidth f)) →
      (wordsBad s.tile.spadBad sa w.rowLen = true → ∃ u : State, exec .wainTransfer s = .next u ∧ PieceFailed s u w k q .uncorr 2 0 true) ∧
      (wordsBad s.tile.spadBad sa w.rowLen = false → ∃ (u : State) (v : WainCmd), exec .wainTransfer s = .next u ∧
        u.tile.wain[k]? = some v ∧ v.done.contains q = true ∧ v.flags = w.flags ||| (List.range len).foldl (fun a e => a ||| (r e).2) 0 ∧
        (∀ e, e < len → u.tile.spad.readLe da ((len * bankWidth g + 7) / 8) / 2 ^ (bankWidth g * e) % 2 ^ bankWidth g = (r e).1 % 2 ^ bankWidth g) ∧
        (len * bankWidth g % 8 ≠ 0 → (u.tile.spad.read (da + (len * bankWidth g + 7) / 8 - 1)).toNat / 16 =
          (s.tile.spad.read (da + (len * bankWidth g + 7) / 8 - 1)).toNat / 16) ∧
        (∀ a, a < da ∨ da + (len * bankWidth g + 7) / 8 ≤ a → u.tile.spad.read a = s.tile.spad.read a) ∧ u.mem = s.mem)) ∧
    (∀ (tr : Bool) (f : BitVec 4) (fmt h : Nat) (oa od : Operand) (code : Nat → Nat → Nat), w.form = .square tr → w.fmt = some f → fmt = f.toNat →
      isSquareFmt fmt = true → oa = s.tile.operand w.src.toNat → od = s.tile.operand w.dst.toNat →
      (w.sl = true → w.stages = [] → oa.fmt = fmt → h = oa.header s.tile q → (∀ i j, code i j = (oa.codes s.tile q).getD (32 * i + j) 0) →
        (s.tile.rangesBad (oa.ranges q) = true → ∃ u : State, exec .wainTransfer s = .next u ∧ PieceFailed s u w k q .uncorr 2 q true) ∧
        (s.tile.rangesBad (oa.ranges q) = false →
          (hTag h ≠ 0 → tagBad (hTag h) = true ∨ tagBroken fmt h (oa.codes s.tile q) = true → ∃ u : State, exec .wainTransfer s = .next u ∧
            PieceFailed s u w k q .sheaf 5 q false) ∧
          (hTag h = 0 ∨ tagBad (hTag h) = false ∧ tagBroken fmt h (oa.codes s.tile q) = false →
            (w.dl = true → od.fmt = fmt → Placed od w.cnt → q < w.cnt → ∃ u : State, exec .wainTransfer s = .next u ∧
              SquareLands u od q tr true h code ∧ OnlyBlock s u od q ∧ PieceOver s u k q ∧ u.mem = s.mem) ∧
            (∀ (pa : Nat) (key : BitVec 13) (s1 : State), w.dl = false → fmt ≠ 15 → pa < Config.mainSize →
              s.wainXlate w (BitVec.ofNat 64 (recAddr (recordBytes fmt) w.dst.toNat q)) 1 = (.ok (pa, key), s1) →
              ∃ (u : State) (x : MemReq), exec .wainTransfer s = .next u ∧ u.reqs = s1.reqs ++ [x] ∧ x.kind = .sqwr ∧ x.pa = pa ∧ x.key = key ∧
                x.handle = .wainWrite w.ctr w.num q ∧ x.phase = .toSlice ∧
                x.data = (squareOut w tr fmt { h := h, codes := oa.codes s.tile q }).bytes fmt ∧ SameBytes s1 u) ∧
            (w.dl = false → fmt = 15 → exec .wainTransfer s = .next (s.linesWrite k w q (lineFuel 4160) 0
              (BitVec.ofNat 64 (recAddr 4160 w.dst.toNat q)) ((squareOut w tr 15 { h := h, codes := oa.codes s.tile q }).bytes 15)))))) ∧
      (∀ (pa : Nat) (key : BitVec 13) (s1 : State), w.sl = false → w.stages = [] → fmt ≠ 15 → pa < Config.mainSize →
        s.wainXlate w (BitVec.ofNat 64 (recAddr (recordBytes fmt) w.src.toNat q)) 0 = (.ok (pa, key), s1) →
        ∃ (u : State) (x : MemReq), exec .wainTransfer s = .next u ∧ u.reqs = s1.reqs ++ [x] ∧ x.kind = .sqrd ∧ x.pa = pa ∧ x.key = key ∧
          x.len = recordBytes fmt ∧ x.handle = .wainRead w.ctr w.num q ∧ x.phase = .toSlice ∧ SameBytes s1 u) ∧
      (∀ x : MemReq, w.sl = false → w.stages = [(q, .reading)] → s.pieceReply w q false = some x → x.status = .ok → h = ofLe (x.data.take 64) →
        (∀ i j, code i j = (codesOfBytes (bankWidth fmt) 1024 (x.data.drop 64)).getD (32 * i + j) 0) →
        (hFormat h % 16 ≠ fmt → ∃ u : State, exec .wainTransfer s = .next u ∧ PieceFailed s u w k q .bankfmt 6 q false) ∧
        (hFormat h % 16 = fmt → fmt = 14 ∧ s.tile.feat.getLsbD 2 = true ∨ fmt ≠ 14 →
          hTag h = 0 ∨ tagBad (hTag h) = false ∧ tagBroken fmt h (codesOfBytes (bankWidth fmt) 1024 (x.data.drop 64)) = false →
          w.dl = true → od.fmt = fmt → Placed od w.cnt → q < w.cnt → ∃ u : State, exec .wainTransfer s = .next u ∧
            SquareLands u od q tr false h code ∧ OnlyBlock s u od q ∧ PieceOver s u k q ∧ u.mem = s.mem)) ∧
      (∀ x : MemReq, w.dl = false → w.stages = [(q, .writing)] → s.pieceReply w q true = some x →
        (x.refused = true → ∃ u : State, exec .wainTransfer s = .next u ∧ PieceFailed s u w k q .sheaf 5 q false) ∧
        (x.refused = false → x.status = .ok → ∃ u : State, exec .wainTransfer s = .next u ∧ PieceOver s u k q ∧ SameBytes s u) ∧
        (x.refused = false → x.status = .keyErr → ∃ u : State, exec .wainTransfer s = .next u ∧ PieceFailed s u w k q .prot 3 q false))) ∧
    (∀ (fuel o : Nat) (va : DW) (bs : List Byte) (s1 : State), bs ≠ [] →
      (∀ y : Unit, s.vaWrite w va (bs.take 64) = (.ok y, s1) →
        s.linesWrite k w q (fuel + 1) o va bs = s1.linesWrite k w q fuel (o + 64) (va + 64) (bs.drop 64)) ∧
      (∀ (c : Cause) (d : Nat), s.vaWrite w va (bs.take 64) = (.fail c d, s1) → ∃ u : State,
        s.linesWrite k w q (fuel + 1) o va bs = u.linesWrite k w q fuel (o + 64) (va + 64) (bs.drop 64) ∧ SameBytes s1 u ∧
        (s1.tile.live w.owner = true → (s1.tile.ctr w.ctr).err.valid = false → (u.tile.ctr w.ctr).err.valid = true ∧
          (u.tile.ctr w.ctr).err.cause = c.code ∧ (u.tile.ctr w.ctr).err.unit = BitVec.ofNat 16 (min q 0xFFFF))) ∧
      (s.vaWrite w va (bs.take 64) = (.busy, s1) → (s.linesWrite k w q (fuel + 1) o va bs).mem = s.mem)) ∧
    (∀ (bs all : List Byte) (s1 s2 : State) (y : Unit), w.form = .fill → w.stages = [] →
      (∀ d, s.unitOk w (w.dst.toNat + q * 65536) = some d → ∃ u : State, exec .wainTransfer s = .next u ∧
        PieceFailed s u w k q .prot d q false ∧ SameBytes s u) ∧
      (s.unitOk w (w.dst.toNat + q * 65536) = none →
        (s.unitRead w q = (.busy, s1) → exec .wainTransfer s = .next s) ∧
        (s.unitRead w q = (.ok bs, s1) → s1.unitWrite (s1.wainAsker w w.key) 1024 (w.dst.toNat + q * 65536) bs = (.ok y, s2) →
          ∃ u : State, exec .wainTransfer s = .next u ∧ PieceOver s2 u k q ∧ SameBytes s2 u) ∧
        (∀ (c : Cause) (d : Nat), s.unitRead w q = (.fail c d, s1) → s1.unitWrite (s1.wainAsker w w.key) 1024 (w.dst.toNat + q * 65536)
            ((List.range 65536).map (Config.freeByte s1.free)) = (.ok y, s2) →
          ∃ u : State, exec .wainTransfer s = .next u ∧ PieceFailed s2 u w k q c d q false ∧ SameBytes s2 u)) ∧
      (s.vaReads w 3 w.src 16 = (.ok bs, s1) →
        ((fillDesc bs).valid = false → s.unitRead w 0 = (.fail .uncorr 4, s1)) ∧
        ((fillDesc bs).valid = true → (fillDesc bs).mode = 0 ∨ s1.tile.feat.getLsbD 4 = true →
          s1.vaReads w (lineFuel ((fillDesc bs).dataOff + (fillDesc bs).total)) w.src ((fillDesc bs).dataOff + (fillDesc bs).total) = (.ok all, s2) →
          (∀ out, fillUnit all = some out → s.unitRead w 0 = (.ok out, s2)) ∧ (fillUnit all = none → s.unitRead w 0 = (.fail .uncorr 4, s2)))))

/-! ### Queues and activations (15 R317-R347) -/

/-- 15 R343-R346, R329: a push or a marker at an open output takes one credit and buffers one output; at no output of the running
context, at a closed one, or as the 33rd output it raises QFAULT, and without a credit it waits. A pop holds the items that it
takes, in ring order and no further than the spec's loop goes, and answers the address and the descriptor of the first one, or the
count and the address; with nothing to take it answers 0 and 0. `qpeek` holds nothing. `qstat` reads the endpoint and changes no
state; an endpoint that is not bound to the running context reads 0. The model's choice: the head is the first item that is not held,
for `qpop` and for bit [3] of `qstat` 2 (log 68). -/
def Obligations.QueueInstructions : Prop :=
  ∀ (s : State) (i : Instr) (q : QReg) (d a b : SReg) (sel : BitVec 4) (e : Endpoint) (z : Queue) (act : Activation), Issues i s →
    e = s.tile.ep q → (e.role ≠ .unbound → s.queueAt e.qcb = some z) →
    (∀ (kind : BitVec 2) (nbt : DW), ((i = .qpush q a ∧ kind = 0 ∧ nbt = 0) ∨ (i = .qpushAt q a b ∧ kind = 0 ∧ nbt = s.reg b) ∨
        (i = .qmark q ∧ kind = 1 ∧ nbt = 0) ∨ (i = .qmarkF q ∧ kind = 2 ∧ nbt = 0)) →
      ((e.role ≠ .output ∨ e.ctx ≠ s.st.ctx ∨ e.closed = true) → exec i s = .next (s.takeTrap (raise .qfault))) ∧
      (e.role = .output → e.ctx = s.st.ctx → e.closed = false →
        (kind = 0 → (s.reg a).toNat % 16 = 0 ∧ (s.reg a).toNat + z.qcb.isize * 16 ≤ 2 ^ 20 ∧
          s.tile.regionOk s.st.lvl (s.reg a).toNat (z.qcb.isize * 16) false = true) → s.tile.act = some act →
        (32 ≤ act.outputs.length → exec i s = .next (s.takeTrap (raise .qfault))) ∧
        (act.outputs.length < 32 → e.credits = 0 → exec i s = .next (s.onSt fun x => { x with wait := some (.retry .queue) })) ∧
        (act.outputs.length < 32 → 0 < e.credits → (kind = 0 → Readable s (s.reg a).toNat (z.qcb.isize * 16)) →
          ∃ (u : State) (o : Output), exec i s = .next u ∧ u.tile.act = some { act with outputs := act.outputs ++ [o] } ∧
            o = .push q kind e.oround nbt (if kind = 0 then (s.reg a).toNat else 0)
              (if kind = 0 then ((List.range (z.qcb.isize * 16)).map fun j => s.seen.read ((s.reg a).toNat + j)) else []) ∧
            u.tile.ep q = { e with credits := e.credits - 1, oround := if kind = 1 then e.oround + 1 else e.oround } ∧
            (∀ p, p ≠ q → u.tile.ep p = s.tile.ep p) ∧ u.flight = s.flight ∧ u.queues = s.queues ∧
            (∀ r, u.reg r = s.reg r) ∧ SameVectors s u ∧ SameContexts s u ∧ SameSpecial s u ∧ SameBytes s u))) ∧
    ((i = .qpop d q ∨ i = .qpopm d q b ∨ i = .qpeek d q) → (e.role ≠ .input ∨ e.ctx ≠ s.st.ctx) →
      exec i s = .next (s.takeTrap (raise .qfault))) ∧
    (i = .qpop d q → e.role = .input → 64 ≤ s.tile.heldCount → exec i s = .next (s.takeTrap (raise .qfault))) ∧
    (∀ (n : Nat) (xs rest : List RingItem), e.role = .input → e.ctx = s.st.ctx →
      ((i = .qpop d q ∧ n = 1 ∧ s.tile.heldCount < 64) ∨
        (i = .qpopm d q b ∧ n = min (s.reg b).toNat (64 - s.tile.heldCount))) →
      (z.frozen = true → xs = []) → (e.ring.filter fun x => !x.held) = xs ++ rest → xs.length ≤ n →
      (∀ x ∈ xs, x.nbt.toNat ≤ s.tb.toNat ∧ x.kind = 0 ∧ (s.cx.mode = .round → x.round = s.cx.cround)) →
      (∀ j, j + 1 < xs.length → (xs[j + 1]?).map RingItem.slot = (xs[j]?).map fun x => x.slot + 1) →
      (∀ y, rest.head? = some y → xs.length < n → z.frozen = false →
        ¬ (y.nbt.toNat ≤ s.tb.toNat ∧ y.kind = 0 ∧ (s.cx.mode = .round → y.round = s.cx.cround) ∧
          ∀ x, xs.getLast? = some x → y.slot = x.slot + 1)) →
      ∃ (v w : DW), PairResult (exec i s) s d v w (fun u => ((u.tile.ep q).ring.filter fun x => !x.held) = rest ∧
          (u.tile.ep q).ring.map (fun x => { x with held := false }) = e.ring.map (fun x => { x with held := false }) ∧
          ∀ p, p ≠ q → u.tile.ep p = s.tile.ep p) ∧
        (xs = [] → v = 0 ∧ w = 0) ∧
        (∀ x, xs.head? = some x → i = .qpop d q → v = BitVec.ofNat 64 (e.ringAddr + x.slot * (z.qcb.isize * 16)) ∧
          w = BitVec.ofNat 64 (z.qcb.isize * 16 % 2 ^ 11 + x.round.toNat * 2 ^ 16)) ∧
        (∀ x, xs.head? = some x → i = .qpopm d q b → v = BitVec.ofNat 64 xs.length ∧
          w = BitVec.ofNat 64 (e.ringAddr + x.slot * (z.qcb.isize * 16)))) ∧
    (e.role = .input → e.ctx = s.st.ctx → i = .qpeek d q →
      (e.ring = [] → PairResult (exec i s) s d 0 0 fun u => u.tile.eps = s.tile.eps) ∧
      (∀ x, (e.ring.find? RingItem.held = some x ∨ (e.ring.find? RingItem.held = none ∧ e.ring.head? = some x)) →
        PairResult (exec i s) s d (if x.kind = 0 then BitVec.ofNat 64 (e.ringAddr + x.slot * (z.qcb.isize * 16)) else 0)
          (BitVec.ofNat 64 ((if x.kind = 0 then z.qcb.isize * 16 % 2 ^ 11 else 0) + x.round.toNat * 2 ^ 16 + x.kind.toNat * 2 ^ 32))
          fun u => u.tile.eps = s.tile.eps)) ∧
    (i = .qstat d q sel →
      (e.role = .unbound ∨ e.ctx ≠ s.st.ctx → ScalarResult (exec i s) s d 0) ∧
      (∀ v : Nat, e.ctx = s.st.ctx →
        ((sel = 0 ∧ (e.role = .input ∧ v = e.ring.length ∨ e.role = .output ∧ v = e.credits)) ∨
          (sel = 1 ∧ (e.role = .input ∧ v = s.cx.cround.toNat ∨ e.role = .output ∧ v = e.oround.toNat)) ∨
          (sel = 2 ∧ e.role = .input ∧ v = 1 + (if z.frozen then 4 else 0) +
            (if (e.ring.find? fun x => !x.held).map RingItem.kind = some 2 then 8 else 0)) ∨
          (sel = 2 ∧ e.role = .output ∧ v = 2 + (if z.frozen then 4 else 0) + (if e.closed then 8 else 0)) ∨
          (sel = 3 ∧ (e.role = .input ∧ v = (e.ring.filter RingItem.held).length ∨ e.role = .output ∧ v = 0)) ∨
          (4 ≤ sel.toNat ∧ e.role ≠ .unbound ∧ v = ((s.tile.act.map Activation.outputs).getD []).length)) →
        ScalarResult (exec i s) s d (BitVec.ofNat 64 v)))

/-- 15 R322-R325, R341: an item of a producer that reaches its member, in release order, is placed in a free slot, its bytes in the
scratchpad; with no slot it goes on waiting; a square item that is damaged is refused; at a member that is no bound input of the queue
it is discarded and consumed, and so it is ahead of its bind marker, with a QFAULT record. A refusal that returns lets the item go
again, from another tile in a new packet, and the third one freezes the queue. A bind marker is consumed on arrival and the last one
makes the context IDLE. A credit returns when every member has consumed its item. 15 R322, 16 R367: a `wfi` that was issued before the
not-before time of the item at a head ends when that time comes. The model's choice: an item discarded at an unbound member or ahead of its
bind marker counts as consumed and returns its credit (log 68). -/
def Obligations.QueueEvents : Prop :=
  ∀ (s : State) (k : Nat) (i : ItemFlight) (z : Queue) (e : Endpoint) (t : Tile) (c : Ctx), s.input.k = k →
    (s.flight[k]? = some i → s.queueAt i.qcb = some z → t = s.getTile i.tile → t.eps[i.ep]? = some e →
      c = t.ctxs[e.ctx.toNat]'(e.ctx.isLt) →
      (i.kind ≠ 3 → i.refused = false → i.agent = false → i.travel = false →
        (s.itemFirst k i = false → exec .itemArrival s = .next s) ∧
        (s.itemFirst k i = true → z.frozen = false → (∀ v ∈ s.virtqueues, v.compQ ≠ i.qcb) →
          (e.role = .input → e.qcb = i.qcb → c.state ≠ .unbound → c.state ≠ .binding ∨ i.ep ∈ c.bindSeen →
            (z.qcb.fmt = 14 → i.kind = 0 → squareItemBad i.bytes = (false, false)) →
            (2 ^ z.qcb.logCap ≤ e.ring.length → exec .itemArrival s = .next s) ∧
            (e.ring.length < 2 ^ z.qcb.logCap → z.qcb.gring = false → ∃ (u : State) (x : RingItem), exec .itemArrival s = .next u ∧
              u.flight = dropAt k s.flight ∧ (u.getTile i.tile).eps[i.ep]? = some { e with ring := e.ring ++ [x], tail := e.tail + 1 } ∧
              x.kind = i.kind ∧ x.round = i.round ∧ x.nbt = i.nbt ∧ x.id = i.id ∧ x.held = false ∧ x.agent = false ∧
              x.slot = e.tail % 2 ^ z.qcb.logCap ∧ u.mem = s.mem ∧ (t.spad.wf = true →
                (i.kind = 0 → ∀ j, j < (i.stored z.qcb.fmt).length →
                  (u.getTile i.tile).spad.read (e.ringAddr + x.slot * (z.qcb.isize * 16) + j) = (i.stored z.qcb.fmt).getD j 0) ∧
                ∀ y, (i.kind = 0 → y < e.ringAddr + x.slot * (z.qcb.isize * 16) ∨
                    e.ringAddr + x.slot * (z.qcb.isize * 16) + (i.stored z.qcb.fmt).length ≤ y) →
                  (u.getTile i.tile).spad.read y = t.spad.read y))) ∧
          (e.role = .input → e.qcb = i.qcb → c.state ≠ .unbound → c.state ≠ .binding ∨ i.ep ∈ c.bindSeen → z.qcb.fmt = 14 →
            i.kind = 0 → squareItemBad i.bytes ≠ (false, false) → ∃ u : State, exec .itemArrival s = .next u ∧
              u.flight = modAt (fun x => { x with refused := true }) k s.flight ∧ (u.getTile i.tile).eps = t.eps) ∧
          (e.role ≠ .input ∨ e.qcb ≠ i.qcb ∨ c.state = .unbound ∨ (c.state = .binding ∧ i.ep ∉ c.bindSeen) →
            ∃ u : State, exec .itemArrival s = .next u ∧
              u.flight = dropAt k s.flight ∧ (∀ (q : Endpoint), (u.getTile i.tile).eps[i.ep]? = some q → q.ring = e.ring) ∧
              u.credits = s.credits.map (fun x =>
                if x.qcb = i.qcb ∧ x.id = i.id ∧ 0 < x.left then { x with left := x.left - 1 } else x) ∧
              (e.role = .input → e.qcb = i.qcb → c.state = .binding →
                ∃ r : RecordWait, u.records = s.records ++ [r] ∧ r.queue = .fault ∧ r.paddock = t.paddock ∧
                  r.bytes.take 2 = [18, 7])))) ∧
      (i.refused = false → exec .itemRefusal s = .next s) ∧
      (i.refused = true → ∃ u : State, exec .itemRefusal s = .next u ∧ u.flight.length = s.flight.length ∧
        (∀ x, u.flight[k]? = some x → x.refused = false ∧ x.refusals = i.refusals + 1) ∧
        (∀ j, i.src.tile = some j → j ≠ i.tile → ∃ p : Packet, u.packets = s.packets ++ [p] ∧
          p.body = .item i.qcb i.id i.src i.payload) ∧
        (i.refusals < 2 → u.queues = s.queues) ∧
        (2 ≤ i.refusals → ∃ y ∈ u.queues, y.pa = i.qcb ∧ y.frozen = true)) ∧
      (i.kind = 3 → z.frozen = true → exec .bindMarkerArrival s = .next s) ∧
      (i.kind = 3 → s.itemFirst k i = true → z.frozen = false → e.role = .input → e.qcb = i.qcb → c.state = .binding →
        (∀ (p : Nat) (x : Endpoint), t.eps[p]? = some x → x.role = .input → x.ctx = e.ctx → p = i.ep ∨ p ∈ c.bindSeen) →
        c.parkPending = false → ∃ u : State, exec .bindMarkerArrival s = .next u ∧ u.flight = dropAt k s.flight ∧
          (u.getTile i.tile).eps = t.eps ∧ ((u.getTile i.tile).ctxs[e.ctx.toNat]'(e.ctx.isLt)).state = .idle)) ∧
    (∀ (x : RingItem) (st : StrandId) (since : DW), s.tile.eps[k]? = some e → s.queueAt e.qcb = some z → z.frozen = false →
      (e.ring.find? fun y => !y.held) = some x → (s.tile.strand st).wait = some (.event since) → since.toNat < x.nbt.toNat →
      (x.nbt.toNat ≤ s.tb.toNat → ∃ u : State, exec .nbtReached s = .next u ∧ u.tile.strand st = (s.tile.strand st).retire ∧
        u.tile.eps = s.tile.eps) ∧
      (s.tb.toNat < x.nbt.toNat → exec .nbtReached s = .next s)) ∧
    (∀ x : CreditOut, s.credits[k]? = some x → (s.getTile x.tile).eps[x.ep]? = some e → e.role = .output → e.qcb = x.qcb →
      (x.left ≠ 0 → exec .creditReturn s = .next s) ∧
      (x.left = 0 → ∃ u : State, exec .creditReturn s = .next u ∧ u.credits = dropAt k s.credits ∧
        (u.getTile x.tile).eps[x.ep]? = some { e with credits := e.credits + 1 }))

/-- 15 R330-R333, 05 R126: `commit` and `yield` wait for the thresher, for the atomics of the run and for room to send, and raise the
failure of the lowest counter that has one of the run; then in one step the staged stores apply in issue order, `commit` consumes the held
items and `yield` returns them, the buffered outputs leave in order, each push to every member of its queue under the queue's next number
(a square item, which its interface checks, aside), and the context leaves its run, a FINAL one for its fallow steps. `abort`
writes no staged store, returns the held items and the taken credits, and restores the recorded flags, Philox counter, carry set
and rounds. -/
def Obligations.ActivationEnds : Prop :=
  ∀ (s : State) (i : Instr) (y : Bool) (a : Activation) (c : Ctx), s.tile.act = some a → c = s.cx →
    ((i = .commit ∧ y = false) ∨ (i = .yield ∧ y = true) → Issues i s →
      ((∃ x ∈ s.tile.thresher, x.owner = s.runRef) → exec i s = .next (s.onSt fun x => { x with wait := some (.retry .engine) })) ∧
      ((∀ x ∈ s.tile.thresher, x.owner ≠ s.runRef) →
        (s.atomicsDone = false → exec i s = .next (s.onSt fun x => { x with wait := some (.retry .memory) })) ∧
        (∀ (r : CReg) (e : ErrRec), s.atomicsDone = true → s.tile.firstErr s.runRef = some (r, e) →
          exec i s = .next ((s.takeErr r).takeTrap
            { cause := Cause.ofCode e.cause, addr := BitVec.ofNat 64 e.num, info := e.info r, localSrc := e.localSrc })) ∧
        (s.atomicsDone = true → s.tile.firstErr s.runRef = none →
          (s.tile.sendRoom s.buffered.length = false → exec i s = .next (s.onSt fun x => { x with wait := some (.retry .queue) })) ∧
          (s.tile.sendRoom s.buffered.length = true → c.killPending = false →
            ∃ u : State, exec i s = .next u ∧ u.tile.act = none ∧ u.tile.main.act = false ∧
              (u.tile.ctxs[s.st.ctx.toNat]'(s.st.ctx.isLt)).carry = s.st.carry ∧
              (u.tile.ctxs[s.st.ctx.toNat]'(s.st.ctx.isLt)).landFlags.flags = c.landFlags.flags ∧
              u.tile.spad = a.staged.foldl (fun m x => m.writeBytes x.addr (leBytes x.size x.data.toNat)) s.tile.spad ∧
              u.mem = s.mem ∧ u.tile.acc = s.tile.acc ∧
              (a.outputs.all s.plainOutput = true → u.flight = s.flight ++ s.itemsOf s.tile.ltn a.outputs) ∧
              u.tile.sendQ.map SendEntry.msg = s.tile.sendQ.map SendEntry.msg ++ s.buffered ∧
              u.tile.shSends = s.tile.shSends ++ a.outputs.filterMap Output.sheafSend ∧
              u.packets.filterMap Packet.ackWord = s.packets.filterMap Packet.ackWord ++ a.outputs.filterMap Output.ackWord ∧
              (a.final = true → ∃ l : List Nat,
                (u.tile.ctxs[s.st.ctx.toNat]'(s.st.ctx.isLt)).fallowOut = some l) ∧
              (a.final = false →
                ((u.tile.ctxs[s.st.ctx.toNat]'(s.st.ctx.isLt)).state = if c.parkPending then .parked else .idle) ∧
                ∀ (p : QReg), (u.tile.ep p).ring = if y then (s.tile.ep p).ring.map (fun x => { x with held := false })
                else (s.tile.ep p).ring.filter fun x => !x.held))))) ∧
    (Issues .abort s → c.killPending = false → ∃ u : State, exec .abort s = .next u ∧ u.tile.act = none ∧
      u.tile.main.act = false ∧ u.flight = s.flight ∧ u.tile.spad = s.tile.spad ∧ u.mem = s.mem ∧
      ((u.tile.ctxs[s.st.ctx.toNat]'(s.st.ctx.isLt)).state = if c.parkPending then .parked else .idle) ∧
      (u.tile.ctxs[s.st.ctx.toNat]'(s.st.ctx.isLt)).flags = a.recFlags ∧
      (u.tile.ctxs[s.st.ctx.toNat]'(s.st.ctx.isLt)).carry = a.recCarry ∧
      (u.tile.ctxs[s.st.ctx.toNat]'(s.st.ctx.isLt)).cround = a.recCround ∧
      (∀ (p : QReg) (v : BitVec 16), (p.toNat, v) ∈ a.recOround → (∀ w, (p.toNat, w) ∈ a.recOround → w = v) →
        (u.tile.ep p).oround = v) ∧ u.tile.phCtrl = a.recCtrl ∧ u.tile.phCtrh = a.recCtrh ∧
      ∀ (p : QReg), (u.tile.ep p).ring = (s.tile.ep p).ring.map (fun x => { x with held := false }) ∧
        (u.tile.ep p).credits = (s.tile.ep p).credits + (a.outputs.filter fun o => match o with
          | .push q _ _ _ _ _ => q == p
          | _ => false).length)

/-- 15 R326-R328, R335, R336, R338: with no activation running, the scheduler starts the candidate of highest effective priority, among
equals the one least recently started; every other candidate ages, and WAITB that reaches 16 becomes BOOST. In mode `any` a context pops
the deliverable head of its input of highest QPRIO, the lowest number among equals; in `all` the heads of all its inputs; in `round` one
data item of CROUND, or every round-end of CROUND once no data of it is left, and CROUND counts on. s1 is the payload's address, s2 its
descriptor, s3 the endpoint and the bitmap of those popped, s4 the ID; s24-s31 the carry set; what `abort` restores is recorded. A gather or
a round mismatch raises QFAULT at the entry and pops nothing. With a fallow marker at every head a FINAL activation starts at the fallow
entry, or, without one, the markers are consumed and the fallow steps begin. With an activation running, or no candidate, nothing happens.
The fallow steps close the last output that has a credit and park the context. -/
def Obligations.ActivationStarts : Prop :=
  ∀ (s : State) (c : BitVec 2) (x : Ctx) (ins : List Nat) (q : Nat) (e : Endpoint) (z : Queue) (it : RingItem) (w1 w2 w3 : DW) (qs : List Nat),
    x = s.tile.cx c → ins = s.tile.epsOf c .input →
    w1 = (if it.kind = 0 then BitVec.ofNat 64 (e.ringAddr + it.slot * (z.qcb.isize * 16)) else 0) →
    w2 = BitVec.ofNat 64 ((if it.kind = 0 then z.qcb.isize * 16 % 2 ^ 11 else 0) + it.round.toNat * 2 ^ 16 + it.kind.toNat * 2 ^ 32) →
    (∀ j, w3.getLsbD j = if j < 4 then q.testBit j else decide (16 ≤ j ∧ j < 32 ∧ j - 16 ∈ qs)) →
    (s.tile.act.isSome = true → exec .schedulerBoundary s = .next s) ∧
    (s.tile.act = none → (∀ d, s.candidate s.tile d = false) → exec .schedulerBoundary s = .next s) ∧
    (SchedulerActs s → s.candidate s.tile c = true → x.killPending = false →
      (∀ d, d ≠ c → s.candidate s.tile d = true → StartsBefore c d x (s.tile.cx d)) →
      ∃ u : State, exec .schedulerBoundary s = .next u ∧ u.tile.starts = s.tile.starts + 1 ∧
        (u.tile.cx c).lastStart = some s.tile.starts ∧ (u.tile.cx c).boost = 0 ∧ (u.tile.cx c).waitB = 0 ∧
        ∀ (d : BitVec 2) (y : Ctx), d ≠ c → y = s.tile.cx d → (u.tile.cx d).lastStart = y.lastStart ∧
          (u.tile.cx d).waitB = (if s.candidate s.tile d = true then (if y.waitB + 1 = 16 then 0 else y.waitB + 1) else y.waitB) ∧
          (u.tile.cx d).boost = (if s.candidate s.tile d = true ∧ y.waitB + 1 = 16 then min (7 - y.prio) (y.boost + 1) else y.boost)) ∧
    (SchedulerActs s → OnlyIdle s c → q ∈ ins → HeadIs s q e z it →
      (x.mode = .any → (it.kind = 0 ∨ it.kind = 1) → qs = [q] →
        (∀ (p : Nat) (f : Endpoint) (y : Queue) (j : RingItem), p ∈ ins → p ≠ q → HeadIs s p f y j → (j.kind = 0 ∨ j.kind = 1) →
          y.qcb.qprio < z.qcb.qprio ∨ y.qcb.qprio = z.qcb.qprio ∧ q < p) →
        Starts (exec .schedulerBoundary s) s c false x.entry w1 w2 w3 (it.id.zeroExtend 64) x.cround qs) ∧
      (x.mode = .all → (∀ p ∈ ins, q ≤ p ∧ ∃ (f : Endpoint) (y : Queue) (j : RingItem), HeadIs s p f y j ∧ (j.kind = 0 ∨ j.kind = 1)) → qs = ins →
        Starts (exec .schedulerBoundary s) s c false x.entry w1 w2 w3 (it.id.zeroExtend 64) x.cround qs) ∧
      (x.mode = .round → (∀ (p : Nat) (j : RingItem), p ∈ ins → AnyHead s p j → (j.kind = 0 ∨ j.kind = 1) → j.round = x.cround) →
        (it.kind = 0 → qs = [q] →
          (∀ (p : Nat) (f : Endpoint) (y : Queue) (j : RingItem), p ∈ ins → p ≠ q → HeadIs s p f y j → j.kind = 0 →
            y.qcb.qprio < z.qcb.qprio ∨ y.qcb.qprio = z.qcb.qprio ∧ q < p) →
          Starts (exec .schedulerBoundary s) s c false x.entry w1 w2 w3 (it.id.zeroExtend 64) x.cround qs) ∧
        (it.kind = 1 →
          (∀ p ∈ ins, ∃ (f : Endpoint) (y : Queue) (j : RingItem), HeadIs s p f y j ∧ (j.kind = 1 ∨ j.kind = 2)) →
          (∀ p, p ∈ qs ↔ p ∈ ins ∧ ∃ (f : Endpoint) (y : Queue) (j : RingItem), HeadIs s p f y j ∧ j.kind = 1) → (∀ p ∈ qs, q ≤ p) →
          Starts (exec .schedulerBoundary s) s c false x.entry w1 w2 w3 (it.id.zeroExtend 64) (x.cround + 1) qs)) ∧
      ((∀ p ∈ ins, ∃ (f : Endpoint) (y : Queue) (j : RingItem), HeadIs s p f y j ∧ j.kind = 2) →
        (∀ (pc r3 : DW), x.fallow = some pc → (∀ j, r3.getLsbD j = decide (16 ≤ j ∧ j < 32 ∧ j - 16 ∈ ins)) →
          Starts (exec .schedulerBoundary s) s c true pc 0 (BitVec.ofNat 64 (2 * 2 ^ 32)) r3 0 x.cround []) ∧
        (x.fallow = none → ∃ u : State, exec .schedulerBoundary s = .next u ∧ u.tile.act = none ∧ (u.tile.cx c).state = .idle ∧
          (∃ l, (u.tile.cx c).fallowOut = some l ∧ ∀ p, p ∈ l ↔ p ∈ s.tile.epsOf c .output ∧
            ∀ f : Endpoint, s.tile.eps[p]? = some f → f.closed = false) ∧
          ∀ p, u.tile.eps[p]? = (s.tile.eps[p]?).map fun f =>
            if p ∈ ins then { f with ring := dropFirst (fun y => !y.held) f.ring, head := f.head + 1 } else f))) ∧
    (∀ j : RingItem, SchedulerActs s → OnlyIdle s c → x.killPending = false → q ∈ ins → AnyHead s q it → (it.kind = 0 ∨ it.kind = 1) →
      (x.mode = .round ∧ it.round ≠ x.cround ∨ x.mode = .all ∧ ∃ p ∈ ins, AnyHead s p j ∧ j.kind = 2) →
      ∃ (u : State) (r : RecordWait), exec .schedulerBoundary s = .next u ∧ u.tile.act = none ∧ u.tile.eps = s.tile.eps ∧
        (u.tile.cx c).state = .parked ∧ (u.tile.cx c).cround = x.cround ∧ u.tile.main.cause = 0x07 ∧ u.tile.main.epc = x.entry ∧
        u.tile.main.fval = x.entry ∧ r ∈ u.records ∧ r.paddock = s.tile.paddock ∧ r.queue = .fault ∧ r.bytes.take 2 = [16, 7] ∧
        ofLe ((r.bytes.drop 24).take 4) = 0 ∧ SameBytes s u) ∧
    (s.input.k = c.toNat → x.fallowOut = some [q] → s.tile.eps[q]? = some e → e.ctx = c → s.queueAt e.qcb = some z →
      (e.credits = 0 → ∃ u : State, exec .fallowSteps s = .next u ∧ u.flight = s.flight ∧ u.tile.eps = s.tile.eps ∧
        (u.tile.cx c).fallowOut = some [q]) ∧
      (0 < e.credits → ∃ u : State, exec .fallowSteps s = .next u ∧
        u.tile.eps[q]? = some { e with credits := e.credits - 1, closed := true } ∧
        (u.tile.cx c).state = .parked ∧ (u.tile.cx c).fallowOut = none ∧
        u.flight.length = s.flight.length + z.qcb.members.length ∧
        ∀ (j : Nat) (f : ItemFlight), u.flight[s.flight.length + j]? = some f → f.kind = 2 ∧ f.round = e.oround ∧ f.qcb = z.pa))

/-! ### Messages (11 R244-R260) -/

/-- 11 R249, R254-R259: `am.send` and `am.reply` buffer one message: its header fields, the payload read now, zeros beyond its length;
`am.send` answers its ID, and the next one is greater by 1. Built-in entries 12 to 14 from L0 raise PRIV, a malformed header or a
destination outside the paddock PROT, a full buffer or a second reply QFAULT. `am.stat` reads the counts, built-in replies not among
them. `am.end` waits for the handler's atomics and for room, raises a failure of its copies, releases the messages once, waits for
the fence of 12 R276, in which a later failure is no longer its own, and frees the slot; `am.reply` and `am.end` are ILL on the main
strand. That `am.stat` 0 and the send room leave built-in replies out is the model's choice (log 65). Which tiles of another package lie in the paddock is an open value (log 27). -/
def Obligations.MessageInstructions : Prop :=
  ∀ (s : State) (d a b : SReg) (sel : BitVec 8) (h : Nat) (g : Msg) (r : HandlerRun) (i : Instr), Issues i s → h = (s.reg a).toNat →
    (i = .amSend d a b → s.tile.feat.getLsbD 8 = false → h % 2 ^ 22 / 1024 ≠ s.pkg.toNat →
      exec i s = .next (s.takeTrap (raise .ill))) ∧
    (i = .amSend d a b → (s.tile.feat.getLsbD 8 = true ∨ h % 2 ^ 22 / 1024 = s.pkg.toNat) →
      (12 ≤ h / 2 ^ 22 % 256 → h / 2 ^ 22 % 256 ≤ 14 → s.st.lvl = 0 → exec i s = .next (s.takeTrap (raise .priv))) ∧
      (h / 2 ^ 22 % 256 < 12 ∨ 15 ≤ h / 2 ^ 22 % 256 ∨ s.st.lvl ≠ 0 →
        (2 ^ 36 ≤ h ∨ 6 < h / 2 ^ 33 % 8 → exec i s = .next (s.takeTrap (raise .prot))) ∧
        (h < 2 ^ 36 → h / 2 ^ 33 % 8 ≤ 6 →
          (s.destInPaddock (h % 2 ^ 22) = false → h / 2 ^ 22 % 256 ≠ 12 →
            h / 2 ^ 22 % 256 ≠ 13 → exec i s = .next (s.takeTrap (raise .prot))) ∧
          (s.destInPaddock (h % 2 ^ 22) = true ∨ h / 2 ^ 22 % 256 = 12 ∨ h / 2 ^ 22 % 256 = 13 →
            (∀ j, j < h / 2 ^ 33 % 8 → LocalOk s (s.reg b + BitVec.ofNat 64 (8 * j)) 8 false) →
            (s.canBuffer = false → exec i s = .next (s.takeTrap (raise .qfault))) ∧
            (s.canBuffer = true → (s.cur = .main → s.tile.act ≠ none) → (s.cur = .handler → s.tile.handlerRun ≠ none) →
              (0 < h / 2 ^ 33 % 8 → Readable s (s.reg b).toNat (8 * (h / 2 ^ 33 % 8))) → ∃ (u : State) (m : Msg), exec i s = .next u ∧
              u.buffered = s.buffered ++ [m] ∧ m.entry = h / 2 ^ 22 % 256 ∧ m.kind = 0 ∧ m.len = h / 2 ^ 33 % 8 ∧
              m.dest.toNat = h % 2 ^ 22 ∧ m.source.toNat = s.gid s.tile.ltn % 2 ^ 22 ∧ m.id = s.tile.msgSeq ∧
              m.paddock = s.tile.paddock ∧ m.l1 = (s.st.lvl != 0) ∧
              m.lane.toNat = (if m.entry ≤ 4 then (m.dw 0).toNat / 64 % 8 else h / 2 ^ 30 % 8) ∧
              (∀ j, j < 6 → (m.dw j).toNat = if j < m.len then s.seen.readLe ((s.reg b).toNat + 8 * j) 8 else 0) ∧
              u.tile.msgSeq = s.tile.msgSeq + 1 ∧ (∀ x, u.reg x = if x = d ∧ d ≠ 0 then s.tile.msgSeq.zeroExtend 64 else s.reg x) ∧
              u.msgs = s.msgs ∧ SameVectors s u ∧ SameContexts s u ∧ SameSpecial s u ∧ SameBytes s u))))) ∧
    (i = .amReply a b → s.tile.handlerRun = some r → s.tile.mailbox.head? = some g →
      (2 ^ 11 ≤ h ∨ 6 < h / 2 ^ 8 % 8 → exec i s = .next (s.takeTrap (raise .prot))) ∧
      (h < 2 ^ 11 → h / 2 ^ 8 % 8 ≤ 6 → (∀ j, j < h / 2 ^ 8 % 8 → LocalOk s (s.reg b + BitVec.ofNat 64 (8 * j)) 8 false) →
        (16 ≤ r.msgs.length ∨ r.replied = true → exec i s = .next (s.takeTrap (raise .qfault))) ∧
        (r.msgs.length < 16 → r.replied = false → (0 < h / 2 ^ 8 % 8 → Readable s (s.reg b).toNat (8 * (h / 2 ^ 8 % 8))) →
          ∃ (u : State) (m : Msg), exec i s = .next u ∧ u.tile.handlerRun = some { r with msgs := r.msgs ++ [m], replied := true } ∧
            m.entry = h % 256 ∧ m.kind = 1 ∧ m.len = h / 2 ^ 8 % 8 ∧ m.id = g.id ∧ m.dest = g.source ∧
            (∀ j, j < 6 → (m.dw j).toNat = if j < m.len then s.seen.readLe ((s.reg b).toNat + 8 * j) 8 else 0) ∧
            u.msgs = s.msgs ∧ (∀ x, u.reg x = s.reg x) ∧ SameVectors s u ∧ SameContexts s u ∧ SameSpecial s u ∧ SameBytes s u))) ∧
    (i = .amStat d sel → ∀ v : Nat, (sel = 0 ∧ v = (s.tile.sendQ.filter fun e => e.strand.isSome).length) ∨ (sel = 1 ∧ v = min s.tile.refusals (2 ^ 32 - 1)) ∨
        (sel = 2 ∧ v = (s.tile.sendQ.head?.map SendEntry.refusals).getD 0) ∨
        (sel = 3 ∧ v = s.tile.mailbox.length + (if s.large then 256 else 0)) ∨
        (sel = 4 ∧ ((s.cur = .handler ∧ s.tile.mailbox.head? = some g ∧ v = g.id.toNat) ∨ (s.cur = .main ∧ v = 0))) →
      ScalarResult (exec i s) s d (BitVec.ofNat 64 v)) ∧
    (i = .amEnd → s.tile.handlerRun = some r → r.ending = false →
      (s.atomicsDone = false → exec i s = .next (s.onSt fun x => { x with wait := some (.retry .memory) })) ∧
      (s.atomicsDone = true → s.tile.firstErr s.runRef = none →
        (16 < (s.tile.sendQ.filter fun e => e.strand.isSome).length + r.msgs.length →
          exec i s = .next (s.onSt fun x => { x with wait := some (.retry .queue) })) ∧
        ((s.tile.sendQ.filter fun e => e.strand.isSome).length + r.msgs.length ≤ 16 → ∃ u : State, exec i s = .next u ∧
          u.tile.sendQ.map SendEntry.msg = s.tile.sendQ.map SendEntry.msg ++ r.msgs ∧ u.tile.main = s.tile.main ∧
          SameVectors s u ∧ SameContexts s u ∧ SameTileControl s u ∧ SameBytes s u ∧
          (s.strandWaits .handler 1 3 = true → u.tile.handlerRun = some { r with msgs := [], ending := true } ∧
            u.tile.mailbox = s.tile.mailbox ∧ u.tile.handler.wait = some (.retry .memory)) ∧
          (s.strandWaits .handler 1 3 = false → u.tile.handlerRun = none ∧ u.tile.handler.act = false ∧
            u.tile.mailbox = s.tile.mailbox.drop 1))) ∧
      (∀ (c : CReg) (e : ErrRec), s.atomicsDone = true → s.tile.firstErr s.runRef = some (c, e) →
        exec i s = .next ((s.takeErr c).takeTrap
          { cause := Cause.ofCode e.cause, addr := BitVec.ofNat 64 e.num, info := e.info c, localSrc := e.localSrc }))) ∧
    (i = .amEnd → s.tile.handlerRun = some r → r.ending = true → ∃ u : State, exec i s = .next u ∧
      u.tile.sendQ.map SendEntry.msg = s.tile.sendQ.map SendEntry.msg ∧ u.tile.main = s.tile.main ∧ SameVectors s u ∧ SameContexts s u ∧
      SameTileControl s u ∧ SameBytes s u ∧
      (s.strandWaits .handler 1 3 = true → u.tile.handlerRun = some { r with msgs := [] } ∧ u.tile.mailbox = s.tile.mailbox ∧
        u.tile.handler.wait = some (.retry .memory)) ∧
      (s.strandWaits .handler 1 3 = false → u.tile.handlerRun = none ∧ u.tile.handler.act = false ∧
        u.tile.mailbox = s.tile.mailbox.drop 1)) ∧
    (∀ t : State, t.cur = .main → ∀ j, (j = .amReply a b ∨ j = .amEnd) → t.st.ximm = none → t.st.hint = none →
      exec j t = .next (t.takeTrap (raise .ill)))

/-- 11 R245-R248, R251, R252: a message at its tile takes a slot behind the others; one whose entry is not valid is rejected, one
that finds no slot is refused, a refusal or a reject takes no slot, and one behind an unaccepted message of its source goes on
waiting, an ack too (12 R278). Its acceptance frees its send-queue entry; a refusal sets a back-off of 64 to 8,192 tile cycles, after
which the entry is sent again; a reject discards it with a record. The handler strand starts on the oldest slot: s1 the ID, s2 the source, s3 to s8 the
payload, s9 the header. -/
def Obligations.MessageEvents : Prop :=
  ∀ (s : State) (k : Nat) (f : MsgFlight) (m : Msg) (l : Nat) (e : SendEntry), s.input.k = k → f.msg = m → l = m.dest.toNat % 1024 →
    (s.msgs[k]? = some f → f.phase = .toDest → m.dest.toNat / 1024 = s.pkg.toNat →
      (2 ≤ m.kind.toNat → ∃ u : State, exec .messageArrival s = .next u ∧ u.msgs = dropAt k s.msgs ∧ u.tile = s.tile) ∧
      (m.kind.toNat < 2 → (∃ g ∈ s.msgs.take k, g.phase = .toDest ∧ s.ordered g.msg m = true) → exec .messageArrival s = .next s) ∧
      (m.kind.toNat < 2 → m.entry = 14 → s.sentBefore m f.rel = true → exec .messageArrival s = .next s) ∧
      (m.kind.toNat < 2 → (∀ g ∈ s.msgs.take k, g.phase = .toDest → s.ordered g.msg m = false) →
        (m.entry = 14 → s.sentBefore m f.rel = false) →
        ((s.getTile l).entryValid m.entry = false → ∃ u : State, exec .messageArrival s = .next u ∧ u.tile = s.tile ∧
          u.msgs = modAt (fun x => { x with phase := .rejected 1 }) k s.msgs) ∧
        ((s.getTile l).entryValid m.entry = true →
          (m.reserved = false → 28 ≤ (s.getTile l).mailbox.length → ∃ u : State, exec .messageArrival s = .next u ∧ u.tile = s.tile ∧
            u.msgs = modAt (fun x => { x with phase := .refused }) k s.msgs) ∧
          (m.reserved = true → 32 ≤ (s.getTile l).mailbox.length → exec .messageArrival s = .next s) ∧
          ((s.getTile l).mailbox.length < 28 ∨ m.reserved = true ∧ (s.getTile l).mailbox.length < 32 →
            ∃ u : State, exec .messageArrival s = .next u ∧ (u.getTile l).mailbox = (s.getTile l).mailbox ++ [m] ∧
              u.msgs = modAt (fun x => { x with phase := .accepted }) k s.msgs ∧ SameBytes s u)))) ∧
    (s.msgs[k]? = some f → s.ours m = true → m.source.toNat % 1024 = s.tile.ltn → s.tile.sendQ = [e] → e.msg = m → e.phase = .sent →
      (f.phase = .accepted → ∃ u : State, exec .acceptance s = .next u ∧ u.msgs = dropAt k s.msgs ∧ u.tile.sendQ = []) ∧
      (f.phase = .refused → ∃ u : State, exec .refusal s = .next u ∧ u.msgs = dropAt k s.msgs ∧ u.tile.refusals = min (s.tile.refusals + 1) (2 ^ 32 - 1) ∧
        u.tile.sendQ = [{ e with phase := .backoff, refusals := e.refusals + 1, backoff := min 8192 (64 * 2 ^ e.refusals) }] ∧
        (e.refusals ≠ 63 → u.records = s.records) ∧ (e.refusals = 63 → u.records.length = s.records.length + 1)) ∧
      (∀ w, f.phase = .rejected w → ∃ (u : State) (x : RecordWait), exec .reject s = .next u ∧ u.msgs = dropAt k s.msgs ∧
        u.tile.sendQ = [] ∧ u.records = s.records ++ [x] ∧ x.queue = (if w = 4 then .gleaner else .fault) ∧
        x.bytes.getD 0 0 = 23 ∧ x.bytes.getD 2 0 = w)) ∧
    (s.tile.sendQ[k]? = some e → e.phase = .backoff →
      (e.backoff ≠ 0 → exec .messageResend s = .next s) ∧
      (e.backoff = 0 → e.msg.dest.toNat / 1024 = s.pkg.toNat → ∃ u : State, exec .messageResend s = .next u ∧
        u.tile.sendQ = modAt (fun x => { x with phase := .sent }) k s.tile.sendQ ∧
        u.msgs = s.msgs ++ [{ msg := e.msg, rel := e.rel, phase := .toDest }])) ∧
    (s.tile.handlerRun = none → s.tile.halted = false → s.tile.remapping = false → s.halted = false →
      s.tile.mailbox.head? = some m → 16 ≤ m.entry →
      ((s.tile.handlers.find? fun x => x.idx == m.entry) = none → ∃ u : State, exec .handlerStart s = .next u ∧
        u.tile.mailbox = s.tile.mailbox.drop 1 ∧ u.records.length = s.records.length + 1 ∧ u.tile.handlerRun = none) ∧
      ∀ h : HandlerEntry, (s.tile.handlers.find? fun x => x.idx == m.entry) = some h →
        ((s.tile.ctxs[h.ctx.toNat]'(h.ctx.isLt)).state = .unbound → ∃ u : State, exec .handlerStart s = .next u ∧
          u.tile.mailbox = s.tile.mailbox.drop 1 ∧ u.records.length = s.records.length + 1 ∧ u.tile.handlerRun = none) ∧
        ((s.tile.ctxs[h.ctx.toNat]'(h.ctx.isLt)).state ≠ .unbound → ∃ (u : State) (r : HandlerRun), exec .handlerStart s = .next u ∧
          u.tile.mailbox = s.tile.mailbox ∧ u.tile.handlerRun = some r ∧ r.msgs = [] ∧ r.replied = false ∧ r.ending = false ∧
          u.tile.handler.pc = h.pc ∧ u.tile.handler.act = true ∧ u.tile.handler.ctx = h.ctx ∧
          u.tile.handler.lvl = (s.tile.ctxs[h.ctx.toNat]'(h.ctx.isLt)).lvl ∧ u.tile.handler.wait = none ∧
          u.tile.handler.regs.toList[1]? = some (m.id.zeroExtend 64) ∧ u.tile.handler.regs.toList[2]? = some (m.source.zeroExtend 64) ∧
          (∀ j, j < 6 → u.tile.handler.regs.toList[3 + j]? = m.payload.toList[j]?) ∧
          u.tile.handler.regs.toList[9]? = some (BitVec.ofNat 64 m.head) ∧ u.tile.main = s.tile.main ∧ SameBytes s u)) ∧
    (s.tile.handlerRun.isSome = true ∨ s.tile.remapping = true → exec .handlerStart s = .next s)

/-- 11 R253: the built-in handlers act on the scratchpad under the regions of the sender's level: entries 0, 2 and 4 store the low
bytes of a doubleword, entry 1 answers a load, entry 3 adds, swaps, compares and swaps, or takes the unsigned maximum, and answers
the old value where it is asked to. One that the check refuses is rejected with code 2, and one that meets an uncorrectable word
with code 5; neither changes a byte. A reply enters the send queue, and leaves at once where nothing earlier holds it. 12 R276: each waits
while the fence that ends it would wait for an access of the handler strand (log 41). -/
def Obligations.BuiltInHandlers : Prop :=
  ∀ (s : State) (i : Instr) (m : Msg) (n : Nat) (a : Nat) (lvl : BitVec 2) (ok : Bool → Prop) (quiet : Msg → Prop), s.tile.handlerRun = none →
    (∀ r, quiet r ↔ s.tile.sendQ = [] ∧ s.packets = [] ∧ (∀ f ∈ s.msgs, f.msg.entry ≠ 14) ∧ r.dest.toNat / 1024 = s.pkg.toNat) →
    s.tile.halted = false → s.tile.remapping = false → s.halted = false → s.tile.mailbox.head? = some m → n = (if m.entry = 3 then 8 else 2 ^ ((m.dw 1).toNat % 4)) →
    a = (m.dw 0).toNat → lvl = (if m.l1 then 1 else 0) → s.tile.spad.wf = true →
    (∀ w, ok w ↔ a % n = 0 ∧ a + n ≤ 2 ^ 20 ∧ s.tile.regionOk lvl a n w = true) →
    (s.strandWaits .handler 1 3 = true → (i = .remoteStore ∨ i = .remoteLoad ∨ i = .remoteAtomic ∨ i = .loadReply ∨ i = .atomicReply) →
      exec i s = .next s) ∧
    (s.strandWaits .handler 1 3 = false →
    ((i = .remoteStore ∧ m.entry = 0) ∨ (i = .loadReply ∧ m.entry = 2) ∨ (i = .atomicReply ∧ m.entry = 4) →
      (ok true → ∃ u : State, exec i s = .next u ∧ u.tile.mailbox = s.tile.mailbox.drop 1 ∧ u.msgs = s.msgs ∧ u.mem = s.mem ∧
        u.tile.spad.readLe a n = (m.dw 2).toNat % 2 ^ (8 * n) ∧
        ∀ x, x < a ∨ a + n ≤ x → u.tile.spad.read x = s.tile.spad.read x) ∧
      (¬ ok true → ∃ u : State, exec i s = .next u ∧ u.tile.mailbox = s.tile.mailbox.drop 1 ∧
        u.msgs = s.msgs ++ [{ msg := m, rel := 0, phase := .rejected 2 }] ∧ SameBytes s u)) ∧
    (i = .remoteLoad → m.entry = 1 →
      (ok false → Readable s a n → ∃ (u : State) (r : Msg), exec i s = .next u ∧
        u.tile.mailbox = s.tile.mailbox.drop 1 ∧ u.tile.sendQ.map SendEntry.msg = s.tile.sendQ.map SendEntry.msg ++ [r] ∧
        (quiet r → u.msgs = s.msgs ++ [{ msg := r, rel := s.tile.relNo, phase := .toDest }]) ∧ r.entry = 2 ∧ r.kind = 1 ∧
        r.dest = m.source ∧ r.id = m.id ∧ r.dw 0 = m.dw 2 ∧ r.dw 1 = m.dw 1 ∧ (r.dw 2).toNat = s.tile.spad.readLe a n ∧ SameBytes s u) ∧
      (¬ ok false → ∃ u : State, exec i s = .next u ∧ u.msgs = s.msgs ++ [{ msg := m, rel := 0, phase := .rejected 2 }] ∧ SameBytes s u) ∧
      (ok false → ¬ Readable s a n → ∃ u : State, exec i s = .next u ∧ u.msgs = s.msgs ++ [{ msg := m, rel := 0, phase := .rejected 5 }] ∧
        SameBytes s u)) ∧
    (i = .remoteAtomic → m.entry = 3 → ¬ ok false ∨ ¬ ok true → ∃ u : State, exec i s = .next u ∧
      u.msgs = s.msgs ++ [{ msg := m, rel := 0, phase := .rejected 2 }] ∧ SameBytes s u) ∧
    (i = .remoteAtomic → m.entry = 3 → ok false → ok true → ¬ Readable s a 8 → ∃ u : State, exec i s = .next u ∧
      u.msgs = s.msgs ++ [{ msg := m, rel := 0, phase := .rejected 5 }] ∧ SameBytes s u) ∧
    (i = .remoteAtomic → m.entry = 3 → ok false → ok true → Readable s a 8 → ∀ (o x c v : Nat), o = s.tile.spad.readLe a 8 →
      x = (m.dw 2).toNat → c = (m.dw 3).toNat →
      (((m.dw 1).toNat % 4 = 0 ∧ v = (o + x) % 2 ^ 64) ∨ ((m.dw 1).toNat % 4 = 1 ∧ v = x) ∨
        ((m.dw 1).toNat % 4 = 2 ∧ v = if o = c then x else o) ∨ ((m.dw 1).toNat % 4 = 3 ∧ v = max o x)) →
      ∃ u : State, exec i s = .next u ∧ u.tile.mailbox = s.tile.mailbox.drop 1 ∧ u.tile.spad.readLe a 8 = v ∧ u.mem = s.mem ∧
        (∀ y, y < a ∨ a + 8 ≤ y → u.tile.spad.read y = s.tile.spad.read y) ∧
        (m.dw 4 = BitVec.allOnes 64 → u.msgs = s.msgs ∧ u.tile.sendQ = s.tile.sendQ) ∧
        (m.dw 4 ≠ BitVec.allOnes 64 → ∃ r : Msg, u.tile.sendQ.map SendEntry.msg = s.tile.sendQ.map SendEntry.msg ++ [r] ∧
          (quiet r → u.msgs = s.msgs ++ [{ msg := r, rel := s.tile.relNo, phase := .toDest }]) ∧ r.entry = 4 ∧ r.kind = 1 ∧ r.dest = m.source ∧ r.dw 0 = m.dw 4 ∧ (r.dw 2).toNat = o)))

/-! ### Sheaves (10 R220-R242) -/

/-- 10 R223, R239-R242: over an operand whose checks pass, with no command in flight and no damaged word, `sh.tag` answers the tag of
its last block, and writes each square's tag at bytes 32 to 39 of its header and nothing else; `sh.chk` answers which blocks are
untagged and which fail. `sh.red` buffers the send of a tagged record whose residue agrees, and raises QFAULT for one that may not be
sent and SHEAF for one that disagrees; `sh.ack` buffers an ack, QFAULT for route 0; `sh.rel` frees an entry and answers its state. The
model's choice: the bits of the registers of `sh.ack` and `sh.rel` above the fields they name are not checked (log 30). -/
def Obligations.SheafInstructions : Prop :=
  ∀ (s : State) (i : Instr) (d a b : SReg) (o : Operand) (act : Activation) (n v : Nat), Issues i s →
    o = s.tile.operand (s.reg a).toNat → v = (s.reg b).toNat → s.tile.act = some act →
    (n = v % 32 → 1 ≤ n → n ≤ 16 → v / 32 % 8 = 0 → (isSquareFmt o.fmt = true ∨ n = 1) → o.aligned = true →
      o.rangeOk s.tile s.st.lvl n false = true → s.tile.thresher = [] → s.tile.wain = [] → s.tile.spadBad = [] →
      (i = .shTag d a b → v < 2 ^ 32 → s.tile.spad.wf = true →
        (isSquareFmt o.fmt = false → ScalarResult (exec i s) s d
          (BitVec.ofNat 64 (makeTag (o.residue s.tile 0) (v / 2 ^ 8 % 2 ^ 16) (v / 2 ^ 24 % 2 ^ 8) true))) ∧
        (isSquareFmt o.fmt = true → (∀ j, j < n → s.tile.regionOk s.st.lvl (o.headerAddr j) 64 true = true) →
          ∃ u : State, exec i s = .next u ∧
            (∀ j, j < n → u.tile.spad.readLe (o.headerAddr j + 32) 8 =
              makeTag (o.residue s.tile j) (v / 2 ^ 8 % 2 ^ 16) (v / 2 ^ 24 % 2 ^ 8) false) ∧
            (∀ x, (∀ j, j < n → x < o.headerAddr j + 32 ∨ o.headerAddr j + 40 ≤ x) → u.tile.spad.read x = s.tile.spad.read x) ∧
            (∀ r, u.reg r = if r = d ∧ d ≠ 0 then
              BitVec.ofNat 64 (makeTag (o.residue s.tile (n - 1)) (v / 2 ^ 8 % 2 ^ 16) (v / 2 ^ 24 % 2 ^ 8) false) else s.reg r) ∧
            u.mem = s.mem ∧ SameVectors s u ∧ SameContexts s u ∧ SameSpecial s u)) ∧
      (i = .shChk d a b → v < 2 ^ 8 → ∀ (w : DW) (tag : Nat → Nat),
        (∀ j, tag j = if isSquareFmt o.fmt then hTag (o.header s.tile j) else (s.reg d).toNat) →
        (∀ j, j < 64 → w.getLsbD j =
          ((decide (16 ≤ j ∧ j < 16 + n) && (tag (j - 16) == 0)) ||
            (decide (j < n) && (tag j != 0) && (tagBad (tag j) || (tagResidue (tag j) != o.residue s.tile j))))) →
        ScalarResult (exec i s) s d w)) ∧
    (i = .shRed a b → s.tile.spadBad = [] →
      (2 ≤ v → exec i s = .next (s.takeTrap (raise .prot))) ∧
      (v < 2 → (o.plane = true ∨ o.fmt ≠ 15) → exec i s = .next (s.takeTrap (raise .bankfmt))) ∧
      (∀ t, v < 2 → o.plane = false → o.fmt = 15 → o.aligned = true → o.rangeOk s.tile s.st.lvl 1 false = true →
        t = hTag (o.header s.tile 0) →
        (t = 0 ∨ tagPlain t = true ∨ tagBad t = true ∨ tagRoute t = 0 → exec i s = .next (s.takeTrap (raise .qfault))) ∧
        (t ≠ 0 → tagPlain t = false → tagBad t = false → tagRoute t ≠ 0 →
          (o.residue s.tile 0 ≠ tagResidue t → ∃ (u : State), exec i s = .next (u.takeTrap { cause := .sheaf, addr := s.reg a }) ∧
            u = s.localRecord (o.header s.tile 0) (tagResidue t) (o.residue s.tile 0) (s.reg a).toNat) ∧
          (o.residue s.tile 0 = tagResidue t →
            (32 ≤ s.tile.retention.length + s.redsBuffered ∨ 32 ≤ act.outputs.length → exec i s = .next (s.takeTrap (raise .qfault))) ∧
            (s.tile.retention.length + s.redsBuffered < 32 → act.outputs.length < 32 → ∃ u : State, exec i s = .next u ∧
              u.tile.act = some { act with outputs := act.outputs ++ [.red (s.reg a).toNat (v == 1)] } ∧
              u.tile.retention = s.tile.retention ∧ u.tile.shSends = s.tile.shSends ∧ (∀ r, u.reg r = s.reg r) ∧
              SameVectors s u ∧ SameContexts s u ∧ SameSpecial s u ∧ SameBytes s u))))) ∧
    (i = .shAck a b →
      (v % 2 ^ 16 = 0 ∨ 32 ≤ act.outputs.length → exec i s = .next (s.takeTrap (raise .qfault))) ∧
      (v % 2 ^ 16 ≠ 0 → act.outputs.length < 32 → ∃ u : State, exec i s = .next u ∧
        u.tile.act = some { act with outputs := act.outputs ++
          [.ack ((s.reg a).extractLsb' 0 48) (BitVec.ofNat 16 v) (BitVec.ofNat 8 (v / 2 ^ 16))] } ∧
        (∀ r, u.reg r = s.reg r) ∧ SameVectors s u ∧ SameContexts s u ∧ SameSpecial s u ∧ SameBytes s u)) ∧
    (i = .shRel d a b →
      ((∀ r ∈ s.tile.retention, r.is (s.reg a).toNat (v / 2 ^ 16 % 2 ^ 8) = false) → ScalarResult (exec i s) s d 2) ∧
      (∀ r, (s.tile.retention.find? fun x => x.is (s.reg a).toNat (v / 2 ^ 16 % 2 ^ 8)) = some r → ∃ u : State, exec i s = .next u ∧
        u.tile.retention = dropFirst (fun x => x.is (s.reg a).toNat (v / 2 ^ 16 % 2 ^ 8)) s.tile.retention ∧
        (∀ x, u.reg x = if x = d ∧ d ≠ 0 then (if r.st = .acked then 1 else 0) else s.reg x) ∧
        SameVectors s u ∧ SameContexts s u ∧ SameSpecial s u ∧ SameBytes s u))

/-- 10 R225-R236: a released send leaves with a retention entry, SENT where its residue agrees with its tag, FAILED and charged
where it does not. At a switch, an undamaged record on a route with one entry goes on with HOP 1 more, or is delivered with HOP 0
at port 0; one that disagrees with its tag goes on with BAD; without an entry it is dropped and charged. A complete reduction slot
sends one record with the element-wise sums modulo 2^32, a slot whose E differ none, and one still incomplete after 2^20 ns is
freed. A resend writes the new GEN and HOP 0; an ack marks its entries and frees those with AUTO. The model's choice: the field in which a
tile keeps what no queue takes, and the doublewords of acks and resends (log 30); damage on the way is an input, and an untagged record
fails at its departure (log 67). -/
def Obligations.SheafNetwork : Prop :=
  ∀ (s : State) (k : Nat), s.input.k = k →
    (∀ (x : ShSend) (xs : List ShSend) (bs : List Byte) (t : Nat), s.tile.shSends = x :: xs → x.resend = false → s.tile.spadBad = [] →
      bs = s.tile.readSpad x.addr 4160 → t = recTag bs → t ≠ 0 → tagBad t = false →
      ∃ (u : State) (e : Retention) (p : Packet), exec .shRedDeparture s = .next u ∧ u.tile.shSends = xs ∧
        u.tile.retention = s.tile.retention ++ [e] ∧ e.addr = x.addr ∧ e.auto = x.auto ∧ e.gen.toNat = tagGen t ∧
        e.chunk.toNat = hChunk (recHeader bs) ∧ e.tensor.toNat = hTensor (recHeader bs) ∧ u.packets = s.packets ++ [p] ∧
        p.switch = s.tile.ltn ∧ p.port = 0 ∧ p.route.toNat = tagRoute t ∧ p.paddock = s.tile.paddock ∧
        (recResidue bs = tagResidue t → e.st = .sent ∧ p.body = .sheaf bs ∧ u.records = s.records) ∧
        (recResidue bs ≠ tagResidue t → e.st = .failed ∧ (∀ ys, p.body = .sheaf ys → tagBad (recTag ys) = true) ∧
          u.records.length = s.records.length + 1)) ∧
    (∀ (p : Packet) (bs : List Byte) (t : Nat) (r : RouteEntry), s.packets[k]? = some p → p.body = .sheaf bs → s.input.bits = 0 →
      bs.length = 4160 → t = recTag bs → t ≠ 0 → tagBad t = false → tagHop t < 63 → p.route ≠ 0 →
      (s.routesFor p = [r] → r.red = false →
        (∀ q, 1 ≤ q → q ≤ 4 → maskPorts r.outMask = [q] → ∃ (u : State) (ys : List Byte), exec .switchArrival s = .next u ∧
          u.packets = dropAt k s.packets ++ [{ p with switch := (neighbour p.switch q).1, port := (neighbour p.switch q).2, body := .sheaf ys }] ∧
          tagHop (recTag ys) = tagHop t + 1 ∧ recCodes ys = recCodes bs ∧
          (recResidue bs = tagResidue t → tagBad (recTag ys) = false ∧ u.records = s.records) ∧
          (recResidue bs ≠ tagResidue t → tagBad (recTag ys) = true ∧ u.records.length = s.records.length + 1)) ∧
        (maskPorts r.outMask = [0] → recResidue bs = tagResidue t → ∃ (u : State) (ys : List Byte), exec .switchArrival s = .next u ∧
          u.packets = dropAt k s.packets ∧ (u.getTile p.switch).delivered = (s.getTile p.switch).delivered ++ [ys] ∧
          tagHop (recTag ys) = 0 ∧ recCodes ys = recCodes bs ∧ u.records = s.records)) ∧
      (s.routesFor p = [] → recResidue bs = tagResidue t → ∃ u : State, exec .switchArrival s = .next u ∧
        u.packets = dropAt k s.packets ∧ u.records.length = s.records.length + 1)) ∧
    (∀ (x : RedSlot) (r : RouteEntry) (i : Nat × Packet) (is : List (Nat × Packet)), s.slots[k]? = some x →
      (s.routes.find? fun r => r.switch == x.switch && r.route == x.route && r.paddock == x.paddock && r.red) = some r →
      x.inputs = i :: is →
      (x.complete r = false → exec .reductionEmit s = .next s) ∧
      (x.complete r = true → (∀ y ∈ x.inputs, ∃ bs, y.2.body = .sheaf bs ∧ bs.length = 4160) →
        (∀ bs ∈ x.records, ∀ cs ∈ x.records, hE (recHeader bs) = hE (recHeader cs)) → s.input.bits = 0 →
        ∀ q, 1 ≤ q → q ≤ 4 → maskPorts r.outMask = [q] → ∃ (u : State) (p : Packet) (ys : List Byte), exec .reductionEmit s = .next u ∧
          u.slots = dropAt k s.slots ∧ u.packets = s.packets ++ [p] ∧ p.body = .sheaf ys ∧ p.switch = (neighbour i.2.switch q).1 ∧
          ∀ e, e < 1024 → (recCodes ys).getD e 0 = (x.records.map fun bs => (recCodes bs).getD e 0).sum % 2 ^ 32) ∧
      (x.complete r = true → (∃ bs ∈ x.records, ∃ cs ∈ x.records, hE (recHeader bs) ≠ hE (recHeader cs)) →
        ∃ u : State, exec .reductionEmit s = .next u ∧ u.slots = dropAt k s.slots ∧ u.packets = s.packets ∧
          u.records.length = s.records.length + 1) ∧
      (s.tb.toNat < x.openedAt + 2 ^ 20 ∨ x.complete r = true → exec .redtimeout s = .next s) ∧
      (x.openedAt + 2 ^ 20 ≤ s.tb.toNat → x.complete r = false → ∃ u : State, exec .redtimeout s = .next u ∧ u.slots = dropAt k s.slots ∧
        u.packets = s.packets ∧ u.records.length = s.records.length + 1)) ∧
    (∀ (m : Msg) (w : Nat), s.tile.handlerRun = none → s.tile.halted = false → s.tile.remapping = false → s.halted = false → s.tile.mailbox.head? = some m →
      w = (m.dw 0).toNat →
      (m.entry = 13 → s.strandWaits .handler 1 3 = true → exec .sheafResend s = .next s) ∧
      (m.entry = 13 → s.strandWaits .handler 1 3 = false → (∀ r ∈ s.tile.retention, r.is w (w / 2 ^ 48 % 2 ^ 8) = false) → ∃ u : State, exec .sheafResend s = .next u ∧
        u.tile.mailbox = s.tile.mailbox.drop 1 ∧ u.msgs = s.msgs ++ [{ msg := m, rel := 0, phase := .rejected 4 }] ∧ SameBytes s u) ∧
      (∀ r : Retention, m.entry = 13 → s.strandWaits .handler 1 3 = false → s.tile.spad.wf = true → (s.tile.retention.find? fun x => x.is w (w / 2 ^ 48 % 2 ^ 8)) = some r →
        ∃ u : State, exec .sheafResend s = .next u ∧ u.tile.mailbox = s.tile.mailbox.drop 1 ∧
          tagGen (u.tile.spad.readLe (r.addr + 32) 8) = w / 2 ^ 56 ∧ tagHop (u.tile.spad.readLe (r.addr + 32) 8) = 0 ∧
          tagResidue (u.tile.spad.readLe (r.addr + 32) 8) = tagResidue (s.tile.spad.readLe (r.addr + 32) 8) ∧
          (∀ x, x < r.addr + 32 ∨ r.addr + 40 ≤ x → u.tile.spad.read x = s.tile.spad.read x) ∧
          u.tile.shSends = s.tile.shSends ++ [{ addr := r.addr, auto := r.auto, resend := true }]) ∧
      (m.entry = 14 → ∃ u : State, exec .ackDelivery s = .next u ∧ u.tile.mailbox = s.tile.mailbox.drop 1 ∧ SameBytes s u ∧
        u.tile.retention = (s.tile.retention.filter fun r => !(r.is w (w / 2 ^ 48 % 2 ^ 8) && r.auto)).map fun r =>
          if r.is w (w / 2 ^ 48 % 2 ^ 8) then { r with st := .acked } else r))

/-! ### Traps, waits and system registers (16 R349-R370, 02 R50-R57) -/

/-- 16 R349, R352-R356, 15 R331: a trap on the main strand writes SR_CAUSE, SR_EPC with the unit's first word and SR_FVAL with the
faulting word, or with the `ximm` before it, ends the activation, puts the held items back, restores the recorded flags, carry
set and CROUND, parks the context unless its local corruption is to be re-run, and posts a trap record. On the handler strand it
ends the handler; the message stays with REDEL increased, or is dropped at the third trap. Memory stays as it is.

13 R285, 16 R352: at an issue boundary of a strand that does not wait, the oldest failed atomic it did not await is raised, with
SR_EPC and SR_FVAL those of the atomic; while the strand waits nothing happens. -/
def Obligations.TrapsAndAsynchronousFaults : Prop :=
  (∀ (s : State) (t : TrapReq) (a : Activation) (m : Msg) (c : Ctx) (u : State), u = s.takeTrap t → c = s.cx →
     (u.st.cause = t.cause.code ∧ u.st.epc = s.st.unit ∧
       u.st.fval = (if t.back then s.st.pc - 4 else s.st.pc) ∧ u.st.act = false ∧ u.st.lvl = 0 ∧ u.st.hint = none ∧ u.st.ximm = none ∧
       u.st.wait = none ∧ u.st.mstepValid = false ∧ u.st.loop0.active = false ∧ u.st.loop1.active = false) ∧
     (s.cur = .main → s.tile.act = some a → c.killPending = false → u.tile.act = none ∧
       (u.tile.ctxs[s.st.ctx.toNat]'(s.st.ctx.isLt)).flags = a.recFlags ∧
       (u.tile.ctxs[s.st.ctx.toNat]'(s.st.ctx.isLt)).carry = a.recCarry ∧
       (u.tile.ctxs[s.st.ctx.toNat]'(s.st.ctx.isLt)).cround = a.recCround ∧ u.tile.phCtrl = a.recCtrl ∧ u.tile.phCtrh = a.recCtrh ∧
       (∀ p : QReg, (u.tile.ep p).ring = (s.tile.ep p).ring.map fun x => { x with held := false }) ∧
       (t.isLocal = false → (u.tile.ctxs[s.st.ctx.toNat]'(s.st.ctx.isLt)).state = .parked) ∧
       (t.isLocal = true → c.runs = 0 → c.parkPending = false → (u.tile.ctxs[s.st.ctx.toNat]'(s.st.ctx.isLt)).state = .idle) ∧
       (t.isLocal = true → c.runs = 2 → c.runsId = a.firstId → (u.tile.ctxs[s.st.ctx.toNat]'(s.st.ctx.isLt)).state = .parked) ∧
       (u.tile.handler.act = s.tile.handler.act ∧ u.tile.handlerRun = s.tile.handlerRun) ∧ SameBytes s u) ∧
     (s.cur = .handler → s.tile.mailbox.head? = some m → u.tile.handlerRun = none ∧ u.tile.main = s.tile.main ∧ u.tile.act = s.tile.act ∧
       u.tile.ctxs = s.tile.ctxs ∧ (m.redel < 2 → u.tile.mailbox = { m with redel := m.redel + 1 } :: s.tile.mailbox.drop 1) ∧
       (2 ≤ m.redel → u.tile.mailbox = s.tile.mailbox.drop 1) ∧ SameBytes s u) ∧
     ∃ r ∈ u.records, r.paddock = s.tile.paddock ∧ r.queue = .fault ∧ r.bytes.getD 0 0 = 16 ∧
       (r.bytes.getD 1 0).toNat = t.cause.code.toNat ∧ ofLe ((r.bytes.drop 8).take 8) = s.st.unit.toNat ∧
       ofLe ((r.bytes.drop 16).take 8) = u.st.fval.toNat ∧ ofLe ((r.bytes.drop 44).take 8) = t.addr.toNat ∧
       ofLe ((r.bytes.drop 52).take 4) = t.info.toNat) ∧
  (∀ (s : State) (st : StrandId) (f : AsyncFault) (fs : List AsyncFault), s.input.strand = st →
     ((s.tile.strand st).wait = none → (s.tile.strand st).asyncFaults = f :: fs →
       ∃ (u : State) (r : TrapReq), exec .asyncAtomicFault s = .next (u.trapStrand s.tile.ltn st r f.epc f.fval) ∧ r.cause = f.cause ∧ r.addr = f.addr ∧
         u = s.onTile fun t => t.modStrand st fun x => { x with asyncFaults := fs }) ∧
     ((s.tile.strand st).wait ≠ none ∨ (s.tile.strand st).asyncFaults = [] → exec .asyncAtomicFault s = .next s))

/-- 16 R360, R365-R367: `trap n` at L0 raises TRAP with INFO n, at L1 it is a monitor call that returns at the next word in the
same level, and without an assigned number writes 0xFF to s5; `brk n` raises BRK. `eret` and `halt` are the monitor's: below L2
they raise PRIV; `eret` takes up the recorded level at the word after SR_FVAL, `halt` stops the tile. `wfi` waits for an event
from its time on. A wait ends where its event says so. An overrun of ACT_BUDGET cuts a wait short, but no wait on a page event or
in the monitor, is raised at the next issue boundary with SR_EPC and SR_FVAL both the unit's start (the model's reading, log 49),
and does not hide a cause of the word there. -/
def Obligations.TrapsReturnsAndWaits : Prop :=
  ∀ (s : State) (n : BitVec 10) (st : StrandId) (k : WaitKind) (e : Instr) (x : Strand), x = s.tile.strand st →
    (Issues (.trap n) s →
      (s.st.lvl = 0 → exec (.trap n) s = .next (s.takeTrap { cause := .trap, info := n.zeroExtend 32 })) ∧
      (s.st.lvl = 1 → ∃ u : State, exec (.trap n) s = .next u ∧ u.st.lvl = 1 ∧ u.st.pc = s.st.pc + 4 ∧ u.st.cause = 0x0E ∧
        u.st.epc = s.st.unit ∧ u.st.fval = s.st.pc ∧ (∀ r, u.reg r = if r = 5 then 0xFF else s.reg r) ∧ u.tile.act = s.tile.act ∧
        u.records = s.records ∧ SameVectors s u ∧ SameContexts s u ∧ SameBytes s u) ∧
      (s.st.lvl = 2 → exec (.trap n) s = .next (s.takeTrap (raise .ill)))) ∧
    (Issues (.brk n) s → exec (.brk n) s = .next (s.takeTrap { cause := .brk, info := n.zeroExtend 32 })) ∧
    (Issues .eret s →
      (s.st.lvl ≠ 2 → exec .eret s = .next (s.takeTrap (raise .priv))) ∧
      (∀ l, s.st.lvl = 2 → s.st.callerLvl = some l → ∃ u : State, exec .eret s = .next u ∧ u.st.lvl = l ∧ u.st.pc = s.st.fval + 4 ∧
        u.st.unit = s.st.fval + 4 ∧ u.st.callerLvl = none ∧ (∀ r, u.reg r = s.reg r) ∧ SameVectors s u ∧ SameContexts s u ∧
        SameBytes s u)) ∧
    (Issues .halt s →
      (s.st.lvl ≠ 2 → exec .halt s = .next (s.takeTrap (raise .priv))) ∧
      (s.st.lvl = 2 → ∃ u : State, exec .halt s = .next u ∧ u.tile.halted = true ∧ (∀ r, u.reg r = s.reg r) ∧ SameVectors s u ∧
        SameContexts s u ∧ SameSpecial s u ∧ SameBytes s u)) ∧
    (Issues .wfi s → exec .wfi s = .next (s.onSt fun y => { y with wait := some (.event s.tb) })) ∧
    (s.input.strand = st →
      ((e = .memoryWaitEnd ∧ k = .memory) ∨ (e = .engineWaitEnd ∧ k = .engine) ∨ (e = .queueWaitEnd ∧ k = .queue) →
        (x.wait = some (.retry k) ∨ x.wait = some .monitor → ∃ u : State, exec e s = .next u ∧ u.tile.strand st = { x with wait := none } ∧ SameBytes s u) ∧
        (x.wait ≠ some (.retry k) → x.wait ≠ some .monitor → exec e s = .next s)) ∧
      (∀ t, x.wait = some (.time t) →
        (t.toNat ≤ s.tb.toNat → ∃ u : State, exec .timeWaitEnd s = .next u ∧ u.tile.strand st = x.retire ∧ SameBytes s u) ∧
        (s.tb.toNat < t.toNat → exec .timeWaitEnd s = .next s)) ∧
      (∀ b, b = (s.tile.ctxs[x.ctx.toNat]'(x.ctx.isLt)).budget.toNat →
        (x.act = false ∨ b = 0 ∨ x.cycles ≤ b ∨ x.wait = some .page ∨ x.wait = some .monitor → exec .budgetExpiry s = .next s) ∧
        (x.act = true → b ≠ 0 → b < x.cycles → x.wait ≠ some .page → x.wait ≠ some .monitor →
          ∃ u : State, exec .budgetExpiry s = .next u ∧ u.tile.strand st = { x with budgetDue := true, wait := none } ∧ SameBytes s u))) ∧
    (∀ (d a b : SReg), s.st.ximm = none → s.st.hint = none → s.st.budgetDue = true →
      exec (.add d a b) s = .next (s.trapStrand s.tile.ltn s.cur (raise .budget) s.st.unit s.st.unit) ∧
      (s.st.lvl ≠ 2 → exec .eret s = .next (s.takeTrap (raise .priv))))

/-- 16 R368, 02 R50-R57, 07 R164, 14 R310, 08 R180: `srd` answers the register's value, of SR_FLAGS the one that every earlier
instruction has completed (that they do so then is the model's choice: log 80); `swr` writes the writable fields of its register and no
other state, ignores a register without one, and below the register's level raises PRIV. A write to a loop register is pending
until the level's next test; one to a Philox register waits for the commands that draw, one to a BFMT for the commands in its bank,
and a plane-major layout of a format that has none raises BANKFMT. `tbrd` reads the time base, `waitt` waits for it. -/
def Obligations.SystemRegisters : Prop :=
  ∀ (s : State) (i : Instr) (d a : SReg) (r : BitVec 12) (v : DW) (n : BitVec 4), Issues i s → v = s.reg a → s.st.ximm = none →
    (∀ w : DW, ((r = 0x001 ∧ w = s.st.cause.zeroExtend 64) ∨ (r = 0x002 ∧ w = s.st.epc) ∨ (r = 0x004 ∧ w = s.st.fval) ∨
        (r = 0x003 ∧ w = BitVec.ofNat 64 (s.st.mstep.toNat + if s.st.mstepValid then 2 ^ 16 else 0)) ∨
        (r = 0x000 ∧ w = BitVec.ofNat 64 (s.st.lvl.toNat + (if s.cur = .handler then 4 else 0) + (if s.st.act then 8 else 0) +
          (if s.cur = .main then s.st.ctx.toNat * 16 else 0) + (if s.st.loop0.active then 64 else 0) +
          (if s.st.loop1.active then 128 else 0))) ∨
        (r = 0x008 ∧ w = s.tile.feat.zeroExtend 64) ∨ (r = 0x009 ∧ w = BitVec.ofNat 64 (s.gid s.tile.ltn)) ∨
        (r = 0x00A ∧ w = s.tile.paddock.zeroExtend 64) ∨ (r = 0x018 ∧ w = s.cx.budget.zeroExtend 64) ∨
        (r = 0x020 ∧ w = s.cx.cbase) ∨ (r = 0x021 ∧ w = s.cx.clim) ∨
        (r = 0x031 ∧ w = BitVec.ofNat 64 (s.cx.rm.toNat + if s.cx.sto && s.tile.feat.getLsbD 3 then 4 else 0)) ∨
        (r = 0x040 ∧ w = s.tile.phKey) ∨ (r = 0x041 ∧ w = s.tile.phCtrl) ∨ (r = 0x042 ∧ w = s.tile.phCtrh) ∨ (r = 0x200 ∧ w = s.tb) ∨
        (∃ j : Fin 16, r.toNat = 0x100 + j.val ∧ w = (s.tile.bfmt[j.val]).zeroExtend 64) ∨
        (∃ l : LoopLevel, ((l = s.st.loop0 ∧ r = 0x010) ∨ (l = s.st.loop1 ∧ r = 0x013)) ∧ w = (l.pendLc.getD l.lc).zeroExtend 64) ∨
        (∃ l : LoopLevel, ((l = s.st.loop0 ∧ r = 0x011) ∨ (l = s.st.loop1 ∧ r = 0x014)) ∧ w = l.pendLs.getD l.ls) ∨
        (∃ l : LoopLevel, ((l = s.st.loop0 ∧ r = 0x012) ∨ (l = s.st.loop1 ∧ r = 0x015)) ∧ w = l.pendLe.getD l.le)) →
      i = .srd d r → ScalarResult (exec i s) s d w) ∧
    (i = .srd d 0x030 → ∃ u : State, exec i s = .next u ∧
      (∀ y, u.reg y = if y = d ∧ d ≠ 0 then (s.cx.due.foldl (fun f x => f ||| x.2) s.cx.flags).zeroExtend 64 else s.reg y) ∧
      u.tile.ctxs = (s.tile.modCtx s.st.ctx Ctx.landFlags).ctxs ∧ SameVectors s u ∧ SameSpecial s u ∧ SameBytes s u) ∧
    (i = .swr r a →
      (s.st.lvl = 0 → (r = 0x001 ∨ r = 0x002 ∨ r = 0x003 ∨ r = 0x004 ∨ r = 0x018 ∨ r = 0x020 ∨ r = 0x021) →
        exec i s = .next (s.takeTrap (raise .priv))) ∧
      (s.st.lvl ≠ 0 → ∃ u : State, exec i s = .next u ∧ (∀ y, u.reg y = s.reg y) ∧ SameVectors s u ∧ SameTileControl s u ∧
        u.tile.ctrs = s.tile.ctrs ∧ SameBytes s u ∧ u.st.lvl = s.st.lvl ∧
        (r ∉ [0x018, 0x020, 0x021, 0x030, 0x031] → SameContexts s u) ∧
        u.st.cause = (if r = 0x001 then v.extractLsb' 0 5 else s.st.cause) ∧ u.st.epc = (if r = 0x002 then v else s.st.epc) ∧
        u.st.mstep = (if r = 0x003 then v.extractLsb' 0 16 else s.st.mstep) ∧
        u.st.mstepValid = (if r = 0x003 then v.getLsbD 16 else s.st.mstepValid) ∧
        u.st.fval = (if r = 0x004 then v else s.st.fval) ∧ u.cx.budget = (if r = 0x018 then v.extractLsb' 0 32 else s.cx.budget) ∧
        u.cx.cbase = (if r = 0x020 then v &&& ~~~3 else s.cx.cbase) ∧ u.cx.clim = (if r = 0x021 then v &&& ~~~3 else s.cx.clim)) ∧
      (r = 0x030 ∨ r = 0x031 ∨ r = 0x000 ∨ r = 0x008 ∨ r = 0x009 ∨ r = 0x00A ∨ r = 0x200 → ∃ u : State, exec i s = .next u ∧ (∀ y, u.reg y = s.reg y) ∧
        SameVectors s u ∧ SameSpecial s u ∧ SameBytes s u ∧ u.tile.feat = s.tile.feat ∧ u.tile.paddock = s.tile.paddock ∧ u.tb = s.tb ∧
        u.cx.flags = (if r = 0x030 then s.cx.flags &&& ~~~(v.extractLsb' 0 11) else s.cx.flags) ∧
        u.cx.rm = (if r = 0x031 then v.extractLsb' 0 2 else s.cx.rm) ∧
        u.cx.sto = (if r = 0x031 ∧ s.tile.feat.getLsbD 3 = true then v.getLsbD 2 else s.cx.sto))) ∧
    (∀ (l m : LoopLevel) (j : Nat), (i = .swrLoopReg r a ∧ r.toNat = 0x010 + j ∧ j < 3 ∧ l = s.st.loop0) ∨
        (i = .swrLoopReg r a ∧ r.toNat = 0x013 + j ∧ j < 3 ∧ l = s.st.loop1) →
      m = (if j = 0 then { l with pendLc := some (v.extractLsb' 0 32) } else if j = 1 then { l with pendLs := some (v &&& ~~~3) }
        else { l with pendLe := some (v &&& ~~~3) }) → l.active = false →
      ∃ u : State, exec i s = .next u ∧ (if r.toNat < 0x013 then u.st.loop0 else u.st.loop1) = m ∧ (∀ y, u.reg y = s.reg y) ∧
        SameVectors s u ∧ SameContexts s u ∧ SameSpecial s u ∧ SameBytes s u) ∧
    (i = .swrPhilox r a → (r = 0x040 ∨ r = 0x041 ∨ r = 0x042) →
      (s.tile.drawing = true → exec i s = .next (s.onSt fun x => { x with wait := some (.retry .engine) })) ∧
      (s.tile.drawing = false → ∃ u : State, exec i s = .next u ∧ u.tile.phKey = (if r = 0x040 then v else s.tile.phKey) ∧
        u.tile.phCtrl = (if r = 0x041 then v else s.tile.phCtrl) ∧ u.tile.phCtrh = (if r = 0x042 then v else s.tile.phCtrh) ∧
        (∀ y, u.reg y = s.reg y) ∧ SameVectors s u ∧ SameContexts s u ∧ SameBytes s u)) ∧
    (i = .swrBfmt n a ∨ i = .bfmtSet n a →
      (v.getLsbD 4 = true → planeCapable (v.toNat % 16) = false → exec i s = .next (s.takeTrap (raise .bankfmt))) ∧
      (v.getLsbD 4 = false ∨ planeCapable (v.toNat % 16) = true →
        (s.tile.bankBusy n.toNat = true → exec i s = .next (s.onSt fun x => { x with wait := some (.retry .engine) })) ∧
        (s.tile.bankBusy n.toNat = false → ∃ u : State, exec i s = .next u ∧
          (∀ m : BitVec 4, u.tile.bank m.toNat = if m = n then v.extractLsb' 0 5 else s.tile.bank m.toNat) ∧
          (∀ y, u.reg y = s.reg y) ∧ SameVectors s u ∧ SameContexts s u ∧ SameBytes s u))) ∧
    (i = .bfmtGet d n → ScalarResult (exec i s) s d ((s.tile.bfmt[n.toNat]'(n.isLt)).zeroExtend 64)) ∧
    (i = .tbrd d → ScalarResult (exec i s) s d s.tb) ∧
    (i = .tbrdSt d → ScalarResult (exec i s) s d (BitVec.ofNat 64 ((if s.synced then 1 else 0) + s.hops.toNat * 2 ^ 8))) ∧
    (i = .waitt a →
      (v.toNat ≤ s.tb.toNat → exec i s = .next s.retire) ∧
      (s.tb.toNat < v.toNat → exec i s = .next (s.onSt fun x => { x with wait := some (.time v) })))

/-- 16 R369, 14 R314, 04 R98, 16 R354, R355: `ifl` drops the cached words of its range, all of them for 0 bytes, from the instruction
caches that it names, which belong to the paddock, as the strands there pass their invalidation points; `tlbinv` is L1's, drops the leaves
of its range and ASID from every cache, and waits while an access of the paddock is open. Which strands pass at once (log 48), that `tlbinv`
drops when it issues and waits for every request, atomic and walk of the paddock (logs 74, 75) are the model's choices. A record is placed, behind the earlier ones of its queue, in a free slot of the queue's ring; without
one a fault record waits, and so does a message fault record to the gleaner, and a sheaf fault record is counted as lost. `ifl` waits
for the target strands that do not pass their invalidation points at once. -/
def Obligations.InvalidationsAndRecords : Prop :=
  ∀ (s s1 : State) (a b c : SReg) (v : Nat) (ts : List Nat) (rs : List (Nat × Nat)) (k : Nat) (r : RecordWait) (z : Queue) (m : Nat × Nat)
      (e : Endpoint) (q : Nat) (pass : Nat → StrandId → Prop),
    (∀ f : Ifl, s.ifls[k]? = some f → ∃ u : State, s.turn (.passPoint k) = .next u ∧
      u.ifls[k]? = some { f with targets := f.targets.filter fun t => !(s.betweenUnits t) } ∧ u.mem = s.mem ∧
      ∀ l, l < 1024 → (u.getTile l).icache = if ∃ t ∈ f.targets, s.betweenUnits t = true ∧ t.1 = s.pkg.toNat * 1024 + l then
        (s.getTile l).icache.filter (fun w => f.ranges ≠ none ∧ ∀ rs, f.ranges = some rs → ∀ p ∈ rs, ¬ (p.1 < w.1 + 4 ∧ w.1 < p.1 + p.2))
        else (s.getTile l).icache) ∧
    (∀ f : Ifl, Issues (.ifl a b c) s →
      (s.ifls.find? fun f => f.tile == s.tile.ltn && f.strand == s.cur && f.run == s.runRef.run) = some f →
      (f.targets ≠ [] → exec (.ifl a b c) s = .next (s.onSt fun x => { x with wait := some (.retry .memory) })) ∧
      (f.targets = [] → ∃ u : State, exec (.ifl a b c) s = .next u ∧ u.st.pc = s.st.retire.pc ∧ (∀ y, u.reg y = s.reg y) ∧
        SameVectors s u ∧ SameContexts s u ∧ SameSpecial s u ∧ SameBytes s u)) ∧
    (v = (s.reg a).toNat → ts = (if v / 2 ^ 22 % 4 = 0 then [v % 2 ^ 22] else if v / 2 ^ 22 % 4 = 1 then
        (List.range 32).map (fun x => x + v % 2 ^ 22 / 32 * 32) else
        ((List.range 1024).map (fun x => x + v % 2 ^ 22 / 1024 * 1024)).filter s.destInPaddock) →
      Issues (.ifl a b c) s → v / 2 ^ 10 % 2 ^ 12 = s.pkg.toNat →
      (∀ f ∈ s.ifls, f.tile ≠ s.tile.ltn ∨ f.strand ≠ s.cur ∨ f.run ≠ s.runRef.run) →
      (2 ^ 24 ≤ v ∨ v / 2 ^ 22 % 4 = 3 → exec (.ifl a b c) s = .next (s.takeTrap (raise .prot))) ∧
      (v < 2 ^ 24 → v / 2 ^ 22 % 4 ≠ 3 →
        ((s.reg b).toNat % 4 ≠ 0 → exec (.ifl a b c) s = .next (s.takeTrap { cause := .align, addr := s.reg b })) ∧
        ((s.reg b).toNat % 4 = 0 → (s.reg c).toNat ≤ 2 ^ 24 →
          ((∃ g ∈ ts, s.destInPaddock g = false) → exec (.ifl a b c) s = .next (s.takeTrap (raise .prot))) ∧
          ((∀ g ∈ ts, s.destInPaddock g = true) → s.iflPages (s.reg b).toNat (s.reg c).toNat 258 = .ok (rs, s1) →
            (∀ g st, pass g st ↔ s1.passesNow (g, st) = true ∨ g = s.gid s.tile.ltn ∧ st = s.cur) →
            ((∀ g ∈ ts, ∀ st, pass g st) →
              ∃ u : State, exec (.ifl a b c) s = .next u ∧ u.mem = s1.mem ∧ (∀ y, u.reg y = s1.reg y) ∧ ∀ l, l < 1024 →
                (u.getTile l).icache = if s.pkg.toNat * 1024 + l ∈ ts then (s1.getTile l).icache.filter (fun w =>
                  s.reg c ≠ 0 ∧ ∀ p ∈ rs, ¬ (p.1 < w.1 + 4 ∧ w.1 < p.1 + p.2)) else (s1.getTile l).icache) ∧
            ((∃ g ∈ ts, ∃ st, ¬ pass g st) → ∃ (u : State) (f : Ifl), exec (.ifl a b c) s = .next u ∧ f ∈ u.ifls ∧
              f.tile = s1.tile.ltn ∧ f.strand = s1.cur ∧ f.ranges = (if s.reg c = 0 then none else some rs) ∧
              (∀ g st, (g, st) ∈ f.targets ↔ g ∈ ts ∧ ¬ pass g st) ∧ u.st.wait = some (.retry .memory)))))) ∧
    (Issues (.tlbinv a b) s →
      (s.st.lvl = 0 → exec (.tlbinv a b) s = .next (s.takeTrap (raise .priv))) ∧
      (s.st.lvl ≠ 0 →
        ((s.reg a).toNat % 2 ^ 16 ≠ 0 → exec (.tlbinv a b) s = .next (s.takeTrap { cause := .align, addr := s.reg a })) ∧
        ((s.reg a).toNat % 2 ^ 16 = 0 →
          (2 ^ 48 ≤ (s.reg b).toNat → exec (.tlbinv a b) s = .next (s.takeTrap (raise .prot))) ∧
          ((s.reg b).toNat < 2 ^ 48 → s.accessesOpen s.tile.paddock = true → ∃ u : State, exec (.tlbinv a b) s = .next u ∧
            u.st.wait = some (.retry .memory) ∧ u.st.pc = s.st.pc ∧ (∀ y, u.reg y = s.reg y) ∧ SameVectors s u ∧ SameContexts s u ∧
            SameBytes s u) ∧
          ((s.reg b).toNat < 2 ^ 48 → s.accessesOpen s.tile.paddock = false →
            ∃ u : State, exec (.tlbinv a b) s = .next u ∧
              u.tile.tlb = s.tile.tlb.filter (fun x => !dropTlb s.tile.paddock (BitVec.ofNat 16 (s.reg b).toNat) (s.reg a).toNat
                ((s.reg b).toNat / 2 ^ 16 * 65536) x) ∧
              u.dieCache = s.dieCache.filter (fun x => !dropTlb s.tile.paddock (BitVec.ofNat 16 (s.reg b).toNat) (s.reg a).toNat
                ((s.reg b).toNat / 2 ^ 16 * 65536) x.2) ∧
              (∀ y, u.reg y = s.reg y) ∧ SameVectors s u ∧ SameContexts s u ∧ SameBytes s u)))) ∧
    (s.input.k = k → s.records[k]? = some r →
      ((∃ x ∈ s.records.take k, x.paddock = r.paddock ∧ x.queue = r.queue ∧ sheafKind x.bytes = sheafKind r.bytes) →
        exec .faultRecordPlaced s = .next s) ∧
      ((∀ x ∈ s.records.take k, x.paddock = r.paddock → x.queue = r.queue → sheafKind x.bytes ≠ sheafKind r.bytes) →
        (s.recordQueue r = none → r.queue ≠ .gleaner → exec .faultRecordPlaced s = .next s) ∧
        (s.recordQueue r = some z → z.qcb.members = [m] → z.qcb.gring = false → z.qcb.fmt ≠ 14 →
          s.memberTakes z.pa m.1 m.2 = .yes → (s.getTile m.1).eps[m.2]? = some e →
          (s.ringRoom z m.1 m.2 true 1 = true → r.queue ≠ .gleaner → (s.getTile m.1).spad.wf = true → q = e.ringAddr + e.tail % z.qcb.cap * z.qcb.bytes →
            ∃ (u : State) (x : RingItem), exec .faultRecordPlaced s = .next u ∧ u.records = dropAt k s.records ∧
              (u.getTile m.1).eps[m.2]? = some { e with ring := e.ring ++ [x], tail := e.tail + 1 } ∧ x.kind = 0 ∧ x.agent = true ∧
              ∀ j, j < r.bytes.length → (u.getTile m.1).spad.read (q + j) = r.bytes.getD j 0) ∧
          (s.ringRoom z m.1 m.2 true 1 = false →
            (r.queue ≠ .gleaner → exec .faultRecordPlaced s = .next s) ∧
            (r.queue = .gleaner → sheafKind r.bytes = false → exec .faultRecordPlaced s = .next s) ∧
            (r.queue = .gleaner → sheafKind r.bytes = true → ∃ u : State, exec .faultRecordPlaced s = .next u ∧ u.records = dropAt k s.records ∧
              u.lostCount r.paddock = s.lostCount r.paddock + 1)))))

/-! ### The monitor (16 R357-R363, 17 R371-R376) -/

/-- 16 R358, R365, R366, 15 R334, R339: a monitor call is TRAP at L0 and ILL at L2; at L1 it waits for its grant. 17 R375: an
arbiter grants the paddock whose turn it is up to its WEIGHT while it waits, then the next in ascending number and round again
that waits. A call about a tile outside the paddock, or a context above 3, answers 1, one about an UNBOUND context 2, and neither
does anything. CTX_PARK parks an IDLE context at once and the others at their boundary; CTX_RESUME makes a PARKED context IDLE and
opens its outputs, clears CROUND and the carry set at a rebind, and waits while a record holds the context; CTX_KILL unbinds a
context that does not run, and one that runs at its boundary; QUARANTINE moves the held items of the last activation into the
quarantine queue, all or none. The model's choice: a call is one step (log 11), and a resume waits while a record holds the context (log
23). -/
def Obligations.ContextCalls : Prop :=
  ∀ (s : State) (i : Instr) (n l : Nat) (c : BitVec 2) (x : Ctx), Issues i s → l = (s.reg 6).toNat → x = s.ctxOf l c →
    ((i = .info ∧ n = 0x001) ∨ (i = .ctxPark ∧ n = 0x010) ∨ (i = .ctxResume ∧ n = 0x011) ∨ (i = .ctxKill ∧ n = 0x012) ∨
        (i = .quarantine ∧ n = 0x013) ∨ (i = .regionSet ∧ n = 0x015) ∨ (i = .keyLoad ∧ n = 0x020) ∨ (i = .keyClear ∧ n = 0x021) ∨
        (i = .routeSet ∧ n = 0x030) ∨ (i = .routeClear ∧ n = 0x031) ∨ (i = .vqBind ∧ n = 0x040) ∨ (i = .exportCall ∧ n = 0x050) ∨
        (i = .importCall ∧ n = 0x051) ∨ (i = .attest ∧ n = 0x060) →
      (s.st.lvl = 0 → exec i s = .next (s.takeTrap { cause := .trap, info := BitVec.ofNat 32 n })) ∧
      (s.st.lvl = 2 → exec i s = .next (s.takeTrap (raise .ill)))) ∧
    (∀ j : Instr, j ∈ [.info, .ctxPark, .ctxResume, .ctxKill, .quarantine, .regionSet, .keyLoad, .keyClear, .routeSet, .routeClear, .vqBind,
        .exportCall, .importCall, .attest] → Issues j s → s.st.lvl = 1 → s.callTurn = none →
      exec j s = .next (s.onSt fun y => { y with wait := some .monitor })) ∧
    (∀ (w : Nat → Nat) (waits : Nat → Bool) (a : Arbiter), a.turn < 32 →
      (waits a.turn = true → a.used < w a.turn → a.grant w waits = some (a.turn, { a with used := a.used + 1 })) ∧
      (waits a.turn = false ∨ w a.turn ≤ a.used →
        (∀ q, q < 32 → waits q = true → 0 < w q →
          (∀ k, k < (q + 31 - a.turn) % 32 → waits ((a.turn + 1 + k) % 32) = false ∨ w ((a.turn + 1 + k) % 32) = 0) →
          a.grant w waits = some (q, { turn := q, used := 1 })) ∧
        ((∀ q, q < 32 → waits q = false ∨ w q = 0) → a.grant w waits = none))) ∧
    (s.st.lvl = 1 → s.callTurn ≠ none → s.st.sample ≠ some 2 →
      (i = .ctxPark ∨ i = .ctxResume ∨ i = .ctxKill ∨ i = .quarantine →
        (s.inPaddock s.tile.paddock l = false ∨ 3 < (s.reg 7).toNat → CallResult (exec i s) s 1 fun u => SameContexts s u ∧ SameBytes s u) ∧
        (s.inPaddock s.tile.paddock l = true → (s.reg 7).toNat = c.toNat → x.state = .unbound →
          CallResult (exec i s) s 2 fun u => SameContexts s u ∧ SameBytes s u)) ∧
      (s.inPaddock s.tile.paddock l = true → (s.reg 7).toNat = c.toNat →
        (i = .ctxPark →
          (x.state = .idle → CallResult (exec i s) s 0 fun u => (u.ctxOf l c).state = .parked ∧ SameBytes s u) ∧
          (x.state = .running ∨ x.state = .final ∨ x.state = .binding →
            CallResult (exec i s) s 0 fun u => u.ctxOf l c = { x with parkPending := true } ∧ SameBytes s u) ∧
          (x.state = .parked → CallResult (exec i s) s 0 fun u => u.ctxOf l c = x ∧ SameBytes s u)) ∧
        (i = .ctxResume →
          (x.state ≠ .unbound → x.state ≠ .parked → CallResult (exec i s) s 2 fun u => u.ctxOf l c = x ∧ SameBytes s u) ∧
          (x.state = .parked → (∀ r ∈ s.records, r.holds ≠ some (l, c)) → (s.reg 8).getLsbD 0 = false →
            CallResult (exec i s) s 0 fun u => u.ctxOf l c = { x with state := .idle, parkPending := false } ∧
              (∀ (p : Nat) (e : Endpoint), (s.getTile l).eps[p]? = some e → (u.getTile l).eps[p]? =
                some (if e.role = .output ∧ e.ctx = c then { e with closed := false } else e)) ∧ SameBytes s u) ∧
          (x.state = .parked → (∀ r ∈ s.records, r.holds ≠ some (l, c)) → (s.reg 8).getLsbD 0 = true →
            (∀ q ∈ (s.getTile l).queuesOf c, s.qcbBusy q = false) →
            CallResult (exec i s) s 0 fun u => (u.ctxOf l c).state = .idle ∧ (u.ctxOf l c).cround = 0 ∧
              (u.ctxOf l c).carry = Vector.replicate 8 0) ∧
          (x.state = .parked → (∃ r ∈ s.records, r.holds = some (l, c)) →
            ∃ u : State, exec i s = .next u ∧ u.st.wait = some .monitor ∧ u.ctxOf l c = x ∧ SameBytes s u)) ∧
        (i = .ctxKill → x.state ≠ .unbound →
          ((s.getTile l).runsCtx c = false → CallResult (exec i s) s 0 fun u => (u.ctxOf l c).state = .unbound ∧
            ∀ (p : Nat) (e : Endpoint), (u.getTile l).eps[p]? = some e → e.ctx = c → e.role = .unbound) ∧
          ((s.getTile l).runsCtx c = true → (s.getTile l).main.wait ≠ some .page →
            CallResult (exec i s) s 0 fun u => u.ctxOf l c = { x with killPending := true } ∧ SameBytes s u)) ∧
        (∀ (z : Queue) (m : Nat × Nat) (p : Nat) (y : RingItem) (ys : List RingItem) (e f : Endpoint) (w : Queue), i = .quarantine →
          x.state ≠ .unbound →
          (s.queueAt (s.reg 8).toNat = some z → z.qcb.paddock ≠ s.tile.paddock → CallResult (exec i s) s 1 fun u => SameBytes s u) ∧
          (s.queueAt (s.reg 8).toNat = none → x.state ≠ .parked → CallResult (exec i s) s 2 fun u => SameBytes s u) ∧
          (s.queueAt (s.reg 8).toNat = none → x.state = .parked → CallResult (exec i s) s 3 fun u => SameBytes s u) ∧
          (s.queueAt (s.reg 8).toNat = some z → z.qcb.paddock = s.tile.paddock → x.state = .parked → x.lastHeld = [(p, 1)] →
            (s.getTile l).eps[p]? = some e → e.ring = y :: ys → s.queueAt e.qcb = some w → w.qcb.isize ≤ z.qcb.isize →
            (m.1 ≠ l ∨ m.2 ≠ p) → z.qcb.members = [m] → (s.getTile m.1).eps[m.2]? = some f → w.qcb.gring = false → z.qcb.gring = false →
            s.memberTakes z.pa m.1 m.2 = .yes →
            (s.ringRoom z m.1 m.2 true 1 = false → CallResult (exec i s) s 4 fun u => SameBytes s u ∧ u.epOf l p = e) ∧
            (s.ringRoom z m.1 m.2 true 1 = true → CallResult (exec i s) s 0 fun u => (u.epOf l p).ring = ys ∧
              ∃ v : RingItem, (u.epOf m.1 m.2).ring = f.ring ++ [v] ∧ v.kind = y.kind ∧ v.round = y.round ∧ v.agent = true)))))

/-- 03 R75-R77, 10 R229, 16 R358, R361, 17 R372, R376, R380, R386-R390: what the other monitor calls do at L1. INFO writes the
caller's record. Each call here has been granted. REGION_SET writes an L0 region that no image holds. KEY_CLEAR empties a slot and
KEY_LOAD fills one with what the unwrap gives, or answers 4; both purge its lines, and wait for its accesses. ROUTE_SET and
ROUTE_CLEAR write the route table, the second once no packet that the entry has matched is held; VQ_BIND binds a virtqueue to two
queues of 64-byte items while its device is not driven. EXPORT, IMPORT and ATTEST move their bytes by the caller's translation.
What lies outside the paddock is status 1. The model's choice: a call is one step (log 11), and the statuses of a malformed route, of a
virtqueue that does not exist or whose queues are another's, and of EXPORT and IMPORT of another's object (log 23). -/
def Obligations.ResourceCalls : Prop :=
  ∀ (s g : State) (i : Instr) (k : BitVec 13) (n : Nat), Issues i s → s.st.lvl = 1 → s.callTurn = some g → s.st.sample ≠ some 2 →
    n = (s.reg 6).toNat →
    (∀ c, i = .info → s.pcfg s.tile.paddock = some c →
      (n % 64 = 0 → n + 64 ≤ 2 ^ 20 → s.tile.spad.wf = true → CallResult (exec i s) s 0 fun u => u.mem = s.mem ∧
        (∀ j, j < 64 → u.tile.spad.read (n + j) = (cfgBytes c).getD j 0) ∧
        ∀ a, a < n ∨ n + 64 ≤ a → u.tile.spad.read a = s.tile.spad.read a) ∧
      (n % 64 ≠ 0 ∨ 2 ^ 20 < n + 64 → CallResult (exec i s) s 3 fun u => SameBytes s u)) ∧
    (i = .regionSet →
      (s.inPaddock s.tile.paddock n = false → CallResult (exec i s) s 1 fun u => u.tile.regions0 = s.tile.regions0) ∧
      (s.inPaddock s.tile.paddock n = true →
        (regionInvalid (s.reg 8) = true ∨ (∃ m ∈ (s.getTile n).images, m.region = some ((s.reg 7).toNat % 16)) →
          CallResult (exec i s) s 3 fun u => u.tile.regions0 = s.tile.regions0) ∧
        (regionInvalid (s.reg 8) = false → (∀ m ∈ (s.getTile n).images, m.region ≠ some ((s.reg 7).toNat % 16)) →
          CallResult (exec i s) s 0 fun u => (u.getTile n).regions0 =
            (s.getTile n).regions0.setIfInBounds ((s.reg 7).toNat % 16) (s.reg 8)))) ∧
    (i = .keyLoad ∨ i = .keyClear →
      ((∀ k : BitVec 13, n = k.toNat → s.keyOk s.tile.paddock k = false) →
        CallResult (exec i s) s 1 fun u => u.keySlots = s.keySlots ∧ u.lines = s.lines) ∧
      (n = k.toNat → s.keyOk s.tile.paddock k = true →
        (i = .keyClear →
          (s.keyPending k = true → ∃ u : State, exec i s = .next u ∧ u.st.wait = some .monitor ∧ u.keySlots = s.keySlots ∧
            u.lines = s.lines) ∧
          (s.keyPending k = false → CallResult (exec i s) s 0 fun u => (u.keySlot k).bind KeySlot.contents = none ∧
            u.lines = s.lines.filter (fun l => l.key != k) ∧ (∀ j, j ≠ k → u.keySlot j = s.keySlot j) ∧ SameBytes s u)) ∧
        (∀ bs, i = .keyLoad → (s.reg 7).toNat + 72 ≤ 2 ^ 20 → s.tile.spadBad = [] → bs = s.tile.readSpad (s.reg 7).toNat 72 →
          s.keyPending k = false → match aesUnwrap (Config.wrapKey s.roots s.tile.paddock) bs with
            | none => CallResult (exec i s) s 4 fun u => u.keySlots = s.keySlots
            | some b => CallResult (exec i s) s 0 fun u => (u.keySlot k).bind KeySlot.contents = some (.loaded b) ∧
                u.lines = s.lines.filter (fun l => l.key != k) ∧ (∀ j, j ≠ k → u.keySlot j = s.keySlot j) ∧
                SameBytes s u))) ∧
    (∀ (e : RouteEntry) (w : Nat), w = (s.reg 8).toNat →
      (i = .routeSet →
        (s.inPaddock s.tile.paddock n = false ∨ w / 2 ^ 16 % 2 ^ 5 ≠ s.tile.paddock.toNat →
          CallResult (exec i s) s 1 fun u => u.routes = s.routes) ∧
        (s.inPaddock s.tile.paddock n = true → w / 2 ^ 16 % 2 ^ 5 = s.tile.paddock.toNat → (s.reg 7).toNat < 256 →
          routeMalformed w = false → routeOf n (s.reg 7).toNat w = none → CallResult (exec i s) s 0 fun u =>
            u.routes = (s.routes.filter fun r => !(r.switch == n && r.idx == (s.reg 7).toNat)) ∧ SameBytes s u) ∧
        (s.inPaddock s.tile.paddock n = true → w / 2 ^ 16 % 2 ^ 5 = s.tile.paddock.toNat → (s.reg 7).toNat < 256 →
          routeMalformed w = false → routeOf n (s.reg 7).toNat w = some e →
          (s.routeConflict e = true → CallResult (exec i s) s 3 fun u => u.routes = s.routes) ∧
          (s.routeConflict e = false → CallResult (exec i s) s 0 fun u =>
            u.routes = (s.routes.filter fun r => !(r.switch == n && r.idx == (s.reg 7).toNat)) ++ [e] ∧ SameBytes s u))) ∧
      (i = .routeClear → s.inPaddock s.tile.paddock n = true →
        (s.routes.find? fun r => r.switch == n && r.idx == (s.reg 7).toNat) = some e →
        (e.paddock ≠ s.tile.paddock → CallResult (exec i s) s 1 fun u => u.routes = s.routes) ∧
        (e.paddock = s.tile.paddock → s.routeHolds e = true → ∃ u : State, exec i s = .next u ∧ u.st.wait = some .monitor ∧
          u.routes = s.routes) ∧
        (e.paddock = s.tile.paddock → s.routeHolds e = false → CallResult (exec i s) s 0 fun u =>
          u.routes = (s.routes.filter fun r => !(r.switch == n && r.idx == (s.reg 7).toNat)) ∧ SameBytes s u))) ∧
    (∀ (id : VqId), i = .vqBind → id = { vf := n, dev := (s.reg 7).toNat % 4, vq := (s.reg 7).toNat / 4 % 64 } →
      (s.ownsVf s.tile.paddock n = false ∨ 255 < (s.reg 7).toNat ∨ 2 < id.dev ∨ vqCount id.dev ≤ id.vq → CallResult (exec i s) s 1 fun u => u.virtqueues = s.virtqueues) ∧
      (s.ownsVf s.tile.paddock n = true → (s.reg 7).toNat ≤ 255 → id.dev ≤ 2 → id.vq < vqCount id.dev → s.hostQueue s.tile.paddock (s.reg 8).toNat = true →
        s.hostQueue s.tile.paddock (s.reg 9).toNat = true →
        ((s.device id.vf id.dev).status.getLsbD 2 = true → CallResult (exec i s) s 2 fun u => u.virtqueues = s.virtqueues) ∧
        ((s.device id.vf id.dev).status.getLsbD 2 = false → CallResult (exec i s) s 0 fun u => ∃ v ∈ u.virtqueues, v.id = id ∧
          v.itemQ = (s.reg 8).toNat ∧ v.compQ = (s.reg 9).toNat ∧ v.pool = s.reg 10 ∧ v.poolBytes = (s.reg 11).toNat ∧
          v.pending = [] ∧ v.outstanding = [] ∧ v.lastAvail = 0 ∧ v.used = 0))) ∧
    (∀ (t s1 s2 : State) (v : Nat) (bs ev : List Byte) (x : Unit), t = g.enterMonitor →
      (i = .exportCall → s.exportBusy n (s.reg 8).toNat = false →
        (t.exportBytes s.tile.paddock n (s.reg 8).toNat = (0, bs, s1) →
          s1.gWrites s1.callAgent (lineFuel bs.length) (s.reg 7) bs = (.ok x, s2) → exec i s = .next (s2.setReg 5 0).exitMonitor) ∧
        (t.exportBytes s.tile.paddock n (s.reg 8).toNat = (v, bs, s1) → v ≠ 0 → CallResult (exec i s) s v fun u => SameBytes s u)) ∧
      (i = .importCall → t.importRead t.callAgent n (s.reg 8).toNat (s.reg 7) = (.ok bs, s1) →
        (s1.importBytes s.tile.paddock n (s.reg 8).toNat bs = (0, s2) → exec i s = .next (s2.setReg 5 0).exitMonitor) ∧
        (s1.importBytes s.tile.paddock n (s.reg 8).toNat bs = (v, s2) → v ≠ 0 → CallResult (exec i s) s v fun u => SameBytes s u)) ∧
      (i = .attest → t.gReads t.callAgent (lineFuel 48) (s.reg 6) 48 = (.ok bs, s1) → ev = s1.evidence s.tile.paddock bs →
        s1.gWrites s1.callAgent (lineFuel ev.length) (s.reg 7) ev = (.ok x, s2) → exec i s = .next (s2.setReg 5 0).exitMonitor))

/-! ### Links, time, power, reset (11 R261-R265, 17 R388-R392) -/

/-- 11 R261-R263, 17 R374, R375: a link that is up sends time and control beats first, then the oldest beats of the paddock that
its arbiter grants; the flit has the next SEQ and is retained. A flit that is next in sequence and whose CRC is good is accepted,
which drops what its ACK covers and raises the number expected; any other changes nothing at the receiver and is answered with a
NAK. A NAK, or 1,000 ns without an ACK, replays the retained flits, from the one named or from the oldest; 16 replays without
progress make the link train, and trained it is up and sends them. A link that does not come back goes down: the beats of its
flits, then those that waited, move in order to the lowest link that is left to their paddock (the lowest: the model's choice, log
40), and of the messages without a path left requests are UNREACH and others are dropped. -/
def Obligations.KyxusLinks : Prop :=
  ∀ (s : State) (l j : Nat) (f : Flit) (k : Link), s.links[l]? = some k → s.input.k = l → s.input.j = j →
    (∀ (b : LinkBeats) (a : Arbiter), k.state = .up → k.retained.length < 4095 →
      ((∃ bs cs, k.sendQ = bs ++ b :: cs ∧ b.paddock = none ∧ a = k.arb ∧ (∀ x ∈ bs, x.paddock ≠ none)) ∨
        (∃ (p : Nat) (bs cs : List LinkBeats), k.sendQ = bs ++ b :: cs ∧ b.paddock = some (BitVec.ofNat 5 p) ∧
          (∀ x ∈ k.sendQ, x.paddock ≠ none) ∧ (∀ x ∈ bs, x.paddock ≠ some (BitVec.ofNat 5 p)) ∧
          k.arb.grant s.weight (fun q => k.sendQ.any fun x => x.paddock == some (BitVec.ofNat 5 q)) = some (p, a))) →
      ∃ (u : State) (q : Link), s.turn (.transmit l) = .next u ∧ u.links[l]? = some q ∧
        q.retained = k.retained ++ [{ paddock := b.paddock, flit := k.makeFlit b.vc b.body }] ∧ q.nextSeq = k.nextSeq + 1 ∧ q.arb = a ∧
        q.sendQ.length + 1 = k.sendQ.length ∧ u.hostOut = s.hostOut ++ [.flit l (k.makeFlit b.vc b.body)] ∧
        flitSeq (k.makeFlit b.vc b.body) = k.nextSeq ∧ flitAck (k.makeFlit b.vc b.body) = k.expected - 1 ∧
        flitVc (k.makeFlit b.vc b.body) = b.vc) ∧
    (k.state = .up → f.header.extractLsb' 0 12 = k.expected → f.crc = flitCrc f.header f.body → ∃ (u : State) (q : Link),
      exec (.flit l f) s = .next u ∧ u.links[l]? = some q ∧ q.expected = k.expected + 1 ∧
      q.received = k.received ++ [(f.header.extractLsb' 24 2, f.body)] ∧ q.nextSeq = k.nextSeq ∧
      ((∀ g ∈ k.retained, flitSeq g.flit ≠ f.header.extractLsb' 12 12) → q.retained = k.retained) ∧
      (∀ (g : SentFlit) (gs hs : List SentFlit), k.retained = gs ++ g :: hs → flitSeq g.flit = f.header.extractLsb' 12 12 →
        (∀ h ∈ gs, flitSeq h.flit ≠ f.header.extractLsb' 12 12) → q.retained = hs ∧ q.replays = 0) ∧
      (∀ i, i ≠ l → u.links[i]? = s.links[i]?) ∧ u.hostOut = s.hostOut) ∧
    (k.state = .up → (f.header.extractLsb' 0 12 ≠ k.expected ∨ f.crc ≠ flitCrc f.header f.body) →
      exec (.flit l f) s = .next { s with hostOut := s.hostOut ++ [.nak l k.expected] }) ∧
    (k.state ≠ .up → exec (.flit l f) s = .next s) ∧
    (∀ (gs hs : List SentFlit) (g : SentFlit), k.state = .up → k.retained = gs ++ g :: hs →
      flitSeq g.flit = s.input.bits.extractLsb' 0 12 → (∀ h ∈ gs, flitSeq h.flit ≠ s.input.bits.extractLsb' 0 12) →
      ∃ (u : State), exec .nak s = .next u ∧ u.links[l]? = some { k with replays := k.replays + 1, sinceAck := 0 } ∧
        u.hostOut = s.hostOut ++ (g :: hs).map (fun x => HostOut.flit l x.flit)) ∧
    (k.state = .up → k.retained ≠ [] →
      (k.sinceAck < 1000 → exec .replayTimeout s = .next s) ∧
      (1000 ≤ k.sinceAck → ∃ u : State, exec .replayTimeout s = .next u ∧ u.links[l]? = some { k with replays := k.replays + 1, sinceAck := 0 } ∧
        u.hostOut = s.hostOut ++ k.retained.map (fun x => HostOut.flit l x.flit))) ∧
    (k.state = .up →
      (k.replays < 16 → exec .linkRetrain s = .next s) ∧
      (16 ≤ k.replays → ∃ u : State, exec .linkRetrain s = .next u ∧ u.links[l]? = some { k with state := .training } ∧ u.hostOut = s.hostOut)) ∧
    (k.state = .training →
      (∃ u : State, exec .linkRetrainComplete s = .next u ∧ u.links[l]? = some { k with state := .up, replays := 0, sinceAck := 0 } ∧
        u.hostOut = s.hostOut ++ k.retained.map (fun x => HostOut.flit l x.flit)) ∧
      (∀ (q : Link) (p : BitVec 5) (c : PaddockCfg), s.pcfg p = some c → j ≠ l → c.links.getLsbD j = true → s.links[j]? = some q →
        q.state ≠ .down → (∀ (i : Nat) (r : Link), i < j → i ≠ l → c.links.getLsbD i = true → s.links[i]? = some r → r.state = .down) →
        (∀ g ∈ k.retained, g.paddock = some p) → (∀ b ∈ k.sendQ, b.paddock = some p) →
        ∃ (u : State) (r : Link), exec .linkDown s = .next u ∧ u.links[l]? = some r ∧ r.state = .down ∧ r.retained = [] ∧ r.sendQ = [] ∧
          u.links[j]? = some { q with sendQ := q.sendQ ++
            (k.retained.map (fun g => { paddock := g.paddock, vc := flitVc g.flit, body := g.flit.body }) ++ k.sendQ) }) ∧
      (∀ x : MsgFlight, (∀ (i : Nat) (p : Link), i ≠ l → s.links[i]? = some p → p.state = .down) → s.msgs = [x] → x.phase = .toDest →
        x.msg.dest.toNat / 1024 ≠ s.pkg.toNat → x.msg.source.toNat / 1024 = s.pkg.toNat →
        ∃ u : State, exec .linkDown s = .next u ∧ u.msgs = if x.msg.kind = 0 then [{ x with phase := .rejected 3 }] else [])) ∧
    (k.state ≠ .training → exec .linkDown s = .next s ∧ exec .linkRetrainComplete s = .next s)

/-- 16 R356, R357, 01 R22, R23: a tile that has asked for its remap is first parked, context by context; once nothing of it runs
or is outstanding it moves to the first free spare of its die (the lowest: log 44) with its scratchpad, registers and rings as
they are, its parked contexts are IDLE again, and a remap-done record is posted; with no spare left the tile is retired, halted
and reported lost.

11 R264, R265, 17 R391, 01 R15: an exchange on a link, 2^16 ns after the last there, sends this package's time over VC 3; the one with the
neighbour toward the root gives a package that is not the root half the difference of the delays to slew by, its hops and SYNCED; beyond
4 ns SYNCED is 0 and nothing is slewed; 2^24 ns without an exchange clear SYNCED. (Half rounded down, which neighbour leads to the root,
and the slew: log 72.) A droop stretches the clock until it recovers. Above 2,600 W every die's clock steps 25
MHz down, below 2,500 W up to 800 MHz at most; a die at 105 °C steps down, and at 115 °C all tiles halt. A failover puts IO die 1
in charge.

17 R388, R389, R392, 03 R65, 16 R363, R364: after a package reset a monitor image that does not verify holds the package in reset,
and a configuration image that does not leaves it unconfigured; both are reported. A verified package runs at its number and time
base with its paddocks configured: each tile of a paddock's rows carries its number, its masked features and L1 region 0 over the
scratchpad, and each channel's owner is the paddock that lists it. The clock's steps and ceiling and what an image carries (log 32), the two-stage remap and what it moves (log 70) are the model's
choices; the keys that the roots name are Config's, free values. -/
def Obligations.RemapPowerTimeAndBringUp : Prop :=
  (∀ (s : State) (l : Nat), l = s.tile.ltn →
     (s.tile.remapAsked = false → exec .remap s = .next s) ∧
     (s.tile.remapAsked = true → s.tile.remapping = false → ∃ u : State, exec .remap s = .next u ∧ u.tile.remapping = true ∧ u.spareMap = s.spareMap ∧
       (∀ c, (s.ctxOf l c).state = .idle → (u.ctxOf l c).state = .parked ∧ c ∈ u.tile.remapCtxs) ∧
       (∀ c, (s.ctxOf l c).state = .running → (u.ctxOf l c).parkPending = true ∧ (u.ctxOf l c).state = .running) ∧ SameBytes s u) ∧
     (s.tile.remapAsked = true → s.tile.remapping = true → s.remapReady l = false → exec .remap s = .next s) ∧
     (s.tile.remapAsked = true → s.tile.remapping = true → s.remapReady l = true →
       (∀ slot ∈ s.sparesFree (dieOf l), 128 ≤ slot ∧ slot < 136 ∧ ∀ x ∈ s.spareMap, dieOf x.1 = dieOf l → x.2 ≠ slot) ∧
       (∀ (slot : Nat) (others : List Nat), s.sparesFree (dieOf l) = slot :: others → ∃ (u : State) (r : RecordWait), exec .remap s = .next u ∧
         u.spareMap = s.spareMap.filter (fun p => p.1 != l) ++ [(l, slot)] ∧ u.tile.remapAsked = false ∧ u.tile.halted = false ∧
         u.tile.tlb = [] ∧ u.tile.icache = [] ∧ u.tile.mailbox = s.tile.mailbox ∧ u.tile.ctrs = s.tile.ctrs ∧ u.tile.bfmt = s.tile.bfmt ∧
         (∀ c ∈ s.tile.remapCtxs, (s.ctxOf l c).state = .parked → (u.ctxOf l c).state = .idle ∧ (u.ctxOf l c).runs = 0) ∧
         u.records = s.records ++ [r] ∧ r.bytes.getD 0 0 = 25 ∧ (r.bytes.getD 2 0).toNat = others.length ∧ SameBytes s u) ∧
       (s.sparesFree (dieOf l) = [] → ∃ (u : State) (r : RecordWait), exec .remap s = .next u ∧ u.tile.halted = true ∧ l ∈ u.retired ∧
         u.spareMap = s.spareMap ∧ u.records = s.records ++ [r] ∧ r.bytes.getD 0 0 = 24 ∧ u.tile.ctxs = s.tile.ctxs ∧ SameBytes s u))) ∧
  (∀ (s : State) (w d c : Nat), w = s.input.bits.toNat → d = s.input.k → c = s.input.j →
     (s.timeRoot = true → exec .timeExchange s = .next s ∧ exec .syncTimeout s = .next s) ∧
     (s.timeRoot = false →
       (∀ (q : Link) (half : Int), s.links[c]? = some q → half = s.input.offset / 2 →
         (q.sinceExchange < 2 ^ 16 ∨ q.state ≠ .up → exec .timeExchange s = .next s) ∧
         (2 ^ 16 ≤ q.sinceExchange → q.state = .up → ∃ (u : State) (b : LinkBeats), exec .timeExchange s = .next u ∧ u.sinceSync = 0 ∧
           u.links[c]? = some { q with sendQ := q.sendQ ++ [b], sinceExchange := 0 } ∧ b.vc = 3 ∧ b.paddock = none ∧
           ofLe (b.body.take 8) = s.tb.toNat ∧ (∀ i, i ≠ c → u.links[i]? = s.links[i]?) ∧
           (-8 ≤ s.input.offset → s.input.offset ≤ 8 →
             (s.input.bits.getLsbD 0 = true → u.synced = true ∧ u.slew = half ∧ u.hops = BitVec.ofNat 8 d) ∧
             (s.input.bits.getLsbD 0 = false → u.synced = s.synced ∧ u.slew = s.slew ∧ u.hops = s.hops)) ∧
           (s.input.offset < -8 ∨ 8 < s.input.offset → u.synced = false ∧ u.slew = 0) ∧ u.tb = s.tb ∧ u.tile = s.tile)) ∧
       (s.sinceSync < 2 ^ 24 → exec .syncTimeout s = .next s) ∧
       (2 ^ 24 ≤ s.sinceSync → ∃ u : State, exec .syncTimeout s = .next u ∧ u.synced = false ∧ u.slew = 0 ∧ u.tb = s.tb ∧ u.tile = s.tile)) ∧
     exec .droop s = .next { s with droop := true } ∧ exec .droopRecovery s = .next { s with droop := false } ∧
     exec .ioDieFailover s = .next { s with ioInCharge := 1 } ∧
     (∃ u : State, exec .powerCap s = .next u ∧ u.watts = w ∧ u.tile = s.tile ∧ ∀ (i : Nat) (m : Nat), s.clocks[i]? = some m →
       u.clocks[i]? = some (if 2600 < w then m - 25 else if w < 2500 then min 800 (m + 25) else m)) ∧
     (∃ u : State, exec .thermalLimit s = .next u ∧ (d, c) ∈ u.temps ∧ u.tile = s.tile ∧
       (c < 105 → u.clocks = s.clocks ∧ u.halted = s.halted) ∧
       (105 ≤ c → c < 115 → u.halted = s.halted ∧ ∀ (i : Nat) (m : Nat), s.clocks[i]? = some m →
         u.clocks[i]? = some (if i = d then m - 25 else m)) ∧
       (115 ≤ c → u.halted = true ∧ u.hostOut = s.hostOut ++ [.pfReport 3]))) ∧
  (∀ (s : State) (b : BootInput) (m c : BootImage) (rest : List BootImage), b.images = m :: c :: rest → m.kind = 0 → c.kind = 1 →
     (∀ p : PaddockCfg, rest = [] → b.failedTiles = [] → b.services = [] → cfgOk b.paddocks = true → b.paddocks = [p] → if imageOk b.roots b.minVersions m = false then
         ∃ u : State, exec (.packageReset b) s = .next u ∧ u.bootFailed = true ∧ u.halted = true ∧ u.paddocks = [] ∧
           u.hostOut = s.hostOut ++ [.pfReport 1]
       else if imageOk b.roots b.minVersions c = false then
         ∃ u : State, exec (.packageReset b) s = .next u ∧ u.paddocks = [] ∧ u.bootFailed = false ∧ u.hostOut = s.hostOut ++ [.pfReport 2]
       else ∃ u : State, exec (.packageReset b) s = .next u ∧ u.bootFailed = false ∧ u.halted = false ∧ u.pkg = b.pkg ∧
         u.tb = b.timeBase ∧ u.large = b.regime ∧ u.paddocks = [p] ∧ u.mem = [] ∧ u.hostOut = s.hostOut ∧
         (∀ ch, ch < 32 → ((u.chanOwner.find? fun x => x.1 == ch).map (·.2) = if p.chans.getLsbD ch then some p.pnum else none)) ∧
         (∀ l, l < 1024 → p.rows.getLsbD (l / 32) = true → (u.getTile l).paddock = p.pnum ∧
           (u.getTile l).feat = 0x1FF &&& ~~~p.featMask ∧ (u.getTile l).regionOk 1 0 (2 ^ 20) true = true ∧ (u.getTile l).act = none) ∧
         (∀ l, l < 1024 → p.rows.getLsbD (l / 32) = false → u.getTile l = Tile.reset l)))

/-! ### Hosts and services (17 R377-R385) -/

/-- 17 R375, R378, R379, R380, R384, R385, 15 R323, R324: a driver writes its feature bits into the common structure; bits that are all
offered get FEATURES_OK, and then DRIVER_OK; it enables a virtqueue there. An agent push that has found room is placed. A notify of
an enabled virtqueue of a driven device waits for its turn, for room in the pool and for its port's grant, which is for 256 bytes at most;
its item is pushed with its chain outstanding. A vsock packet to port 5140 opens a connection and makes no item. A completion is
taken: one that names an outstanding chain within its length is copied under grants, used and signalled; another is consumed with a queue
record; one of an old epoch without. A reset of a function stops its devices with a new epoch and drops chains, handles and
connections until it completes; a reset of a device makes it fresh. The model's choices: the places of virtio 1.3's bits and registers
(log 33), a device reset that keeps handles and bindings, the place in the pool as an input (log 71). -/
def Obligations.VirtioDevices : Prop :=
  ∀ (s : State) (k j : Nat) (d : Device), s.input.k = k → s.input.j = j → d = s.device k j →
    (s.vfPresent k = true → j ≤ 2 → d.resetting = false →
      (d.driverFeatures.toNat.lor (offered j) ≠ offered j → exec .featuresOk s = .next s) ∧
      (d.driverFeatures.toNat.lor (offered j) = offered j → ∃ u : State, exec .featuresOk s = .next u ∧
        u.device k j = { d with status := d.status ||| 8, features := d.driverFeatures }) ∧
      (d.status.getLsbD 3 = false → exec .driverOk s = .next s) ∧
      (d.status.getLsbD 3 = true → ∃ u : State, exec .driverOk s = .next u ∧ u.device k j = { d with status := d.status ||| 4 }) ∧
      (∀ bs : List Byte, bs.length = 4 → d.driverSel.toNat < 2 →
        (d.status.getLsbD 3 = true → s.turn (.barWrite k j 12 bs) = .next s) ∧
        (d.status.getLsbD 3 = false → ∃ (u : State) (f : DW), s.turn (.barWrite k j 12 bs) = .next u ∧
          u.device k j = { d with driverFeatures := f } ∧
          leBytes 8 f.toNat = if d.driverSel = 0 then bs ++ (leBytes 8 d.driverFeatures.toNat).drop 4
            else (leBytes 8 d.driverFeatures.toNat).take 4 ++ bs)) ∧
      (d.queueSel.toNat < vqCount j → ∃ u : State, s.turn (.barWrite k j 28 (leBytes 2 1)) = .next u ∧
        (u.device k j).conf d.queueSel.toNat = { d.conf d.queueSel.toNat with enabled := true } ∧
        (u.device k j).status = d.status ∧ (u.device k j).epoch = d.epoch)) ∧
    (∀ (i : ItemFlight) (z : Queue) (e : Endpoint), s.flight[k]? = some i → i.kind = 0 → i.refused = false → i.travel = false → i.agent = true →
      s.itemFirst k i = true → s.queueAt i.qcb = some z → z.frozen = false → z.qcb.gring = false → z.qcb.fmt ≠ 14 →
      (∀ v ∈ s.virtqueues, v.compQ ≠ i.qcb) → (s.getTile i.tile).eps[i.ep]? = some e → e.role = .input → e.qcb = i.qcb →
      (s.ctxOf i.tile e.ctx).state ≠ .unbound → (s.ctxOf i.tile e.ctx).state ≠ .binding →
      (s.ringRoom z i.tile i.ep true 1 = false → exec .agentPushRetry s = .next s) ∧
      (s.ringRoom z i.tile i.ep true 1 = true → ∃ (u : State) (x : RingItem), exec .agentPushRetry s = .next u ∧
        u.flight = dropAt k s.flight ∧ (u.getTile i.tile).eps[i.ep]? = some { e with ring := e.ring ++ [x], tail := e.tail + 1 } ∧
        x.agent = true ∧ x.id = i.id)) ∧
    (∀ (r : NotifyReq) (v : Virtqueue) (z : Queue) (off : Nat) (s1 : State), off = s.input.offset.toNat →
      s1 = (s.modVq r.vq fun v => { v with pending := v.pending ++ [r] }) →
      (s.vqLive r.vq = false → exec (.notify r) s = .next s) ∧
      (s.vqLive r.vq = true → s.vq r.vq = some v → s.queueAt v.itemQ = some z → s.bitmaps = [] →
        (v.moving = none → (∀ x, v.pending.head? = some x → staysAtIo r.vq x.readable = false) →
          (v.pending = [] → staysAtIo r.vq r.readable = false) →
          s.vqWaits r.vq = true → exec (.notify r) s = .next s1) ∧
        (s1.dmaTurn (s.getTile v.tile).paddock r.vq.vf = none → exec (.notify r) s = .next s1) ∧
        (∀ g : State, s1.dmaTurn (s.getTile v.tile).paddock r.vq.vf = some g → v.pending = [] → v.moving = none →
          (staysAtIo r.vq r.readable = false →
            (v.placeFree off (max r.readable.length r.writable) = false → exec (.notify r) s = .next s1) ∧
            (s.vqWaits r.vq = false → v.placeFree off (max r.readable.length r.writable) = true →
              (r.readable = [] → ∃ u : State, exec (.notify r) s = .next u ∧
                u.flight = s.flight ++ (z.qcb.members.map fun m => ItemFlight.fresh z.pa m (.virtqueue r.vq.vf r.vq.dev r.vq.vq) 0 0 0 z.nextId
                  (recordBytesOf [(0, 2, r.vq.dev + r.vq.vq * 4), (2, 2, r.chain.toNat), (4, 4, 0), (8, 4, r.writable),
                    (12, 8, (v.pool + BitVec.ofNat 64 off).toNat), (20, 4, (s.device r.vq.vf r.vq.dev).epoch.toNat)])) ∧
                u.dmaArbs = g.dmaArbs ∧
                u.vq r.vq = some { s.takeAvail v r.descs with outstanding := v.outstanding ++
                  [{ id := r.chain, descs := r.descs, writable := r.writable, buf := v.pool + BitVec.ofNat 64 off, bytes := r.writable }] } ∧
                ((s.device r.vq.vf r.vq.dev).packed = false → (s.takeAvail v r.descs).lastAvail = (v.lastAvail + 1) % 2 ^ 16)) ∧
              (∀ (y : Unit) (s2 : State), g.gWrites (g.poolAgent v) (lineFuel (min r.readable.length 256)) (v.pool + BitVec.ofNat 64 off)
                  (r.readable.take 256) = (.ok y, s2) →
                (256 < r.readable.length →
                  exec (.notify r) s = .next (s2.modVq r.vq fun x => { x with moving := some { off := off, done := 256 } })) ∧
                (r.readable.length ≤ 256 → ¬(r.vq.dev = 2 ∧ r.vq.vq = 1) → ∃ u : State, exec (.notify r) s = .next u ∧
                  u.flight = s2.flight ++ (z.qcb.members.map fun m => ItemFlight.fresh z.pa m (.virtqueue r.vq.vf r.vq.dev r.vq.vq) 0 0 0 z.nextId
                    (recordBytesOf [(0, 2, r.vq.dev + r.vq.vq * 4), (2, 2, r.chain.toNat), (4, 4, r.readable.length), (8, 4, r.writable),
                      (12, 8, (v.pool + BitVec.ofNat 64 off).toNat), (20, 4, (s2.device r.vq.vf r.vq.dev).epoch.toNat)])))))) ∧
          (∀ p : BitVec 32, r.vq.dev = 2 → r.vq.vq = 1 → r.readable.length = 44 → ofLe (r.readable.take 8) = 3 + r.vq.vf →
            ofLe ((r.readable.drop 8).take 8) = 2 → ofLe ((r.readable.drop 16).take 4) = p.toNat → ofLe ((r.readable.drop 20).take 4) = 5140 →
            ofLe ((r.readable.drop 28).take 2) = 1 → ofLe ((r.readable.drop 30).take 2) = 1 →
            (∀ x ∈ s.vsock, x.vf = r.vq.vf → x.guest ≠ p) → ∃ u : State, exec (.notify r) s = .next u ∧ u.flight = s.flight ∧
              u.vsock = s.vsock ++ [{ vf := r.vq.vf, guest := p, port := 5140, seqpacket := false }] ∧
              u.hostOut = s.hostOut ++ [.used r.vq r.chain 0, .interrupt r.vq])))) ∧
    (∀ (i : ItemFlight) (z : Queue) (v : Virtqueue) (c : Chain), s.flight[k]? = some i → s.queueAt i.qcb = some z → z.frozen = false →
      s.virtqueues = [v] → v.compQ = i.qcb → s.itemFirst k i = true → i.kind = 0 → k = 0 →
      v.id.dev + v.id.vq * 4 = ofLe (i.payload.take 2) →
      ((s.device v.id.vf v.id.dev).epoch.toNat ≠ ofLe ((i.payload.drop 20).take 4) → ∃ u : State, exec .virtqueueCompletion s = .next u ∧
        u.flight = s.flight.drop 1 ∧ u.hostOut = s.hostOut ∧ u.records = s.records ∧ u.virtqueues = s.virtqueues) ∧
      ((s.device v.id.vf v.id.dev).epoch.toNat = ofLe ((i.payload.drop 20).take 4) →
        ((∀ x ∈ v.outstanding, x.id.toNat ≠ ofLe ((i.payload.drop 2).take 2) ∨ x.writable < ofLe ((i.payload.drop 4).take 4)) →
          ∃ u : State, exec .virtqueueCompletion s = .next u ∧
            u.flight = s.flight.drop 1 ∧ u.hostOut = s.hostOut ∧ u.records.length = s.records.length + 1) ∧
        (v.outstanding = [c] → c.id.toNat = ofLe ((i.payload.drop 2).take 2) → ofLe ((i.payload.drop 4).take 4) ≤ c.writable →
          (s.dmaTurn (s.getTile v.tile).paddock v.id.vf = none → exec .virtqueueCompletion s = .next s) ∧
          (∀ g : State, s.dmaTurn (s.getTile v.tile).paddock v.id.vf = some g → s.bitmaps = [] → v.back = 0 →
            (ofLe ((i.payload.drop 4).take 4) = 0 → v.id.dev ≠ 2 →
              ∃ u : State, exec .virtqueueCompletion s = .next u ∧ u.flight = s.flight.drop 1 ∧ u.dmaArbs = g.dmaArbs ∧
                u.hostOut = s.hostOut ++ [.buffer v.id c.id 0 [], .used v.id c.id 0, .interrupt v.id] ∧
                u.virtqueues = [{ s.putUsed v c.descs with outstanding := [], back := 0 }]) ∧
            (∀ (n : Nat) (data : List Byte) (s2 : State), n = ofLe ((i.payload.drop 4).take 4) → v.id.dev ≠ 2 → s2.bitmaps = [] →
              g.gReads (g.poolAgent v) (lineFuel (min 256 n)) c.buf (min 256 n) = (.ok data, s2) →
              (n ≤ 256 → ∃ u : State, exec .virtqueueCompletion s = .next u ∧
                u.hostOut = s2.hostOut ++ [.buffer v.id c.id 0 data, .used v.id c.id n, .interrupt v.id]) ∧
              (256 < n → exec .virtqueueCompletion s = .next (({ s2 with hostOut := s2.hostOut ++ [.buffer v.id c.id 0 data] } :
                State).modVq v.id fun x => { x with back := x.back + 256 }))))))) ∧
    (k < 64 → (∃ u : State, exec .flr s = .next u ∧
        (∀ dev, dev ≤ 2 → u.device k dev = { s.device k dev with resetting := true, epoch := (s.device k dev).epoch + 1 }) ∧
        (∀ v ∈ u.virtqueues, v.id.vf = k → v.id.dev ≤ 2 → v.pending = [] ∧ v.outstanding = [] ∧ v.moving = none) ∧
        (∀ h ∈ u.handles, h.vf ≠ k) ∧ (∀ x ∈ u.vsock, x.vf ≠ k) ∧ u.hostOut = s.hostOut ++ [.connectionsReset k none]) ∧
      (j ≤ 2 → ∃ u : State, exec .deviceReset s = .next u ∧
        u.device k j = { freshDevice k j (d.epoch + 1) with resetting := d.resetting } ∧ u.handles = s.handles ∧
        (∀ v ∈ u.virtqueues, v.id.vf = k → v.id.dev = j → v.pending = [] ∧ v.outstanding = [] ∧ v.moving = none) ∧
        u.hostOut = s.hostOut ++ [.connectionsReset k (some j)])) ∧
    (∃ u : State, exec .flrComplete s = .next u ∧ ∀ dev, dev ≤ 2 → u.device k dev =
      if (s.device k dev).resetting then freshDevice k dev (s.device k dev).epoch else s.device k dev)

/-- 17 R372, R373, R377, R379, R381-R384, R386, R390, R392, 18 R397: a request from a VF that no paddock owns, or that comes without
an open connection to the service, is not served. The service of a VF's paddock answers BUSY while 16 requests of the connection are
outstanding, BADREQ for an operation above 9, and otherwise as here; replies leave in request order with OP, STATUS, LEN and
REQID from port 5140 to CID 3 + VF, none before its work is done. A bind whose check fails is REFUSED with its code and changes
nothing else; one that passes waits while what it writes is in use, then has the loader's effect and answers a handle. UNBIND, INJECT
and STATUS name what the paddock and the VF own, or answer NOSUCH; INJECT places all its items or none. SUMMARY takes every
tile at its boundary. RECONFIG is the administrator's, DENIED to others, BADREQ for records that overlap, BUSY while a context is
bound on a row that changes; it waits for the purge. EXPORT, IMPORT and ATTEST answer for their bytes. The model's choices: the bytes
of the STATUS, SUMMARY, EXPORT and evidence bodies (log 71), statuses that R382 does not name and what waits (log 60), a
placement that is malformed (log 52). -/
def Obligations.ServiceRequests : Prop :=
  ∀ (s : State) (r : SvcReq) (c : PaddockCfg),
    (s.vfOwner r.vf = none ∨ s.reachesService r = false → EachRequest s r fun _ o => o = .next s) ∧
    (∀ (x : SvcJob) (xs : List SvcJob), s.outstanding r.vf r.conn = x :: xs →
      (∀ w, x.stage = .waiting w → s.turn (.sendReply r.vf r.conn) = .next s) ∧
      (∀ status body, x.stage = .answered status body → ∃ u : State, s.turn (.sendReply r.vf r.conn) = .next u ∧
        u.outstanding r.vf r.conn = xs ∧ u.hostOut = s.hostOut ++ [.reply (3 + r.vf) 5140 r.conn
          (leBytes 2 x.op ++ leBytes 2 status ++ leBytes 4 body.length ++ leBytes 8 x.reqId.toNat ++ body)])) ∧
    (∀ (n : Nat) (q : SvcJob) (recs : List PaddockCfg), s.svcJobs[n]? = some q → q.stage = .waiting (.reconfig recs) → s.vfOwner q.vf = some c →
      s.reconfigBusy recs = false →
      (s.purgeWaits recs = true → s.turn (.serviceWork n) = .next s) ∧
      (s.purgeWaits recs = false → ∃ u : State, s.turn (.serviceWork n) = .next u ∧ u.paddocks = recs ∧
        (q.closed = false → u.svcJobs[n]? = some { q with stage := .answered 0 [] }) ∧ (q.closed = true → u.svcJobs = dropAt n s.svcJobs))) ∧
    (s.vfOwner r.vf = some c → s.reachesService r = true → 16 ≤ (s.outstanding r.vf r.conn).length →
      EachRequest s r fun op o => Answers o s r op 4 []) ∧
    (s.vfOwner r.vf = some c → s.reachesService r = true → (s.outstanding r.vf r.conn).length < 16 → (2 ^ 24 < r.len.toNat ∨ r.status ≠ 0) →
      EachRequest s r fun op o => Answers o s r op 1 []) ∧
    (s.vfOwner r.vf = some c → s.reachesService r = true → (s.outstanding r.vf r.conn).length < 16 → r.len.toNat ≤ 2 ^ 24 → r.status = 0 →
      (∀ op : BitVec 16, 10 ≤ op.toNat → Answers (s.turn (.unknownRequest r op)) s r op.toNat 1 []) ∧
      (∀ (b a : BindReq), b.svc = r → a = s.attach b →
        (bindPlaced a = false → Answers (exec (.bind b) s) s r 1 1 []) ∧
        (∀ code i, bindPlaced a = true → s.bindCheck c a = some (code, i) →
          Answers (exec (.bind b) s) s r 1 6 (leBytes 2 code ++ leBytes 2 i ++ leBytes 4 0)) ∧
        (∀ rings, bindPlaced a = true → s.bindCheck c a = none → s.bindRings a = .ok rings →
          (s.loaderPlan c.pnum a = none → Answers (exec (.bind b) s) s r 1 1 []) ∧
          (∀ plan, s.loaderPlan c.pnum a = some plan →
            (s.bindBusy a plan = true → Waits (exec (.bind b) s) s r 1 (.bind b)) ∧
            (s.bindBusy a plan = false → ∃ u : State, exec (.bind b) s = .next u ∧
              u = (s.doBind c.pnum a rings plan).reply r 1 0 (leBytes 8 s.imageNo) ∧ u.imageNo = s.imageNo + a.images.length ∧
              (∃ h ∈ u.handles, h.handle = s.imageNo ∧ h.vf = r.vf ∧ h.queues = a.queues.map QueueDecl.qcb) ∧
              (∀ m ∈ a.images, (m.decls.contexts.map CtxDecl.num).Nodup → ∀ l ∈ m.tiles, imagesOn a l = [m] → ∀ x ∈ m.decls.contexts,
                (u.ctxOf l x.num).state = .binding ∧ (u.ctxOf l x.num).entry = BitVec.ofNat 64 (m.codeBase + x.entry) ∧
                (u.ctxOf l x.num).lvl = x.level ∧ (u.ctxOf l x.num).budget = x.budget ∧ (u.getTile l).paddock = c.pnum))))) ∧
      (∀ b : UnbindReq, b.svc = r →
        ((∃ x ∈ b.contexts, cfgHasTile c x.1 = false) → Answers (exec (.unbind b) s) s r 2 5 []) ∧
        (∀ (l : Nat) (x : BitVec 2), b.contexts = [(l, x)] → cfgHasTile c l = true →
          ((s.getTile l).runsCtx x = false → (s.ctxOf l x).state ≠ .unbound → ∃ u : State, exec (.unbind b) s = .next u ∧
            (u.ctxOf l x).state = .unbound ∧ RepliedOk s u r 2 []) ∧
          ((s.getTile l).runsCtx x = true → ∃ u : State, exec (.unbind b) s = .next u ∧
            u.ctxOf l x = { s.ctxOf l x with killPending := true } ∧ RepliedOk s u r 2 []))) ∧
      (∀ (b : InjectReq) (z : Queue), b.svc = r →
        (s.queueAt b.qcb = none → Answers (exec (.inject b) s) s r 3 5 []) ∧
        (s.queueAt b.qcb = some z → z.qcb.paddock ≠ c.pnum → Answers (exec (.inject b) s) s r 3 5 []) ∧
        (s.queueAt b.qcb = some z → z.qcb.paddock = c.pnum →
          ((∃ p ∈ b.items, p.length ≠ z.qcb.isize * 16) → Answers (exec (.inject b) s) s r 3 1 []) ∧
          ((∀ p ∈ b.items, p.length = z.qcb.isize * 16) →
            (s.waveDone b.qcb = false → Answers (exec (.inject b) s) s r 3 3 []) ∧
            (s.waveDone b.qcb = true → z.frozen = false →
              (s.roomForAll z b.items.length = false → Answers (exec (.inject b) s) s r 3 4 []) ∧
              (∀ (m : Nat × Nat) (e : Endpoint), z.qcb.members = [m] → z.qcb.gring = false → z.qcb.fmt ≠ 14 → (s.getTile m.1).eps[m.2]? = some e →
                s.memberTakes z.pa m.1 m.2 = .yes → s.ringRoom z m.1 m.2 true b.items.length = true →
                ∃ (u : State) (xs : List RingItem), exec (.inject b) s = .next u ∧ (u.epOf m.1 m.2).ring = e.ring ++ xs ∧
                  xs.length = b.items.length ∧ RepliedOk s u r 3 []))))) ∧
      ((∀ h ∈ s.handles, h.handle ≠ r.sel.toNat ∨ h.vf ≠ r.vf) → Answers (exec (.status r) s) s r 4 5 []) ∧
      (∀ h : BindHandle, (s.handles.find? fun x => x.handle == r.sel.toNat && x.vf == r.vf) = some h →
        Answers (exec (.status r) s) s r 4 0 (h.contexts.flatMap (fun x => leBytes 2 x.1 ++ leBytes 1 x.2.toNat ++
          leBytes 1 (s.ctxOf x.1 x.2).state.code) ++ h.queues.flatMap s.queueCounts)) ∧
      (∀ tiles, tiles = summaryTiles (s.summaryCfgs c (s.isAdmin r.vf)) (s.isAdmin r.vf) →
        ((∀ l ∈ tiles, (s.getTile l).act = none) → ∃ (u : State) (body : List Byte), exec (.summary r) s = .next u ∧
          u.summarySeq = s.summarySeq + 1 ∧ RepliedOk s u r 5 body ∧
          (body.getD 0 0).toNat = (if s.isAdmin r.vf then 0xFF else c.pnum.toNat) ∧ ofLe ((body.drop 8).take 8) = s.tb.toNat ∧
          ofLe ((body.drop 16).take 8) = s.summarySeq.toNat ∧ ofLe ((body.drop 24).take 8) = (if s.isAdmin r.vf then 10 else 8)) ∧
        ((∃ l ∈ tiles, (s.getTile l).act ≠ none) → ∃ (u : State) (w : SummaryWork),
          Waits (exec (.summary r) s) u r 5 (.summary w) ∧ u = { s with summarySeq := s.summarySeq + 1 } ∧
          w.admin = s.isAdmin r.vf ∧ w.start = s.tb ∧ w.seq = s.summarySeq ∧
          ∀ l ∈ tiles, (∃ e ∈ w.entries, e.1 = l) ↔ (s.getTile l).act = none)) ∧
      (∀ recs : List PaddockCfg,
        (s.isAdmin r.vf = false → Answers (exec (.reconfig r recs) s) s r 6 2 []) ∧
        (s.isAdmin r.vf = true →
          (cfgOk recs = false → Answers (exec (.reconfig r recs) s) s r 6 1 []) ∧
          (cfgOk recs = true →
            (s.reconfigBusy recs = true → Answers (exec (.reconfig r recs) s) s r 6 4 []) ∧
            (s.reconfigBusy recs = false → s.purgeWaits recs = true → Waits (exec (.reconfig r recs) s) s r 6 (.reconfig recs)) ∧
            (s.reconfigBusy recs = false → s.purgeWaits recs = false → ∃ u : State, exec (.reconfig r recs) s = .next u ∧ u.paddocks = recs ∧
              u.chanOwner = ownersOf recs ∧ u.mem = s.mem ∧ RepliedOk s u r 6 [])))) ∧
      (∀ (arg : DW) (records : List Byte),
        (records ≠ [] → Answers (exec (.exportRequest r arg records) s) s r 7 1 []) ∧
        (s.supervisorCtx c = none → Answers (exec (.exportRequest r arg []) s) s r 7 3 [] ∧
          Answers (exec (.importRequest r arg records) s) s r 8 3 []) ∧
        (∀ (x : BitVec 2) (s1 : State) (bs : List Byte), s.supervisorCtx c = some x →
          (s.exportBusy r.sel.toNat arg.toNat = true → Waits (exec (.exportRequest r arg []) s) s r 7 (.exportState r.sel.toNat arg.toNat)) ∧
          (s.exportBusy r.sel.toNat arg.toNat = false →
            (s.exportBytes c.pnum r.sel.toNat arg.toNat = (0, bs, s1) → exec (.exportRequest r arg []) s = .next (s1.reply r 7 0 bs)) ∧
            (s.exportBytes c.pnum r.sel.toNat arg.toNat = (1, bs, s1) → Answers (exec (.exportRequest r arg []) s) s r 7 2 []) ∧
            (s.exportBytes c.pnum r.sel.toNat arg.toNat = (2, bs, s1) → Answers (exec (.exportRequest r arg []) s) s r 7 4 [])) ∧
          (r.sel.toNat % 4 < 2 → records.length ≠ s.importSize r.sel.toNat arg.toNat →
            Answers (exec (.importRequest r arg records) s) s r 8 1 []) ∧
          ((2 ≤ r.sel.toNat % 4 ∨ records.length = s.importSize r.sel.toNat arg.toNat) →
            (s.importBytes c.pnum r.sel.toNat arg.toNat records = (0, s1) → exec (.importRequest r arg records) s = .next (s1.reply r 8 0 [])) ∧
            (s.importBytes c.pnum r.sel.toNat arg.toNat records = (3, s1) → Answers (exec (.importRequest r arg records) s) s r 8 1 [])))) ∧
      (∀ nonce : List Byte,
        (nonce.length ≠ 48 → Answers (exec (.attestRequest r nonce) s) s r 9 1 []) ∧
        (nonce.length = 48 → Answers (exec (.attestRequest r nonce) s) s r 9 0 (s.evidence c.pnum nonce))))

/-! ### The invariant of memory -/

/-- Every step keeps main memory and its parity in their canonical form, addresses strictly rising and no byte listed that reads
the same unlisted: equal contents stay equal data. The form is the model's choice (log 2). -/
def Obligations.StepKeepsMemoryCanonical : Prop :=
  ∀ s s' : State, MemoryCanonical s → step s = .next s' → MemoryCanonical s'

/-- Reset memory is in its canonical form, whatever the agenda of turns that are to come. -/
def Obligations.ResetMemoryCanonical : Prop :=
  ∀ a : List Turn, MemoryCanonical { State.reset with agenda := a }

end
end

