-- ==== Sys2Proof/Laws/Exec.lean ====
section
/-! SUPPORT. Sys2Proof/Laws/Exec.lean: the meaning that executes each instruction and event: exec, arm by arm. -/
namespace Sys2Proof.Machine
set_option Elab.async false

@[simp] theorem exec_add (d a b s) : exec (.add d a b) s = execAdd d a b s := rfl
@[simp] theorem exec_sub (d a b s) : exec (.sub d a b) s = execSub d a b s := rfl
@[simp] theorem exec_mul (d a b s) : exec (.mul d a b) s = execMul d a b s := rfl
@[simp] theorem exec_mulhI (d a b s) : exec (.mulhI d a b) s = execMulhI d a b s := rfl
@[simp] theorem exec_mulhN (d a b s) : exec (.mulhN d a b) s = execMulhN d a b s := rfl
@[simp] theorem exec_divI (d a b s) : exec (.divI d a b) s = execDivI d a b s := rfl
@[simp] theorem exec_divN (d a b s) : exec (.divN d a b) s = execDivN d a b s := rfl
@[simp] theorem exec_remI (d a b s) : exec (.remI d a b) s = execRemI d a b s := rfl
@[simp] theorem exec_remN (d a b s) : exec (.remN d a b) s = execRemN d a b s := rfl
@[simp] theorem exec_and (d a b s) : exec (.and d a b) s = execAnd d a b s := rfl
@[simp] theorem exec_or (d a b s) : exec (.or d a b) s = execOr d a b s := rfl
@[simp] theorem exec_xor (d a b s) : exec (.xor d a b) s = execXor d a b s := rfl
@[simp] theorem exec_andn (d a b s) : exec (.andn d a b) s = execAndn d a b s := rfl
@[simp] theorem exec_shl (d a b s) : exec (.shl d a b) s = execShl d a b s := rfl
@[simp] theorem exec_shrN (d a b s) : exec (.shrN d a b) s = execShrN d a b s := rfl
@[simp] theorem exec_shrI (d a b s) : exec (.shrI d a b) s = execShrI d a b s := rfl
@[simp] theorem exec_rotr (d a b s) : exec (.rotr d a b) s = execRotr d a b s := rfl
@[simp] theorem exec_sltI (d a b s) : exec (.sltI d a b) s = execSltI d a b s := rfl
@[simp] theorem exec_sltN (d a b s) : exec (.sltN d a b) s = execSltN d a b s := rfl
@[simp] theorem exec_seq (d a b s) : exec (.seq d a b) s = execSeq d a b s := rfl
@[simp] theorem exec_minI (d a b s) : exec (.minI d a b) s = execMinI d a b s := rfl
@[simp] theorem exec_maxI (d a b s) : exec (.maxI d a b) s = execMaxI d a b s := rfl
@[simp] theorem exec_minN (d a b s) : exec (.minN d a b) s = execMinN d a b s := rfl
@[simp] theorem exec_maxN (d a b s) : exec (.maxN d a b) s = execMaxN d a b s := rfl
@[simp] theorem exec_addsI (d a b s) : exec (.addsI d a b) s = execAddsI d a b s := rfl
@[simp] theorem exec_subsI (d a b s) : exec (.subsI d a b) s = execSubsI d a b s := rfl
@[simp] theorem exec_clz (d a s) : exec (.clz d a) s = execClz d a s := rfl
@[simp] theorem exec_ctz (d a s) : exec (.ctz d a) s = execCtz d a s := rfl
@[simp] theorem exec_pop (d a s) : exec (.pop d a) s = execPop d a s := rfl
@[simp] theorem exec_sextI8 (d a s) : exec (.sextI8 d a) s = execSextI8 d a s := rfl
@[simp] theorem exec_sextI16 (d a s) : exec (.sextI16 d a) s = execSextI16 d a s := rfl
@[simp] theorem exec_sextI32 (d a s) : exec (.sextI32 d a) s = execSextI32 d a s := rfl
@[simp] theorem exec_zextN8 (d a s) : exec (.zextN8 d a) s = execZextN8 d a s := rfl
@[simp] theorem exec_zextN16 (d a s) : exec (.zextN16 d a) s = execZextN16 d a s := rfl
@[simp] theorem exec_zextN32 (d a s) : exec (.zextN32 d a) s = execZextN32 d a s := rfl
@[simp] theorem exec_bswap (d a s) : exec (.bswap d a) s = execBswap d a s := rfl
@[simp] theorem exec_addsc1 (d a b s) : exec (.addsc1 d a b) s = execAddsc1 d a b s := rfl
@[simp] theorem exec_addsc2 (d a b s) : exec (.addsc2 d a b) s = execAddsc2 d a b s := rfl
@[simp] theorem exec_addsc3 (d a b s) : exec (.addsc3 d a b) s = execAddsc3 d a b s := rfl
@[simp] theorem exec_addi (d a imm s) : exec (.addi d a imm) s = execAddi d a imm s := rfl
@[simp] theorem exec_andi (d a imm s) : exec (.andi d a imm) s = execAndi d a imm s := rfl
@[simp] theorem exec_ori (d a imm s) : exec (.ori d a imm) s = execOri d a imm s := rfl
@[simp] theorem exec_xori (d a imm s) : exec (.xori d a imm) s = execXori d a imm s := rfl
@[simp] theorem exec_slti (d a imm s) : exec (.slti d a imm) s = execSlti d a imm s := rfl
@[simp] theorem exec_sltni (d a imm s) : exec (.sltni d a imm) s = execSltni d a imm s := rfl
@[simp] theorem exec_shli (d a imm s) : exec (.shli d a imm) s = execShli d a imm s := rfl
@[simp] theorem exec_shriN (d a imm s) : exec (.shriN d a imm) s = execShriN d a imm s := rfl
@[simp] theorem exec_shriI (d a imm s) : exec (.shriI d a imm) s = execShriI d a imm s := rfl
@[simp] theorem exec_addhi (d a imm s) : exec (.addhi d a imm) s = execAddhi d a imm s := rfl
@[simp] theorem exec_ldN (sz d base off s) : exec (.ldN sz d base off) s = execLdN sz d base off s := rfl
@[simp] theorem exec_ldI (sz d base off s) : exec (.ldI sz d base off) s = execLdI sz d base off s := rfl
@[simp] theorem exec_st (sz d base off s) : exec (.st sz d base off) s = execSt sz d base off s := rfl
@[simp] theorem exec_stK (sz d base off s) : exec (.stK sz d base off) s = execStK sz d base off s := rfl
@[simp] theorem exec_vld (d base off s) : exec (.vld d base off) s = execVld d base off s := rfl
@[simp] theorem exec_vldM (d base off m s) : exec (.vldM d base off m) s = execVldM d base off m s := rfl
@[simp] theorem exec_vldG32 (d base idx m sc s) : exec (.vldG32 d base idx m sc) s = execVldG32 d base idx m sc s := rfl
@[simp] theorem exec_vldG64 (d base idx m sc s) : exec (.vldG64 d base idx m sc) s = execVldG64 d base idx m sc s := rfl
@[simp] theorem exec_vldCvtF32 (d base off s) : exec (.vldCvtF32 d base off) s = execVldCvtF32 d base off s := rfl
@[simp] theorem exec_vldCvtF64 (d base off s) : exec (.vldCvtF64 d base off) s = execVldCvtF64 d base off s := rfl
@[simp] theorem exec_vst (d base off s) : exec (.vst d base off) s = execVst d base off s := rfl
@[simp] theorem exec_vstM (d base off m s) : exec (.vstM d base off m) s = execVstM d base off m s := rfl
@[simp] theorem exec_vstS32 (d base idx m sc s) : exec (.vstS32 d base idx m sc) s = execVstS32 d base idx m sc s := rfl
@[simp] theorem exec_vstS64 (d base idx m sc s) : exec (.vstS64 d base idx m sc) s = execVstS64 d base idx m sc s := rfl
@[simp] theorem exec_mrqRd (sz t a d off s) : exec (.mrqRd sz t a d off) s = execMrqRd sz t a d off s := rfl
@[simp] theorem exec_mrqWr (sz t a d off s) : exec (.mrqWr sz t a d off) s = execMrqWr sz t a d off s := rfl
@[simp] theorem exec_mrqWrm (t a d mask s) : exec (.mrqWrm t a d mask) s = execMrqWrm t a d mask s := rfl
@[simp] theorem exec_mrqWait (d t s) : exec (.mrqWait d t) s = execMrqWait d t s := rfl
@[simp] theorem exec_mrqPoll (d t s) : exec (.mrqPoll d t) s = execMrqPoll d t s := rfl
@[simp] theorem exec_beq (a b off s) : exec (.beq a b off) s = execBeq a b off s := rfl
@[simp] theorem exec_bne (a b off s) : exec (.bne a b off) s = execBne a b off s := rfl
@[simp] theorem exec_blt (a b off s) : exec (.blt a b off) s = execBlt a b off s := rfl
@[simp] theorem exec_bge (a b off s) : exec (.bge a b off) s = execBge a b off s := rfl
@[simp] theorem exec_bltn (a b off s) : exec (.bltn a b off) s = execBltn a b off s := rfl
@[simp] theorem exec_bgen (a b off s) : exec (.bgen a b off) s = execBgen a b off s := rfl
@[simp] theorem exec_jmp (off s) : exec (.jmp off) s = execJmp off s := rfl
@[simp] theorem exec_jmpr (a imm s) : exec (.jmpr a imm) s = execJmpr a imm s := rfl
@[simp] theorem exec_loop (lvl a len s) : exec (.loop lvl a len) s = execLoop lvl a len s := rfl
@[simp] theorem exec_loopi (lvl cnt len s) : exec (.loopi lvl cnt len) s = execLoopi lvl cnt len s := rfl
@[simp] theorem exec_sel (c d a b s) : exec (.sel c d a b) s = execSel c d a b s := rfl
@[simp] theorem exec_cmov (c d a b s) : exec (.cmov c d a b) s = execCmov c d a b s := rfl
@[simp] theorem exec_vaddFp (ty d a b k s) : exec (.vaddFp ty d a b k) s = execVaddFp ty d a b k s := rfl
@[simp] theorem exec_vsubFp (ty d a b k s) : exec (.vsubFp ty d a b k) s = execVsubFp ty d a b k s := rfl
@[simp] theorem exec_vmulFp (ty d a b k s) : exec (.vmulFp ty d a b k) s = execVmulFp ty d a b k s := rfl
@[simp] theorem exec_vfma (ty d a b k s) : exec (.vfma ty d a b k) s = execVfma ty d a b k s := rfl
@[simp] theorem exec_vfms (ty d a b k s) : exec (.vfms ty d a b k) s = execVfms ty d a b k s := rfl
@[simp] theorem exec_vdiv (ty d a b k s) : exec (.vdiv ty d a b k) s = execVdiv ty d a b k s := rfl
@[simp] theorem exec_vsqrt (ty d a k s) : exec (.vsqrt ty d a k) s = execVsqrt ty d a k s := rfl
@[simp] theorem exec_vminFp (ty d a b k s) : exec (.vminFp ty d a b k) s = execVminFp ty d a b k s := rfl
@[simp] theorem exec_vmaxFp (ty d a b k s) : exec (.vmaxFp ty d a b k) s = execVmaxFp ty d a b k s := rfl
@[simp] theorem exec_vabsFp (ty d a k s) : exec (.vabsFp ty d a k) s = execVabsFp ty d a k s := rfl
@[simp] theorem exec_vnegFp (ty d a k s) : exec (.vnegFp ty d a k) s = execVnegFp ty d a k s := rfl
@[simp] theorem exec_vrcp (ty d a k s) : exec (.vrcp ty d a k) s = execVrcp ty d a k s := rfl
@[simp] theorem exec_vrsq (ty d a k s) : exec (.vrsq ty d a k) s = execVrsq ty d a k s := rfl
@[simp] theorem exec_vaddInt (es sg d a b k s) : exec (.vaddInt es sg d a b k) s = execVaddInt es sg d a b k s := rfl
@[simp] theorem exec_vsubInt (es sg d a b k s) : exec (.vsubInt es sg d a b k) s = execVsubInt es sg d a b k s := rfl
@[simp] theorem exec_vadds (es sg d a b k s) : exec (.vadds es sg d a b k) s = execVadds es sg d a b k s := rfl
@[simp] theorem exec_vsubs (es sg d a b k s) : exec (.vsubs es sg d a b k) s = execVsubs es sg d a b k s := rfl
@[simp] theorem exec_vmulInt (es sg d a b k s) : exec (.vmulInt es sg d a b k) s = execVmulInt es sg d a b k s := rfl
@[simp] theorem exec_vmulh (es sg d a b k s) : exec (.vmulh es sg d a b k) s = execVmulh es sg d a b k s := rfl
@[simp] theorem exec_vminInt (es sg d a b k s) : exec (.vminInt es sg d a b k) s = execVminInt es sg d a b k s := rfl
@[simp] theorem exec_vmaxInt (es sg d a b k s) : exec (.vmaxInt es sg d a b k) s = execVmaxInt es sg d a b k s := rfl
@[simp] theorem exec_vand (es sg d a b k s) : exec (.vand es sg d a b k) s = execVand es sg d a b k s := rfl
@[simp] theorem exec_vor (es sg d a b k s) : exec (.vor es sg d a b k) s = execVor es sg d a b k s := rfl
@[simp] theorem exec_vxor (es sg d a b k s) : exec (.vxor es sg d a b k) s = execVxor es sg d a b k s := rfl
@[simp] theorem exec_vshl (es sg d a b k s) : exec (.vshl es sg d a b k) s = execVshl es sg d a b k s := rfl
@[simp] theorem exec_vshr (es sg d a b k s) : exec (.vshr es sg d a b k) s = execVshr es sg d a b k s := rfl
@[simp] theorem exec_vabsInt (es d a k s) : exec (.vabsInt es d a k) s = execVabsInt es d a k s := rfl
@[simp] theorem exec_vcmpEq (ty d a b k s) : exec (.vcmpEq ty d a b k) s = execVcmpEq ty d a b k s := rfl
@[simp] theorem exec_vcmpNe (ty d a b k s) : exec (.vcmpNe ty d a b k) s = execVcmpNe ty d a b k s := rfl
@[simp] theorem exec_vcmpLt (ty d a b k s) : exec (.vcmpLt ty d a b k) s = execVcmpLt ty d a b k s := rfl
@[simp] theorem exec_vcmpLe (ty d a b k s) : exec (.vcmpLe ty d a b k) s = execVcmpLe ty d a b k s := rfl
@[simp] theorem exec_vcmpUn (ty d a b k s) : exec (.vcmpUn ty d a b k) s = execVcmpUn ty d a b k s := rfl
@[simp] theorem exec_vcvt (g f d a s) : exec (.vcvt g f d a) s = execVcvt g f d a s := rfl
@[simp] theorem exec_vlog2 (d a k s) : exec (.vlog2 d a k) s = execVlog2 d a k s := rfl
@[simp] theorem exec_vexp2 (d a k s) : exec (.vexp2 d a k) s = execVexp2 d a k s := rfl
@[simp] theorem exec_vrand (d k s) : exec (.vrand d k) s = execVrand d k s := rfl
@[simp] theorem exec_vrandF32 (d k s) : exec (.vrandF32 d k) s = execVrandF32 d k s := rfl
@[simp] theorem exec_vsum (ty d a k s) : exec (.vsum ty d a k) s = execVsum ty d a k s := rfl
@[simp] theorem exec_vmaxi (ty d a b k s) : exec (.vmaxi ty d a b k) s = execVmaxi ty d a b k s := rfl
@[simp] theorem exec_vmini (ty d a b k s) : exec (.vmini ty d a b k) s = execVmini ty d a b k s := rfl
@[simp] theorem exec_vperm (d a b k s) : exec (.vperm d a b k) s = execVperm d a b k s := rfl
@[simp] theorem exec_vrot (d a b k s) : exec (.vrot d a b k) s = execVrot d a b k s := rfl
@[simp] theorem exec_vbcast32 (d a k s) : exec (.vbcast32 d a k) s = execVbcast32 d a k s := rfl
@[simp] theorem exec_vbcast64 (d a k s) : exec (.vbcast64 d a k) s = execVbcast64 d a k s := rfl
@[simp] theorem exec_vins32 (d a n s) : exec (.vins32 d a n) s = execVins32 d a n s := rfl
@[simp] theorem exec_vext32 (d a n s) : exec (.vext32 d a n) s = execVext32 d a n s := rfl
@[simp] theorem exec_vlane (d k s) : exec (.vlane d k) s = execVlane d k s := rfl
@[simp] theorem exec_vsel32 (d a b k s) : exec (.vsel32 d a b k) s = execVsel32 d a b k s := rfl
@[simp] theorem exec_vmov32 (d a k s) : exec (.vmov32 d a k) s = execVmov32 d a k s := rfl
@[simp] theorem exec_vins64 (d a n s) : exec (.vins64 d a n) s = execVins64 d a n s := rfl
@[simp] theorem exec_vext64 (d a n s) : exec (.vext64 d a n) s = execVext64 d a n s := rfl
@[simp] theorem exec_vsel64 (d a b k s) : exec (.vsel64 d a b k) s = execVsel64 d a b k s := rfl
@[simp] theorem exec_vmov64 (d a k s) : exec (.vmov64 d a k) s = execVmov64 d a k s := rfl
@[simp] theorem exec_kand (d a b s) : exec (.kand d a b) s = execKand d a b s := rfl
@[simp] theorem exec_kor (d a b s) : exec (.kor d a b) s = execKor d a b s := rfl
@[simp] theorem exec_kxor (d a b s) : exec (.kxor d a b) s = execKxor d a b s := rfl
@[simp] theorem exec_kandn (d a b s) : exec (.kandn d a b) s = execKandn d a b s := rfl
@[simp] theorem exec_kset (d a s) : exec (.kset d a) s = execKset d a s := rfl
@[simp] theorem exec_kget (d a s) : exec (.kget d a) s = execKget d a s := rfl
@[simp] theorem exec_kpop (d a s) : exec (.kpop d a) s = execKpop d a s := rfl
@[simp] theorem exec_kffs (d a s) : exec (.kffs d a) s = execKffs d a s := rfl
@[simp] theorem exec_mma (acc a b n c s) : exec (.mma acc a b n c) s = execMma acc a b n c s := rfl
@[simp] theorem exec_mmaZ (acc a b n c s) : exec (.mmaZ acc a b n c) s = execMmaZ acc a b n c s := rfl
@[simp] theorem exec_mmaT (acc a b n c s) : exec (.mmaT acc a b n c) s = execMmaT acc a b n c s := rfl
@[simp] theorem exec_mmaTZ (acc a b n c s) : exec (.mmaTZ acc a b n c) s = execMmaTZ acc a b n c s := rfl
@[simp] theorem exec_accZero (acc n c s) : exec (.accZero acc n c) s = execAccZero acc n c s := rfl
@[simp] theorem exec_accLd (acc d c s) : exec (.accLd acc d c) s = execAccLd acc d c s := rfl
@[simp] theorem exec_accSt (d acc c s) : exec (.accSt d acc c) s = execAccSt d acc c s := rfl
@[simp] theorem exec_accCvt (f d acc c s) : exec (.accCvt f d acc c) s = execAccCvt f d acc c s := rfl
@[simp] theorem exec_sqQuant (f d acc a b c s) : exec (.sqQuant f d acc a b c) s = execSqQuant f d acc a b c s := rfl
@[simp] theorem exec_sqDeq (f acc d b c s) : exec (.sqDeq f acc d b c) s = execSqDeq f acc d b c s := rfl
@[simp] theorem exec_sqAlign (d a b c s) : exec (.sqAlign d a b c) s = execSqAlign d a b c s := rfl
@[simp] theorem exec_sqScale (d a b c s) : exec (.sqScale d a b c) s = execSqScale d a b c s := rfl
@[simp] theorem exec_bfmtSet (n a s) : exec (.bfmtSet n a) s = execBfmtSet n a s := rfl
@[simp] theorem exec_bfmtGet (d n s) : exec (.bfmtGet d n) s = execBfmtGet d n s := rfl
@[simp] theorem exec_cp (dl sl c d a b s) : exec (.cp dl sl c d a b) s = execCp dl sl c d a b s := rfl
@[simp] theorem exec_cpZ (dl c d b s) : exec (.cpZ dl c d b) s = execCpZ dl c d b s := rfl
@[simp] theorem exec_cpPf (c a b s) : exec (.cpPf c a b) s = execCpPf c a b s := rfl
@[simp] theorem exec_cp2 (dl sl c d a b s) : exec (.cp2 dl sl c d a b) s = execCp2 dl sl c d a b s := rfl
@[simp] theorem exec_cpSq (dl sl c d a b s) : exec (.cpSq dl sl c d a b) s = execCpSq dl sl c d a b s := rfl
@[simp] theorem exec_cpSqt (dl sl c d a b s) : exec (.cpSqt dl sl c d a b) s = execCpSqt dl sl c d a b s := rfl
@[simp] theorem exec_cpFill (c d a b s) : exec (.cpFill c d a b) s = execCpFill c d a b s := rfl
@[simp] theorem exec_cpWait (c a s) : exec (.cpWait c a) s = execCpWait c a s := rfl
@[simp] theorem exec_cpWaitq (d c a s) : exec (.cpWaitq d c a) s = execCpWaitq d c a s := rfl
@[simp] theorem exec_cpRdc (d c sel s) : exec (.cpRdc d c sel) s = execCpRdc d c sel s := rfl
@[simp] theorem exec_amoAdd (w aq rl sc d a b s) : exec (.amoAdd w aq rl sc d a b) s = execAmoAdd w aq rl sc d a b s := rfl
@[simp] theorem exec_amoAnd (w aq rl sc d a b s) : exec (.amoAnd w aq rl sc d a b) s = execAmoAnd w aq rl sc d a b s := rfl
@[simp] theorem exec_amoOr (w aq rl sc d a b s) : exec (.amoOr w aq rl sc d a b) s = execAmoOr w aq rl sc d a b s := rfl
@[simp] theorem exec_amoXor (w aq rl sc d a b s) : exec (.amoXor w aq rl sc d a b) s = execAmoXor w aq rl sc d a b s := rfl
@[simp] theorem exec_amoSwap (w aq rl sc d a b s) : exec (.amoSwap w aq rl sc d a b) s = execAmoSwap w aq rl sc d a b s := rfl
@[simp] theorem exec_amoMin (w aq rl sc d a b s) : exec (.amoMin w aq rl sc d a b) s = execAmoMin w aq rl sc d a b s := rfl
@[simp] theorem exec_amoMax (w aq rl sc d a b s) : exec (.amoMax w aq rl sc d a b) s = execAmoMax w aq rl sc d a b s := rfl
@[simp] theorem exec_amoMinn (w aq rl sc d a b s) : exec (.amoMinn w aq rl sc d a b) s = execAmoMinn w aq rl sc d a b s := rfl
@[simp] theorem exec_amoMaxn (w aq rl sc d a b s) : exec (.amoMaxn w aq rl sc d a b) s = execAmoMaxn w aq rl sc d a b s := rfl
@[simp] theorem exec_amoCas (w aq rl sc d a b s) : exec (.amoCas w aq rl sc d a b) s = execAmoCas w aq rl sc d a b s := rfl
@[simp] theorem exec_amoFadd (w aq rl sc d a b s) : exec (.amoFadd w aq rl sc d a b) s = execAmoFadd w aq rl sc d a b s := rfl
@[simp] theorem exec_lamoAdd (w aq rl sc d a b s) : exec (.lamoAdd w aq rl sc d a b) s = execLamoAdd w aq rl sc d a b s := rfl
@[simp] theorem exec_lamoAnd (w aq rl sc d a b s) : exec (.lamoAnd w aq rl sc d a b) s = execLamoAnd w aq rl sc d a b s := rfl
@[simp] theorem exec_lamoOr (w aq rl sc d a b s) : exec (.lamoOr w aq rl sc d a b) s = execLamoOr w aq rl sc d a b s := rfl
@[simp] theorem exec_lamoXor (w aq rl sc d a b s) : exec (.lamoXor w aq rl sc d a b) s = execLamoXor w aq rl sc d a b s := rfl
@[simp] theorem exec_lamoSwap (w aq rl sc d a b s) : exec (.lamoSwap w aq rl sc d a b) s = execLamoSwap w aq rl sc d a b s := rfl
@[simp] theorem exec_lamoMin (w aq rl sc d a b s) : exec (.lamoMin w aq rl sc d a b) s = execLamoMin w aq rl sc d a b s := rfl
@[simp] theorem exec_lamoMax (w aq rl sc d a b s) : exec (.lamoMax w aq rl sc d a b) s = execLamoMax w aq rl sc d a b s := rfl
@[simp] theorem exec_lamoMinn (w aq rl sc d a b s) : exec (.lamoMinn w aq rl sc d a b) s = execLamoMinn w aq rl sc d a b s := rfl
@[simp] theorem exec_lamoMaxn (w aq rl sc d a b s) : exec (.lamoMaxn w aq rl sc d a b) s = execLamoMaxn w aq rl sc d a b s := rfl
@[simp] theorem exec_lamoCas (w aq rl sc d a b s) : exec (.lamoCas w aq rl sc d a b) s = execLamoCas w aq rl sc d a b s := rfl
@[simp] theorem exec_lamoFadd (w aq rl sc d a b s) : exec (.lamoFadd w aq rl sc d a b) s = execLamoFadd w aq rl sc d a b s := rfl
@[simp] theorem exec_futRes (d a b s) : exec (.futRes d a b) s = execFutRes d a b s := rfl
@[simp] theorem exec_futReg (d a b s) : exec (.futReg d a b) s = execFutReg d a b s := rfl
@[simp] theorem exec_futOn (a b c s) : exec (.futOn a b c) s = execFutOn a b c s := rfl
@[simp] theorem exec_futRst (d a s) : exec (.futRst d a) s = execFutRst d a s := rfl
@[simp] theorem exec_barArr (d a s) : exec (.barArr d a) s = execBarArr d a s := rfl
@[simp] theorem exec_barWait (d a b s) : exec (.barWait d a b) s = execBarWait d a b s := rfl
@[simp] theorem exec_barPoll (d a b s) : exec (.barPoll d a b) s = execBarPoll d a b s := rfl
@[simp] theorem exec_barJoin (a s) : exec (.barJoin a) s = execBarJoin a s := rfl
@[simp] theorem exec_barLeave (a s) : exec (.barLeave a) s = execBarLeave a s := rfl
@[simp] theorem exec_barCfg (a b s) : exec (.barCfg a b) s = execBarCfg a b s := rfl
@[simp] theorem exec_fence (sc p q s) : exec (.fence sc p q) s = execFence sc p q s := rfl
@[simp] theorem exec_qpush (q a s) : exec (.qpush q a) s = execQpush q a s := rfl
@[simp] theorem exec_qpushAt (q a b s) : exec (.qpushAt q a b) s = execQpushAt q a b s := rfl
@[simp] theorem exec_qmark (q s) : exec (.qmark q) s = execQmark q s := rfl
@[simp] theorem exec_qmarkF (q s) : exec (.qmarkF q) s = execQmarkF q s := rfl
@[simp] theorem exec_qpop (d q s) : exec (.qpop d q) s = execQpop d q s := rfl
@[simp] theorem exec_qpopm (d q b s) : exec (.qpopm d q b) s = execQpopm d q b s := rfl
@[simp] theorem exec_qpeek (d q s) : exec (.qpeek d q) s = execQpeek d q s := rfl
@[simp] theorem exec_qstat (d q sel s) : exec (.qstat d q sel) s = execQstat d q sel s := rfl
@[simp] theorem exec_amSend (d a b s) : exec (.amSend d a b) s = execAmSend d a b s := rfl
@[simp] theorem exec_amReply (a b s) : exec (.amReply a b) s = execAmReply a b s := rfl
@[simp] theorem exec_amStat (d sel s) : exec (.amStat d sel) s = execAmStat d sel s := rfl
@[simp] theorem exec_shTag (d a b s) : exec (.shTag d a b) s = execShTag d a b s := rfl
@[simp] theorem exec_shChk (d a b s) : exec (.shChk d a b) s = execShChk d a b s := rfl
@[simp] theorem exec_shRed (a b s) : exec (.shRed a b) s = execShRed a b s := rfl
@[simp] theorem exec_shAck (a b s) : exec (.shAck a b) s = execShAck a b s := rfl
@[simp] theorem exec_shRel (d a b s) : exec (.shRel d a b) s = execShRel d a b s := rfl
@[simp] theorem exec_trap (n s) : exec (.trap n) s = execTrap n s := rfl
@[simp] theorem exec_brk (n s) : exec (.brk n) s = execBrk n s := rfl
@[simp] theorem exec_srd (d r s) : exec (.srd d r) s = execSrd d r s := rfl
@[simp] theorem exec_swr (r a s) : exec (.swr r a) s = execSwr r a s := rfl
@[simp] theorem exec_swrBfmt (n a s) : exec (.swrBfmt n a) s = execSwrBfmt n a s := rfl
@[simp] theorem exec_swrLoopReg (r a s) : exec (.swrLoopReg r a) s = execSwrLoopReg r a s := rfl
@[simp] theorem exec_swrPhilox (r a s) : exec (.swrPhilox r a) s = execSwrPhilox r a s := rfl
@[simp] theorem exec_ifl (a b n s) : exec (.ifl a b n) s = execIfl a b n s := rfl
@[simp] theorem exec_tlbinv (a b s) : exec (.tlbinv a b) s = execTlbinv a b s := rfl
@[simp] theorem exec_tbrd (d s) : exec (.tbrd d) s = execTbrd d s := rfl
@[simp] theorem exec_tbrdSt (d s) : exec (.tbrdSt d) s = execTbrdSt d s := rfl
@[simp] theorem exec_waitt (a s) : exec (.waitt a) s = execWaitt a s := rfl
@[simp] theorem exec_hintBr (lk s) : exec (.hintBr lk) s = execHintBr lk s := rfl
@[simp] theorem exec_hintPf (a off s) : exec (.hintPf a off) s = execHintPf a off s := rfl
@[simp] theorem exec_hintPg (a n s) : exec (.hintPg a n) s = execHintPg a n s := rfl
@[simp] theorem exec_hintBank (n s) : exec (.hintBank n) s = execHintBank n s := rfl
@[simp] theorem exec_ximm (e s) : exec (.ximm e) s = execXimm e s := rfl
@[simp] theorem exec_flit (l f s) : exec (.flit l f) s = execFlit l f s := rfl
@[simp] theorem exec_notify (r s) : exec (.notify r) s = execNotify r s := rfl
@[simp] theorem exec_bind (r s) : exec (.bind r) s = execBind r s := rfl
@[simp] theorem exec_unbind (r s) : exec (.unbind r) s = execUnbind r s := rfl
@[simp] theorem exec_inject (r s) : exec (.inject r) s = execInject r s := rfl
@[simp] theorem exec_status (r s) : exec (.status r) s = execStatus r s := rfl
@[simp] theorem exec_summary (r s) : exec (.summary r) s = execSummary r s := rfl
@[simp] theorem exec_reconfig (r recs s) : exec (.reconfig r recs) s = execReconfig r recs s := rfl
@[simp] theorem exec_exportRequest (r arg records s) : exec (.exportRequest r arg records) s = execExportRequest r arg records s := rfl
@[simp] theorem exec_importRequest (r arg records s) : exec (.importRequest r arg records) s = execImportRequest r arg records s := rfl
@[simp] theorem exec_attestRequest (r nonce s) : exec (.attestRequest r nonce) s = execAttestRequest r nonce s := rfl
@[simp] theorem exec_packageReset (r s) : exec (.packageReset r) s = execPackageReset r s := rfl
@[simp] theorem exec_unassignedEncoding (w s) : exec (.unassignedEncoding w) s = execUnassignedEncoding w s := rfl
@[simp] theorem exec_commit (s) : exec (.commit) s = execCommit s := rfl
@[simp] theorem exec_abort (s) : exec (.abort) s = execAbort s := rfl
@[simp] theorem exec_yield (s) : exec (.yield) s = execYield s := rfl
@[simp] theorem exec_amEnd (s) : exec (.amEnd) s = execAmEnd s := rfl
@[simp] theorem exec_eret (s) : exec (.eret) s = execEret s := rfl
@[simp] theorem exec_wfi (s) : exec (.wfi) s = execWfi s := rfl
@[simp] theorem exec_halt (s) : exec (.halt) s = execHalt s := rfl
@[simp] theorem exec_info (s) : exec (.info) s = execInfo s := rfl
@[simp] theorem exec_ctxPark (s) : exec (.ctxPark) s = execCtxPark s := rfl
@[simp] theorem exec_ctxResume (s) : exec (.ctxResume) s = execCtxResume s := rfl
@[simp] theorem exec_ctxKill (s) : exec (.ctxKill) s = execCtxKill s := rfl
@[simp] theorem exec_quarantine (s) : exec (.quarantine) s = execQuarantine s := rfl
@[simp] theorem exec_regionSet (s) : exec (.regionSet) s = execRegionSet s := rfl
@[simp] theorem exec_keyLoad (s) : exec (.keyLoad) s = execKeyLoad s := rfl
@[simp] theorem exec_keyClear (s) : exec (.keyClear) s = execKeyClear s := rfl
@[simp] theorem exec_routeSet (s) : exec (.routeSet) s = execRouteSet s := rfl
@[simp] theorem exec_routeClear (s) : exec (.routeClear) s = execRouteClear s := rfl
@[simp] theorem exec_vqBind (s) : exec (.vqBind) s = execVqBind s := rfl
@[simp] theorem exec_exportCall (s) : exec (.exportCall) s = execExportCall s := rfl
@[simp] theorem exec_importCall (s) : exec (.importCall) s = execImportCall s := rfl
@[simp] theorem exec_attest (s) : exec (.attest) s = execAttest s := rfl
@[simp] theorem exec_hintNop (s) : exec (.hintNop) s = execHintNop s := rfl
@[simp] theorem exec_mrqReplyArrival (s) : exec (.mrqReplyArrival) s = execMrqReplyArrival s := rfl
@[simp] theorem exec_thresherStep (s) : exec (.thresherStep) s = execThresherStep s := rfl
@[simp] theorem exec_thresherStop (s) : exec (.thresherStop) s = execThresherStop s := rfl
@[simp] theorem exec_thresherCommandComplete (s) : exec (.thresherCommandComplete) s = execThresherCommandComplete s := rfl
@[simp] theorem exec_tailFault (s) : exec (.tailFault) s = execTailFault s := rfl
@[simp] theorem exec_wainCommandStart (s) : exec (.wainCommandStart) s = execWainCommandStart s := rfl
@[simp] theorem exec_wainTransfer (s) : exec (.wainTransfer) s = execWainTransfer s := rfl
@[simp] theorem exec_wainCommandComplete (s) : exec (.wainCommandComplete) s = execWainCommandComplete s := rfl
@[simp] theorem exec_atomicAtHomeSlice (s) : exec (.atomicAtHomeSlice) s = execAtomicAtHomeSlice s := rfl
@[simp] theorem exec_globalAtomicReply (s) : exec (.globalAtomicReply) s = execGlobalAtomicReply s := rfl
@[simp] theorem exec_asyncAtomicFault (s) : exec (.asyncAtomicFault) s = execAsyncAtomicFault s := rfl
@[simp] theorem exec_atomicReplay (s) : exec (.atomicReplay) s = execAtomicReplay s := rfl
@[simp] theorem exec_atomicGiveUp (s) : exec (.atomicGiveUp) s = execAtomicGiveUp s := rfl
@[simp] theorem exec_joinDecrement (s) : exec (.joinDecrement) s = execJoinDecrement s := rfl
@[simp] theorem exec_barrierTimeout (s) : exec (.barrierTimeout) s = execBarrierTimeout s := rfl
@[simp] theorem exec_shRedDeparture (s) : exec (.shRedDeparture) s = execShRedDeparture s := rfl
@[simp] theorem exec_memoryWaitEnd (s) : exec (.memoryWaitEnd) s = execMemoryWaitEnd s := rfl
@[simp] theorem exec_engineWaitEnd (s) : exec (.engineWaitEnd) s = execEngineWaitEnd s := rfl
@[simp] theorem exec_queueWaitEnd (s) : exec (.queueWaitEnd) s = execQueueWaitEnd s := rfl
@[simp] theorem exec_timeWaitEnd (s) : exec (.timeWaitEnd) s = execTimeWaitEnd s := rfl
@[simp] theorem exec_faultRecordPlaced (s) : exec (.faultRecordPlaced) s = execFaultRecordPlaced s := rfl
@[simp] theorem exec_budgetExpiry (s) : exec (.budgetExpiry) s = execBudgetExpiry s := rfl
@[simp] theorem exec_remap (s) : exec (.remap) s = execRemap s := rfl
@[simp] theorem exec_rd (s) : exec (.rd) s = execRd s := rfl
@[simp] theorem exec_wr (s) : exec (.wr) s = execWr s := rfl
@[simp] theorem exec_wrm (s) : exec (.wrm) s = execWrm s := rfl
@[simp] theorem exec_sqrd (s) : exec (.sqrd) s = execSqrd s := rfl
@[simp] theorem exec_sqwr (s) : exec (.sqwr) s = execSqwr s := rfl
@[simp] theorem exec_atomwb (s) : exec (.atomwb) s = execAtomwb s := rfl
@[simp] theorem exec_walk (s) : exec (.walk) s = execWalk s := rfl
@[simp] theorem exec_pdelta (s) : exec (.pdelta) s = execPdelta s := rfl
@[simp] theorem exec_memoryEventForward (s) : exec (.memoryEventForward) s = execMemoryEventForward s := rfl
@[simp] theorem exec_scrub (s) : exec (.scrub) s = execScrub s := rfl
@[simp] theorem exec_channelStateChange (s) : exec (.channelStateChange) s = execChannelStateChange s := rfl
@[simp] theorem exec_homeSliceRead (s) : exec (.homeSliceRead) s = execHomeSliceRead s := rfl
@[simp] theorem exec_homeSliceWrite (s) : exec (.homeSliceWrite) s = execHomeSliceWrite s := rfl
@[simp] theorem exec_baseDieReply (s) : exec (.baseDieReply) s = execBaseDieReply s := rfl
@[simp] theorem exec_pageEventOpen (s) : exec (.pageEventOpen) s = execPageEventOpen s := rfl
@[simp] theorem exec_pageEventTimeout (s) : exec (.pageEventTimeout) s = execPageEventTimeout s := rfl
@[simp] theorem exec_pageResume (s) : exec (.pageResume) s = execPageResume s := rfl
@[simp] theorem exec_agentPushRetry (s) : exec (.agentPushRetry) s = execAgentPushRetry s := rfl
@[simp] theorem exec_switchArrival (s) : exec (.switchArrival) s = execSwitchArrival s := rfl
@[simp] theorem exec_reductionEmit (s) : exec (.reductionEmit) s = execReductionEmit s := rfl
@[simp] theorem exec_redtimeout (s) : exec (.redtimeout) s = execRedtimeout s := rfl
@[simp] theorem exec_messageArrival (s) : exec (.messageArrival) s = execMessageArrival s := rfl
@[simp] theorem exec_handlerStart (s) : exec (.handlerStart) s = execHandlerStart s := rfl
@[simp] theorem exec_acceptance (s) : exec (.acceptance) s = execAcceptance s := rfl
@[simp] theorem exec_refusal (s) : exec (.refusal) s = execRefusal s := rfl
@[simp] theorem exec_messageResend (s) : exec (.messageResend) s = execMessageResend s := rfl
@[simp] theorem exec_reject (s) : exec (.reject) s = execReject s := rfl
@[simp] theorem exec_remoteStore (s) : exec (.remoteStore) s = execRemoteStore s := rfl
@[simp] theorem exec_remoteLoad (s) : exec (.remoteLoad) s = execRemoteLoad s := rfl
@[simp] theorem exec_loadReply (s) : exec (.loadReply) s = execLoadReply s := rfl
@[simp] theorem exec_remoteAtomic (s) : exec (.remoteAtomic) s = execRemoteAtomic s := rfl
@[simp] theorem exec_atomicReply (s) : exec (.atomicReply) s = execAtomicReply s := rfl
@[simp] theorem exec_sheafResend (s) : exec (.sheafResend) s = execSheafResend s := rfl
@[simp] theorem exec_ackDelivery (s) : exec (.ackDelivery) s = execAckDelivery s := rfl
@[simp] theorem exec_nak (s) : exec (.nak) s = execNak s := rfl
@[simp] theorem exec_replayTimeout (s) : exec (.replayTimeout) s = execReplayTimeout s := rfl
@[simp] theorem exec_linkRetrain (s) : exec (.linkRetrain) s = execLinkRetrain s := rfl
@[simp] theorem exec_linkDown (s) : exec (.linkDown) s = execLinkDown s := rfl
@[simp] theorem exec_timeExchange (s) : exec (.timeExchange) s = execTimeExchange s := rfl
@[simp] theorem exec_syncTimeout (s) : exec (.syncTimeout) s = execSyncTimeout s := rfl
@[simp] theorem exec_itemArrival (s) : exec (.itemArrival) s = execItemArrival s := rfl
@[simp] theorem exec_bindMarkerArrival (s) : exec (.bindMarkerArrival) s = execBindMarkerArrival s := rfl
@[simp] theorem exec_nbtReached (s) : exec (.nbtReached) s = execNbtReached s := rfl
@[simp] theorem exec_creditReturn (s) : exec (.creditReturn) s = execCreditReturn s := rfl
@[simp] theorem exec_schedulerBoundary (s) : exec (.schedulerBoundary) s = execSchedulerBoundary s := rfl
@[simp] theorem exec_fallowSteps (s) : exec (.fallowSteps) s = execFallowSteps s := rfl
@[simp] theorem exec_virtqueueCompletion (s) : exec (.virtqueueCompletion) s = execVirtqueueCompletion s := rfl
@[simp] theorem exec_flr (s) : exec (.flr) s = execFlr s := rfl
@[simp] theorem exec_flrComplete (s) : exec (.flrComplete) s = execFlrComplete s := rfl
@[simp] theorem exec_deviceReset (s) : exec (.deviceReset) s = execDeviceReset s := rfl
@[simp] theorem exec_featuresOk (s) : exec (.featuresOk) s = execFeaturesOk s := rfl
@[simp] theorem exec_ioDieFailover (s) : exec (.ioDieFailover) s = execIoDieFailover s := rfl
@[simp] theorem exec_droop (s) : exec (.droop) s = execDroop s := rfl
@[simp] theorem exec_powerCap (s) : exec (.powerCap) s = execPowerCap s := rfl
@[simp] theorem exec_thermalLimit (s) : exec (.thermalLimit) s = execThermalLimit s := rfl
@[simp] theorem exec_itemRefusal (s) : exec (.itemRefusal) s = execItemRefusal s := rfl
@[simp] theorem exec_linkRetrainComplete (s) : exec (.linkRetrainComplete) s = execLinkRetrainComplete s := rfl
@[simp] theorem exec_droopRecovery (s) : exec (.droopRecovery) s = execDroopRecovery s := rfl
@[simp] theorem exec_parityAck (s) : exec (.parityAck) s = execParityAck s := rfl
@[simp] theorem exec_driverOk (s) : exec (.driverOk) s = execDriverOk s := rfl
@[simp] theorem exec_atomicEntryExpiry (s) : exec (.atomicEntryExpiry) s = execAtomicEntryExpiry s := rfl

end Sys2Proof.Machine
end

