-- ==== Sys2Proof/Laws/Fields.lean ====
section
/-! SUPPORT. Sys2Proof/Laws/Fields.lean: what every field of a built word reads as (02 R31, R32): the lemmas that decoding an
encoded instruction comes down to. -/
set_option linter.unusedSimpArgs false
namespace Sys2Proof.Laws

/-- A field of the upper part of a concatenation. -/
theorem extract_append {n m : Nat} (a : BitVec n) (b : BitVec m) (i len : Nat) (h : m ≤ i) :
    BitVec.extractLsb' i len (a ++ b) = BitVec.extractLsb' (i - m) len a := by
  ext j hj
  simp only [BitVec.getElem_extractLsb', BitVec.getLsbD_append]
  rw [if_neg (by omega)]
  congr 1
  omega

/-- A field of the lower part of a concatenation. -/
theorem extract_append_lo {n m : Nat} (a : BitVec n) (b : BitVec m) (i len : Nat) (h : i + len ≤ m) :
    BitVec.extractLsb' i len (a ++ b) = BitVec.extractLsb' i len b := by
  ext j hj
  simp only [BitVec.getElem_extractLsb', BitVec.getLsbD_append]
  rw [if_pos (by omega)]

@[simp] theorem fMaj_wReg (maj d a b lo) : fMaj (wReg maj d a b lo) = maj := by
  simp (disch := decide) only [fMaj, wReg, extract_append, extract_append_lo, Nat.reduceSub]
  exact BitVec.extractLsb'_eq_self

@[simp] theorem fD_wReg (maj d a b lo) : fD (wReg maj d a b lo) = d := by
  simp (disch := decide) only [fD, wReg, extract_append, extract_append_lo, Nat.reduceSub]
  exact BitVec.extractLsb'_eq_self

@[simp] theorem fA_wReg (maj d a b lo) : fA (wReg maj d a b lo) = a := by
  simp (disch := decide) only [fA, wReg, extract_append, extract_append_lo, Nat.reduceSub]
  exact BitVec.extractLsb'_eq_self

@[simp] theorem fB_wReg (maj d a b lo) : fB (wReg maj d a b lo) = b := by
  simp (disch := decide) only [fB, wReg, extract_append, extract_append_lo, Nat.reduceSub]
  exact BitVec.extractLsb'_eq_self

@[simp] theorem fLo_wReg (maj d a b lo) : fLo (wReg maj d a b lo) = lo := by
  simp (disch := decide) only [fLo, wReg, extract_append, extract_append_lo, Nat.reduceSub]
  exact BitVec.extractLsb'_eq_self

@[simp] theorem fMaj_wImm (maj d a i) : fMaj (wImm maj d a i) = maj := by
  simp (disch := decide) only [fMaj, wImm, extract_append, extract_append_lo, Nat.reduceSub]
  exact BitVec.extractLsb'_eq_self

@[simp] theorem fD_wImm (maj d a i) : fD (wImm maj d a i) = d := by
  simp (disch := decide) only [fD, wImm, extract_append, extract_append_lo, Nat.reduceSub]
  exact BitVec.extractLsb'_eq_self

@[simp] theorem fA_wImm (maj d a i) : fA (wImm maj d a i) = a := by
  simp (disch := decide) only [fA, wImm, extract_append, extract_append_lo, Nat.reduceSub]
  exact BitVec.extractLsb'_eq_self

@[simp] theorem fImm16_wImm (maj d a i) : fImm16 (wImm maj d a i) = i := by
  simp (disch := decide) only [fImm16, wImm, extract_append, extract_append_lo, Nat.reduceSub]
  exact BitVec.extractLsb'_eq_self

@[simp] theorem fMaj_wMem (maj d a i sf) : fMaj (wMem maj d a i sf) = maj := by
  simp (disch := decide) only [fMaj, wMem, extract_append, extract_append_lo, Nat.reduceSub]
  exact BitVec.extractLsb'_eq_self

@[simp] theorem fD_wMem (maj d a i sf) : fD (wMem maj d a i sf) = d := by
  simp (disch := decide) only [fD, wMem, extract_append, extract_append_lo, Nat.reduceSub]
  exact BitVec.extractLsb'_eq_self

@[simp] theorem fA_wMem (maj d a i sf) : fA (wMem maj d a i sf) = a := by
  simp (disch := decide) only [fA, wMem, extract_append, extract_append_lo, Nat.reduceSub]
  exact BitVec.extractLsb'_eq_self

@[simp] theorem fMemImm_wMem (maj d a i sf) : fMemImm (wMem maj d a i sf) = i := by
  simp (disch := decide) only [fMemImm, wMem, extract_append, extract_append_lo, Nat.reduceSub]
  exact BitVec.extractLsb'_eq_self

@[simp] theorem fSf_wMem (maj d a i sf) : fSf (wMem maj d a i sf) = sf := by
  simp (disch := decide) only [fSf, wMem, extract_append, extract_append_lo, Nat.reduceSub]
  exact BitVec.extractLsb'_eq_self

@[simp] theorem fMaj_wJmp (maj o) : fMaj (wJmp maj o) = maj := by
  simp (disch := decide) only [fMaj, wJmp, extract_append, extract_append_lo, Nat.reduceSub]
  exact BitVec.extractLsb'_eq_self

@[simp] theorem fOff26_wJmp (maj o) : fOff26 (wJmp maj o) = o := by
  simp (disch := decide) only [fOff26, wJmp, extract_append, extract_append_lo, Nat.reduceSub]
  exact BitVec.extractLsb'_eq_self

@[simp] theorem fLo_wLoopi (lvl cnt len) : fLo (wLoopi lvl cnt len) = len := by
  simp (disch := decide) only [fLo, wLoopi, extract_append, extract_append_lo, Nat.reduceSub]
  exact BitVec.extractLsb'_eq_self

@[simp] theorem fBit24_wLoopi (lvl cnt len) : fBit24 (wLoopi lvl cnt len) = lvl := by
  simp (disch := decide) only [fBit24, wLoopi, extract_append, extract_append_lo, Nat.reduceSub]
  exact BitVec.extractLsb'_eq_self

@[simp] theorem fCnt13_wLoopi (lvl cnt len) : fCnt13 (wLoopi lvl cnt len) = cnt := by
  simp (disch := decide) only [fCnt13, wLoopi, extract_append, extract_append_lo, Nat.reduceSub]
  exact BitVec.extractLsb'_eq_self

@[simp] theorem fMaj_wTrap (maj n lo) : fMaj (wTrap maj n lo) = maj := by
  simp (disch := decide) only [fMaj, wTrap, extract_append, extract_append_lo, Nat.reduceSub]
  exact BitVec.extractLsb'_eq_self

@[simp] theorem fLo_wTrap (maj n lo) : fLo (wTrap maj n lo) = lo := by
  simp (disch := decide) only [fLo, wTrap, extract_append, extract_append_lo, Nat.reduceSub]
  exact BitVec.extractLsb'_eq_self

@[simp] theorem fTrapN_wTrap (maj n lo) : fTrapN (wTrap maj n lo) = n := by
  simp (disch := decide) only [fTrapN, wTrap, extract_append, extract_append_lo, Nat.reduceSub]
  exact BitVec.extractLsb'_eq_self

@[simp] theorem fMaj_wLoopi (lvl cnt len) : fMaj (wLoopi lvl cnt len) = 0x14 := by
  simp (disch := decide) only [fMaj, wLoopi, extract_append, extract_append_lo, Nat.reduceSub]
  exact BitVec.extractLsb'_eq_self

@[simp] theorem fBit25_wLoopi (lvl cnt len) : fBit25 (wLoopi lvl cnt len) = 1 := by
  simp (disch := decide) only [fBit25, wLoopi, extract_append, extract_append_lo, Nat.reduceSub]
  exact BitVec.extractLsb'_eq_self

@[simp] theorem fD_wTrap (maj n lo) : fD (wTrap maj n lo) = 0 := by
  simp (disch := decide) only [fD, wTrap, extract_append, extract_append_lo, Nat.reduceSub]
  exact BitVec.extractLsb'_eq_self

@[simp] theorem fBit25_dLoop (m op lvl a b lo) : fBit25 (wReg m (dLoop op lvl) a b lo) = op := by
  simp (disch := decide) only [fBit25, wReg, dLoop, extract_append, extract_append_lo, Nat.reduceSub]
  exact BitVec.extractLsb'_eq_self

@[simp] theorem fBit24_dLoop (m op lvl a b lo) : fBit24 (wReg m (dLoop op lvl) a b lo) = lvl := by
  simp (disch := decide) only [fBit24, wReg, dLoop, extract_append, extract_append_lo, Nat.reduceSub]
  exact BitVec.extractLsb'_eq_self

@[simp] theorem dLoop_low (op lvl) : (dLoop op lvl).extractLsb' 0 3 = 0 := by
  simp (disch := decide) only [dLoop, extract_append, extract_append_lo, Nat.reduceSub]
  exact BitVec.extractLsb'_eq_self

@[simp] theorem sBits_loK_8 (k f) : sBits (loK k f) 8 3 = k := by
  simp (disch := decide) only [sBits, loK, extract_append, extract_append_lo, Nat.reduceSub]
  exact BitVec.extractLsb'_eq_self

@[simp] theorem sK_loK (k f) : sK (loK k f) = k := by
  simp (disch := decide) only [sK, loK, extract_append, extract_append_lo, Nat.reduceSub]
  exact BitVec.extractLsb'_eq_self

@[simp] theorem sBits_loK_0 (k f) : sBits (loK k f) 0 8 = f := by
  simp (disch := decide) only [sBits, loK, extract_append, extract_append_lo, Nat.reduceSub]
  exact BitVec.extractLsb'_eq_self

@[simp] theorem sF_loK (k f) : sF (loK k f) = f := by
  simp (disch := decide) only [sF, loK, extract_append, extract_append_lo, Nat.reduceSub]
  exact BitVec.extractLsb'_eq_self

@[simp] theorem sBits_loM_8 (op sz i) : sBits (loM op sz i) 8 3 = op := by
  simp (disch := decide) only [sBits, loM, extract_append, extract_append_lo, Nat.reduceSub]
  exact BitVec.extractLsb'_eq_self

@[simp] theorem sK_loM (op sz i) : sK (loM op sz i) = op := by
  simp (disch := decide) only [sK, loM, extract_append, extract_append_lo, Nat.reduceSub]
  exact BitVec.extractLsb'_eq_self

@[simp] theorem sBits_loM_6 (op sz i) : sBits (loM op sz i) 6 2 = sz := by
  simp (disch := decide) only [sBits, loM, extract_append, extract_append_lo, Nat.reduceSub]
  exact BitVec.extractLsb'_eq_self

@[simp] theorem sBits_loM_0 (op sz i) : sBits (loM op sz i) 0 6 = i := by
  simp (disch := decide) only [sBits, loM, extract_append, extract_append_lo, Nat.reduceSub]
  exact BitVec.extractLsb'_eq_self

@[simp] theorem sBits_loSel_4 (op c) : sBits (loSel op c) 4 7 = 0 := by
  simp (disch := decide) only [sBits, loSel, extract_append, extract_append_lo, Nat.reduceSub]
  exact BitVec.extractLsb'_eq_self

@[simp] theorem sBits_loSel_3 (op c) : sBits (loSel op c) 3 1 = op := by
  simp (disch := decide) only [sBits, loSel, extract_append, extract_append_lo, Nat.reduceSub]
  exact BitVec.extractLsb'_eq_self

@[simp] theorem sBits_loSel_0 (op c) : sBits (loSel op c) 0 3 = c := by
  simp (disch := decide) only [sBits, loSel, extract_append, extract_append_lo, Nat.reduceSub]
  exact BitVec.extractLsb'_eq_self

@[simp] theorem sBits_loVf_8 (k ty op) : sBits (loVf k ty op) 8 3 = k := by
  simp (disch := decide) only [sBits, loVf, extract_append, extract_append_lo, Nat.reduceSub]
  exact BitVec.extractLsb'_eq_self

@[simp] theorem sK_loVf (k ty op) : sK (loVf k ty op) = k := by
  simp (disch := decide) only [sK, loVf, extract_append, extract_append_lo, Nat.reduceSub]
  exact BitVec.extractLsb'_eq_self

@[simp] theorem sBits_loVf_7 (k ty op) : sBits (loVf k ty op) 7 1 = ty := by
  simp (disch := decide) only [sBits, loVf, extract_append, extract_append_lo, Nat.reduceSub]
  exact BitVec.extractLsb'_eq_self

@[simp] theorem sBits_loVf_5 (k ty op) : sBits (loVf k ty op) 5 2 = 0 := by
  simp (disch := decide) only [sBits, loVf, extract_append, extract_append_lo, Nat.reduceSub]
  exact BitVec.extractLsb'_eq_self

@[simp] theorem sBits_loVf_0 (k ty op) : sBits (loVf k ty op) 0 5 = op := by
  simp (disch := decide) only [sBits, loVf, extract_append, extract_append_lo, Nat.reduceSub]
  exact BitVec.extractLsb'_eq_self

@[simp] theorem sBits_loVi_8 (k es sg op) : sBits (loVi k es sg op) 8 3 = k := by
  simp (disch := decide) only [sBits, loVi, extract_append, extract_append_lo, Nat.reduceSub]
  exact BitVec.extractLsb'_eq_self

@[simp] theorem sK_loVi (k es sg op) : sK (loVi k es sg op) = k := by
  simp (disch := decide) only [sK, loVi, extract_append, extract_append_lo, Nat.reduceSub]
  exact BitVec.extractLsb'_eq_self

@[simp] theorem sBits_loVi_6 (k es sg op) : sBits (loVi k es sg op) 6 2 = es := by
  simp (disch := decide) only [sBits, loVi, extract_append, extract_append_lo, Nat.reduceSub]
  exact BitVec.extractLsb'_eq_self

@[simp] theorem sBits_loVi_5 (k es sg op) : sBits (loVi k es sg op) 5 1 = sg := by
  simp (disch := decide) only [sBits, loVi, extract_append, extract_append_lo, Nat.reduceSub]
  exact BitVec.extractLsb'_eq_self

@[simp] theorem sBits_loVi_0 (k es sg op) : sBits (loVi k es sg op) 0 5 = op := by
  simp (disch := decide) only [sBits, loVi, extract_append, extract_append_lo, Nat.reduceSub]
  exact BitVec.extractLsb'_eq_self

@[simp] theorem sBits_loVc_8 (k ty c) : sBits (loVc k ty c) 8 3 = k := by
  simp (disch := decide) only [sBits, loVc, extract_append, extract_append_lo, Nat.reduceSub]
  exact BitVec.extractLsb'_eq_self

@[simp] theorem sK_loVc (k ty c) : sK (loVc k ty c) = k := by
  simp (disch := decide) only [sK, loVc, extract_append, extract_append_lo, Nat.reduceSub]
  exact BitVec.extractLsb'_eq_self

@[simp] theorem sBits_loVc_5 (k ty c) : sBits (loVc k ty c) 5 3 = ty := by
  simp (disch := decide) only [sBits, loVc, extract_append, extract_append_lo, Nat.reduceSub]
  exact BitVec.extractLsb'_eq_self

@[simp] theorem sBits_loVc_3 (k ty c) : sBits (loVc k ty c) 3 2 = 0 := by
  simp (disch := decide) only [sBits, loVc, extract_append, extract_append_lo, Nat.reduceSub]
  exact BitVec.extractLsb'_eq_self

@[simp] theorem sBits_loVc_0 (k ty c) : sBits (loVc k ty c) 0 3 = c := by
  simp (disch := decide) only [sBits, loVc, extract_append, extract_append_lo, Nat.reduceSub]
  exact BitVec.extractLsb'_eq_self

@[simp] theorem sBits_loVs_8 (k ty op) : sBits (loVs k ty op) 8 3 = k := by
  simp (disch := decide) only [sBits, loVs, extract_append, extract_append_lo, Nat.reduceSub]
  exact BitVec.extractLsb'_eq_self

@[simp] theorem sK_loVs (k ty op) : sK (loVs k ty op) = k := by
  simp (disch := decide) only [sK, loVs, extract_append, extract_append_lo, Nat.reduceSub]
  exact BitVec.extractLsb'_eq_self

@[simp] theorem sBits_loVs_5 (k ty op) : sBits (loVs k ty op) 5 3 = ty := by
  simp (disch := decide) only [sBits, loVs, extract_append, extract_append_lo, Nat.reduceSub]
  exact BitVec.extractLsb'_eq_self

@[simp] theorem sBits_loVs_0 (k ty op) : sBits (loVs k ty op) 0 5 = op := by
  simp (disch := decide) only [sBits, loVs, extract_append, extract_append_lo, Nat.reduceSub]
  exact BitVec.extractLsb'_eq_self

@[simp] theorem sBits_loT_7 (acc c z op) : sBits (loT acc c z op) 7 4 = acc := by
  simp (disch := decide) only [sBits, loT, extract_append, extract_append_lo, Nat.reduceSub]
  exact BitVec.extractLsb'_eq_self

@[simp] theorem sBits_loT_5 (acc c z op) : sBits (loT acc c z op) 5 2 = c := by
  simp (disch := decide) only [sBits, loT, extract_append, extract_append_lo, Nat.reduceSub]
  exact BitVec.extractLsb'_eq_self

@[simp] theorem sBits_loT_4 (acc c z op) : sBits (loT acc c z op) 4 1 = z := by
  simp (disch := decide) only [sBits, loT, extract_append, extract_append_lo, Nat.reduceSub]
  exact BitVec.extractLsb'_eq_self

@[simp] theorem sBits_loT_0 (acc c z op) : sBits (loT acc c z op) 0 4 = op := by
  simp (disch := decide) only [sBits, loT, extract_append, extract_append_lo, Nat.reduceSub]
  exact BitVec.extractLsb'_eq_self

@[simp] theorem sBits_loCp_9 (c op dl sl) : sBits (loCp c op dl sl) 9 2 = c := by
  simp (disch := decide) only [sBits, loCp, extract_append, extract_append_lo, Nat.reduceSub]
  exact BitVec.extractLsb'_eq_self

@[simp] theorem sBits_loCp_6 (c op dl sl) : sBits (loCp c op dl sl) 6 3 = op := by
  simp (disch := decide) only [sBits, loCp, extract_append, extract_append_lo, Nat.reduceSub]
  exact BitVec.extractLsb'_eq_self

@[simp] theorem sBits_loCp_5 (c op dl sl) : sBits (loCp c op dl sl) 5 1 = dl := by
  simp (disch := decide) only [sBits, loCp, extract_append, extract_append_lo, Nat.reduceSub]
  exact BitVec.extractLsb'_eq_self

@[simp] theorem sBits_loCp_4 (c op dl sl) : sBits (loCp c op dl sl) 4 1 = sl := by
  simp (disch := decide) only [sBits, loCp, extract_append, extract_append_lo, Nat.reduceSub]
  exact BitVec.extractLsb'_eq_self

@[simp] theorem sBits_loCp_0 (c op dl sl) : sBits (loCp c op dl sl) 0 4 = 0 := by
  simp (disch := decide) only [sBits, loCp, extract_append, extract_append_lo, Nat.reduceSub]
  exact BitVec.extractLsb'_eq_self

@[simp] theorem sBits_loCc_9 (c op sel) : sBits (loCc c op sel) 9 2 = c := by
  simp (disch := decide) only [sBits, loCc, extract_append, extract_append_lo, Nat.reduceSub]
  exact BitVec.extractLsb'_eq_self

@[simp] theorem sBits_loCc_6 (c op sel) : sBits (loCc c op sel) 6 3 = op := by
  simp (disch := decide) only [sBits, loCc, extract_append, extract_append_lo, Nat.reduceSub]
  exact BitVec.extractLsb'_eq_self

@[simp] theorem sBits_loCc_2 (c op sel) : sBits (loCc c op sel) 2 4 = 0 := by
  simp (disch := decide) only [sBits, loCc, extract_append, extract_append_lo, Nat.reduceSub]
  exact BitVec.extractLsb'_eq_self

@[simp] theorem sBits_loCc_0 (c op sel) : sBits (loCc c op sel) 0 2 = sel := by
  simp (disch := decide) only [sBits, loCc, extract_append, extract_append_lo, Nat.reduceSub]
  exact BitVec.extractLsb'_eq_self

@[simp] theorem sBits_loA_7 (op w aq rl sc) : sBits (loA op w aq rl sc) 7 4 = op := by
  simp (disch := decide) only [sBits, loA, extract_append, extract_append_lo, Nat.reduceSub]
  exact BitVec.extractLsb'_eq_self

@[simp] theorem sBits_loA_6 (op w aq rl sc) : sBits (loA op w aq rl sc) 6 1 = w := by
  simp (disch := decide) only [sBits, loA, extract_append, extract_append_lo, Nat.reduceSub]
  exact BitVec.extractLsb'_eq_self

@[simp] theorem sBits_loA_5 (op w aq rl sc) : sBits (loA op w aq rl sc) 5 1 = aq := by
  simp (disch := decide) only [sBits, loA, extract_append, extract_append_lo, Nat.reduceSub]
  exact BitVec.extractLsb'_eq_self

@[simp] theorem sBits_loA_4 (op w aq rl sc) : sBits (loA op w aq rl sc) 4 1 = rl := by
  simp (disch := decide) only [sBits, loA, extract_append, extract_append_lo, Nat.reduceSub]
  exact BitVec.extractLsb'_eq_self

@[simp] theorem sBits_loA_1 (op w aq rl sc) : sBits (loA op w aq rl sc) 1 3 = sc := by
  simp (disch := decide) only [sBits, loA, extract_append, extract_append_lo, Nat.reduceSub]
  exact BitVec.extractLsb'_eq_self

@[simp] theorem sBits_loA_0 (op w aq rl sc) : sBits (loA op w aq rl sc) 0 1 = 0 := by
  simp (disch := decide) only [sBits, loA, extract_append, extract_append_lo, Nat.reduceSub]
  exact BitVec.extractLsb'_eq_self

@[simp] theorem sBits_loF_8 (op c) : sBits (loF op c) 8 3 = op := by
  simp (disch := decide) only [sBits, loF, extract_append, extract_append_lo, Nat.reduceSub]
  exact BitVec.extractLsb'_eq_self

@[simp] theorem sK_loF (op c) : sK (loF op c) = op := by
  simp (disch := decide) only [sK, loF, extract_append, extract_append_lo, Nat.reduceSub]
  exact BitVec.extractLsb'_eq_self

@[simp] theorem sBits_loF_7 (op c) : sBits (loF op c) 7 1 = 0 := by
  simp (disch := decide) only [sBits, loF, extract_append, extract_append_lo, Nat.reduceSub]
  exact BitVec.extractLsb'_eq_self

@[simp] theorem sBits_loF_5 (op c) : sBits (loF op c) 5 2 = c := by
  simp (disch := decide) only [sBits, loF, extract_append, extract_append_lo, Nat.reduceSub]
  exact BitVec.extractLsb'_eq_self

@[simp] theorem sBits_loF_0 (op c) : sBits (loF op c) 0 5 = 0 := by
  simp (disch := decide) only [sBits, loF, extract_append, extract_append_lo, Nat.reduceSub]
  exact BitVec.extractLsb'_eq_self

@[simp] theorem sBits_loQ_7 (q op sel) : sBits (loQ q op sel) 7 4 = q := by
  simp (disch := decide) only [sBits, loQ, extract_append, extract_append_lo, Nat.reduceSub]
  exact BitVec.extractLsb'_eq_self

@[simp] theorem sBits_loQ_4 (q op sel) : sBits (loQ q op sel) 4 3 = op := by
  simp (disch := decide) only [sBits, loQ, extract_append, extract_append_lo, Nat.reduceSub]
  exact BitVec.extractLsb'_eq_self

@[simp] theorem sBits_loQ_0 (q op sel) : sBits (loQ q op sel) 0 4 = sel := by
  simp (disch := decide) only [sBits, loQ, extract_append, extract_append_lo, Nat.reduceSub]
  exact BitVec.extractLsb'_eq_self

@[simp] theorem sfLd_sz (x sz) : (sfLd x sz).extractLsb' 0 2 = sz := by
  simp (disch := decide) only [sfLd, extract_append, extract_append_lo, Nat.reduceSub]
  exact BitVec.extractLsb'_eq_self

@[simp] theorem sfLd_x (x sz) : (sfLd x sz).extractLsb' 2 1 = x := by
  simp (disch := decide) only [sfLd, extract_append, extract_append_lo, Nat.reduceSub]
  exact BitVec.extractLsb'_eq_self

@[simp] theorem sysImm_r (hi r) : (sysImm hi r).extractLsb' 0 12 = r := by
  simp (disch := decide) only [sysImm, extract_append, extract_append_lo, Nat.reduceSub]
  exact BitVec.extractLsb'_eq_self

@[simp] theorem sysImm_hi (hi r) : (sysImm hi r).extractLsb' 12 4 = hi := by
  simp (disch := decide) only [sysImm, extract_append, extract_append_lo, Nat.reduceSub]
  exact BitVec.extractLsb'_eq_self

@[simp] theorem sBits_immM_3 (off m) : sBits (immM off m) 3 8 = off := by
  simp (disch := decide) only [sBits, immM, extract_append, extract_append_lo, Nat.reduceSub]
  exact BitVec.extractLsb'_eq_self

@[simp] theorem sBits_immM_0 (off m) : sBits (immM off m) 0 3 = m := by
  simp (disch := decide) only [sBits, immM, extract_append, extract_append_lo, Nat.reduceSub]
  exact BitVec.extractLsb'_eq_self

@[simp] theorem sBits_immG_6 (idx m sc) : sBits (immG idx m sc) 6 5 = idx := by
  simp (disch := decide) only [sBits, immG, extract_append, extract_append_lo, Nat.reduceSub]
  exact BitVec.extractLsb'_eq_self

@[simp] theorem sBits_immG_3 (idx m sc) : sBits (immG idx m sc) 3 3 = m := by
  simp (disch := decide) only [sBits, immG, extract_append, extract_append_lo, Nat.reduceSub]
  exact BitVec.extractLsb'_eq_self

@[simp] theorem sBits_immG_0 (idx m sc) : sBits (immG idx m sc) 0 3 = sc := by
  simp (disch := decide) only [sBits, immG, extract_append, extract_append_lo, Nat.reduceSub]
  exact BitVec.extractLsb'_eq_self

@[simp] theorem low3_r3 (x) : low3 (r3 x) = x := by
  simp (disch := decide) only [low3, r3, extract_append, extract_append_lo, Nat.reduceSub]
  exact BitVec.extractLsb'_eq_self

@[simp] theorem is3_r3 (x) : is3 (r3 x) = true := by revert x; decide

@[simp] theorem low4_r4 (x) : low4 (r4 x) = x := by
  simp (disch := decide) only [low4, r4, extract_append, extract_append_lo, Nat.reduceSub]
  exact BitVec.extractLsb'_eq_self

@[simp] theorem is4_r4 (x) : is4 (r4 x) = true := by revert x; decide

/-- A 3-bit number in a 5-bit field is 0 just when it is. -/
@[simp] theorem r3_eq_zero (x : BitVec 3) : r3 x = 0#5 ↔ x = 0#3 := by revert x; decide

@[simp] theorem sBits_loK_4 (k : BitVec 3) (g f : BitVec 4) : sBits (loK k (g ++ f)) 4 4 = g := by
  simp (disch := decide) only [sBits, loK, extract_append, extract_append_lo, Nat.reduceSub]
  exact BitVec.extractLsb'_eq_self

@[simp] theorem sBits_loK_low (k : BitVec 3) (g f : BitVec 4) : sBits (loK k (g ++ f)) 0 4 = f := by
  simp (disch := decide) only [sBits, loK, extract_append, extract_append_lo, Nat.reduceSub]
  exact BitVec.extractLsb'_eq_self

@[simp] theorem sfLd_small (x : BitVec 1) (sz : BitVec 2) : (sfLd x sz).toNat < 8 := by revert x sz; decide

end Sys2Proof.Laws
end

