-- ==== Sys2Proof/Laws/Issue.lean ====
section
/-! SUPPORT. Sys2Proof/Laws/Issue.lean: how a word that issues ends, by what its body answers (02 R36-R44, 16 R352). -/
namespace Sys2Proof.Machine

/-- A word that issues passes the gate. -/
theorem Issues.passes {i : Instr} {s : State} (h : Issues i s) : gate i s = none := by
  obtain ⟨h1, h2, h3, h4, _⟩ := h
  rcases h1 with h1 | h1 <;> rcases h2 with h2 | h2 <;> simp [gate, h1, h2, h3, h4]

/-- A word that issues ends as its body says. -/
theorem Issues.run {i : Instr} {s : State} (h : Issues i s) (body : State → Exec) :
    Machine.run i s body = .next (finish s (body s)) := by
  simp [Machine.run, h.passes]

/-- No BUDGET has fallen due. -/
theorem Issues.budget {i : Instr} {s : State} (h : Issues i s) : s.st.budgetDue = false := h.2.2.2.2

theorem finish_ok {s : State} (h : s.st.budgetDue = false) (t : State) : finish s (.ok t) = t.retire := by
  simp [finish, h]

theorem finish_trap (s : State) (r : TrapReq) (t : State) : finish s (.error (.trap r t)) = t.takeTrap r := rfl

theorem finish_ended {s : State} (h : s.st.budgetDue = false) (t : State) : finish s (.error (.ended t)) = t := by
  simp [finish, h]

theorem finish_wait {s : State} (h : s.st.budgetDue = false) (w : Wait) (t : State) :
    finish s (.error (.wait w t)) = t.onSt fun x => { x with wait := some w } := by
  simp [finish, h]

/-- The body completes: the unit retires. -/
theorem run_ok {i : Instr} {s s' : State} {body : State → Exec} (h : Issues i s) (hb : body s = .ok s') :
    run i s body = .next s'.retire := by
  simp [run, h.passes, hb, finish, h.2.2.2.2]

/-- The body raises a cause. -/
theorem run_trap {i : Instr} {s s' : State} {t : TrapReq} {body : State → Exec} (h : Issues i s)
    (hb : body s = .error (.trap t s')) : run i s body = .next (s'.takeTrap t) := by
  simp [run, h.passes, hb, finish]

/-- The body has placed the program counter itself. -/
theorem run_ended {i : Instr} {s s' : State} {body : State → Exec} (h : Issues i s) (hb : body s = .error (.ended s')) :
    run i s body = .next s' := by
  simp [run, h.passes, hb, finish, h.2.2.2.2]

/-- The body makes the strand wait. -/
theorem run_wait {i : Instr} {s s' : State} {w : Wait} {body : State → Exec} (h : Issues i s)
    (hb : body s = .error (.wait w s')) : run i s body = .next (s'.onSt fun x => { x with wait := some w }) := by
  simp [run, h.passes, hb, finish, h.2.2.2.2]

/-- BUDGET that has fallen due is raised at a word that raises no cause of its own, and none of its effect remains. -/
theorem run_budget {i : Instr} {s : State} {body : State → Exec} (hg : gate i s = none) (h : s.st.budgetDue = true)
    (hb : ∀ t s', body s ≠ .error (.trap t s')) : run i s body = .next s.takeBudget := by
  simp only [run, hg, Host.Outcome.next.injEq]
  cases hr : body s with
  | ok s' => simp [finish, h]
  | error e =>
    cases e with
    | trap t s' => exact absurd hr (hb t s')
    | wait w s' => simp [finish, h]
    | ended s' => simp [finish, h]

/-- A word that does not pass the gate takes the cause that the gate names. -/
theorem run_gate {i : Instr} {s : State} {t : TrapReq} {body : State → Exec} (h : gate i s = some t) :
    run i s body = .next (s.takeTrap t) := by
  simp [run, h]

end Sys2Proof.Machine
end

