-- ==== Sys2Proof/Laws/Mem.lean ====
section
/-! SUPPORT. Sys2Proof/Laws/Mem.lean: what the operations over sparse memory do: the canonical form, and reading after writing. -/
namespace Sys2Proof.Machine

theorem Memory.wfFrom_mono {m : Memory} {a b : Nat} (hab : a ≤ b) (h : Memory.wfFrom b m = true) :
    Memory.wfFrom a m = true := by
  cases m with
  | nil => rfl
  | cons p r =>
    obtain ⟨k, v⟩ := p
    simp only [Memory.wfFrom, Bool.and_eq_true, decide_eq_true_eq] at h ⊢
    exact ⟨⟨by omega, h.1.2⟩, h.2⟩

theorem Memory.wfFrom_write {m : Memory} {lo a : Nat} {v : Byte} (hlo : lo ≤ a) (h : Memory.wfFrom lo m = true) :
    Memory.wfFrom lo (m.write a v) = true := by
  induction m generalizing lo with
  | nil => by_cases hv : v = emptyByte <;> simp [Memory.write, Memory.wfFrom, hv, hlo]
  | cons p r ih =>
    obtain ⟨k, w⟩ := p
    simp only [Memory.wfFrom, Bool.and_eq_true, decide_eq_true_eq] at h
    obtain ⟨⟨h1, h2⟩, h3⟩ := h
    unfold Memory.write
    split
    · split
      · simp [Memory.wfFrom, h1, h2, h3]
      · simp [Memory.wfFrom, *]
    · split
      · split
        · exact Memory.wfFrom_mono (by omega) h3
        · subst k; simp [Memory.wfFrom, *]
      · simp only [Memory.wfFrom, Bool.and_eq_true, decide_eq_true_eq]
        exact ⟨⟨h1, h2⟩, ih (by omega) h3⟩

/-- A write keeps the canonical form. -/
theorem Memory.wf_write {m : Memory} (a : Nat) (v : Byte) (h : m.wf = true) : (m.write a v).wf = true :=
  Memory.wfFrom_write (Nat.zero_le _) h

theorem Memory.wf_writeBytes {m : Memory} (a : Nat) (bs : List Byte) (h : m.wf = true) : (m.writeBytes a bs).wf = true := by
  induction bs generalizing m a with
  | nil => exact h
  | cons b r ih => exact ih _ (Memory.wf_write a b h)

theorem Memory.wf_writeWhere {m : Memory} (a : Nat) (en : Nat → Bool) (i : Nat) (bs : List Byte) (h : m.wf = true) :
    (m.writeWhere a en i bs).wf = true := by
  induction bs generalizing m i with
  | nil => exact h
  | cons b r ih =>
    unfold Memory.writeWhere
    split
    · exact ih _ (Memory.wf_write _ _ h)
    · exact ih _ h

theorem Memory.wf_writeLe {m : Memory} (a n v : Nat) (h : m.wf = true) : (m.writeLe a n v).wf = true :=
  Memory.wf_writeBytes _ _ h

/-- Nothing is listed below the bound of the canonical form. -/
theorem Memory.read_below {m : Memory} {lo a : Nat} (h : Memory.wfFrom lo m = true) (ha : a < lo) : m.read a = emptyByte := by
  induction m generalizing lo with
  | nil => rfl
  | cons p r ih =>
    obtain ⟨k, w⟩ := p
    simp only [Memory.wfFrom, Bool.and_eq_true, decide_eq_true_eq] at h
    obtain ⟨⟨h1, _⟩, h3⟩ := h
    rw [Memory.read, if_neg (by omega)]
    exact ih h3 (by omega)

theorem Memory.read_write_from {m : Memory} {lo : Nat} (a b : Nat) (v : Byte) (h : Memory.wfFrom lo m = true) :
    (m.write a v).read b = if b = a then v else m.read b := by
  induction m generalizing lo with
  | nil =>
    by_cases hv : v = emptyByte <;> simp [Memory.write, Memory.read, hv]
  | cons p r ih =>
    obtain ⟨k, w⟩ := p
    simp only [Memory.wfFrom, Bool.and_eq_true, decide_eq_true_eq] at h
    obtain ⟨⟨h1, h2⟩, h3⟩ := h
    by_cases h4 : a < k
    · by_cases hv : v = emptyByte
      · have : b = a → Memory.read r b = emptyByte := fun hb => Memory.read_below h3 (by omega)
        by_cases hb : b = a
        · subst hb; simp [Memory.write, Memory.read, h4, hv, Nat.ne_of_lt h4, this]
        · simp [Memory.write, Memory.read, h4, hv, hb]
      · simp [Memory.write, Memory.read, h4, hv]
    · by_cases h5 : a = k
      · subst h5
        by_cases hv : v = emptyByte
        · by_cases hb : b = a
          · subst hb; simp [Memory.write, hv, Memory.read_below h3 (Nat.lt_succ_self b)]
          · simp [Memory.write, Memory.read, hv, hb]
        · by_cases hb : b = a <;> simp [Memory.write, Memory.read, hv, hb]
      · by_cases hb : b = a
        · subst hb; simp [Memory.write, Memory.read, h4, h5, ih h3]
        · simp [Memory.write, Memory.read, h4, h5, ih h3, hb]

/-- Reading after a write of one byte. -/
theorem Memory.read_write {m : Memory} (a b : Nat) (v : Byte) (h : m.wf = true) :
    (m.write a v).read b = if b = a then v else m.read b := Memory.read_write_from a b v h

/-- Reading after a write of several bytes: the bytes written, and every other byte as before. -/
theorem Memory.read_writeBytes {m : Memory} (a b : Nat) (bs : List Byte) (h : m.wf = true) :
    (m.writeBytes a bs).read b = if a ≤ b ∧ b < a + bs.length then bs.getD (b - a) 0 else m.read b := by
  induction bs generalizing m a with
  | nil => rw [if_neg (by simp only [List.length_nil]; omega)]; rfl
  | cons x r ih =>
    rw [Memory.writeBytes, ih (a + 1) (Memory.wf_write a x h), Memory.read_write _ _ _ h, List.length_cons]
    by_cases hb : b = a
    · subst hb; rw [if_neg (by omega), if_pos rfl, if_pos (by omega)]; simp
    · rw [if_neg hb]
      by_cases h1 : a + 1 ≤ b ∧ b < a + 1 + r.length
      · rw [if_pos h1, if_pos (by omega), show b - a = (b - (a + 1)) + 1 by omega]; simp
      · rw [if_neg h1, if_neg (by omega)]

theorem leBytes_length (n v : Nat) : (leBytes n v).length = n := by
  induction n generalizing v with
  | zero => rfl
  | succ n ih => simp [leBytes, ih]

/-- The number that the little-endian bytes of a number hold. -/
theorem ofLe_leBytes (n v : Nat) : ofLe (leBytes n v) = v % 256 ^ n := by
  induction n generalizing v with
  | zero => simp [leBytes, ofLe, Nat.mod_one]
  | succ n ih =>
    have h : 256 ^ (n + 1) = 256 * 256 ^ n := by rw [Nat.pow_succ, Nat.mul_comm]
    rw [leBytes, ofLe, ih, BitVec.toNat_ofNat, h, Nat.mod_mul]

end Sys2Proof.Machine
end

