-- ==== Sys2Proof/Laws/State.lean ====
section
/-! SUPPORT. Sys2Proof/Laws/State.lean: one lemma per field per update: what each update of the state leaves in each field. -/
namespace Sys2Proof.Machine
set_option Elab.async false

/-! ### The tile at turn -/

@[simp] theorem onTile_tile (s : State) (f) : (s.onTile f).tile = f s.tile := rfl
@[simp] theorem onTile_others (s : State) (f) : (s.onTile f).others = s.others := rfl
@[simp] theorem onTile_pkg (s : State) (f) : (s.onTile f).pkg = s.pkg := rfl
@[simp] theorem onTile_mem (s : State) (f) : (s.onTile f).mem = s.mem := rfl
@[simp] theorem onTile_parity (s : State) (f) : (s.onTile f).parity = s.parity := rfl
@[simp] theorem onTile_poison (s : State) (f) : (s.onTile f).poison = s.poison := rfl
@[simp] theorem onTile_eccBad (s : State) (f) : (s.onTile f).eccBad = s.eccBad := rfl
@[simp] theorem onTile_eccSoft (s : State) (f) : (s.onTile f).eccSoft = s.eccSoft := rfl
@[simp] theorem onTile_parityBad (s : State) (f) : (s.onTile f).parityBad = s.parityBad := rfl
@[simp] theorem onTile_paritySoft (s : State) (f) : (s.onTile f).paritySoft = s.paritySoft := rfl
@[simp] theorem onTile_parityStale (s : State) (f) : (s.onTile f).parityStale = s.parityStale := rfl
@[simp] theorem onTile_granKeys (s : State) (f) : (s.onTile f).granKeys = s.granKeys := rfl
@[simp] theorem onTile_keySlots (s : State) (f) : (s.onTile f).keySlots = s.keySlots := rfl
@[simp] theorem onTile_chanOwner (s : State) (f) : (s.onTile f).chanOwner = s.chanOwner := rfl
@[simp] theorem onTile_channels (s : State) (f) : (s.onTile f).channels = s.channels := rfl
@[simp] theorem onTile_lines (s : State) (f) : (s.onTile f).lines = s.lines := rfl
@[simp] theorem onTile_reqs (s : State) (f) : (s.onTile f).reqs = s.reqs := rfl
@[simp] theorem onTile_reqSerial (s : State) (f) : (s.onTile f).reqSerial = s.reqSerial := rfl
@[simp] theorem onTile_memEvents (s : State) (f) : (s.onTile f).memEvents = s.memEvents := rfl
@[simp] theorem onTile_corrSent (s : State) (f) : (s.onTile f).corrSent = s.corrSent := rfl
@[simp] theorem onTile_atomics (s : State) (f) : (s.onTile f).atomics = s.atomics := rfl
@[simp] theorem onTile_idTable (s : State) (f) : (s.onTile f).idTable = s.idTable := rfl
@[simp] theorem onTile_joins (s : State) (f) : (s.onTile f).joins = s.joins := rfl
@[simp] theorem onTile_sliceSeq (s : State) (f) : (s.onTile f).sliceSeq = s.sliceSeq := rfl
@[simp] theorem onTile_barriers (s : State) (f) : (s.onTile f).barriers = s.barriers := rfl
@[simp] theorem onTile_barReqs (s : State) (f) : (s.onTile f).barReqs = s.barReqs := rfl
@[simp] theorem onTile_barIds (s : State) (f) : (s.onTile f).barIds = s.barIds := rfl
@[simp] theorem onTile_dieCache (s : State) (f) : (s.onTile f).dieCache = s.dieCache := rfl
@[simp] theorem onTile_walks (s : State) (f) : (s.onTile f).walks = s.walks := rfl
@[simp] theorem onTile_pageWaits (s : State) (f) : (s.onTile f).pageWaits = s.pageWaits := rfl
@[simp] theorem onTile_pageEvents (s : State) (f) : (s.onTile f).pageEvents = s.pageEvents := rfl
@[simp] theorem onTile_nextEvent (s : State) (f) : (s.onTile f).nextEvent = s.nextEvent := rfl
@[simp] theorem onTile_ifls (s : State) (f) : (s.onTile f).ifls = s.ifls := rfl
@[simp] theorem onTile_queues (s : State) (f) : (s.onTile f).queues = s.queues := rfl
@[simp] theorem onTile_flight (s : State) (f) : (s.onTile f).flight = s.flight := rfl
@[simp] theorem onTile_credits (s : State) (f) : (s.onTile f).credits = s.credits := rfl
@[simp] theorem onTile_records (s : State) (f) : (s.onTile f).records = s.records := rfl
@[simp] theorem onTile_lost (s : State) (f) : (s.onTile f).lost = s.lost := rfl
@[simp] theorem onTile_msgs (s : State) (f) : (s.onTile f).msgs = s.msgs := rfl
@[simp] theorem onTile_routes (s : State) (f) : (s.onTile f).routes = s.routes := rfl
@[simp] theorem onTile_packets (s : State) (f) : (s.onTile f).packets = s.packets := rfl
@[simp] theorem onTile_slots (s : State) (f) : (s.onTile f).slots = s.slots := rfl
@[simp] theorem onTile_farSheaves (s : State) (f) : (s.onTile f).farSheaves = s.farSheaves := rfl
@[simp] theorem onTile_links (s : State) (f) : (s.onTile f).links = s.links := rfl
@[simp] theorem onTile_large (s : State) (f) : (s.onTile f).large = s.large := rfl
@[simp] theorem onTile_tb (s : State) (f) : (s.onTile f).tb = s.tb := rfl
@[simp] theorem onTile_synced (s : State) (f) : (s.onTile f).synced = s.synced := rfl
@[simp] theorem onTile_hops (s : State) (f) : (s.onTile f).hops = s.hops := rfl
@[simp] theorem onTile_sinceSync (s : State) (f) : (s.onTile f).sinceSync = s.sinceSync := rfl
@[simp] theorem onTile_timeRoot (s : State) (f) : (s.onTile f).timeRoot = s.timeRoot := rfl
@[simp] theorem onTile_slew (s : State) (f) : (s.onTile f).slew = s.slew := rfl
@[simp] theorem onTile_slewPart (s : State) (f) : (s.onTile f).slewPart = s.slewPart := rfl
@[simp] theorem onTile_paddocks (s : State) (f) : (s.onTile f).paddocks = s.paddocks := rfl
@[simp] theorem onTile_virtqueues (s : State) (f) : (s.onTile f).virtqueues = s.virtqueues := rfl
@[simp] theorem onTile_devices (s : State) (f) : (s.onTile f).devices = s.devices := rfl
@[simp] theorem onTile_bitmaps (s : State) (f) : (s.onTile f).bitmaps = s.bitmaps := rfl
@[simp] theorem onTile_summarySeq (s : State) (f) : (s.onTile f).summarySeq = s.summarySeq := rfl
@[simp] theorem onTile_vsock (s : State) (f) : (s.onTile f).vsock = s.vsock := rfl
@[simp] theorem onTile_svcJobs (s : State) (f) : (s.onTile f).svcJobs = s.svcJobs := rfl
@[simp] theorem onTile_callArbs (s : State) (f) : (s.onTile f).callArbs = s.callArbs := rfl
@[simp] theorem onTile_dmaArbs (s : State) (f) : (s.onTile f).dmaArbs = s.dmaArbs := rfl
@[simp] theorem onTile_cxlArbs (s : State) (f) : (s.onTile f).cxlArbs = s.cxlArbs := rfl
@[simp] theorem onTile_handles (s : State) (f) : (s.onTile f).handles = s.handles := rfl
@[simp] theorem onTile_imageNo (s : State) (f) : (s.onTile f).imageNo = s.imageNo := rfl
@[simp] theorem onTile_hostOut (s : State) (f) : (s.onTile f).hostOut = s.hostOut := rfl
@[simp] theorem onTile_spareMap (s : State) (f) : (s.onTile f).spareMap = s.spareMap := rfl
@[simp] theorem onTile_deadSpares (s : State) (f) : (s.onTile f).deadSpares = s.deadSpares := rfl
@[simp] theorem onTile_retired (s : State) (f) : (s.onTile f).retired = s.retired := rfl
@[simp] theorem onTile_clocks (s : State) (f) : (s.onTile f).clocks = s.clocks := rfl
@[simp] theorem onTile_droop (s : State) (f) : (s.onTile f).droop = s.droop := rfl
@[simp] theorem onTile_watts (s : State) (f) : (s.onTile f).watts = s.watts := rfl
@[simp] theorem onTile_temps (s : State) (f) : (s.onTile f).temps = s.temps := rfl
@[simp] theorem onTile_halted (s : State) (f) : (s.onTile f).halted = s.halted := rfl
@[simp] theorem onTile_ioInCharge (s : State) (f) : (s.onTile f).ioInCharge = s.ioInCharge := rfl
@[simp] theorem onTile_bootFailed (s : State) (f) : (s.onTile f).bootFailed = s.bootFailed := rfl
@[simp] theorem onTile_images (s : State) (f) : (s.onTile f).images = s.images := rfl
@[simp] theorem onTile_roots (s : State) (f) : (s.onTile f).roots = s.roots := rfl
@[simp] theorem onTile_minVersions (s : State) (f) : (s.onTile f).minVersions = s.minVersions := rfl
@[simp] theorem onTile_input (s : State) (f) : (s.onTile f).input = s.input := rfl
@[simp] theorem onTile_agenda (s : State) (f) : (s.onTile f).agenda = s.agenda := rfl
@[simp] theorem onTile_free (s : State) (f) : (s.onTile f).free = s.free := rfl

/-! ### The issuing strand -/

@[simp] theorem setStrand_strand (t : Tile) (i x) : (t.setStrand i x).strand i = x := by cases i <;> rfl
@[simp] theorem setStrand_ltn (t : Tile) (i x) : (t.setStrand i x).ltn = t.ltn := by cases i <;> rfl
@[simp] theorem setStrand_v (t : Tile) (i x) : (t.setStrand i x).v = t.v := by cases i <;> rfl
@[simp] theorem setStrand_k (t : Tile) (i x) : (t.setStrand i x).k = t.k := by cases i <;> rfl
@[simp] theorem setStrand_acc (t : Tile) (i x) : (t.setStrand i x).acc = t.acc := by cases i <;> rfl
@[simp] theorem setStrand_spad (t : Tile) (i x) : (t.setStrand i x).spad = t.spad := by cases i <;> rfl
@[simp] theorem setStrand_early (t : Tile) (i x) : (t.setStrand i x).early = t.early := by cases i <;> rfl
@[simp] theorem setStrand_spadBad (t : Tile) (i x) : (t.setStrand i x).spadBad = t.spadBad := by cases i <;> rfl
@[simp] theorem setStrand_accBad (t : Tile) (i x) : (t.setStrand i x).accBad = t.accBad := by cases i <;> rfl
@[simp] theorem setStrand_bfmt (t : Tile) (i x) : (t.setStrand i x).bfmt = t.bfmt := by cases i <;> rfl
@[simp] theorem setStrand_phKey (t : Tile) (i x) : (t.setStrand i x).phKey = t.phKey := by cases i <;> rfl
@[simp] theorem setStrand_phCtrl (t : Tile) (i x) : (t.setStrand i x).phCtrl = t.phCtrl := by cases i <;> rfl
@[simp] theorem setStrand_phCtrh (t : Tile) (i x) : (t.setStrand i x).phCtrh = t.phCtrh := by cases i <;> rfl
@[simp] theorem setStrand_feat (t : Tile) (i x) : (t.setStrand i x).feat = t.feat := by cases i <;> rfl
@[simp] theorem setStrand_paddock (t : Tile) (i x) : (t.setStrand i x).paddock = t.paddock := by cases i <;> rfl
@[simp] theorem setStrand_tags (t : Tile) (i x) : (t.setStrand i x).tags = t.tags := by cases i <;> rfl
@[simp] theorem setStrand_ctrs (t : Tile) (i x) : (t.setStrand i x).ctrs = t.ctrs := by cases i <;> rfl
@[simp] theorem setStrand_wain (t : Tile) (i x) : (t.setStrand i x).wain = t.wain := by cases i <;> rfl
@[simp] theorem setStrand_thresher (t : Tile) (i x) : (t.setStrand i x).thresher = t.thresher := by cases i <;> rfl
@[simp] theorem setStrand_stop (t : Tile) (i x) : (t.setStrand i x).stop = t.stop := by cases i <;> rfl
@[simp] theorem setStrand_orderNo (t : Tile) (i x) : (t.setStrand i x).orderNo = t.orderNo := by cases i <;> rfl
@[simp] theorem setStrand_triggers (t : Tile) (i x) : (t.setStrand i x).triggers = t.triggers := by cases i <;> rfl
@[simp] theorem setStrand_tlb (t : Tile) (i x) : (t.setStrand i x).tlb = t.tlb := by cases i <;> rfl
@[simp] theorem setStrand_icache (t : Tile) (i x) : (t.setStrand i x).icache = t.icache := by cases i <;> rfl
@[simp] theorem setStrand_codeBad (t : Tile) (i x) : (t.setStrand i x).codeBad = t.codeBad := by cases i <;> rfl
@[simp] theorem setStrand_regions0 (t : Tile) (i x) : (t.setStrand i x).regions0 = t.regions0 := by cases i <;> rfl
@[simp] theorem setStrand_regions1 (t : Tile) (i x) : (t.setStrand i x).regions1 = t.regions1 := by cases i <;> rfl
@[simp] theorem setStrand_ctxs (t : Tile) (i x) : (t.setStrand i x).ctxs = t.ctxs := by cases i <;> rfl
@[simp] theorem setStrand_eps (t : Tile) (i x) : (t.setStrand i x).eps = t.eps := by cases i <;> rfl
@[simp] theorem setStrand_act (t : Tile) (i x) : (t.setStrand i x).act = t.act := by cases i <;> rfl
@[simp] theorem setStrand_handlerRun (t : Tile) (i x) : (t.setStrand i x).handlerRun = t.handlerRun := by cases i <;> rfl
@[simp] theorem setStrand_handlerLocal (t : Tile) (i x) : (t.setStrand i x).handlerLocal = t.handlerLocal := by cases i <;> rfl
@[simp] theorem setStrand_mailbox (t : Tile) (i x) : (t.setStrand i x).mailbox = t.mailbox := by cases i <;> rfl
@[simp] theorem setStrand_handlers (t : Tile) (i x) : (t.setStrand i x).handlers = t.handlers := by cases i <;> rfl
@[simp] theorem setStrand_msgSeq (t : Tile) (i x) : (t.setStrand i x).msgSeq = t.msgSeq := by cases i <;> rfl
@[simp] theorem setStrand_relNo (t : Tile) (i x) : (t.setStrand i x).relNo = t.relNo := by cases i <;> rfl
@[simp] theorem setStrand_sendQ (t : Tile) (i x) : (t.setStrand i x).sendQ = t.sendQ := by cases i <;> rfl
@[simp] theorem setStrand_refusals (t : Tile) (i x) : (t.setStrand i x).refusals = t.refusals := by cases i <;> rfl
@[simp] theorem setStrand_shSends (t : Tile) (i x) : (t.setStrand i x).shSends = t.shSends := by cases i <;> rfl
@[simp] theorem setStrand_retention (t : Tile) (i x) : (t.setStrand i x).retention = t.retention := by cases i <;> rfl
@[simp] theorem setStrand_delivered (t : Tile) (i x) : (t.setStrand i x).delivered = t.delivered := by cases i <;> rfl
@[simp] theorem setStrand_amoSeq (t : Tile) (i x) : (t.setStrand i x).amoSeq = t.amoSeq := by cases i <;> rfl
@[simp] theorem setStrand_images (t : Tile) (i x) : (t.setStrand i x).images = t.images := by cases i <;> rfl
@[simp] theorem setStrand_lastIssued (t : Tile) (i x) : (t.setStrand i x).lastIssued = t.lastIssued := by cases i <;> rfl
@[simp] theorem setStrand_halted (t : Tile) (i x) : (t.setStrand i x).halted = t.halted := by cases i <;> rfl
@[simp] theorem setStrand_starts (t : Tile) (i x) : (t.setStrand i x).starts = t.starts := by cases i <;> rfl
@[simp] theorem setStrand_runs (t : Tile) (i x) : (t.setStrand i x).runs = t.runs := by cases i <;> rfl
@[simp] theorem setStrand_remapAsked (t : Tile) (i x) : (t.setStrand i x).remapAsked = t.remapAsked := by cases i <;> rfl
@[simp] theorem setStrand_remapping (t : Tile) (i x) : (t.setStrand i x).remapping = t.remapping := by cases i <;> rfl
@[simp] theorem setStrand_remapCtxs (t : Tile) (i x) : (t.setStrand i x).remapCtxs = t.remapCtxs := by cases i <;> rfl
@[simp] theorem onSt_cur (s : State) (f) : (s.onSt f).cur = s.cur := by simp [State.cur, State.onSt, State.onTile, Tile.modStrand]
@[simp] theorem onSt_st (s : State) (f) : (s.onSt f).st = f s.st := by
  have h : (s.onSt f).cur = s.cur := onSt_cur s f
  rw [State.st, h]
  simp [State.onSt, State.onTile, Tile.modStrand, State.st]
@[simp] theorem onSt_tile_ltn (s : State) (f) : (s.onSt f).tile.ltn = s.tile.ltn := by simp [State.onSt, State.onTile, Tile.modStrand]
@[simp] theorem onSt_tile_v (s : State) (f) : (s.onSt f).tile.v = s.tile.v := by simp [State.onSt, State.onTile, Tile.modStrand]
@[simp] theorem onSt_tile_k (s : State) (f) : (s.onSt f).tile.k = s.tile.k := by simp [State.onSt, State.onTile, Tile.modStrand]
@[simp] theorem onSt_tile_acc (s : State) (f) : (s.onSt f).tile.acc = s.tile.acc := by simp [State.onSt, State.onTile, Tile.modStrand]
@[simp] theorem onSt_tile_spad (s : State) (f) : (s.onSt f).tile.spad = s.tile.spad := by simp [State.onSt, State.onTile, Tile.modStrand]
@[simp] theorem onSt_tile_early (s : State) (f) : (s.onSt f).tile.early = s.tile.early := by simp [State.onSt, State.onTile, Tile.modStrand]
@[simp] theorem onSt_tile_spadBad (s : State) (f) : (s.onSt f).tile.spadBad = s.tile.spadBad := by simp [State.onSt, State.onTile, Tile.modStrand]
@[simp] theorem onSt_tile_accBad (s : State) (f) : (s.onSt f).tile.accBad = s.tile.accBad := by simp [State.onSt, State.onTile, Tile.modStrand]
@[simp] theorem onSt_tile_bfmt (s : State) (f) : (s.onSt f).tile.bfmt = s.tile.bfmt := by simp [State.onSt, State.onTile, Tile.modStrand]
@[simp] theorem onSt_tile_phKey (s : State) (f) : (s.onSt f).tile.phKey = s.tile.phKey := by simp [State.onSt, State.onTile, Tile.modStrand]
@[simp] theorem onSt_tile_phCtrl (s : State) (f) : (s.onSt f).tile.phCtrl = s.tile.phCtrl := by simp [State.onSt, State.onTile, Tile.modStrand]
@[simp] theorem onSt_tile_phCtrh (s : State) (f) : (s.onSt f).tile.phCtrh = s.tile.phCtrh := by simp [State.onSt, State.onTile, Tile.modStrand]
@[simp] theorem onSt_tile_feat (s : State) (f) : (s.onSt f).tile.feat = s.tile.feat := by simp [State.onSt, State.onTile, Tile.modStrand]
@[simp] theorem onSt_tile_paddock (s : State) (f) : (s.onSt f).tile.paddock = s.tile.paddock := by simp [State.onSt, State.onTile, Tile.modStrand]
@[simp] theorem onSt_tile_tags (s : State) (f) : (s.onSt f).tile.tags = s.tile.tags := by simp [State.onSt, State.onTile, Tile.modStrand]
@[simp] theorem onSt_tile_ctrs (s : State) (f) : (s.onSt f).tile.ctrs = s.tile.ctrs := by simp [State.onSt, State.onTile, Tile.modStrand]
@[simp] theorem onSt_tile_wain (s : State) (f) : (s.onSt f).tile.wain = s.tile.wain := by simp [State.onSt, State.onTile, Tile.modStrand]
@[simp] theorem onSt_tile_thresher (s : State) (f) : (s.onSt f).tile.thresher = s.tile.thresher := by simp [State.onSt, State.onTile, Tile.modStrand]
@[simp] theorem onSt_tile_stop (s : State) (f) : (s.onSt f).tile.stop = s.tile.stop := by simp [State.onSt, State.onTile, Tile.modStrand]
@[simp] theorem onSt_tile_orderNo (s : State) (f) : (s.onSt f).tile.orderNo = s.tile.orderNo := by simp [State.onSt, State.onTile, Tile.modStrand]
@[simp] theorem onSt_tile_triggers (s : State) (f) : (s.onSt f).tile.triggers = s.tile.triggers := by simp [State.onSt, State.onTile, Tile.modStrand]
@[simp] theorem onSt_tile_tlb (s : State) (f) : (s.onSt f).tile.tlb = s.tile.tlb := by simp [State.onSt, State.onTile, Tile.modStrand]
@[simp] theorem onSt_tile_icache (s : State) (f) : (s.onSt f).tile.icache = s.tile.icache := by simp [State.onSt, State.onTile, Tile.modStrand]
@[simp] theorem onSt_tile_codeBad (s : State) (f) : (s.onSt f).tile.codeBad = s.tile.codeBad := by simp [State.onSt, State.onTile, Tile.modStrand]
@[simp] theorem onSt_tile_regions0 (s : State) (f) : (s.onSt f).tile.regions0 = s.tile.regions0 := by simp [State.onSt, State.onTile, Tile.modStrand]
@[simp] theorem onSt_tile_regions1 (s : State) (f) : (s.onSt f).tile.regions1 = s.tile.regions1 := by simp [State.onSt, State.onTile, Tile.modStrand]
@[simp] theorem onSt_tile_ctxs (s : State) (f) : (s.onSt f).tile.ctxs = s.tile.ctxs := by simp [State.onSt, State.onTile, Tile.modStrand]
@[simp] theorem onSt_tile_eps (s : State) (f) : (s.onSt f).tile.eps = s.tile.eps := by simp [State.onSt, State.onTile, Tile.modStrand]
@[simp] theorem onSt_tile_act (s : State) (f) : (s.onSt f).tile.act = s.tile.act := by simp [State.onSt, State.onTile, Tile.modStrand]
@[simp] theorem onSt_tile_handlerRun (s : State) (f) : (s.onSt f).tile.handlerRun = s.tile.handlerRun := by simp [State.onSt, State.onTile, Tile.modStrand]
@[simp] theorem onSt_tile_handlerLocal (s : State) (f) : (s.onSt f).tile.handlerLocal = s.tile.handlerLocal := by simp [State.onSt, State.onTile, Tile.modStrand]
@[simp] theorem onSt_tile_mailbox (s : State) (f) : (s.onSt f).tile.mailbox = s.tile.mailbox := by simp [State.onSt, State.onTile, Tile.modStrand]
@[simp] theorem onSt_tile_handlers (s : State) (f) : (s.onSt f).tile.handlers = s.tile.handlers := by simp [State.onSt, State.onTile, Tile.modStrand]
@[simp] theorem onSt_tile_msgSeq (s : State) (f) : (s.onSt f).tile.msgSeq = s.tile.msgSeq := by simp [State.onSt, State.onTile, Tile.modStrand]
@[simp] theorem onSt_tile_relNo (s : State) (f) : (s.onSt f).tile.relNo = s.tile.relNo := by simp [State.onSt, State.onTile, Tile.modStrand]
@[simp] theorem onSt_tile_sendQ (s : State) (f) : (s.onSt f).tile.sendQ = s.tile.sendQ := by simp [State.onSt, State.onTile, Tile.modStrand]
@[simp] theorem onSt_tile_refusals (s : State) (f) : (s.onSt f).tile.refusals = s.tile.refusals := by simp [State.onSt, State.onTile, Tile.modStrand]
@[simp] theorem onSt_tile_shSends (s : State) (f) : (s.onSt f).tile.shSends = s.tile.shSends := by simp [State.onSt, State.onTile, Tile.modStrand]
@[simp] theorem onSt_tile_retention (s : State) (f) : (s.onSt f).tile.retention = s.tile.retention := by simp [State.onSt, State.onTile, Tile.modStrand]
@[simp] theorem onSt_tile_delivered (s : State) (f) : (s.onSt f).tile.delivered = s.tile.delivered := by simp [State.onSt, State.onTile, Tile.modStrand]
@[simp] theorem onSt_tile_amoSeq (s : State) (f) : (s.onSt f).tile.amoSeq = s.tile.amoSeq := by simp [State.onSt, State.onTile, Tile.modStrand]
@[simp] theorem onSt_tile_images (s : State) (f) : (s.onSt f).tile.images = s.tile.images := by simp [State.onSt, State.onTile, Tile.modStrand]
@[simp] theorem onSt_tile_lastIssued (s : State) (f) : (s.onSt f).tile.lastIssued = s.tile.lastIssued := by simp [State.onSt, State.onTile, Tile.modStrand]
@[simp] theorem onSt_tile_halted (s : State) (f) : (s.onSt f).tile.halted = s.tile.halted := by simp [State.onSt, State.onTile, Tile.modStrand]
@[simp] theorem onSt_tile_starts (s : State) (f) : (s.onSt f).tile.starts = s.tile.starts := by simp [State.onSt, State.onTile, Tile.modStrand]
@[simp] theorem onSt_tile_runs (s : State) (f) : (s.onSt f).tile.runs = s.tile.runs := by simp [State.onSt, State.onTile, Tile.modStrand]
@[simp] theorem onSt_tile_remapAsked (s : State) (f) : (s.onSt f).tile.remapAsked = s.tile.remapAsked := by simp [State.onSt, State.onTile, Tile.modStrand]
@[simp] theorem onSt_tile_remapping (s : State) (f) : (s.onSt f).tile.remapping = s.tile.remapping := by simp [State.onSt, State.onTile, Tile.modStrand]
@[simp] theorem onSt_tile_remapCtxs (s : State) (f) : (s.onSt f).tile.remapCtxs = s.tile.remapCtxs := by simp [State.onSt, State.onTile, Tile.modStrand]
@[simp] theorem onSt_others (s : State) (f) : (s.onSt f).others = s.others := rfl
@[simp] theorem onSt_pkg (s : State) (f) : (s.onSt f).pkg = s.pkg := rfl
@[simp] theorem onSt_mem (s : State) (f) : (s.onSt f).mem = s.mem := rfl
@[simp] theorem onSt_parity (s : State) (f) : (s.onSt f).parity = s.parity := rfl
@[simp] theorem onSt_poison (s : State) (f) : (s.onSt f).poison = s.poison := rfl
@[simp] theorem onSt_eccBad (s : State) (f) : (s.onSt f).eccBad = s.eccBad := rfl
@[simp] theorem onSt_eccSoft (s : State) (f) : (s.onSt f).eccSoft = s.eccSoft := rfl
@[simp] theorem onSt_parityBad (s : State) (f) : (s.onSt f).parityBad = s.parityBad := rfl
@[simp] theorem onSt_paritySoft (s : State) (f) : (s.onSt f).paritySoft = s.paritySoft := rfl
@[simp] theorem onSt_parityStale (s : State) (f) : (s.onSt f).parityStale = s.parityStale := rfl
@[simp] theorem onSt_granKeys (s : State) (f) : (s.onSt f).granKeys = s.granKeys := rfl
@[simp] theorem onSt_keySlots (s : State) (f) : (s.onSt f).keySlots = s.keySlots := rfl
@[simp] theorem onSt_chanOwner (s : State) (f) : (s.onSt f).chanOwner = s.chanOwner := rfl
@[simp] theorem onSt_channels (s : State) (f) : (s.onSt f).channels = s.channels := rfl
@[simp] theorem onSt_lines (s : State) (f) : (s.onSt f).lines = s.lines := rfl
@[simp] theorem onSt_reqs (s : State) (f) : (s.onSt f).reqs = s.reqs := rfl
@[simp] theorem onSt_reqSerial (s : State) (f) : (s.onSt f).reqSerial = s.reqSerial := rfl
@[simp] theorem onSt_memEvents (s : State) (f) : (s.onSt f).memEvents = s.memEvents := rfl
@[simp] theorem onSt_corrSent (s : State) (f) : (s.onSt f).corrSent = s.corrSent := rfl
@[simp] theorem onSt_atomics (s : State) (f) : (s.onSt f).atomics = s.atomics := rfl
@[simp] theorem onSt_idTable (s : State) (f) : (s.onSt f).idTable = s.idTable := rfl
@[simp] theorem onSt_joins (s : State) (f) : (s.onSt f).joins = s.joins := rfl
@[simp] theorem onSt_sliceSeq (s : State) (f) : (s.onSt f).sliceSeq = s.sliceSeq := rfl
@[simp] theorem onSt_barriers (s : State) (f) : (s.onSt f).barriers = s.barriers := rfl
@[simp] theorem onSt_barReqs (s : State) (f) : (s.onSt f).barReqs = s.barReqs := rfl
@[simp] theorem onSt_barIds (s : State) (f) : (s.onSt f).barIds = s.barIds := rfl
@[simp] theorem onSt_dieCache (s : State) (f) : (s.onSt f).dieCache = s.dieCache := rfl
@[simp] theorem onSt_walks (s : State) (f) : (s.onSt f).walks = s.walks := rfl
@[simp] theorem onSt_pageWaits (s : State) (f) : (s.onSt f).pageWaits = s.pageWaits := rfl
@[simp] theorem onSt_pageEvents (s : State) (f) : (s.onSt f).pageEvents = s.pageEvents := rfl
@[simp] theorem onSt_nextEvent (s : State) (f) : (s.onSt f).nextEvent = s.nextEvent := rfl
@[simp] theorem onSt_ifls (s : State) (f) : (s.onSt f).ifls = s.ifls := rfl
@[simp] theorem onSt_queues (s : State) (f) : (s.onSt f).queues = s.queues := rfl
@[simp] theorem onSt_flight (s : State) (f) : (s.onSt f).flight = s.flight := rfl
@[simp] theorem onSt_credits (s : State) (f) : (s.onSt f).credits = s.credits := rfl
@[simp] theorem onSt_records (s : State) (f) : (s.onSt f).records = s.records := rfl
@[simp] theorem onSt_lost (s : State) (f) : (s.onSt f).lost = s.lost := rfl
@[simp] theorem onSt_msgs (s : State) (f) : (s.onSt f).msgs = s.msgs := rfl
@[simp] theorem onSt_routes (s : State) (f) : (s.onSt f).routes = s.routes := rfl
@[simp] theorem onSt_packets (s : State) (f) : (s.onSt f).packets = s.packets := rfl
@[simp] theorem onSt_slots (s : State) (f) : (s.onSt f).slots = s.slots := rfl
@[simp] theorem onSt_farSheaves (s : State) (f) : (s.onSt f).farSheaves = s.farSheaves := rfl
@[simp] theorem onSt_links (s : State) (f) : (s.onSt f).links = s.links := rfl
@[simp] theorem onSt_large (s : State) (f) : (s.onSt f).large = s.large := rfl
@[simp] theorem onSt_tb (s : State) (f) : (s.onSt f).tb = s.tb := rfl
@[simp] theorem onSt_synced (s : State) (f) : (s.onSt f).synced = s.synced := rfl
@[simp] theorem onSt_hops (s : State) (f) : (s.onSt f).hops = s.hops := rfl
@[simp] theorem onSt_sinceSync (s : State) (f) : (s.onSt f).sinceSync = s.sinceSync := rfl
@[simp] theorem onSt_timeRoot (s : State) (f) : (s.onSt f).timeRoot = s.timeRoot := rfl
@[simp] theorem onSt_slew (s : State) (f) : (s.onSt f).slew = s.slew := rfl
@[simp] theorem onSt_slewPart (s : State) (f) : (s.onSt f).slewPart = s.slewPart := rfl
@[simp] theorem onSt_paddocks (s : State) (f) : (s.onSt f).paddocks = s.paddocks := rfl
@[simp] theorem onSt_virtqueues (s : State) (f) : (s.onSt f).virtqueues = s.virtqueues := rfl
@[simp] theorem onSt_devices (s : State) (f) : (s.onSt f).devices = s.devices := rfl
@[simp] theorem onSt_bitmaps (s : State) (f) : (s.onSt f).bitmaps = s.bitmaps := rfl
@[simp] theorem onSt_summarySeq (s : State) (f) : (s.onSt f).summarySeq = s.summarySeq := rfl
@[simp] theorem onSt_vsock (s : State) (f) : (s.onSt f).vsock = s.vsock := rfl
@[simp] theorem onSt_svcJobs (s : State) (f) : (s.onSt f).svcJobs = s.svcJobs := rfl
@[simp] theorem onSt_callArbs (s : State) (f) : (s.onSt f).callArbs = s.callArbs := rfl
@[simp] theorem onSt_dmaArbs (s : State) (f) : (s.onSt f).dmaArbs = s.dmaArbs := rfl
@[simp] theorem onSt_cxlArbs (s : State) (f) : (s.onSt f).cxlArbs = s.cxlArbs := rfl
@[simp] theorem onSt_handles (s : State) (f) : (s.onSt f).handles = s.handles := rfl
@[simp] theorem onSt_imageNo (s : State) (f) : (s.onSt f).imageNo = s.imageNo := rfl
@[simp] theorem onSt_hostOut (s : State) (f) : (s.onSt f).hostOut = s.hostOut := rfl
@[simp] theorem onSt_spareMap (s : State) (f) : (s.onSt f).spareMap = s.spareMap := rfl
@[simp] theorem onSt_deadSpares (s : State) (f) : (s.onSt f).deadSpares = s.deadSpares := rfl
@[simp] theorem onSt_retired (s : State) (f) : (s.onSt f).retired = s.retired := rfl
@[simp] theorem onSt_clocks (s : State) (f) : (s.onSt f).clocks = s.clocks := rfl
@[simp] theorem onSt_droop (s : State) (f) : (s.onSt f).droop = s.droop := rfl
@[simp] theorem onSt_watts (s : State) (f) : (s.onSt f).watts = s.watts := rfl
@[simp] theorem onSt_temps (s : State) (f) : (s.onSt f).temps = s.temps := rfl
@[simp] theorem onSt_halted (s : State) (f) : (s.onSt f).halted = s.halted := rfl
@[simp] theorem onSt_ioInCharge (s : State) (f) : (s.onSt f).ioInCharge = s.ioInCharge := rfl
@[simp] theorem onSt_bootFailed (s : State) (f) : (s.onSt f).bootFailed = s.bootFailed := rfl
@[simp] theorem onSt_images (s : State) (f) : (s.onSt f).images = s.images := rfl
@[simp] theorem onSt_roots (s : State) (f) : (s.onSt f).roots = s.roots := rfl
@[simp] theorem onSt_minVersions (s : State) (f) : (s.onSt f).minVersions = s.minVersions := rfl
@[simp] theorem onSt_input (s : State) (f) : (s.onSt f).input = s.input := rfl
@[simp] theorem onSt_agenda (s : State) (f) : (s.onSt f).agenda = s.agenda := rfl
@[simp] theorem onSt_free (s : State) (f) : (s.onSt f).free = s.free := rfl

/-! ### Registers, masks and flags -/

theorem reg_eq_of_regs {s t : State} (h : t.st.regs = s.st.regs) (r : SReg) : t.reg r = s.reg r := by
  simp only [State.reg, h]

@[simp] theorem reg_zero (s : State) : s.reg 0#5 = 0#64 := rfl

/-- A write to s0 is ignored (02 R47). -/
@[simp] theorem setReg_zero (s : State) (v : DW) : s.setReg 0#5 v = s := rfl

theorem setReg_reg (s : State) (d r : SReg) (v : DW) :
    (s.setReg d v).reg r = if r = d ∧ d ≠ 0#5 then v else s.reg r := by
  by_cases hd : d = 0#5
  · subst hd; simp
  · by_cases hr : r = 0#5
    · subst hr
      have : ¬ 0#5 = d := fun h => hd h.symm
      simp [this]
    · have h1 : (s.setReg d v).reg r = (s.st.regs.set d.toNat v d.isLt)[r.toNat]'(r.isLt) := by
        simp [State.setReg, hd, State.reg, hr]
      have h2 : s.reg r = s.st.regs[r.toNat]'(r.isLt) := by simp [State.reg, hr]
      rw [h1, h2, Vector.getElem_set]
      by_cases h : r = d
      · subst h; simp [hd]
      · have : ¬ d.toNat = r.toNat := fun hh => h (BitVec.eq_of_toNat_eq hh.symm)
        simp [h, this]

@[simp] theorem setReg_st_pc (s : State) (d v) : (s.setReg d v).st.pc = s.st.pc := by unfold State.setReg; split <;> simp
@[simp] theorem setReg_st_unit (s : State) (d v) : (s.setReg d v).st.unit = s.st.unit := by unfold State.setReg; split <;> simp
@[simp] theorem setReg_st_hint (s : State) (d v) : (s.setReg d v).st.hint = s.st.hint := by unfold State.setReg; split <;> simp
@[simp] theorem setReg_st_ximm (s : State) (d v) : (s.setReg d v).st.ximm = s.st.ximm := by unfold State.setReg; split <;> simp
@[simp] theorem setReg_st_lvl (s : State) (d v) : (s.setReg d v).st.lvl = s.st.lvl := by unfold State.setReg; split <;> simp
@[simp] theorem setReg_st_act (s : State) (d v) : (s.setReg d v).st.act = s.st.act := by unfold State.setReg; split <;> simp
@[simp] theorem setReg_st_ctx (s : State) (d v) : (s.setReg d v).st.ctx = s.st.ctx := by unfold State.setReg; split <;> simp
@[simp] theorem setReg_st_cause (s : State) (d v) : (s.setReg d v).st.cause = s.st.cause := by unfold State.setReg; split <;> simp
@[simp] theorem setReg_st_epc (s : State) (d v) : (s.setReg d v).st.epc = s.st.epc := by unfold State.setReg; split <;> simp
@[simp] theorem setReg_st_fval (s : State) (d v) : (s.setReg d v).st.fval = s.st.fval := by unfold State.setReg; split <;> simp
@[simp] theorem setReg_st_mstep (s : State) (d v) : (s.setReg d v).st.mstep = s.st.mstep := by unfold State.setReg; split <;> simp
@[simp] theorem setReg_st_mstepValid (s : State) (d v) : (s.setReg d v).st.mstepValid = s.st.mstepValid := by unfold State.setReg; split <;> simp
@[simp] theorem setReg_st_loop0 (s : State) (d v) : (s.setReg d v).st.loop0 = s.st.loop0 := by unfold State.setReg; split <;> simp
@[simp] theorem setReg_st_loop1 (s : State) (d v) : (s.setReg d v).st.loop1 = s.st.loop1 := by unfold State.setReg; split <;> simp
@[simp] theorem setReg_st_callerLvl (s : State) (d v) : (s.setReg d v).st.callerLvl = s.st.callerLvl := by unfold State.setReg; split <;> simp
@[simp] theorem setReg_st_wait (s : State) (d v) : (s.setReg d v).st.wait = s.st.wait := by unfold State.setReg; split <;> simp
@[simp] theorem setReg_st_sample (s : State) (d v) : (s.setReg d v).st.sample = s.st.sample := by unfold State.setReg; split <;> simp
@[simp] theorem setReg_st_cycles (s : State) (d v) : (s.setReg d v).st.cycles = s.st.cycles := by unfold State.setReg; split <;> simp
@[simp] theorem setReg_st_budgetDue (s : State) (d v) : (s.setReg d v).st.budgetDue = s.st.budgetDue := by unfold State.setReg; split <;> simp
@[simp] theorem setReg_st_asyncFaults (s : State) (d v) : (s.setReg d v).st.asyncFaults = s.st.asyncFaults := by unfold State.setReg; split <;> simp
@[simp] theorem setReg_cur (s : State) (d v) : (s.setReg d v).cur = s.cur := by unfold State.setReg; split <;> simp
@[simp] theorem setReg_tile_ltn (s : State) (d v) : (s.setReg d v).tile.ltn = s.tile.ltn := by unfold State.setReg; split <;> simp
@[simp] theorem setReg_tile_v (s : State) (d v) : (s.setReg d v).tile.v = s.tile.v := by unfold State.setReg; split <;> simp
@[simp] theorem setReg_tile_k (s : State) (d v) : (s.setReg d v).tile.k = s.tile.k := by unfold State.setReg; split <;> simp
@[simp] theorem setReg_tile_acc (s : State) (d v) : (s.setReg d v).tile.acc = s.tile.acc := by unfold State.setReg; split <;> simp
@[simp] theorem setReg_tile_spad (s : State) (d v) : (s.setReg d v).tile.spad = s.tile.spad := by unfold State.setReg; split <;> simp
@[simp] theorem setReg_tile_early (s : State) (d v) : (s.setReg d v).tile.early = s.tile.early := by unfold State.setReg; split <;> simp
@[simp] theorem setReg_tile_spadBad (s : State) (d v) : (s.setReg d v).tile.spadBad = s.tile.spadBad := by unfold State.setReg; split <;> simp
@[simp] theorem setReg_tile_accBad (s : State) (d v) : (s.setReg d v).tile.accBad = s.tile.accBad := by unfold State.setReg; split <;> simp
@[simp] theorem setReg_tile_bfmt (s : State) (d v) : (s.setReg d v).tile.bfmt = s.tile.bfmt := by unfold State.setReg; split <;> simp
@[simp] theorem setReg_tile_phKey (s : State) (d v) : (s.setReg d v).tile.phKey = s.tile.phKey := by unfold State.setReg; split <;> simp
@[simp] theorem setReg_tile_phCtrl (s : State) (d v) : (s.setReg d v).tile.phCtrl = s.tile.phCtrl := by unfold State.setReg; split <;> simp
@[simp] theorem setReg_tile_phCtrh (s : State) (d v) : (s.setReg d v).tile.phCtrh = s.tile.phCtrh := by unfold State.setReg; split <;> simp
@[simp] theorem setReg_tile_feat (s : State) (d v) : (s.setReg d v).tile.feat = s.tile.feat := by unfold State.setReg; split <;> simp
@[simp] theorem setReg_tile_paddock (s : State) (d v) : (s.setReg d v).tile.paddock = s.tile.paddock := by unfold State.setReg; split <;> simp
@[simp] theorem setReg_tile_tags (s : State) (d v) : (s.setReg d v).tile.tags = s.tile.tags := by unfold State.setReg; split <;> simp
@[simp] theorem setReg_tile_ctrs (s : State) (d v) : (s.setReg d v).tile.ctrs = s.tile.ctrs := by unfold State.setReg; split <;> simp
@[simp] theorem setReg_tile_wain (s : State) (d v) : (s.setReg d v).tile.wain = s.tile.wain := by unfold State.setReg; split <;> simp
@[simp] theorem setReg_tile_thresher (s : State) (d v) : (s.setReg d v).tile.thresher = s.tile.thresher := by unfold State.setReg; split <;> simp
@[simp] theorem setReg_tile_stop (s : State) (d v) : (s.setReg d v).tile.stop = s.tile.stop := by unfold State.setReg; split <;> simp
@[simp] theorem setReg_tile_orderNo (s : State) (d v) : (s.setReg d v).tile.orderNo = s.tile.orderNo := by unfold State.setReg; split <;> simp
@[simp] theorem setReg_tile_triggers (s : State) (d v) : (s.setReg d v).tile.triggers = s.tile.triggers := by unfold State.setReg; split <;> simp
@[simp] theorem setReg_tile_tlb (s : State) (d v) : (s.setReg d v).tile.tlb = s.tile.tlb := by unfold State.setReg; split <;> simp
@[simp] theorem setReg_tile_icache (s : State) (d v) : (s.setReg d v).tile.icache = s.tile.icache := by unfold State.setReg; split <;> simp
@[simp] theorem setReg_tile_codeBad (s : State) (d v) : (s.setReg d v).tile.codeBad = s.tile.codeBad := by unfold State.setReg; split <;> simp
@[simp] theorem setReg_tile_regions0 (s : State) (d v) : (s.setReg d v).tile.regions0 = s.tile.regions0 := by unfold State.setReg; split <;> simp
@[simp] theorem setReg_tile_regions1 (s : State) (d v) : (s.setReg d v).tile.regions1 = s.tile.regions1 := by unfold State.setReg; split <;> simp
@[simp] theorem setReg_tile_ctxs (s : State) (d v) : (s.setReg d v).tile.ctxs = s.tile.ctxs := by unfold State.setReg; split <;> simp
@[simp] theorem setReg_tile_eps (s : State) (d v) : (s.setReg d v).tile.eps = s.tile.eps := by unfold State.setReg; split <;> simp
@[simp] theorem setReg_tile_act (s : State) (d v) : (s.setReg d v).tile.act = s.tile.act := by unfold State.setReg; split <;> simp
@[simp] theorem setReg_tile_handlerRun (s : State) (d v) : (s.setReg d v).tile.handlerRun = s.tile.handlerRun := by unfold State.setReg; split <;> simp
@[simp] theorem setReg_tile_handlerLocal (s : State) (d v) : (s.setReg d v).tile.handlerLocal = s.tile.handlerLocal := by unfold State.setReg; split <;> simp
@[simp] theorem setReg_tile_mailbox (s : State) (d v) : (s.setReg d v).tile.mailbox = s.tile.mailbox := by unfold State.setReg; split <;> simp
@[simp] theorem setReg_tile_handlers (s : State) (d v) : (s.setReg d v).tile.handlers = s.tile.handlers := by unfold State.setReg; split <;> simp
@[simp] theorem setReg_tile_msgSeq (s : State) (d v) : (s.setReg d v).tile.msgSeq = s.tile.msgSeq := by unfold State.setReg; split <;> simp
@[simp] theorem setReg_tile_relNo (s : State) (d v) : (s.setReg d v).tile.relNo = s.tile.relNo := by unfold State.setReg; split <;> simp
@[simp] theorem setReg_tile_sendQ (s : State) (d v) : (s.setReg d v).tile.sendQ = s.tile.sendQ := by unfold State.setReg; split <;> simp
@[simp] theorem setReg_tile_refusals (s : State) (d v) : (s.setReg d v).tile.refusals = s.tile.refusals := by unfold State.setReg; split <;> simp
@[simp] theorem setReg_tile_shSends (s : State) (d v) : (s.setReg d v).tile.shSends = s.tile.shSends := by unfold State.setReg; split <;> simp
@[simp] theorem setReg_tile_retention (s : State) (d v) : (s.setReg d v).tile.retention = s.tile.retention := by unfold State.setReg; split <;> simp
@[simp] theorem setReg_tile_delivered (s : State) (d v) : (s.setReg d v).tile.delivered = s.tile.delivered := by unfold State.setReg; split <;> simp
@[simp] theorem setReg_tile_amoSeq (s : State) (d v) : (s.setReg d v).tile.amoSeq = s.tile.amoSeq := by unfold State.setReg; split <;> simp
@[simp] theorem setReg_tile_images (s : State) (d v) : (s.setReg d v).tile.images = s.tile.images := by unfold State.setReg; split <;> simp
@[simp] theorem setReg_tile_lastIssued (s : State) (d v) : (s.setReg d v).tile.lastIssued = s.tile.lastIssued := by unfold State.setReg; split <;> simp
@[simp] theorem setReg_tile_halted (s : State) (d v) : (s.setReg d v).tile.halted = s.tile.halted := by unfold State.setReg; split <;> simp
@[simp] theorem setReg_tile_starts (s : State) (d v) : (s.setReg d v).tile.starts = s.tile.starts := by unfold State.setReg; split <;> simp
@[simp] theorem setReg_tile_runs (s : State) (d v) : (s.setReg d v).tile.runs = s.tile.runs := by unfold State.setReg; split <;> simp
@[simp] theorem setReg_tile_remapAsked (s : State) (d v) : (s.setReg d v).tile.remapAsked = s.tile.remapAsked := by unfold State.setReg; split <;> simp
@[simp] theorem setReg_tile_remapping (s : State) (d v) : (s.setReg d v).tile.remapping = s.tile.remapping := by unfold State.setReg; split <;> simp
@[simp] theorem setReg_tile_remapCtxs (s : State) (d v) : (s.setReg d v).tile.remapCtxs = s.tile.remapCtxs := by unfold State.setReg; split <;> simp
@[simp] theorem setReg_others (s : State) (d v) : (s.setReg d v).others = s.others := by unfold State.setReg; split <;> simp
@[simp] theorem setReg_pkg (s : State) (d v) : (s.setReg d v).pkg = s.pkg := by unfold State.setReg; split <;> simp
@[simp] theorem setReg_mem (s : State) (d v) : (s.setReg d v).mem = s.mem := by unfold State.setReg; split <;> simp
@[simp] theorem setReg_parity (s : State) (d v) : (s.setReg d v).parity = s.parity := by unfold State.setReg; split <;> simp
@[simp] theorem setReg_reqs (s : State) (d v) : (s.setReg d v).reqs = s.reqs := by unfold State.setReg; split <;> simp
@[simp] theorem setReg_atomics (s : State) (d v) : (s.setReg d v).atomics = s.atomics := by unfold State.setReg; split <;> simp
@[simp] theorem setReg_barriers (s : State) (d v) : (s.setReg d v).barriers = s.barriers := by unfold State.setReg; split <;> simp
@[simp] theorem setReg_queues (s : State) (d v) : (s.setReg d v).queues = s.queues := by unfold State.setReg; split <;> simp
@[simp] theorem setReg_tb (s : State) (d v) : (s.setReg d v).tb = s.tb := by unfold State.setReg; split <;> simp
@[simp] theorem setReg_paddocks (s : State) (d v) : (s.setReg d v).paddocks = s.paddocks := by unfold State.setReg; split <;> simp
@[simp] theorem setReg_input (s : State) (d v) : (s.setReg d v).input = s.input := by unfold State.setReg; split <;> simp
@[simp] theorem setReg_agenda (s : State) (d v) : (s.setReg d v).agenda = s.agenda := by unfold State.setReg; split <;> simp
@[simp] theorem setReg_free (s : State) (d v) : (s.setReg d v).free = s.free := by unfold State.setReg; split <;> simp

/-! ### Vector registers and masks -/

@[simp] theorem setV_others (s : State) (d v) : (s.setV d v).others = s.others := rfl
@[simp] theorem setV_pkg (s : State) (d v) : (s.setV d v).pkg = s.pkg := rfl
@[simp] theorem setV_mem (s : State) (d v) : (s.setV d v).mem = s.mem := rfl
@[simp] theorem setV_parity (s : State) (d v) : (s.setV d v).parity = s.parity := rfl
@[simp] theorem setV_reqs (s : State) (d v) : (s.setV d v).reqs = s.reqs := rfl
@[simp] theorem setV_atomics (s : State) (d v) : (s.setV d v).atomics = s.atomics := rfl
@[simp] theorem setV_barriers (s : State) (d v) : (s.setV d v).barriers = s.barriers := rfl
@[simp] theorem setV_queues (s : State) (d v) : (s.setV d v).queues = s.queues := rfl
@[simp] theorem setV_tb (s : State) (d v) : (s.setV d v).tb = s.tb := rfl
@[simp] theorem setV_paddocks (s : State) (d v) : (s.setV d v).paddocks = s.paddocks := rfl
@[simp] theorem setV_input (s : State) (d v) : (s.setV d v).input = s.input := rfl
@[simp] theorem setV_agenda (s : State) (d v) : (s.setV d v).agenda = s.agenda := rfl
@[simp] theorem setV_free (s : State) (d v) : (s.setV d v).free = s.free := rfl
@[simp] theorem setV_tile_ltn (s : State) (d v) : (s.setV d v).tile.ltn = s.tile.ltn := rfl
@[simp] theorem setV_tile_main (s : State) (d v) : (s.setV d v).tile.main = s.tile.main := rfl
@[simp] theorem setV_tile_handler (s : State) (d v) : (s.setV d v).tile.handler = s.tile.handler := rfl
@[simp] theorem setV_tile_k (s : State) (d v) : (s.setV d v).tile.k = s.tile.k := rfl
@[simp] theorem setV_tile_acc (s : State) (d v) : (s.setV d v).tile.acc = s.tile.acc := rfl
@[simp] theorem setV_tile_spad (s : State) (d v) : (s.setV d v).tile.spad = s.tile.spad := rfl
@[simp] theorem setV_tile_early (s : State) (d v) : (s.setV d v).tile.early = s.tile.early := rfl
@[simp] theorem setV_tile_spadBad (s : State) (d v) : (s.setV d v).tile.spadBad = s.tile.spadBad := rfl
@[simp] theorem setV_tile_accBad (s : State) (d v) : (s.setV d v).tile.accBad = s.tile.accBad := rfl
@[simp] theorem setV_tile_bfmt (s : State) (d v) : (s.setV d v).tile.bfmt = s.tile.bfmt := rfl
@[simp] theorem setV_tile_phKey (s : State) (d v) : (s.setV d v).tile.phKey = s.tile.phKey := rfl
@[simp] theorem setV_tile_phCtrl (s : State) (d v) : (s.setV d v).tile.phCtrl = s.tile.phCtrl := rfl
@[simp] theorem setV_tile_phCtrh (s : State) (d v) : (s.setV d v).tile.phCtrh = s.tile.phCtrh := rfl
@[simp] theorem setV_tile_feat (s : State) (d v) : (s.setV d v).tile.feat = s.tile.feat := rfl
@[simp] theorem setV_tile_paddock (s : State) (d v) : (s.setV d v).tile.paddock = s.tile.paddock := rfl
@[simp] theorem setV_tile_tags (s : State) (d v) : (s.setV d v).tile.tags = s.tile.tags := rfl
@[simp] theorem setV_tile_ctrs (s : State) (d v) : (s.setV d v).tile.ctrs = s.tile.ctrs := rfl
@[simp] theorem setV_tile_wain (s : State) (d v) : (s.setV d v).tile.wain = s.tile.wain := rfl
@[simp] theorem setV_tile_thresher (s : State) (d v) : (s.setV d v).tile.thresher = s.tile.thresher := rfl
@[simp] theorem setV_tile_stop (s : State) (d v) : (s.setV d v).tile.stop = s.tile.stop := rfl
@[simp] theorem setV_tile_orderNo (s : State) (d v) : (s.setV d v).tile.orderNo = s.tile.orderNo := rfl
@[simp] theorem setV_tile_triggers (s : State) (d v) : (s.setV d v).tile.triggers = s.tile.triggers := rfl
@[simp] theorem setV_tile_tlb (s : State) (d v) : (s.setV d v).tile.tlb = s.tile.tlb := rfl
@[simp] theorem setV_tile_icache (s : State) (d v) : (s.setV d v).tile.icache = s.tile.icache := rfl
@[simp] theorem setV_tile_codeBad (s : State) (d v) : (s.setV d v).tile.codeBad = s.tile.codeBad := rfl
@[simp] theorem setV_tile_regions0 (s : State) (d v) : (s.setV d v).tile.regions0 = s.tile.regions0 := rfl
@[simp] theorem setV_tile_regions1 (s : State) (d v) : (s.setV d v).tile.regions1 = s.tile.regions1 := rfl
@[simp] theorem setV_tile_ctxs (s : State) (d v) : (s.setV d v).tile.ctxs = s.tile.ctxs := rfl
@[simp] theorem setV_tile_eps (s : State) (d v) : (s.setV d v).tile.eps = s.tile.eps := rfl
@[simp] theorem setV_tile_act (s : State) (d v) : (s.setV d v).tile.act = s.tile.act := rfl
@[simp] theorem setV_tile_handlerRun (s : State) (d v) : (s.setV d v).tile.handlerRun = s.tile.handlerRun := rfl
@[simp] theorem setV_tile_handlerLocal (s : State) (d v) : (s.setV d v).tile.handlerLocal = s.tile.handlerLocal := rfl
@[simp] theorem setV_tile_mailbox (s : State) (d v) : (s.setV d v).tile.mailbox = s.tile.mailbox := rfl
@[simp] theorem setV_tile_handlers (s : State) (d v) : (s.setV d v).tile.handlers = s.tile.handlers := rfl
@[simp] theorem setV_tile_msgSeq (s : State) (d v) : (s.setV d v).tile.msgSeq = s.tile.msgSeq := rfl
@[simp] theorem setV_tile_relNo (s : State) (d v) : (s.setV d v).tile.relNo = s.tile.relNo := rfl
@[simp] theorem setV_tile_sendQ (s : State) (d v) : (s.setV d v).tile.sendQ = s.tile.sendQ := rfl
@[simp] theorem setV_tile_refusals (s : State) (d v) : (s.setV d v).tile.refusals = s.tile.refusals := rfl
@[simp] theorem setV_tile_shSends (s : State) (d v) : (s.setV d v).tile.shSends = s.tile.shSends := rfl
@[simp] theorem setV_tile_retention (s : State) (d v) : (s.setV d v).tile.retention = s.tile.retention := rfl
@[simp] theorem setV_tile_delivered (s : State) (d v) : (s.setV d v).tile.delivered = s.tile.delivered := rfl
@[simp] theorem setV_tile_amoSeq (s : State) (d v) : (s.setV d v).tile.amoSeq = s.tile.amoSeq := rfl
@[simp] theorem setV_tile_images (s : State) (d v) : (s.setV d v).tile.images = s.tile.images := rfl
@[simp] theorem setV_tile_lastIssued (s : State) (d v) : (s.setV d v).tile.lastIssued = s.tile.lastIssued := rfl
@[simp] theorem setV_tile_halted (s : State) (d v) : (s.setV d v).tile.halted = s.tile.halted := rfl
@[simp] theorem setV_tile_starts (s : State) (d v) : (s.setV d v).tile.starts = s.tile.starts := rfl
@[simp] theorem setV_tile_runs (s : State) (d v) : (s.setV d v).tile.runs = s.tile.runs := rfl
@[simp] theorem setV_tile_remapAsked (s : State) (d v) : (s.setV d v).tile.remapAsked = s.tile.remapAsked := rfl
@[simp] theorem setV_tile_remapping (s : State) (d v) : (s.setV d v).tile.remapping = s.tile.remapping := rfl
@[simp] theorem setV_tile_remapCtxs (s : State) (d v) : (s.setV d v).tile.remapCtxs = s.tile.remapCtxs := rfl
@[simp] theorem setV_st (s : State) (d v) : (s.setV d v).st = s.st := by
  simp only [State.st, State.cur, setV_tile_lastIssued]; cases s.tile.lastIssued <;> rfl

theorem setV_vreg (s : State) (d r : VReg) (v : VWord) : (s.setV d v).vreg r = if r = d then v else s.vreg r := by
  simp only [State.setV, State.vreg, onTile_tile, Vector.getElem_set]
  by_cases h : r = d
  · subst h; simp
  · have : ¬ d.toNat = r.toNat := fun hh => h (BitVec.eq_of_toNat_eq hh.symm)
    simp [h, this]

@[simp] theorem setK_others (s : State) (d v) : (s.setK d v).others = s.others := by unfold State.setK; split <;> rfl
@[simp] theorem setK_pkg (s : State) (d v) : (s.setK d v).pkg = s.pkg := by unfold State.setK; split <;> rfl
@[simp] theorem setK_mem (s : State) (d v) : (s.setK d v).mem = s.mem := by unfold State.setK; split <;> rfl
@[simp] theorem setK_parity (s : State) (d v) : (s.setK d v).parity = s.parity := by unfold State.setK; split <;> rfl
@[simp] theorem setK_reqs (s : State) (d v) : (s.setK d v).reqs = s.reqs := by unfold State.setK; split <;> rfl
@[simp] theorem setK_atomics (s : State) (d v) : (s.setK d v).atomics = s.atomics := by unfold State.setK; split <;> rfl
@[simp] theorem setK_barriers (s : State) (d v) : (s.setK d v).barriers = s.barriers := by unfold State.setK; split <;> rfl
@[simp] theorem setK_queues (s : State) (d v) : (s.setK d v).queues = s.queues := by unfold State.setK; split <;> rfl
@[simp] theorem setK_tb (s : State) (d v) : (s.setK d v).tb = s.tb := by unfold State.setK; split <;> rfl
@[simp] theorem setK_paddocks (s : State) (d v) : (s.setK d v).paddocks = s.paddocks := by unfold State.setK; split <;> rfl
@[simp] theorem setK_input (s : State) (d v) : (s.setK d v).input = s.input := by unfold State.setK; split <;> rfl
@[simp] theorem setK_agenda (s : State) (d v) : (s.setK d v).agenda = s.agenda := by unfold State.setK; split <;> rfl
@[simp] theorem setK_free (s : State) (d v) : (s.setK d v).free = s.free := by unfold State.setK; split <;> rfl
@[simp] theorem setK_tile_ltn (s : State) (d v) : (s.setK d v).tile.ltn = s.tile.ltn := by unfold State.setK; split <;> rfl
@[simp] theorem setK_tile_main (s : State) (d v) : (s.setK d v).tile.main = s.tile.main := by unfold State.setK; split <;> rfl
@[simp] theorem setK_tile_handler (s : State) (d v) : (s.setK d v).tile.handler = s.tile.handler := by unfold State.setK; split <;> rfl
@[simp] theorem setK_tile_v (s : State) (d v) : (s.setK d v).tile.v = s.tile.v := by unfold State.setK; split <;> rfl
@[simp] theorem setK_tile_acc (s : State) (d v) : (s.setK d v).tile.acc = s.tile.acc := by unfold State.setK; split <;> rfl
@[simp] theorem setK_tile_spad (s : State) (d v) : (s.setK d v).tile.spad = s.tile.spad := by unfold State.setK; split <;> rfl
@[simp] theorem setK_tile_early (s : State) (d v) : (s.setK d v).tile.early = s.tile.early := by unfold State.setK; split <;> rfl
@[simp] theorem setK_tile_spadBad (s : State) (d v) : (s.setK d v).tile.spadBad = s.tile.spadBad := by unfold State.setK; split <;> rfl
@[simp] theorem setK_tile_accBad (s : State) (d v) : (s.setK d v).tile.accBad = s.tile.accBad := by unfold State.setK; split <;> rfl
@[simp] theorem setK_tile_bfmt (s : State) (d v) : (s.setK d v).tile.bfmt = s.tile.bfmt := by unfold State.setK; split <;> rfl
@[simp] theorem setK_tile_phKey (s : State) (d v) : (s.setK d v).tile.phKey = s.tile.phKey := by unfold State.setK; split <;> rfl
@[simp] theorem setK_tile_phCtrl (s : State) (d v) : (s.setK d v).tile.phCtrl = s.tile.phCtrl := by unfold State.setK; split <;> rfl
@[simp] theorem setK_tile_phCtrh (s : State) (d v) : (s.setK d v).tile.phCtrh = s.tile.phCtrh := by unfold State.setK; split <;> rfl
@[simp] theorem setK_tile_feat (s : State) (d v) : (s.setK d v).tile.feat = s.tile.feat := by unfold State.setK; split <;> rfl
@[simp] theorem setK_tile_paddock (s : State) (d v) : (s.setK d v).tile.paddock = s.tile.paddock := by unfold State.setK; split <;> rfl
@[simp] theorem setK_tile_tags (s : State) (d v) : (s.setK d v).tile.tags = s.tile.tags := by unfold State.setK; split <;> rfl
@[simp] theorem setK_tile_ctrs (s : State) (d v) : (s.setK d v).tile.ctrs = s.tile.ctrs := by unfold State.setK; split <;> rfl
@[simp] theorem setK_tile_wain (s : State) (d v) : (s.setK d v).tile.wain = s.tile.wain := by unfold State.setK; split <;> rfl
@[simp] theorem setK_tile_thresher (s : State) (d v) : (s.setK d v).tile.thresher = s.tile.thresher := by unfold State.setK; split <;> rfl
@[simp] theorem setK_tile_stop (s : State) (d v) : (s.setK d v).tile.stop = s.tile.stop := by unfold State.setK; split <;> rfl
@[simp] theorem setK_tile_orderNo (s : State) (d v) : (s.setK d v).tile.orderNo = s.tile.orderNo := by unfold State.setK; split <;> rfl
@[simp] theorem setK_tile_triggers (s : State) (d v) : (s.setK d v).tile.triggers = s.tile.triggers := by unfold State.setK; split <;> rfl
@[simp] theorem setK_tile_tlb (s : State) (d v) : (s.setK d v).tile.tlb = s.tile.tlb := by unfold State.setK; split <;> rfl
@[simp] theorem setK_tile_icache (s : State) (d v) : (s.setK d v).tile.icache = s.tile.icache := by unfold State.setK; split <;> rfl
@[simp] theorem setK_tile_codeBad (s : State) (d v) : (s.setK d v).tile.codeBad = s.tile.codeBad := by unfold State.setK; split <;> rfl
@[simp] theorem setK_tile_regions0 (s : State) (d v) : (s.setK d v).tile.regions0 = s.tile.regions0 := by unfold State.setK; split <;> rfl
@[simp] theorem setK_tile_regions1 (s : State) (d v) : (s.setK d v).tile.regions1 = s.tile.regions1 := by unfold State.setK; split <;> rfl
@[simp] theorem setK_tile_ctxs (s : State) (d v) : (s.setK d v).tile.ctxs = s.tile.ctxs := by unfold State.setK; split <;> rfl
@[simp] theorem setK_tile_eps (s : State) (d v) : (s.setK d v).tile.eps = s.tile.eps := by unfold State.setK; split <;> rfl
@[simp] theorem setK_tile_act (s : State) (d v) : (s.setK d v).tile.act = s.tile.act := by unfold State.setK; split <;> rfl
@[simp] theorem setK_tile_handlerRun (s : State) (d v) : (s.setK d v).tile.handlerRun = s.tile.handlerRun := by unfold State.setK; split <;> rfl
@[simp] theorem setK_tile_handlerLocal (s : State) (d v) : (s.setK d v).tile.handlerLocal = s.tile.handlerLocal := by unfold State.setK; split <;> rfl
@[simp] theorem setK_tile_mailbox (s : State) (d v) : (s.setK d v).tile.mailbox = s.tile.mailbox := by unfold State.setK; split <;> rfl
@[simp] theorem setK_tile_handlers (s : State) (d v) : (s.setK d v).tile.handlers = s.tile.handlers := by unfold State.setK; split <;> rfl
@[simp] theorem setK_tile_msgSeq (s : State) (d v) : (s.setK d v).tile.msgSeq = s.tile.msgSeq := by unfold State.setK; split <;> rfl
@[simp] theorem setK_tile_relNo (s : State) (d v) : (s.setK d v).tile.relNo = s.tile.relNo := by unfold State.setK; split <;> rfl
@[simp] theorem setK_tile_sendQ (s : State) (d v) : (s.setK d v).tile.sendQ = s.tile.sendQ := by unfold State.setK; split <;> rfl
@[simp] theorem setK_tile_refusals (s : State) (d v) : (s.setK d v).tile.refusals = s.tile.refusals := by unfold State.setK; split <;> rfl
@[simp] theorem setK_tile_shSends (s : State) (d v) : (s.setK d v).tile.shSends = s.tile.shSends := by unfold State.setK; split <;> rfl
@[simp] theorem setK_tile_retention (s : State) (d v) : (s.setK d v).tile.retention = s.tile.retention := by unfold State.setK; split <;> rfl
@[simp] theorem setK_tile_delivered (s : State) (d v) : (s.setK d v).tile.delivered = s.tile.delivered := by unfold State.setK; split <;> rfl
@[simp] theorem setK_tile_amoSeq (s : State) (d v) : (s.setK d v).tile.amoSeq = s.tile.amoSeq := by unfold State.setK; split <;> rfl
@[simp] theorem setK_tile_images (s : State) (d v) : (s.setK d v).tile.images = s.tile.images := by unfold State.setK; split <;> rfl
@[simp] theorem setK_tile_lastIssued (s : State) (d v) : (s.setK d v).tile.lastIssued = s.tile.lastIssued := by unfold State.setK; split <;> rfl
@[simp] theorem setK_tile_halted (s : State) (d v) : (s.setK d v).tile.halted = s.tile.halted := by unfold State.setK; split <;> rfl
@[simp] theorem setK_tile_starts (s : State) (d v) : (s.setK d v).tile.starts = s.tile.starts := by unfold State.setK; split <;> rfl
@[simp] theorem setK_tile_runs (s : State) (d v) : (s.setK d v).tile.runs = s.tile.runs := by unfold State.setK; split <;> rfl
@[simp] theorem setK_tile_remapAsked (s : State) (d v) : (s.setK d v).tile.remapAsked = s.tile.remapAsked := by unfold State.setK; split <;> rfl
@[simp] theorem setK_tile_remapping (s : State) (d v) : (s.setK d v).tile.remapping = s.tile.remapping := by unfold State.setK; split <;> rfl
@[simp] theorem setK_tile_remapCtxs (s : State) (d v) : (s.setK d v).tile.remapCtxs = s.tile.remapCtxs := by unfold State.setK; split <;> rfl
@[simp] theorem setK_st (s : State) (d v) : (s.setK d v).st = s.st := by
  unfold State.setK; split
  · rfl
  · simp only [State.st, State.cur, onTile_tile]; cases s.tile.lastIssued <;> rfl

theorem setK_kreg (s : State) (d r : KReg) (v : BitVec 32) :
    (s.setK d v).kreg r = if r = d ∧ d ≠ 0#3 then v else s.kreg r := by
  by_cases hd : d = 0#3
  · subst hd; simp [State.setK]
  · by_cases hr : r = 0#3
    · subst hr
      have : ¬ 0#3 = d := fun h => hd h.symm
      simp [this, State.kreg]
    · have h1 : (s.setK d v).kreg r = (s.tile.k.set d.toNat v d.isLt)[r.toNat]'(r.isLt) := by
        simp [State.setK, hd, State.kreg, hr]
      have h2 : s.kreg r = s.tile.k[r.toNat]'(r.isLt) := by simp [State.kreg, hr]
      rw [h1, h2, Vector.getElem_set]
      by_cases h : r = d
      · subst h; simp [hd]
      · have : ¬ d.toNat = r.toNat := fun hh => h (BitVec.eq_of_toNat_eq hh.symm)
        simp [h, this]

/-! ### Contexts -/

@[simp] theorem onCx_others (s : State) (f) : (s.onCx f).others = s.others := rfl
@[simp] theorem onCx_pkg (s : State) (f) : (s.onCx f).pkg = s.pkg := rfl
@[simp] theorem onCx_mem (s : State) (f) : (s.onCx f).mem = s.mem := rfl
@[simp] theorem onCx_parity (s : State) (f) : (s.onCx f).parity = s.parity := rfl
@[simp] theorem onCx_reqs (s : State) (f) : (s.onCx f).reqs = s.reqs := rfl
@[simp] theorem onCx_atomics (s : State) (f) : (s.onCx f).atomics = s.atomics := rfl
@[simp] theorem onCx_barriers (s : State) (f) : (s.onCx f).barriers = s.barriers := rfl
@[simp] theorem onCx_queues (s : State) (f) : (s.onCx f).queues = s.queues := rfl
@[simp] theorem onCx_tb (s : State) (f) : (s.onCx f).tb = s.tb := rfl
@[simp] theorem onCx_paddocks (s : State) (f) : (s.onCx f).paddocks = s.paddocks := rfl
@[simp] theorem onCx_input (s : State) (f) : (s.onCx f).input = s.input := rfl
@[simp] theorem onCx_agenda (s : State) (f) : (s.onCx f).agenda = s.agenda := rfl
@[simp] theorem onCx_free (s : State) (f) : (s.onCx f).free = s.free := rfl
@[simp] theorem onCx_tile_ltn (s : State) (f) : (s.onCx f).tile.ltn = s.tile.ltn := rfl
@[simp] theorem onCx_tile_main (s : State) (f) : (s.onCx f).tile.main = s.tile.main := rfl
@[simp] theorem onCx_tile_handler (s : State) (f) : (s.onCx f).tile.handler = s.tile.handler := rfl
@[simp] theorem onCx_tile_v (s : State) (f) : (s.onCx f).tile.v = s.tile.v := rfl
@[simp] theorem onCx_tile_k (s : State) (f) : (s.onCx f).tile.k = s.tile.k := rfl
@[simp] theorem onCx_tile_acc (s : State) (f) : (s.onCx f).tile.acc = s.tile.acc := rfl
@[simp] theorem onCx_tile_spad (s : State) (f) : (s.onCx f).tile.spad = s.tile.spad := rfl
@[simp] theorem onCx_tile_early (s : State) (f) : (s.onCx f).tile.early = s.tile.early := rfl
@[simp] theorem onCx_tile_spadBad (s : State) (f) : (s.onCx f).tile.spadBad = s.tile.spadBad := rfl
@[simp] theorem onCx_tile_accBad (s : State) (f) : (s.onCx f).tile.accBad = s.tile.accBad := rfl
@[simp] theorem onCx_tile_bfmt (s : State) (f) : (s.onCx f).tile.bfmt = s.tile.bfmt := rfl
@[simp] theorem onCx_tile_phKey (s : State) (f) : (s.onCx f).tile.phKey = s.tile.phKey := rfl
@[simp] theorem onCx_tile_phCtrl (s : State) (f) : (s.onCx f).tile.phCtrl = s.tile.phCtrl := rfl
@[simp] theorem onCx_tile_phCtrh (s : State) (f) : (s.onCx f).tile.phCtrh = s.tile.phCtrh := rfl
@[simp] theorem onCx_tile_feat (s : State) (f) : (s.onCx f).tile.feat = s.tile.feat := rfl
@[simp] theorem onCx_tile_paddock (s : State) (f) : (s.onCx f).tile.paddock = s.tile.paddock := rfl
@[simp] theorem onCx_tile_tags (s : State) (f) : (s.onCx f).tile.tags = s.tile.tags := rfl
@[simp] theorem onCx_tile_ctrs (s : State) (f) : (s.onCx f).tile.ctrs = s.tile.ctrs := rfl
@[simp] theorem onCx_tile_wain (s : State) (f) : (s.onCx f).tile.wain = s.tile.wain := rfl
@[simp] theorem onCx_tile_thresher (s : State) (f) : (s.onCx f).tile.thresher = s.tile.thresher := rfl
@[simp] theorem onCx_tile_stop (s : State) (f) : (s.onCx f).tile.stop = s.tile.stop := rfl
@[simp] theorem onCx_tile_orderNo (s : State) (f) : (s.onCx f).tile.orderNo = s.tile.orderNo := rfl
@[simp] theorem onCx_tile_triggers (s : State) (f) : (s.onCx f).tile.triggers = s.tile.triggers := rfl
@[simp] theorem onCx_tile_tlb (s : State) (f) : (s.onCx f).tile.tlb = s.tile.tlb := rfl
@[simp] theorem onCx_tile_icache (s : State) (f) : (s.onCx f).tile.icache = s.tile.icache := rfl
@[simp] theorem onCx_tile_codeBad (s : State) (f) : (s.onCx f).tile.codeBad = s.tile.codeBad := rfl
@[simp] theorem onCx_tile_regions0 (s : State) (f) : (s.onCx f).tile.regions0 = s.tile.regions0 := rfl
@[simp] theorem onCx_tile_regions1 (s : State) (f) : (s.onCx f).tile.regions1 = s.tile.regions1 := rfl
@[simp] theorem onCx_tile_eps (s : State) (f) : (s.onCx f).tile.eps = s.tile.eps := rfl
@[simp] theorem onCx_tile_act (s : State) (f) : (s.onCx f).tile.act = s.tile.act := rfl
@[simp] theorem onCx_tile_handlerRun (s : State) (f) : (s.onCx f).tile.handlerRun = s.tile.handlerRun := rfl
@[simp] theorem onCx_tile_handlerLocal (s : State) (f) : (s.onCx f).tile.handlerLocal = s.tile.handlerLocal := rfl
@[simp] theorem onCx_tile_mailbox (s : State) (f) : (s.onCx f).tile.mailbox = s.tile.mailbox := rfl
@[simp] theorem onCx_tile_handlers (s : State) (f) : (s.onCx f).tile.handlers = s.tile.handlers := rfl
@[simp] theorem onCx_tile_msgSeq (s : State) (f) : (s.onCx f).tile.msgSeq = s.tile.msgSeq := rfl
@[simp] theorem onCx_tile_relNo (s : State) (f) : (s.onCx f).tile.relNo = s.tile.relNo := rfl
@[simp] theorem onCx_tile_sendQ (s : State) (f) : (s.onCx f).tile.sendQ = s.tile.sendQ := rfl
@[simp] theorem onCx_tile_refusals (s : State) (f) : (s.onCx f).tile.refusals = s.tile.refusals := rfl
@[simp] theorem onCx_tile_shSends (s : State) (f) : (s.onCx f).tile.shSends = s.tile.shSends := rfl
@[simp] theorem onCx_tile_retention (s : State) (f) : (s.onCx f).tile.retention = s.tile.retention := rfl
@[simp] theorem onCx_tile_delivered (s : State) (f) : (s.onCx f).tile.delivered = s.tile.delivered := rfl
@[simp] theorem onCx_tile_amoSeq (s : State) (f) : (s.onCx f).tile.amoSeq = s.tile.amoSeq := rfl
@[simp] theorem onCx_tile_images (s : State) (f) : (s.onCx f).tile.images = s.tile.images := rfl
@[simp] theorem onCx_tile_lastIssued (s : State) (f) : (s.onCx f).tile.lastIssued = s.tile.lastIssued := rfl
@[simp] theorem onCx_tile_halted (s : State) (f) : (s.onCx f).tile.halted = s.tile.halted := rfl
@[simp] theorem onCx_tile_starts (s : State) (f) : (s.onCx f).tile.starts = s.tile.starts := rfl
@[simp] theorem onCx_tile_runs (s : State) (f) : (s.onCx f).tile.runs = s.tile.runs := rfl
@[simp] theorem onCx_tile_remapAsked (s : State) (f) : (s.onCx f).tile.remapAsked = s.tile.remapAsked := rfl
@[simp] theorem onCx_tile_remapping (s : State) (f) : (s.onCx f).tile.remapping = s.tile.remapping := rfl
@[simp] theorem onCx_tile_remapCtxs (s : State) (f) : (s.onCx f).tile.remapCtxs = s.tile.remapCtxs := rfl
@[simp] theorem orFlags_others (s : State) (n f) : (s.orFlags n f).others = s.others := rfl
@[simp] theorem orFlags_pkg (s : State) (n f) : (s.orFlags n f).pkg = s.pkg := rfl
@[simp] theorem orFlags_mem (s : State) (n f) : (s.orFlags n f).mem = s.mem := rfl
@[simp] theorem orFlags_parity (s : State) (n f) : (s.orFlags n f).parity = s.parity := rfl
@[simp] theorem orFlags_reqs (s : State) (n f) : (s.orFlags n f).reqs = s.reqs := rfl
@[simp] theorem orFlags_atomics (s : State) (n f) : (s.orFlags n f).atomics = s.atomics := rfl
@[simp] theorem orFlags_barriers (s : State) (n f) : (s.orFlags n f).barriers = s.barriers := rfl
@[simp] theorem orFlags_queues (s : State) (n f) : (s.orFlags n f).queues = s.queues := rfl
@[simp] theorem orFlags_tb (s : State) (n f) : (s.orFlags n f).tb = s.tb := rfl
@[simp] theorem orFlags_paddocks (s : State) (n f) : (s.orFlags n f).paddocks = s.paddocks := rfl
@[simp] theorem orFlags_input (s : State) (n f) : (s.orFlags n f).input = s.input := rfl
@[simp] theorem orFlags_agenda (s : State) (n f) : (s.orFlags n f).agenda = s.agenda := rfl
@[simp] theorem orFlags_free (s : State) (n f) : (s.orFlags n f).free = s.free := rfl
@[simp] theorem orFlags_tile_ltn (s : State) (n f) : (s.orFlags n f).tile.ltn = s.tile.ltn := rfl
@[simp] theorem orFlags_tile_main (s : State) (n f) : (s.orFlags n f).tile.main = s.tile.main := rfl
@[simp] theorem orFlags_tile_handler (s : State) (n f) : (s.orFlags n f).tile.handler = s.tile.handler := rfl
@[simp] theorem orFlags_tile_v (s : State) (n f) : (s.orFlags n f).tile.v = s.tile.v := rfl
@[simp] theorem orFlags_tile_k (s : State) (n f) : (s.orFlags n f).tile.k = s.tile.k := rfl
@[simp] theorem orFlags_tile_acc (s : State) (n f) : (s.orFlags n f).tile.acc = s.tile.acc := rfl
@[simp] theorem orFlags_tile_spad (s : State) (n f) : (s.orFlags n f).tile.spad = s.tile.spad := rfl
@[simp] theorem orFlags_tile_early (s : State) (n f) : (s.orFlags n f).tile.early = s.tile.early := rfl
@[simp] theorem orFlags_tile_spadBad (s : State) (n f) : (s.orFlags n f).tile.spadBad = s.tile.spadBad := rfl
@[simp] theorem orFlags_tile_accBad (s : State) (n f) : (s.orFlags n f).tile.accBad = s.tile.accBad := rfl
@[simp] theorem orFlags_tile_bfmt (s : State) (n f) : (s.orFlags n f).tile.bfmt = s.tile.bfmt := rfl
@[simp] theorem orFlags_tile_phKey (s : State) (n f) : (s.orFlags n f).tile.phKey = s.tile.phKey := rfl
@[simp] theorem orFlags_tile_phCtrl (s : State) (n f) : (s.orFlags n f).tile.phCtrl = s.tile.phCtrl := rfl
@[simp] theorem orFlags_tile_phCtrh (s : State) (n f) : (s.orFlags n f).tile.phCtrh = s.tile.phCtrh := rfl
@[simp] theorem orFlags_tile_feat (s : State) (n f) : (s.orFlags n f).tile.feat = s.tile.feat := rfl
@[simp] theorem orFlags_tile_paddock (s : State) (n f) : (s.orFlags n f).tile.paddock = s.tile.paddock := rfl
@[simp] theorem orFlags_tile_tags (s : State) (n f) : (s.orFlags n f).tile.tags = s.tile.tags := rfl
@[simp] theorem orFlags_tile_ctrs (s : State) (n f) : (s.orFlags n f).tile.ctrs = s.tile.ctrs := rfl
@[simp] theorem orFlags_tile_wain (s : State) (n f) : (s.orFlags n f).tile.wain = s.tile.wain := rfl
@[simp] theorem orFlags_tile_thresher (s : State) (n f) : (s.orFlags n f).tile.thresher = s.tile.thresher := rfl
@[simp] theorem orFlags_tile_stop (s : State) (n f) : (s.orFlags n f).tile.stop = s.tile.stop := rfl
@[simp] theorem orFlags_tile_orderNo (s : State) (n f) : (s.orFlags n f).tile.orderNo = s.tile.orderNo := rfl
@[simp] theorem orFlags_tile_triggers (s : State) (n f) : (s.orFlags n f).tile.triggers = s.tile.triggers := rfl
@[simp] theorem orFlags_tile_tlb (s : State) (n f) : (s.orFlags n f).tile.tlb = s.tile.tlb := rfl
@[simp] theorem orFlags_tile_icache (s : State) (n f) : (s.orFlags n f).tile.icache = s.tile.icache := rfl
@[simp] theorem orFlags_tile_codeBad (s : State) (n f) : (s.orFlags n f).tile.codeBad = s.tile.codeBad := rfl
@[simp] theorem orFlags_tile_regions0 (s : State) (n f) : (s.orFlags n f).tile.regions0 = s.tile.regions0 := rfl
@[simp] theorem orFlags_tile_regions1 (s : State) (n f) : (s.orFlags n f).tile.regions1 = s.tile.regions1 := rfl
@[simp] theorem orFlags_tile_eps (s : State) (n f) : (s.orFlags n f).tile.eps = s.tile.eps := rfl
@[simp] theorem orFlags_tile_act (s : State) (n f) : (s.orFlags n f).tile.act = s.tile.act := rfl
@[simp] theorem orFlags_tile_handlerRun (s : State) (n f) : (s.orFlags n f).tile.handlerRun = s.tile.handlerRun := rfl
@[simp] theorem orFlags_tile_handlerLocal (s : State) (n f) : (s.orFlags n f).tile.handlerLocal = s.tile.handlerLocal := rfl
@[simp] theorem orFlags_tile_mailbox (s : State) (n f) : (s.orFlags n f).tile.mailbox = s.tile.mailbox := rfl
@[simp] theorem orFlags_tile_handlers (s : State) (n f) : (s.orFlags n f).tile.handlers = s.tile.handlers := rfl
@[simp] theorem orFlags_tile_msgSeq (s : State) (n f) : (s.orFlags n f).tile.msgSeq = s.tile.msgSeq := rfl
@[simp] theorem orFlags_tile_relNo (s : State) (n f) : (s.orFlags n f).tile.relNo = s.tile.relNo := rfl
@[simp] theorem orFlags_tile_sendQ (s : State) (n f) : (s.orFlags n f).tile.sendQ = s.tile.sendQ := rfl
@[simp] theorem orFlags_tile_refusals (s : State) (n f) : (s.orFlags n f).tile.refusals = s.tile.refusals := rfl
@[simp] theorem orFlags_tile_shSends (s : State) (n f) : (s.orFlags n f).tile.shSends = s.tile.shSends := rfl
@[simp] theorem orFlags_tile_retention (s : State) (n f) : (s.orFlags n f).tile.retention = s.tile.retention := rfl
@[simp] theorem orFlags_tile_delivered (s : State) (n f) : (s.orFlags n f).tile.delivered = s.tile.delivered := rfl
@[simp] theorem orFlags_tile_amoSeq (s : State) (n f) : (s.orFlags n f).tile.amoSeq = s.tile.amoSeq := rfl
@[simp] theorem orFlags_tile_images (s : State) (n f) : (s.orFlags n f).tile.images = s.tile.images := rfl
@[simp] theorem orFlags_tile_lastIssued (s : State) (n f) : (s.orFlags n f).tile.lastIssued = s.tile.lastIssued := rfl
@[simp] theorem orFlags_tile_halted (s : State) (n f) : (s.orFlags n f).tile.halted = s.tile.halted := rfl
@[simp] theorem orFlags_tile_starts (s : State) (n f) : (s.orFlags n f).tile.starts = s.tile.starts := rfl
@[simp] theorem orFlags_tile_runs (s : State) (n f) : (s.orFlags n f).tile.runs = s.tile.runs := rfl
@[simp] theorem orFlags_tile_remapAsked (s : State) (n f) : (s.orFlags n f).tile.remapAsked = s.tile.remapAsked := rfl
@[simp] theorem orFlags_tile_remapping (s : State) (n f) : (s.orFlags n f).tile.remapping = s.tile.remapping := rfl
@[simp] theorem orFlags_tile_remapCtxs (s : State) (n f) : (s.orFlags n f).tile.remapCtxs = s.tile.remapCtxs := rfl
@[simp] theorem orFlags_st (s : State) (n f) : (s.orFlags n f).st = s.st := by simp only [State.st, State.cur, orFlags_tile_lastIssued]; cases s.tile.lastIssued <;> rfl

/-! ### Scratchpad -/

@[simp] theorem storeLocal_others (s : State) (a b) : (s.storeLocal a b).others = s.others := rfl
@[simp] theorem storeLocal_pkg (s : State) (a b) : (s.storeLocal a b).pkg = s.pkg := rfl
@[simp] theorem storeLocal_mem (s : State) (a b) : (s.storeLocal a b).mem = s.mem := rfl
@[simp] theorem storeLocal_parity (s : State) (a b) : (s.storeLocal a b).parity = s.parity := rfl
@[simp] theorem storeLocal_reqs (s : State) (a b) : (s.storeLocal a b).reqs = s.reqs := rfl
@[simp] theorem storeLocal_atomics (s : State) (a b) : (s.storeLocal a b).atomics = s.atomics := rfl
@[simp] theorem storeLocal_barriers (s : State) (a b) : (s.storeLocal a b).barriers = s.barriers := rfl
@[simp] theorem storeLocal_queues (s : State) (a b) : (s.storeLocal a b).queues = s.queues := rfl
@[simp] theorem storeLocal_tb (s : State) (a b) : (s.storeLocal a b).tb = s.tb := rfl
@[simp] theorem storeLocal_paddocks (s : State) (a b) : (s.storeLocal a b).paddocks = s.paddocks := rfl
@[simp] theorem storeLocal_input (s : State) (a b) : (s.storeLocal a b).input = s.input := rfl
@[simp] theorem storeLocal_agenda (s : State) (a b) : (s.storeLocal a b).agenda = s.agenda := rfl
@[simp] theorem storeLocal_free (s : State) (a b) : (s.storeLocal a b).free = s.free := rfl
@[simp] theorem storeLocal_tile_ltn (s : State) (a b) : (s.storeLocal a b).tile.ltn = s.tile.ltn := rfl
@[simp] theorem storeLocal_tile_main (s : State) (a b) : (s.storeLocal a b).tile.main = s.tile.main := rfl
@[simp] theorem storeLocal_tile_handler (s : State) (a b) : (s.storeLocal a b).tile.handler = s.tile.handler := rfl
@[simp] theorem storeLocal_tile_v (s : State) (a b) : (s.storeLocal a b).tile.v = s.tile.v := rfl
@[simp] theorem storeLocal_tile_k (s : State) (a b) : (s.storeLocal a b).tile.k = s.tile.k := rfl
@[simp] theorem storeLocal_tile_acc (s : State) (a b) : (s.storeLocal a b).tile.acc = s.tile.acc := rfl
@[simp] theorem storeLocal_tile_accBad (s : State) (a b) : (s.storeLocal a b).tile.accBad = s.tile.accBad := rfl
@[simp] theorem storeLocal_tile_bfmt (s : State) (a b) : (s.storeLocal a b).tile.bfmt = s.tile.bfmt := rfl
@[simp] theorem storeLocal_tile_phKey (s : State) (a b) : (s.storeLocal a b).tile.phKey = s.tile.phKey := rfl
@[simp] theorem storeLocal_tile_phCtrl (s : State) (a b) : (s.storeLocal a b).tile.phCtrl = s.tile.phCtrl := rfl
@[simp] theorem storeLocal_tile_phCtrh (s : State) (a b) : (s.storeLocal a b).tile.phCtrh = s.tile.phCtrh := rfl
@[simp] theorem storeLocal_tile_feat (s : State) (a b) : (s.storeLocal a b).tile.feat = s.tile.feat := rfl
@[simp] theorem storeLocal_tile_paddock (s : State) (a b) : (s.storeLocal a b).tile.paddock = s.tile.paddock := rfl
@[simp] theorem storeLocal_tile_tags (s : State) (a b) : (s.storeLocal a b).tile.tags = s.tile.tags := rfl
@[simp] theorem storeLocal_tile_ctrs (s : State) (a b) : (s.storeLocal a b).tile.ctrs = s.tile.ctrs := rfl
@[simp] theorem storeLocal_tile_wain (s : State) (a b) : (s.storeLocal a b).tile.wain = s.tile.wain := rfl
@[simp] theorem storeLocal_tile_thresher (s : State) (a b) : (s.storeLocal a b).tile.thresher = s.tile.thresher := rfl
@[simp] theorem storeLocal_tile_stop (s : State) (a b) : (s.storeLocal a b).tile.stop = s.tile.stop := rfl
@[simp] theorem storeLocal_tile_orderNo (s : State) (a b) : (s.storeLocal a b).tile.orderNo = s.tile.orderNo := rfl
@[simp] theorem storeLocal_tile_triggers (s : State) (a b) : (s.storeLocal a b).tile.triggers = s.tile.triggers := rfl
@[simp] theorem storeLocal_tile_tlb (s : State) (a b) : (s.storeLocal a b).tile.tlb = s.tile.tlb := rfl
@[simp] theorem storeLocal_tile_icache (s : State) (a b) : (s.storeLocal a b).tile.icache = s.tile.icache := rfl
@[simp] theorem storeLocal_tile_codeBad (s : State) (a b) : (s.storeLocal a b).tile.codeBad = s.tile.codeBad := rfl
@[simp] theorem storeLocal_tile_regions0 (s : State) (a b) : (s.storeLocal a b).tile.regions0 = s.tile.regions0 := rfl
@[simp] theorem storeLocal_tile_regions1 (s : State) (a b) : (s.storeLocal a b).tile.regions1 = s.tile.regions1 := rfl
@[simp] theorem storeLocal_tile_ctxs (s : State) (a b) : (s.storeLocal a b).tile.ctxs = s.tile.ctxs := rfl
@[simp] theorem storeLocal_tile_eps (s : State) (a b) : (s.storeLocal a b).tile.eps = s.tile.eps := rfl
@[simp] theorem storeLocal_tile_act (s : State) (a b) : (s.storeLocal a b).tile.act = s.tile.act := rfl
@[simp] theorem storeLocal_tile_handlerRun (s : State) (a b) : (s.storeLocal a b).tile.handlerRun = s.tile.handlerRun := rfl
@[simp] theorem storeLocal_tile_handlerLocal (s : State) (a b) : (s.storeLocal a b).tile.handlerLocal = s.tile.handlerLocal := rfl
@[simp] theorem storeLocal_tile_mailbox (s : State) (a b) : (s.storeLocal a b).tile.mailbox = s.tile.mailbox := rfl
@[simp] theorem storeLocal_tile_handlers (s : State) (a b) : (s.storeLocal a b).tile.handlers = s.tile.handlers := rfl
@[simp] theorem storeLocal_tile_msgSeq (s : State) (a b) : (s.storeLocal a b).tile.msgSeq = s.tile.msgSeq := rfl
@[simp] theorem storeLocal_tile_relNo (s : State) (a b) : (s.storeLocal a b).tile.relNo = s.tile.relNo := rfl
@[simp] theorem storeLocal_tile_sendQ (s : State) (a b) : (s.storeLocal a b).tile.sendQ = s.tile.sendQ := rfl
@[simp] theorem storeLocal_tile_refusals (s : State) (a b) : (s.storeLocal a b).tile.refusals = s.tile.refusals := rfl
@[simp] theorem storeLocal_tile_shSends (s : State) (a b) : (s.storeLocal a b).tile.shSends = s.tile.shSends := rfl
@[simp] theorem storeLocal_tile_retention (s : State) (a b) : (s.storeLocal a b).tile.retention = s.tile.retention := rfl
@[simp] theorem storeLocal_tile_delivered (s : State) (a b) : (s.storeLocal a b).tile.delivered = s.tile.delivered := rfl
@[simp] theorem storeLocal_tile_amoSeq (s : State) (a b) : (s.storeLocal a b).tile.amoSeq = s.tile.amoSeq := rfl
@[simp] theorem storeLocal_tile_images (s : State) (a b) : (s.storeLocal a b).tile.images = s.tile.images := rfl
@[simp] theorem storeLocal_tile_lastIssued (s : State) (a b) : (s.storeLocal a b).tile.lastIssued = s.tile.lastIssued := rfl
@[simp] theorem storeLocal_tile_halted (s : State) (a b) : (s.storeLocal a b).tile.halted = s.tile.halted := rfl
@[simp] theorem storeLocal_tile_starts (s : State) (a b) : (s.storeLocal a b).tile.starts = s.tile.starts := rfl
@[simp] theorem storeLocal_tile_runs (s : State) (a b) : (s.storeLocal a b).tile.runs = s.tile.runs := rfl
@[simp] theorem storeLocal_tile_remapAsked (s : State) (a b) : (s.storeLocal a b).tile.remapAsked = s.tile.remapAsked := rfl
@[simp] theorem storeLocal_tile_remapping (s : State) (a b) : (s.storeLocal a b).tile.remapping = s.tile.remapping := rfl
@[simp] theorem storeLocal_tile_remapCtxs (s : State) (a b) : (s.storeLocal a b).tile.remapCtxs = s.tile.remapCtxs := rfl
@[simp] theorem storeLocal_spad (s : State) (a b) : (s.storeLocal a b).tile.spad = s.tile.spad.writeBytes a b := rfl
@[simp] theorem storeLocal_st (s : State) (a b) : (s.storeLocal a b).st = s.st := by simp only [State.st, State.cur, storeLocal_tile_lastIssued]; cases s.tile.lastIssued <;> rfl
@[simp] theorem engineStore_others (s : State) (a b) : (s.engineStore a b).others = s.others := rfl
@[simp] theorem engineStore_pkg (s : State) (a b) : (s.engineStore a b).pkg = s.pkg := rfl
@[simp] theorem engineStore_mem (s : State) (a b) : (s.engineStore a b).mem = s.mem := rfl
@[simp] theorem engineStore_parity (s : State) (a b) : (s.engineStore a b).parity = s.parity := rfl
@[simp] theorem engineStore_reqs (s : State) (a b) : (s.engineStore a b).reqs = s.reqs := rfl
@[simp] theorem engineStore_atomics (s : State) (a b) : (s.engineStore a b).atomics = s.atomics := rfl
@[simp] theorem engineStore_barriers (s : State) (a b) : (s.engineStore a b).barriers = s.barriers := rfl
@[simp] theorem engineStore_queues (s : State) (a b) : (s.engineStore a b).queues = s.queues := rfl
@[simp] theorem engineStore_tb (s : State) (a b) : (s.engineStore a b).tb = s.tb := rfl
@[simp] theorem engineStore_paddocks (s : State) (a b) : (s.engineStore a b).paddocks = s.paddocks := rfl
@[simp] theorem engineStore_input (s : State) (a b) : (s.engineStore a b).input = s.input := rfl
@[simp] theorem engineStore_agenda (s : State) (a b) : (s.engineStore a b).agenda = s.agenda := rfl
@[simp] theorem engineStore_free (s : State) (a b) : (s.engineStore a b).free = s.free := rfl
@[simp] theorem engineStore_tile_ltn (s : State) (a b) : (s.engineStore a b).tile.ltn = s.tile.ltn := rfl
@[simp] theorem engineStore_tile_main (s : State) (a b) : (s.engineStore a b).tile.main = s.tile.main := rfl
@[simp] theorem engineStore_tile_handler (s : State) (a b) : (s.engineStore a b).tile.handler = s.tile.handler := rfl
@[simp] theorem engineStore_tile_v (s : State) (a b) : (s.engineStore a b).tile.v = s.tile.v := rfl
@[simp] theorem engineStore_tile_k (s : State) (a b) : (s.engineStore a b).tile.k = s.tile.k := rfl
@[simp] theorem engineStore_tile_acc (s : State) (a b) : (s.engineStore a b).tile.acc = s.tile.acc := rfl
@[simp] theorem engineStore_tile_accBad (s : State) (a b) : (s.engineStore a b).tile.accBad = s.tile.accBad := rfl
@[simp] theorem engineStore_tile_bfmt (s : State) (a b) : (s.engineStore a b).tile.bfmt = s.tile.bfmt := rfl
@[simp] theorem engineStore_tile_phKey (s : State) (a b) : (s.engineStore a b).tile.phKey = s.tile.phKey := rfl
@[simp] theorem engineStore_tile_phCtrl (s : State) (a b) : (s.engineStore a b).tile.phCtrl = s.tile.phCtrl := rfl
@[simp] theorem engineStore_tile_phCtrh (s : State) (a b) : (s.engineStore a b).tile.phCtrh = s.tile.phCtrh := rfl
@[simp] theorem engineStore_tile_feat (s : State) (a b) : (s.engineStore a b).tile.feat = s.tile.feat := rfl
@[simp] theorem engineStore_tile_paddock (s : State) (a b) : (s.engineStore a b).tile.paddock = s.tile.paddock := rfl
@[simp] theorem engineStore_tile_tags (s : State) (a b) : (s.engineStore a b).tile.tags = s.tile.tags := rfl
@[simp] theorem engineStore_tile_ctrs (s : State) (a b) : (s.engineStore a b).tile.ctrs = s.tile.ctrs := rfl
@[simp] theorem engineStore_tile_wain (s : State) (a b) : (s.engineStore a b).tile.wain = s.tile.wain := rfl
@[simp] theorem engineStore_tile_thresher (s : State) (a b) : (s.engineStore a b).tile.thresher = s.tile.thresher := rfl
@[simp] theorem engineStore_tile_stop (s : State) (a b) : (s.engineStore a b).tile.stop = s.tile.stop := rfl
@[simp] theorem engineStore_tile_orderNo (s : State) (a b) : (s.engineStore a b).tile.orderNo = s.tile.orderNo := rfl
@[simp] theorem engineStore_tile_triggers (s : State) (a b) : (s.engineStore a b).tile.triggers = s.tile.triggers := rfl
@[simp] theorem engineStore_tile_tlb (s : State) (a b) : (s.engineStore a b).tile.tlb = s.tile.tlb := rfl
@[simp] theorem engineStore_tile_icache (s : State) (a b) : (s.engineStore a b).tile.icache = s.tile.icache := rfl
@[simp] theorem engineStore_tile_codeBad (s : State) (a b) : (s.engineStore a b).tile.codeBad = s.tile.codeBad := rfl
@[simp] theorem engineStore_tile_regions0 (s : State) (a b) : (s.engineStore a b).tile.regions0 = s.tile.regions0 := rfl
@[simp] theorem engineStore_tile_regions1 (s : State) (a b) : (s.engineStore a b).tile.regions1 = s.tile.regions1 := rfl
@[simp] theorem engineStore_tile_ctxs (s : State) (a b) : (s.engineStore a b).tile.ctxs = s.tile.ctxs := rfl
@[simp] theorem engineStore_tile_eps (s : State) (a b) : (s.engineStore a b).tile.eps = s.tile.eps := rfl
@[simp] theorem engineStore_tile_act (s : State) (a b) : (s.engineStore a b).tile.act = s.tile.act := rfl
@[simp] theorem engineStore_tile_handlerRun (s : State) (a b) : (s.engineStore a b).tile.handlerRun = s.tile.handlerRun := rfl
@[simp] theorem engineStore_tile_handlerLocal (s : State) (a b) : (s.engineStore a b).tile.handlerLocal = s.tile.handlerLocal := rfl
@[simp] theorem engineStore_tile_mailbox (s : State) (a b) : (s.engineStore a b).tile.mailbox = s.tile.mailbox := rfl
@[simp] theorem engineStore_tile_handlers (s : State) (a b) : (s.engineStore a b).tile.handlers = s.tile.handlers := rfl
@[simp] theorem engineStore_tile_msgSeq (s : State) (a b) : (s.engineStore a b).tile.msgSeq = s.tile.msgSeq := rfl
@[simp] theorem engineStore_tile_relNo (s : State) (a b) : (s.engineStore a b).tile.relNo = s.tile.relNo := rfl
@[simp] theorem engineStore_tile_sendQ (s : State) (a b) : (s.engineStore a b).tile.sendQ = s.tile.sendQ := rfl
@[simp] theorem engineStore_tile_refusals (s : State) (a b) : (s.engineStore a b).tile.refusals = s.tile.refusals := rfl
@[simp] theorem engineStore_tile_shSends (s : State) (a b) : (s.engineStore a b).tile.shSends = s.tile.shSends := rfl
@[simp] theorem engineStore_tile_retention (s : State) (a b) : (s.engineStore a b).tile.retention = s.tile.retention := rfl
@[simp] theorem engineStore_tile_delivered (s : State) (a b) : (s.engineStore a b).tile.delivered = s.tile.delivered := rfl
@[simp] theorem engineStore_tile_amoSeq (s : State) (a b) : (s.engineStore a b).tile.amoSeq = s.tile.amoSeq := rfl
@[simp] theorem engineStore_tile_images (s : State) (a b) : (s.engineStore a b).tile.images = s.tile.images := rfl
@[simp] theorem engineStore_tile_lastIssued (s : State) (a b) : (s.engineStore a b).tile.lastIssued = s.tile.lastIssued := rfl
@[simp] theorem engineStore_tile_halted (s : State) (a b) : (s.engineStore a b).tile.halted = s.tile.halted := rfl
@[simp] theorem engineStore_tile_starts (s : State) (a b) : (s.engineStore a b).tile.starts = s.tile.starts := rfl
@[simp] theorem engineStore_tile_runs (s : State) (a b) : (s.engineStore a b).tile.runs = s.tile.runs := rfl
@[simp] theorem engineStore_tile_remapAsked (s : State) (a b) : (s.engineStore a b).tile.remapAsked = s.tile.remapAsked := rfl
@[simp] theorem engineStore_tile_remapping (s : State) (a b) : (s.engineStore a b).tile.remapping = s.tile.remapping := rfl
@[simp] theorem engineStore_tile_remapCtxs (s : State) (a b) : (s.engineStore a b).tile.remapCtxs = s.tile.remapCtxs := rfl
@[simp] theorem engineStore_spad (s : State) (a b) : (s.engineStore a b).tile.spad = s.tile.spad.writeBytes a b := rfl
@[simp] theorem engineStore_st (s : State) (a b) : (s.engineStore a b).st = s.st := by simp only [State.st, State.cur, engineStore_tile_lastIssued]; cases s.tile.lastIssued <;> rfl

/-! ### The end of a unit: only its own bookkeeping and the loop levels change (14 R309) -/

@[simp] theorem retire_regs (x : Strand) : x.retire.regs = x.regs := by
  unfold Strand.retire; dsimp only; repeat' split
  all_goals rfl
@[simp] theorem retire_lvl (x : Strand) : x.retire.lvl = x.lvl := by
  unfold Strand.retire; dsimp only; repeat' split
  all_goals rfl
@[simp] theorem retire_act (x : Strand) : x.retire.act = x.act := by
  unfold Strand.retire; dsimp only; repeat' split
  all_goals rfl
@[simp] theorem retire_ctx (x : Strand) : x.retire.ctx = x.ctx := by
  unfold Strand.retire; dsimp only; repeat' split
  all_goals rfl
@[simp] theorem retire_cause (x : Strand) : x.retire.cause = x.cause := by
  unfold Strand.retire; dsimp only; repeat' split
  all_goals rfl
@[simp] theorem retire_epc (x : Strand) : x.retire.epc = x.epc := by
  unfold Strand.retire; dsimp only; repeat' split
  all_goals rfl
@[simp] theorem retire_fval (x : Strand) : x.retire.fval = x.fval := by
  unfold Strand.retire; dsimp only; repeat' split
  all_goals rfl
@[simp] theorem retire_mstep (x : Strand) : x.retire.mstep = x.mstep := by
  unfold Strand.retire; dsimp only; repeat' split
  all_goals rfl
@[simp] theorem retire_mstepValid (x : Strand) : x.retire.mstepValid = x.mstepValid := by
  unfold Strand.retire; dsimp only; repeat' split
  all_goals rfl
@[simp] theorem retire_callerLvl (x : Strand) : x.retire.callerLvl = x.callerLvl := by
  unfold Strand.retire; dsimp only; repeat' split
  all_goals rfl
@[simp] theorem retire_cycles (x : Strand) : x.retire.cycles = x.cycles := by
  unfold Strand.retire; dsimp only; repeat' split
  all_goals rfl
@[simp] theorem retire_budgetDue (x : Strand) : x.retire.budgetDue = x.budgetDue := by
  unfold Strand.retire; dsimp only; repeat' split
  all_goals rfl
@[simp] theorem retire_asyncFaults (x : Strand) : x.retire.asyncFaults = x.asyncFaults := by
  unfold Strand.retire; dsimp only; repeat' split
  all_goals rfl
@[simp] theorem State.retire_st_regs (s : State) : s.retire.st.regs = s.st.regs := by simp [State.retire]
@[simp] theorem State.retire_st_lvl (s : State) : s.retire.st.lvl = s.st.lvl := by simp [State.retire]
@[simp] theorem State.retire_st_act (s : State) : s.retire.st.act = s.st.act := by simp [State.retire]
@[simp] theorem State.retire_st_ctx (s : State) : s.retire.st.ctx = s.st.ctx := by simp [State.retire]
@[simp] theorem State.retire_st_cause (s : State) : s.retire.st.cause = s.st.cause := by simp [State.retire]
@[simp] theorem State.retire_st_epc (s : State) : s.retire.st.epc = s.st.epc := by simp [State.retire]
@[simp] theorem State.retire_st_fval (s : State) : s.retire.st.fval = s.st.fval := by simp [State.retire]
@[simp] theorem State.retire_st_mstep (s : State) : s.retire.st.mstep = s.st.mstep := by simp [State.retire]
@[simp] theorem State.retire_st_mstepValid (s : State) : s.retire.st.mstepValid = s.st.mstepValid := by simp [State.retire]
@[simp] theorem State.retire_st_callerLvl (s : State) : s.retire.st.callerLvl = s.st.callerLvl := by simp [State.retire]
@[simp] theorem State.retire_st_cycles (s : State) : s.retire.st.cycles = s.st.cycles := by simp [State.retire]
@[simp] theorem State.retire_st_budgetDue (s : State) : s.retire.st.budgetDue = s.st.budgetDue := by simp [State.retire]
@[simp] theorem State.retire_st_asyncFaults (s : State) : s.retire.st.asyncFaults = s.st.asyncFaults := by simp [State.retire]
@[simp] theorem State.retire_cur (s : State) : s.retire.cur = s.cur := by simp [State.retire]
@[simp] theorem State.retire_tile_ltn (s : State) : s.retire.tile.ltn = s.tile.ltn := by simp [State.retire]
@[simp] theorem State.retire_tile_v (s : State) : s.retire.tile.v = s.tile.v := by simp [State.retire]
@[simp] theorem State.retire_tile_k (s : State) : s.retire.tile.k = s.tile.k := by simp [State.retire]
@[simp] theorem State.retire_tile_acc (s : State) : s.retire.tile.acc = s.tile.acc := by simp [State.retire]
@[simp] theorem State.retire_tile_spad (s : State) : s.retire.tile.spad = s.tile.spad := by simp [State.retire]
@[simp] theorem State.retire_tile_early (s : State) : s.retire.tile.early = s.tile.early := by simp [State.retire]
@[simp] theorem State.retire_tile_spadBad (s : State) : s.retire.tile.spadBad = s.tile.spadBad := by simp [State.retire]
@[simp] theorem State.retire_tile_accBad (s : State) : s.retire.tile.accBad = s.tile.accBad := by simp [State.retire]
@[simp] theorem State.retire_tile_bfmt (s : State) : s.retire.tile.bfmt = s.tile.bfmt := by simp [State.retire]
@[simp] theorem State.retire_tile_phKey (s : State) : s.retire.tile.phKey = s.tile.phKey := by simp [State.retire]
@[simp] theorem State.retire_tile_phCtrl (s : State) : s.retire.tile.phCtrl = s.tile.phCtrl := by simp [State.retire]
@[simp] theorem State.retire_tile_phCtrh (s : State) : s.retire.tile.phCtrh = s.tile.phCtrh := by simp [State.retire]
@[simp] theorem State.retire_tile_feat (s : State) : s.retire.tile.feat = s.tile.feat := by simp [State.retire]
@[simp] theorem State.retire_tile_paddock (s : State) : s.retire.tile.paddock = s.tile.paddock := by simp [State.retire]
@[simp] theorem State.retire_tile_tags (s : State) : s.retire.tile.tags = s.tile.tags := by simp [State.retire]
@[simp] theorem State.retire_tile_ctrs (s : State) : s.retire.tile.ctrs = s.tile.ctrs := by simp [State.retire]
@[simp] theorem State.retire_tile_wain (s : State) : s.retire.tile.wain = s.tile.wain := by simp [State.retire]
@[simp] theorem State.retire_tile_thresher (s : State) : s.retire.tile.thresher = s.tile.thresher := by simp [State.retire]
@[simp] theorem State.retire_tile_stop (s : State) : s.retire.tile.stop = s.tile.stop := by simp [State.retire]
@[simp] theorem State.retire_tile_orderNo (s : State) : s.retire.tile.orderNo = s.tile.orderNo := by simp [State.retire]
@[simp] theorem State.retire_tile_triggers (s : State) : s.retire.tile.triggers = s.tile.triggers := by simp [State.retire]
@[simp] theorem State.retire_tile_tlb (s : State) : s.retire.tile.tlb = s.tile.tlb := by simp [State.retire]
@[simp] theorem State.retire_tile_icache (s : State) : s.retire.tile.icache = s.tile.icache := by simp [State.retire]
@[simp] theorem State.retire_tile_codeBad (s : State) : s.retire.tile.codeBad = s.tile.codeBad := by simp [State.retire]
@[simp] theorem State.retire_tile_regions0 (s : State) : s.retire.tile.regions0 = s.tile.regions0 := by simp [State.retire]
@[simp] theorem State.retire_tile_regions1 (s : State) : s.retire.tile.regions1 = s.tile.regions1 := by simp [State.retire]
@[simp] theorem State.retire_tile_ctxs (s : State) : s.retire.tile.ctxs = s.tile.ctxs := by simp [State.retire]
@[simp] theorem State.retire_tile_eps (s : State) : s.retire.tile.eps = s.tile.eps := by simp [State.retire]
@[simp] theorem State.retire_tile_act (s : State) : s.retire.tile.act = s.tile.act := by simp [State.retire]
@[simp] theorem State.retire_tile_handlerRun (s : State) : s.retire.tile.handlerRun = s.tile.handlerRun := by simp [State.retire]
@[simp] theorem State.retire_tile_handlerLocal (s : State) : s.retire.tile.handlerLocal = s.tile.handlerLocal := by simp [State.retire]
@[simp] theorem State.retire_tile_mailbox (s : State) : s.retire.tile.mailbox = s.tile.mailbox := by simp [State.retire]
@[simp] theorem State.retire_tile_handlers (s : State) : s.retire.tile.handlers = s.tile.handlers := by simp [State.retire]
@[simp] theorem State.retire_tile_msgSeq (s : State) : s.retire.tile.msgSeq = s.tile.msgSeq := by simp [State.retire]
@[simp] theorem State.retire_tile_relNo (s : State) : s.retire.tile.relNo = s.tile.relNo := by simp [State.retire]
@[simp] theorem State.retire_tile_sendQ (s : State) : s.retire.tile.sendQ = s.tile.sendQ := by simp [State.retire]
@[simp] theorem State.retire_tile_refusals (s : State) : s.retire.tile.refusals = s.tile.refusals := by simp [State.retire]
@[simp] theorem State.retire_tile_shSends (s : State) : s.retire.tile.shSends = s.tile.shSends := by simp [State.retire]
@[simp] theorem State.retire_tile_retention (s : State) : s.retire.tile.retention = s.tile.retention := by simp [State.retire]
@[simp] theorem State.retire_tile_delivered (s : State) : s.retire.tile.delivered = s.tile.delivered := by simp [State.retire]
@[simp] theorem State.retire_tile_amoSeq (s : State) : s.retire.tile.amoSeq = s.tile.amoSeq := by simp [State.retire]
@[simp] theorem State.retire_tile_images (s : State) : s.retire.tile.images = s.tile.images := by simp [State.retire]
@[simp] theorem State.retire_tile_lastIssued (s : State) : s.retire.tile.lastIssued = s.tile.lastIssued := by simp [State.retire]
@[simp] theorem State.retire_tile_halted (s : State) : s.retire.tile.halted = s.tile.halted := by simp [State.retire]
@[simp] theorem State.retire_tile_starts (s : State) : s.retire.tile.starts = s.tile.starts := by simp [State.retire]
@[simp] theorem State.retire_tile_runs (s : State) : s.retire.tile.runs = s.tile.runs := by simp [State.retire]
@[simp] theorem State.retire_tile_remapAsked (s : State) : s.retire.tile.remapAsked = s.tile.remapAsked := by simp [State.retire]
@[simp] theorem State.retire_tile_remapping (s : State) : s.retire.tile.remapping = s.tile.remapping := by simp [State.retire]
@[simp] theorem State.retire_tile_remapCtxs (s : State) : s.retire.tile.remapCtxs = s.tile.remapCtxs := by simp [State.retire]
@[simp] theorem State.retire_others (s : State) : s.retire.others = s.others := rfl
@[simp] theorem State.retire_pkg (s : State) : s.retire.pkg = s.pkg := rfl
@[simp] theorem State.retire_mem (s : State) : s.retire.mem = s.mem := rfl
@[simp] theorem State.retire_parity (s : State) : s.retire.parity = s.parity := rfl
@[simp] theorem State.retire_reqs (s : State) : s.retire.reqs = s.reqs := rfl
@[simp] theorem State.retire_atomics (s : State) : s.retire.atomics = s.atomics := rfl
@[simp] theorem State.retire_barriers (s : State) : s.retire.barriers = s.barriers := rfl
@[simp] theorem State.retire_queues (s : State) : s.retire.queues = s.queues := rfl
@[simp] theorem State.retire_tb (s : State) : s.retire.tb = s.tb := rfl
@[simp] theorem State.retire_paddocks (s : State) : s.retire.paddocks = s.paddocks := rfl
@[simp] theorem State.retire_input (s : State) : s.retire.input = s.input := rfl
@[simp] theorem State.retire_agenda (s : State) : s.retire.agenda = s.agenda := rfl
@[simp] theorem State.retire_free (s : State) : s.retire.free = s.free := rfl

end Sys2Proof.Machine
end

