-- ==== Sys2Proof/Laws/Local.lean ====
section
/-! SUPPORT. Sys2Proof/Laws/Local.lean: what LocalCheck, a local read and an effective address come to (06 R131, R140). -/
namespace Sys2Proof.Machine

/-- LocalCheck passes. -/
theorem localCheck_ok {s a n wr} (h : LocalOk s a n wr) : s.localCheck a n wr = .ok () := by
  obtain ⟨h1, h2, h3⟩ := h
  have h4 : s.tile.regionOk s.st.lvl a.toNat n wr = true := by
    unfold Tile.regionOk
    rcases h3 with h3 | ⟨d, hd, h3⟩
    · simp [h3]
    · simp only [Bool.or_eq_true, List.any_eq_true]; exact Or.inr ⟨d, hd, h3⟩
  have h5 : ¬ Config.spadSize < a.toNat + n := by simp [Config.spadSize]; omega
  simp [State.localCheck, Tile.localCheck, h1, h5, h4]

/-- LocalCheck raises its cause. -/
theorem localCheck_bad {s a n wr} (h : ¬ LocalOk s a n wr) : s.localCheck a n wr = s.trapAt (localCause a n) a := by
  unfold State.localCheck Tile.localCheck localCause
  by_cases h1 : a.toNat % n ≠ 0
  · simp [h1]
  · have h1' := not_not.1 h1
    by_cases h2 : Config.spadSize < a.toNat + n
    · simp [h1', h2]
    · have h4 : s.tile.regionOk s.st.lvl a.toNat n wr = false := by
        rw [Bool.eq_false_iff]; intro hr; apply h
        refine ⟨h1', by simp [Config.spadSize] at h2; omega, ?_⟩
        simp only [Tile.regionOk, Bool.or_eq_true, List.any_eq_true] at hr
        rcases hr with hr | ⟨d, hd, hr⟩
        · left; simpa using hr
        · right; exact ⟨d, hd, hr⟩
      simp [h1', h2, h4]

/-- Nothing that is read has an uncorrectable error. -/
theorem wordsBad_no {s a n} (h : Readable s a n) : wordsBad s.tile.spadBad a n = false := by
  rw [wordsBad, Bool.and_eq_false_iff]
  right
  simp only [wordsBad.overlaps8, List.any_eq_false, Bool.and_eq_true, decide_eq_true_eq]
  intro w hw; have := h w hw; omega

/-- The effective address of the MEM forms (06 R140). -/
theorem memAddr_eq {s : State} {base : SReg} {k} {off : BitVec k} {m} (hm : SignedImm s off m) (n) : s.memAddr base off n = s.reg base + m * BitVec.ofNat 64 n := by
  have : s.imm off = m := by rcases hm with ⟨h1, h2⟩ | ⟨e, h1, h2⟩ <;> simp [State.imm, h1, h2]
  rw [State.memAddr, this]

end Sys2Proof.Machine
end

