-- ==== Sys2Proof/Laws/PerInstr.lean ====
section
/-! SUPPORT. Sys2Proof/Laws/PerInstr.lean: per constructor of Instr, that decoding its word gives it back. -/
namespace Sys2Proof.Laws
set_option linter.unusedSimpArgs false
set_option Elab.async false

/-! ### Each major goes to its decoder (02 R35) -/

@[simp] theorem major_01 (d a b l) : decodeWord (wReg 1#6 d a b l) = decScalar d a b l := by
  rw [decodeWord, fMaj_wReg]
  change (decScalar (fD (wReg 1#6 d a b l)) (fA (wReg 1#6 d a b l)) (fB (wReg 1#6 d a b l)) (fLo (wReg 1#6 d a b l)) : Except Reject Instr) = _
  simp

@[simp] theorem major_02 (d a i) : decodeWord (wImm 2#6 d a i) = .ok (.addi d a i) := by
  rw [decodeWord, fMaj_wImm]
  change (.ok (.addi (fD (wImm 2#6 d a i)) (fA (wImm 2#6 d a i)) (fImm16 (wImm 2#6 d a i))) : Except Reject Instr) = _
  simp

@[simp] theorem major_03 (d a i) : decodeWord (wImm 3#6 d a i) = .ok (.andi d a i) := by
  rw [decodeWord, fMaj_wImm]
  change (.ok (.andi (fD (wImm 3#6 d a i)) (fA (wImm 3#6 d a i)) (fImm16 (wImm 3#6 d a i))) : Except Reject Instr) = _
  simp

@[simp] theorem major_04 (d a i) : decodeWord (wImm 4#6 d a i) = .ok (.ori d a i) := by
  rw [decodeWord, fMaj_wImm]
  change (.ok (.ori (fD (wImm 4#6 d a i)) (fA (wImm 4#6 d a i)) (fImm16 (wImm 4#6 d a i))) : Except Reject Instr) = _
  simp

@[simp] theorem major_05 (d a i) : decodeWord (wImm 5#6 d a i) = .ok (.xori d a i) := by
  rw [decodeWord, fMaj_wImm]
  change (.ok (.xori (fD (wImm 5#6 d a i)) (fA (wImm 5#6 d a i)) (fImm16 (wImm 5#6 d a i))) : Except Reject Instr) = _
  simp

@[simp] theorem major_06 (d a i) : decodeWord (wImm 6#6 d a i) = .ok (.slti d a i) := by
  rw [decodeWord, fMaj_wImm]
  change (.ok (.slti (fD (wImm 6#6 d a i)) (fA (wImm 6#6 d a i)) (fImm16 (wImm 6#6 d a i))) : Except Reject Instr) = _
  simp

@[simp] theorem major_07 (d a i) : decodeWord (wImm 7#6 d a i) = .ok (.sltni d a i) := by
  rw [decodeWord, fMaj_wImm]
  change (.ok (.sltni (fD (wImm 7#6 d a i)) (fA (wImm 7#6 d a i)) (fImm16 (wImm 7#6 d a i))) : Except Reject Instr) = _
  simp

@[simp] theorem major_08 (d a i) : decodeWord (wImm 8#6 d a i) = need (i.toNat < 64) .operand (.ok (.shli d a i)) := by
  rw [decodeWord, fMaj_wImm]
  change (need ((fImm16 (wImm 8#6 d a i)).toNat < 64) .operand (.ok (.shli (fD (wImm 8#6 d a i)) (fA (wImm 8#6 d a i)) (fImm16 (wImm 8#6 d a i)))) : Except Reject Instr) = _
  simp

@[simp] theorem major_09 (d a i) : decodeWord (wImm 9#6 d a i) = need (i.toNat < 64) .operand (.ok (.shriN d a i)) := by
  rw [decodeWord, fMaj_wImm]
  change (need ((fImm16 (wImm 9#6 d a i)).toNat < 64) .operand (.ok (.shriN (fD (wImm 9#6 d a i)) (fA (wImm 9#6 d a i)) (fImm16 (wImm 9#6 d a i)))) : Except Reject Instr) = _
  simp

@[simp] theorem major_0A (d a i) : decodeWord (wImm 10#6 d a i) = need (i.toNat < 64) .operand (.ok (.shriI d a i)) := by
  rw [decodeWord, fMaj_wImm]
  change (need ((fImm16 (wImm 10#6 d a i)).toNat < 64) .operand (.ok (.shriI (fD (wImm 10#6 d a i)) (fA (wImm 10#6 d a i)) (fImm16 (wImm 10#6 d a i)))) : Except Reject Instr) = _
  simp

@[simp] theorem major_0B (d a i) : decodeWord (wImm 11#6 d a i) = .ok (.addhi d a i) := by
  rw [decodeWord, fMaj_wImm]
  change (.ok (.addhi (fD (wImm 11#6 d a i)) (fA (wImm 11#6 d a i)) (fImm16 (wImm 11#6 d a i))) : Except Reject Instr) = _
  simp

@[simp] theorem major_0C (d a i f) : decodeWord (wMem 12#6 d a i f) = decLdSt false d a i f := by
  rw [decodeWord, fMaj_wMem]
  change (decLdSt false (fD (wMem 12#6 d a i f)) (fA (wMem 12#6 d a i f)) (fMemImm (wMem 12#6 d a i f)) (fSf (wMem 12#6 d a i f)) : Except Reject Instr) = _
  simp

@[simp] theorem major_0D (d a i f) : decodeWord (wMem 13#6 d a i f) = decLdSt true d a i f := by
  rw [decodeWord, fMaj_wMem]
  change (decLdSt true (fD (wMem 13#6 d a i f)) (fA (wMem 13#6 d a i f)) (fMemImm (wMem 13#6 d a i f)) (fSf (wMem 13#6 d a i f)) : Except Reject Instr) = _
  simp

@[simp] theorem major_0E (d a i f) : decodeWord (wMem 14#6 d a i f) = decVld d a i f := by
  rw [decodeWord, fMaj_wMem]
  change (decVld (fD (wMem 14#6 d a i f)) (fA (wMem 14#6 d a i f)) (fMemImm (wMem 14#6 d a i f)) (fSf (wMem 14#6 d a i f)) : Except Reject Instr) = _
  simp

@[simp] theorem major_0F (d a i f) : decodeWord (wMem 15#6 d a i f) = decVst d a i f := by
  rw [decodeWord, fMaj_wMem]
  change (decVst (fD (wMem 15#6 d a i f)) (fA (wMem 15#6 d a i f)) (fMemImm (wMem 15#6 d a i f)) (fSf (wMem 15#6 d a i f)) : Except Reject Instr) = _
  simp

@[simp] theorem major_10 (d a b l) : decodeWord (wReg 16#6 d a b l) = decMrq d a b l := by
  rw [decodeWord, fMaj_wReg]
  change (decMrq (fD (wReg 16#6 d a b l)) (fA (wReg 16#6 d a b l)) (fB (wReg 16#6 d a b l)) (fLo (wReg 16#6 d a b l)) : Except Reject Instr) = _
  simp

@[simp] theorem major_11 (d a b l) : decodeWord (wReg 17#6 d a b l) = decBranch d a b l := by
  rw [decodeWord, fMaj_wReg]
  change (decBranch (fD (wReg 17#6 d a b l)) (fA (wReg 17#6 d a b l)) (fB (wReg 17#6 d a b l)) (fLo (wReg 17#6 d a b l)) : Except Reject Instr) = _
  simp

@[simp] theorem major_13 (d a i) : decodeWord (wImm 19#6 d a i) = need (d == 0) .reserved (.ok (.jmpr a i)) := by
  rw [decodeWord, fMaj_wImm]
  change (need (fD (wImm 19#6 d a i) == 0) .reserved (.ok (.jmpr (fA (wImm 19#6 d a i)) (fImm16 (wImm 19#6 d a i)))) : Except Reject Instr) = _
  simp

@[simp] theorem major_15 (d a b l) : decodeWord (wReg 21#6 d a b l) = decSel d a b l := by
  rw [decodeWord, fMaj_wReg]
  change (decSel (fD (wReg 21#6 d a b l)) (fA (wReg 21#6 d a b l)) (fB (wReg 21#6 d a b l)) (fLo (wReg 21#6 d a b l)) : Except Reject Instr) = _
  simp

@[simp] theorem major_18 (d a b l) : decodeWord (wReg 24#6 d a b l) = decVf d a b l := by
  rw [decodeWord, fMaj_wReg]
  change (decVf (fD (wReg 24#6 d a b l)) (fA (wReg 24#6 d a b l)) (fB (wReg 24#6 d a b l)) (fLo (wReg 24#6 d a b l)) : Except Reject Instr) = _
  simp

@[simp] theorem major_19 (d a b l) : decodeWord (wReg 25#6 d a b l) = decVi d a b l := by
  rw [decodeWord, fMaj_wReg]
  change (decVi (fD (wReg 25#6 d a b l)) (fA (wReg 25#6 d a b l)) (fB (wReg 25#6 d a b l)) (fLo (wReg 25#6 d a b l)) : Except Reject Instr) = _
  simp

@[simp] theorem major_1A (d a b l) : decodeWord (wReg 26#6 d a b l) = decVc d a b l := by
  rw [decodeWord, fMaj_wReg]
  change (decVc (fD (wReg 26#6 d a b l)) (fA (wReg 26#6 d a b l)) (fB (wReg 26#6 d a b l)) (fLo (wReg 26#6 d a b l)) : Except Reject Instr) = _
  simp

@[simp] theorem major_1B (d a b l) : decodeWord (wReg 27#6 d a b l) = decVcvt d a b l := by
  rw [decodeWord, fMaj_wReg]
  change (decVcvt (fD (wReg 27#6 d a b l)) (fA (wReg 27#6 d a b l)) (fB (wReg 27#6 d a b l)) (fLo (wReg 27#6 d a b l)) : Except Reject Instr) = _
  simp

@[simp] theorem major_1C (d a b l) : decodeWord (wReg 28#6 d a b l) = decVe d a b l := by
  rw [decodeWord, fMaj_wReg]
  change (decVe (fD (wReg 28#6 d a b l)) (fA (wReg 28#6 d a b l)) (fB (wReg 28#6 d a b l)) (fLo (wReg 28#6 d a b l)) : Except Reject Instr) = _
  simp

@[simp] theorem major_1D (d a b l) : decodeWord (wReg 29#6 d a b l) = decVs d a b l := by
  rw [decodeWord, fMaj_wReg]
  change (decVs (fD (wReg 29#6 d a b l)) (fA (wReg 29#6 d a b l)) (fB (wReg 29#6 d a b l)) (fLo (wReg 29#6 d a b l)) : Except Reject Instr) = _
  simp

@[simp] theorem major_1E (d a b l) : decodeWord (wReg 30#6 d a b l) = decVp d a b l := by
  rw [decodeWord, fMaj_wReg]
  change (decVp (fD (wReg 30#6 d a b l)) (fA (wReg 30#6 d a b l)) (fB (wReg 30#6 d a b l)) (fLo (wReg 30#6 d a b l)) : Except Reject Instr) = _
  simp

@[simp] theorem major_1F (d a b l) : decodeWord (wReg 31#6 d a b l) = decMask d a b l := by
  rw [decodeWord, fMaj_wReg]
  change (decMask (fD (wReg 31#6 d a b l)) (fA (wReg 31#6 d a b l)) (fB (wReg 31#6 d a b l)) (fLo (wReg 31#6 d a b l)) : Except Reject Instr) = _
  simp

@[simp] theorem major_20 (d a b l) : decodeWord (wReg 32#6 d a b l) = decMma d a b l := by
  rw [decodeWord, fMaj_wReg]
  change (decMma (fD (wReg 32#6 d a b l)) (fA (wReg 32#6 d a b l)) (fB (wReg 32#6 d a b l)) (fLo (wReg 32#6 d a b l)) : Except Reject Instr) = _
  simp

@[simp] theorem major_21 (d a b l) : decodeWord (wReg 33#6 d a b l) = decAcc d a b l := by
  rw [decodeWord, fMaj_wReg]
  change (decAcc (fD (wReg 33#6 d a b l)) (fA (wReg 33#6 d a b l)) (fB (wReg 33#6 d a b l)) (fLo (wReg 33#6 d a b l)) : Except Reject Instr) = _
  simp

@[simp] theorem major_22 (d a b l) : decodeWord (wReg 34#6 d a b l) = decSq d a b l := by
  rw [decodeWord, fMaj_wReg]
  change (decSq (fD (wReg 34#6 d a b l)) (fA (wReg 34#6 d a b l)) (fB (wReg 34#6 d a b l)) (fLo (wReg 34#6 d a b l)) : Except Reject Instr) = _
  simp

@[simp] theorem major_23 (d a b l) : decodeWord (wReg 35#6 d a b l) = decBfmt d a b l := by
  rw [decodeWord, fMaj_wReg]
  change (decBfmt (fD (wReg 35#6 d a b l)) (fA (wReg 35#6 d a b l)) (fB (wReg 35#6 d a b l)) (fLo (wReg 35#6 d a b l)) : Except Reject Instr) = _
  simp

@[simp] theorem major_28 (d a b l) : decodeWord (wReg 40#6 d a b l) = decCopy 0x28 d a b l := by
  rw [decodeWord, fMaj_wReg]
  change (decCopy 0x28 (fD (wReg 40#6 d a b l)) (fA (wReg 40#6 d a b l)) (fB (wReg 40#6 d a b l)) (fLo (wReg 40#6 d a b l)) : Except Reject Instr) = _
  simp

@[simp] theorem major_29 (d a b l) : decodeWord (wReg 41#6 d a b l) = decCopy 0x29 d a b l := by
  rw [decodeWord, fMaj_wReg]
  change (decCopy 0x29 (fD (wReg 41#6 d a b l)) (fA (wReg 41#6 d a b l)) (fB (wReg 41#6 d a b l)) (fLo (wReg 41#6 d a b l)) : Except Reject Instr) = _
  simp

@[simp] theorem major_2A (d a b l) : decodeWord (wReg 42#6 d a b l) = decCopy 0x2A d a b l := by
  rw [decodeWord, fMaj_wReg]
  change (decCopy 0x2A (fD (wReg 42#6 d a b l)) (fA (wReg 42#6 d a b l)) (fB (wReg 42#6 d a b l)) (fLo (wReg 42#6 d a b l)) : Except Reject Instr) = _
  simp

@[simp] theorem major_2B (d a b l) : decodeWord (wReg 43#6 d a b l) = decCtr d a b l := by
  rw [decodeWord, fMaj_wReg]
  change (decCtr (fD (wReg 43#6 d a b l)) (fA (wReg 43#6 d a b l)) (fB (wReg 43#6 d a b l)) (fLo (wReg 43#6 d a b l)) : Except Reject Instr) = _
  simp

@[simp] theorem major_2C (d a b l) : decodeWord (wReg 44#6 d a b l) = decAmo d a b l := by
  rw [decodeWord, fMaj_wReg]
  change (decAmo (fD (wReg 44#6 d a b l)) (fA (wReg 44#6 d a b l)) (fB (wReg 44#6 d a b l)) (fLo (wReg 44#6 d a b l)) : Except Reject Instr) = _
  simp

@[simp] theorem major_2D (d a b l) : decodeWord (wReg 45#6 d a b l) = decLamo d a b l := by
  rw [decodeWord, fMaj_wReg]
  change (decLamo (fD (wReg 45#6 d a b l)) (fA (wReg 45#6 d a b l)) (fB (wReg 45#6 d a b l)) (fLo (wReg 45#6 d a b l)) : Except Reject Instr) = _
  simp

@[simp] theorem major_2E (d a b l) : decodeWord (wReg 46#6 d a b l) = decFut d a b l := by
  rw [decodeWord, fMaj_wReg]
  change (decFut (fD (wReg 46#6 d a b l)) (fA (wReg 46#6 d a b l)) (fB (wReg 46#6 d a b l)) (fLo (wReg 46#6 d a b l)) : Except Reject Instr) = _
  simp

@[simp] theorem major_2F (d a b l) : decodeWord (wReg 47#6 d a b l) = decBar d a b l := by
  rw [decodeWord, fMaj_wReg]
  change (decBar (fD (wReg 47#6 d a b l)) (fA (wReg 47#6 d a b l)) (fB (wReg 47#6 d a b l)) (fLo (wReg 47#6 d a b l)) : Except Reject Instr) = _
  simp

@[simp] theorem major_30 (d a b l) : decodeWord (wReg 48#6 d a b l) = decFence d a b l := by
  rw [decodeWord, fMaj_wReg]
  change (decFence (fD (wReg 48#6 d a b l)) (fA (wReg 48#6 d a b l)) (fB (wReg 48#6 d a b l)) (fLo (wReg 48#6 d a b l)) : Except Reject Instr) = _
  simp

@[simp] theorem major_31 (d a b l) : decodeWord (wReg 49#6 d a b l) = decPush d a b l := by
  rw [decodeWord, fMaj_wReg]
  change (decPush (fD (wReg 49#6 d a b l)) (fA (wReg 49#6 d a b l)) (fB (wReg 49#6 d a b l)) (fLo (wReg 49#6 d a b l)) : Except Reject Instr) = _
  simp

@[simp] theorem major_32 (d a b l) : decodeWord (wReg 50#6 d a b l) = decPop d a b l := by
  rw [decodeWord, fMaj_wReg]
  change (decPop (fD (wReg 50#6 d a b l)) (fA (wReg 50#6 d a b l)) (fB (wReg 50#6 d a b l)) (fLo (wReg 50#6 d a b l)) : Except Reject Instr) = _
  simp

@[simp] theorem major_33 (d a b l) : decodeWord (wReg 51#6 d a b l) = decEnd d a b l := by
  rw [decodeWord, fMaj_wReg]
  change (decEnd (fD (wReg 51#6 d a b l)) (fA (wReg 51#6 d a b l)) (fB (wReg 51#6 d a b l)) (fLo (wReg 51#6 d a b l)) : Except Reject Instr) = _
  simp

@[simp] theorem major_34 (d a b l) : decodeWord (wReg 52#6 d a b l) = decAm d a b l := by
  rw [decodeWord, fMaj_wReg]
  change (decAm (fD (wReg 52#6 d a b l)) (fA (wReg 52#6 d a b l)) (fB (wReg 52#6 d a b l)) (fLo (wReg 52#6 d a b l)) : Except Reject Instr) = _
  simp

@[simp] theorem major_35 (d a b l) : decodeWord (wReg 53#6 d a b l) = decSh d a b l := by
  rw [decodeWord, fMaj_wReg]
  change (decSh (fD (wReg 53#6 d a b l)) (fA (wReg 53#6 d a b l)) (fB (wReg 53#6 d a b l)) (fLo (wReg 53#6 d a b l)) : Except Reject Instr) = _
  simp

@[simp] theorem major_39 (d a i) : decodeWord (wImm 57#6 d a i) = decSr d a i := by
  rw [decodeWord, fMaj_wImm]
  change (decSr (fD (wImm 57#6 d a i)) (fA (wImm 57#6 d a i)) (fImm16 (wImm 57#6 d a i)) : Except Reject Instr) = _
  simp

@[simp] theorem major_3A (d a b l) : decodeWord (wReg 58#6 d a b l) = decInv d a b l := by
  rw [decodeWord, fMaj_wReg]
  change (decInv (fD (wReg 58#6 d a b l)) (fA (wReg 58#6 d a b l)) (fB (wReg 58#6 d a b l)) (fLo (wReg 58#6 d a b l)) : Except Reject Instr) = _
  simp

@[simp] theorem major_3B (d a b l) : decodeWord (wReg 59#6 d a b l) = decTime d a b l := by
  rw [decodeWord, fMaj_wReg]
  change (decTime (fD (wReg 59#6 d a b l)) (fA (wReg 59#6 d a b l)) (fB (wReg 59#6 d a b l)) (fLo (wReg 59#6 d a b l)) : Except Reject Instr) = _
  simp

@[simp] theorem major_3E (d a i) : decodeWord (wImm 62#6 d a i) = decHint d a i := by
  rw [decodeWord, fMaj_wImm]
  change (decHint (fD (wImm 62#6 d a i)) (fA (wImm 62#6 d a i)) (fImm16 (wImm 62#6 d a i)) : Except Reject Instr) = _
  simp

/-- Decoding the word of a well-formed instruction gives the instruction back (02 R31). -/
def RoundTrip.Statement (i : Instr) : Prop := ∀ w, wellFormed i = true → encode i = some w → decodeWord w = .ok i

end Sys2Proof.Laws

namespace Sys2Proof.Laws.RoundTrip
set_option linter.unusedSimpArgs false
set_option Elab.async false

theorem add (d a b) : Statement (.add d a b) := by
  intro w _ h
  cases h
  simp [need, decScalar]

theorem sub (d a b) : Statement (.sub d a b) := by
  intro w _ h
  cases h
  simp [need, decScalar]

theorem mul (d a b) : Statement (.mul d a b) := by
  intro w _ h
  cases h
  simp [need, decScalar]

theorem mulhI (d a b) : Statement (.mulhI d a b) := by
  intro w _ h
  cases h
  simp [need, decScalar]

theorem mulhN (d a b) : Statement (.mulhN d a b) := by
  intro w _ h
  cases h
  simp [need, decScalar]

theorem divI (d a b) : Statement (.divI d a b) := by
  intro w _ h
  cases h
  simp [need, decScalar]

theorem divN (d a b) : Statement (.divN d a b) := by
  intro w _ h
  cases h
  simp [need, decScalar]

theorem remI (d a b) : Statement (.remI d a b) := by
  intro w _ h
  cases h
  simp [need, decScalar]

theorem remN (d a b) : Statement (.remN d a b) := by
  intro w _ h
  cases h
  simp [need, decScalar]

theorem and (d a b) : Statement (.and d a b) := by
  intro w _ h
  cases h
  simp [need, decScalar]

theorem or (d a b) : Statement (.or d a b) := by
  intro w _ h
  cases h
  simp [need, decScalar]

theorem xor (d a b) : Statement (.xor d a b) := by
  intro w _ h
  cases h
  simp [need, decScalar]

theorem andn (d a b) : Statement (.andn d a b) := by
  intro w _ h
  cases h
  simp [need, decScalar]

theorem shl (d a b) : Statement (.shl d a b) := by
  intro w _ h
  cases h
  simp [need, decScalar]

theorem shrN (d a b) : Statement (.shrN d a b) := by
  intro w _ h
  cases h
  simp [need, decScalar]

theorem shrI (d a b) : Statement (.shrI d a b) := by
  intro w _ h
  cases h
  simp [need, decScalar]

theorem rotr (d a b) : Statement (.rotr d a b) := by
  intro w _ h
  cases h
  simp [need, decScalar]

theorem sltI (d a b) : Statement (.sltI d a b) := by
  intro w _ h
  cases h
  simp [need, decScalar]

theorem sltN (d a b) : Statement (.sltN d a b) := by
  intro w _ h
  cases h
  simp [need, decScalar]

theorem seq (d a b) : Statement (.seq d a b) := by
  intro w _ h
  cases h
  simp [need, decScalar]

theorem minI (d a b) : Statement (.minI d a b) := by
  intro w _ h
  cases h
  simp [need, decScalar]

theorem maxI (d a b) : Statement (.maxI d a b) := by
  intro w _ h
  cases h
  simp [need, decScalar]

theorem minN (d a b) : Statement (.minN d a b) := by
  intro w _ h
  cases h
  simp [need, decScalar]

theorem maxN (d a b) : Statement (.maxN d a b) := by
  intro w _ h
  cases h
  simp [need, decScalar]

theorem addsI (d a b) : Statement (.addsI d a b) := by
  intro w _ h
  cases h
  simp [need, decScalar]

theorem subsI (d a b) : Statement (.subsI d a b) := by
  intro w _ h
  cases h
  simp [need, decScalar]

theorem clz (d a) : Statement (.clz d a) := by
  intro w _ h
  cases h
  simp [need, decScalar]

theorem ctz (d a) : Statement (.ctz d a) := by
  intro w _ h
  cases h
  simp [need, decScalar]

theorem pop (d a) : Statement (.pop d a) := by
  intro w _ h
  cases h
  simp [need, decScalar]

theorem sextI8 (d a) : Statement (.sextI8 d a) := by
  intro w _ h
  cases h
  simp [need, decScalar]

theorem sextI16 (d a) : Statement (.sextI16 d a) := by
  intro w _ h
  cases h
  simp [need, decScalar]

theorem sextI32 (d a) : Statement (.sextI32 d a) := by
  intro w _ h
  cases h
  simp [need, decScalar]

theorem zextN8 (d a) : Statement (.zextN8 d a) := by
  intro w _ h
  cases h
  simp [need, decScalar]

theorem zextN16 (d a) : Statement (.zextN16 d a) := by
  intro w _ h
  cases h
  simp [need, decScalar]

theorem zextN32 (d a) : Statement (.zextN32 d a) := by
  intro w _ h
  cases h
  simp [need, decScalar]

theorem bswap (d a) : Statement (.bswap d a) := by
  intro w _ h
  cases h
  simp [need, decScalar]

theorem addsc1 (d a b) : Statement (.addsc1 d a b) := by
  intro w _ h
  cases h
  simp [need, decScalar]

theorem addsc2 (d a b) : Statement (.addsc2 d a b) := by
  intro w _ h
  cases h
  simp [need, decScalar]

theorem addsc3 (d a b) : Statement (.addsc3 d a b) := by
  intro w _ h
  cases h
  simp [need, decScalar]

theorem addi (d a i) : Statement (.addi d a i) := by
  intro w _ h
  cases h
  simp [need]

theorem andi (d a i) : Statement (.andi d a i) := by
  intro w _ h
  cases h
  simp [need]

theorem ori (d a i) : Statement (.ori d a i) := by
  intro w _ h
  cases h
  simp [need]

theorem xori (d a i) : Statement (.xori d a i) := by
  intro w _ h
  cases h
  simp [need]

theorem slti (d a i) : Statement (.slti d a i) := by
  intro w _ h
  cases h
  simp [need]

theorem sltni (d a i) : Statement (.sltni d a i) := by
  intro w _ h
  cases h
  simp [need]

theorem shli (d a i) : Statement (.shli d a i) := by
  intro w hw h
  replace hw : (decide (i.toNat < 64)) = true := hw
  cases h
  simp_all [need]

theorem shriN (d a i) : Statement (.shriN d a i) := by
  intro w hw h
  replace hw : (decide (i.toNat < 64)) = true := hw
  cases h
  simp_all [need]

theorem shriI (d a i) : Statement (.shriI d a i) := by
  intro w hw h
  replace hw : (decide (i.toNat < 64)) = true := hw
  cases h
  simp_all [need]

theorem addhi (d a i) : Statement (.addhi d a i) := by
  intro w _ h
  cases h
  simp [need]

theorem ldN (sz d base off) : Statement (.ldN sz d base off) := by
  intro w _ h
  cases h
  simp [need, decLdSt]

theorem ldI (sz d base off) : Statement (.ldI sz d base off) := by
  intro w hw h
  replace hw : (decide (sz ≠ 3)) = true := hw
  cases h
  simp_all [need, decLdSt]

theorem st (sz d base off) : Statement (.st sz d base off) := by
  intro w _ h
  cases h
  simp [need, decLdSt]

theorem stK (sz d base off) : Statement (.stK sz d base off) := by
  intro w _ h
  cases h
  simp [need, decLdSt]

theorem vld (d base off) : Statement (.vld d base off) := by
  intro w _ h
  cases h
  simp [need, decVld]

theorem vldM (d base off m) : Statement (.vldM d base off m) := by
  intro w _ h
  cases h
  simp [need, decVld]

theorem vldG32 (d base idx m sc) : Statement (.vldG32 d base idx m sc) := by
  intro w _ h
  cases h
  simp [need, decVld]

theorem vldG64 (d base idx m sc) : Statement (.vldG64 d base idx m sc) := by
  intro w _ h
  cases h
  simp [need, decVld]

theorem vldCvtF32 (d base off) : Statement (.vldCvtF32 d base off) := by
  intro w _ h
  cases h
  simp [need, decVld]

theorem vldCvtF64 (d base off) : Statement (.vldCvtF64 d base off) := by
  intro w _ h
  cases h
  simp [need, decVld]

theorem vst (d base off) : Statement (.vst d base off) := by
  intro w _ h
  cases h
  simp [need, decVst]

theorem vstM (d base off m) : Statement (.vstM d base off m) := by
  intro w _ h
  cases h
  simp [need, decVst]

theorem vstS32 (d base idx m sc) : Statement (.vstS32 d base idx m sc) := by
  intro w _ h
  cases h
  simp [need, decVst]

theorem vstS64 (d base idx m sc) : Statement (.vstS64 d base idx m sc) := by
  intro w _ h
  cases h
  simp [need, decVst]

theorem mrqRd (sz t a d off) : Statement (.mrqRd sz t a d off) := by
  intro w hw h
  replace hw : (decide (sz ≠ 0) || decide (d = 0)) = true := hw
  cases h
  simp_all [need, decMrq]

theorem mrqWr (sz t a d off) : Statement (.mrqWr sz t a d off) := by
  intro w _ h
  cases h
  simp [need, decMrq]

theorem mrqWrm (t a d mask) : Statement (.mrqWrm t a d mask) := by
  intro w hw h
  replace hw : (decide (mask ≠ 0)) = true := hw
  cases h
  simp_all [need, decMrq]

theorem mrqWait (d t) : Statement (.mrqWait d t) := by
  intro w _ h
  cases h
  simp [need, decMrq]

theorem mrqPoll (d t) : Statement (.mrqPoll d t) := by
  intro w _ h
  cases h
  simp [need, decMrq]

theorem beq (a b off) : Statement (.beq a b off) := by
  intro w _ h
  cases h
  simp [need, decBranch]

theorem bne (a b off) : Statement (.bne a b off) := by
  intro w _ h
  cases h
  simp [need, decBranch]

theorem blt (a b off) : Statement (.blt a b off) := by
  intro w _ h
  cases h
  simp [need, decBranch]

theorem bge (a b off) : Statement (.bge a b off) := by
  intro w _ h
  cases h
  simp [need, decBranch]

theorem bltn (a b off) : Statement (.bltn a b off) := by
  intro w _ h
  cases h
  simp [need, decBranch]

theorem bgen (a b off) : Statement (.bgen a b off) := by
  intro w _ h
  cases h
  simp [need, decBranch]

theorem jmp (off) : Statement (.jmp off) := by
  intro w _ h
  cases h
  simp [need, decodeWord]

theorem jmpr (a i) : Statement (.jmpr a i) := by
  intro w _ h
  cases h
  simp [need]

theorem loop (lvl a len) : Statement (.loop lvl a len) := by
  intro w hw h
  replace hw : (decide (len ≠ 0)) = true := hw
  cases h
  simp_all [need, decodeWord, decLoop]

theorem loopi (lvl cnt len) : Statement (.loopi lvl cnt len) := by
  intro w hw h
  replace hw : (decide (len ≠ 0)) = true := hw
  cases h
  simp_all [need, decodeWord, decLoop]

theorem sel (c d a b) : Statement (.sel c d a b) := by
  intro w hw h
  replace hw : (condOk c) = true := hw
  cases h
  simp_all [need, decSel]

theorem cmov (c d a b) : Statement (.cmov c d a b) := by
  intro w hw h
  replace hw : (condOk c) = true := hw
  cases h
  simp_all [need, decSel]

theorem vaddFp (ty d a b k) : Statement (.vaddFp ty d a b k) := by
  intro w _ h
  cases h
  simp [need, decVf]

theorem vsubFp (ty d a b k) : Statement (.vsubFp ty d a b k) := by
  intro w _ h
  cases h
  simp [need, decVf]

theorem vmulFp (ty d a b k) : Statement (.vmulFp ty d a b k) := by
  intro w _ h
  cases h
  simp [need, decVf]

theorem vfma (ty d a b k) : Statement (.vfma ty d a b k) := by
  intro w _ h
  cases h
  simp [need, decVf]

theorem vfms (ty d a b k) : Statement (.vfms ty d a b k) := by
  intro w _ h
  cases h
  simp [need, decVf]

theorem vdiv (ty d a b k) : Statement (.vdiv ty d a b k) := by
  intro w _ h
  cases h
  simp [need, decVf]

theorem vsqrt (ty d a k) : Statement (.vsqrt ty d a k) := by
  intro w _ h
  cases h
  simp [need, decVf]

theorem vminFp (ty d a b k) : Statement (.vminFp ty d a b k) := by
  intro w _ h
  cases h
  simp [need, decVf]

theorem vmaxFp (ty d a b k) : Statement (.vmaxFp ty d a b k) := by
  intro w _ h
  cases h
  simp [need, decVf]

theorem vabsFp (ty d a k) : Statement (.vabsFp ty d a k) := by
  intro w _ h
  cases h
  simp [need, decVf]

theorem vnegFp (ty d a k) : Statement (.vnegFp ty d a k) := by
  intro w _ h
  cases h
  simp [need, decVf]

theorem vrcp (ty d a k) : Statement (.vrcp ty d a k) := by
  intro w _ h
  cases h
  simp [need, decVf]

theorem vrsq (ty d a k) : Statement (.vrsq ty d a k) := by
  intro w _ h
  cases h
  simp [need, decVf]

theorem vaddInt (es sg d a b k) : Statement (.vaddInt es sg d a b k) := by
  intro w _ h
  cases h
  simp [need, decVi]

theorem vsubInt (es sg d a b k) : Statement (.vsubInt es sg d a b k) := by
  intro w _ h
  cases h
  simp [need, decVi]

theorem vadds (es sg d a b k) : Statement (.vadds es sg d a b k) := by
  intro w _ h
  cases h
  simp [need, decVi]

theorem vsubs (es sg d a b k) : Statement (.vsubs es sg d a b k) := by
  intro w _ h
  cases h
  simp [need, decVi]

theorem vmulInt (es sg d a b k) : Statement (.vmulInt es sg d a b k) := by
  intro w _ h
  cases h
  simp [need, decVi]

theorem vmulh (es sg d a b k) : Statement (.vmulh es sg d a b k) := by
  intro w _ h
  cases h
  simp [need, decVi]

theorem vminInt (es sg d a b k) : Statement (.vminInt es sg d a b k) := by
  intro w _ h
  cases h
  simp [need, decVi]

theorem vmaxInt (es sg d a b k) : Statement (.vmaxInt es sg d a b k) := by
  intro w _ h
  cases h
  simp [need, decVi]

theorem vand (es sg d a b k) : Statement (.vand es sg d a b k) := by
  intro w _ h
  cases h
  simp [need, decVi]

theorem vor (es sg d a b k) : Statement (.vor es sg d a b k) := by
  intro w _ h
  cases h
  simp [need, decVi]

theorem vxor (es sg d a b k) : Statement (.vxor es sg d a b k) := by
  intro w _ h
  cases h
  simp [need, decVi]

theorem vshl (es sg d a b k) : Statement (.vshl es sg d a b k) := by
  intro w _ h
  cases h
  simp [need, decVi]

theorem vshr (es sg d a b k) : Statement (.vshr es sg d a b k) := by
  intro w _ h
  cases h
  simp [need, decVi]

theorem vabsInt (es d a k) : Statement (.vabsInt es d a k) := by
  intro w _ h
  cases h
  simp [need, decVi]

theorem vcmpEq (ty d a b k) : Statement (.vcmpEq ty d a b k) := by
  intro w hw h
  replace hw : (decide (d ≠ 0) && decide (ty.toNat < 6)) = true := hw
  cases h
  simp_all [need, decVc]

theorem vcmpNe (ty d a b k) : Statement (.vcmpNe ty d a b k) := by
  intro w hw h
  replace hw : (decide (d ≠ 0) && decide (ty.toNat < 6)) = true := hw
  cases h
  simp_all [need, decVc]

theorem vcmpLt (ty d a b k) : Statement (.vcmpLt ty d a b k) := by
  intro w hw h
  replace hw : (decide (d ≠ 0) && decide (ty.toNat < 6)) = true := hw
  cases h
  simp_all [need, decVc]

theorem vcmpLe (ty d a b k) : Statement (.vcmpLe ty d a b k) := by
  intro w hw h
  replace hw : (decide (d ≠ 0) && decide (ty.toNat < 6)) = true := hw
  cases h
  simp_all [need, decVc]

theorem vcmpUn (ty d a b k) : Statement (.vcmpUn ty d a b k) := by
  intro w hw h
  replace hw : (decide (d ≠ 0) && decide (ty.toNat < 2)) = true := hw
  cases h
  simp_all [need, decVc]
  omega

theorem vcvt (g f d a) : Statement (.vcvt g f d a) := by
  intro w hw h
  replace hw : (decide (g ≠ 15) && decide (f ≠ 15)) = true := hw
  cases h
  simp_all [need, decVcvt]

theorem vlog2 (d a k) : Statement (.vlog2 d a k) := by
  intro w _ h
  cases h
  simp [need, decVe]

theorem vexp2 (d a k) : Statement (.vexp2 d a k) := by
  intro w _ h
  cases h
  simp [need, decVe]

theorem vrand (d k) : Statement (.vrand d k) := by
  intro w _ h
  cases h
  simp [need, decVe]

theorem vrandF32 (d k) : Statement (.vrandF32 d k) := by
  intro w _ h
  cases h
  simp [need, decVe]

theorem vsum (ty d a k) : Statement (.vsum ty d a k) := by
  intro w hw h
  replace hw : (decide (ty.toNat < 4)) = true := hw
  cases h
  simp_all [need, decVs]

theorem vmaxi (ty d a b k) : Statement (.vmaxi ty d a b k) := by
  intro w hw h
  replace hw : (pairDest d && decide (ty.toNat < 4)) = true := hw
  cases h
  simp_all [need, decVs]

theorem vmini (ty d a b k) : Statement (.vmini ty d a b k) := by
  intro w hw h
  replace hw : (pairDest d && decide (ty.toNat < 4)) = true := hw
  cases h
  simp_all [need, decVs]

theorem vperm (d a b k) : Statement (.vperm d a b k) := by
  intro w _ h
  cases h
  simp [need, decVp]

theorem vrot (d a b k) : Statement (.vrot d a b k) := by
  intro w _ h
  cases h
  simp [need, decVp]

theorem vbcast32 (d a k) : Statement (.vbcast32 d a k) := by
  intro w _ h
  cases h
  simp [need, decVp]

theorem vbcast64 (d a k) : Statement (.vbcast64 d a k) := by
  intro w _ h
  cases h
  simp [need, decVp]

theorem vins32 (d a n) : Statement (.vins32 d a n) := by
  intro w _ h
  cases h
  simp [need, decVp]

theorem vext32 (d a n) : Statement (.vext32 d a n) := by
  intro w _ h
  cases h
  simp [need, decVp]

theorem vlane (d k) : Statement (.vlane d k) := by
  intro w _ h
  cases h
  simp [need, decVp]

theorem vsel32 (d a b k) : Statement (.vsel32 d a b k) := by
  intro w _ h
  cases h
  simp [need, decVp]

theorem vmov32 (d a k) : Statement (.vmov32 d a k) := by
  intro w _ h
  cases h
  simp [need, decVp]

theorem vins64 (d a n) : Statement (.vins64 d a n) := by
  intro w _ h
  cases h
  simp [need, decVp]

theorem vext64 (d a n) : Statement (.vext64 d a n) := by
  intro w _ h
  cases h
  simp [need, decVp]

theorem vsel64 (d a b k) : Statement (.vsel64 d a b k) := by
  intro w _ h
  cases h
  simp [need, decVp]

theorem vmov64 (d a k) : Statement (.vmov64 d a k) := by
  intro w _ h
  cases h
  simp [need, decVp]

theorem kand (d a b) : Statement (.kand d a b) := by
  intro w _ h
  cases h
  simp [need, decMask]

theorem kor (d a b) : Statement (.kor d a b) := by
  intro w _ h
  cases h
  simp [need, decMask]

theorem kxor (d a b) : Statement (.kxor d a b) := by
  intro w _ h
  cases h
  simp [need, decMask]

theorem kandn (d a b) : Statement (.kandn d a b) := by
  intro w _ h
  cases h
  simp [need, decMask]

theorem kset (d a) : Statement (.kset d a) := by
  intro w _ h
  cases h
  simp [need, decMask]

theorem kget (d a) : Statement (.kget d a) := by
  intro w _ h
  cases h
  simp [need, decMask]

theorem kpop (d a) : Statement (.kpop d a) := by
  intro w _ h
  cases h
  simp [need, decMask]

theorem kffs (d a) : Statement (.kffs d a) := by
  intro w _ h
  cases h
  simp [need, decMask]

theorem mma (acc a b n c) : Statement (.mma acc a b n c) := by
  intro w _ h
  cases h
  simp [need, decMma]

theorem mmaZ (acc a b n c) : Statement (.mmaZ acc a b n c) := by
  intro w _ h
  cases h
  simp [need, decMma]

theorem mmaT (acc a b n c) : Statement (.mmaT acc a b n c) := by
  intro w _ h
  cases h
  simp [need, decMma]

theorem mmaTZ (acc a b n c) : Statement (.mmaTZ acc a b n c) := by
  intro w _ h
  cases h
  simp [need, decMma]

theorem accZero (acc n c) : Statement (.accZero acc n c) := by
  intro w hw h
  cases h
  replace hw : (decide (acc.toNat + n.toNat ≤ 15)) = true := hw
  simp only [decide_eq_true_eq] at hw
  have h1 : is4 n = true := by simp [is4]; omega
  simp [decAcc, need, hw, h1]

theorem accLd (acc d c) : Statement (.accLd acc d c) := by
  intro w _ h
  cases h
  simp [need, decAcc]

theorem accSt (d acc c) : Statement (.accSt d acc c) := by
  intro w _ h
  cases h
  simp [need, decAcc]

theorem accCvt (f d acc c) : Statement (.accCvt f d acc c) := by
  intro w hw h
  replace hw : (pairOk f acc) = true := hw
  cases h
  simp_all [need, decAcc]

theorem sqQuant (f d acc a b c) : Statement (.sqQuant f d acc a b c) := by
  intro w hw h
  replace hw : (pairOk f acc) = true := hw
  cases h
  simp_all [need, decSq]

theorem sqDeq (f acc d b c) : Statement (.sqDeq f acc d b c) := by
  intro w hw h
  replace hw : (pairOk f acc) = true := hw
  cases h
  simp_all [need, decSq]

theorem sqAlign (d a b c) : Statement (.sqAlign d a b c) := by
  intro w _ h
  cases h
  simp [need, decSq]

theorem sqScale (d a b c) : Statement (.sqScale d a b c) := by
  intro w _ h
  cases h
  simp [need, decSq]

theorem bfmtSet (n a) : Statement (.bfmtSet n a) := by
  intro w _ h
  cases h
  simp [need, decBfmt]

theorem bfmtGet (d n) : Statement (.bfmtGet d n) := by
  intro w _ h
  cases h
  simp [need, decBfmt]

theorem cp (dl sl c d a b) : Statement (.cp dl sl c d a b) := by
  intro w _ h
  cases h
  simp [need, decCopy]

theorem cpZ (dl c d b) : Statement (.cpZ dl c d b) := by
  intro w _ h
  cases h
  simp [need, decCopy]

theorem cpPf (c a b) : Statement (.cpPf c a b) := by
  intro w _ h
  cases h
  simp [need, decCopy]

theorem cp2 (dl sl c d a b) : Statement (.cp2 dl sl c d a b) := by
  intro w hw h
  replace hw : (decide (b ≠ 31)) = true := hw
  cases h
  simp_all [need, decCopy]

theorem cpSq (dl sl c d a b) : Statement (.cpSq dl sl c d a b) := by
  intro w _ h
  cases h
  simp [need, decCopy]

theorem cpSqt (dl sl c d a b) : Statement (.cpSqt dl sl c d a b) := by
  intro w _ h
  cases h
  simp [need, decCopy]

theorem cpFill (c d a b) : Statement (.cpFill c d a b) := by
  intro w _ h
  cases h
  simp [need, decCopy]

theorem cpWait (c a) : Statement (.cpWait c a) := by
  intro w _ h
  cases h
  simp [need, decCtr]

theorem cpWaitq (d c a) : Statement (.cpWaitq d c a) := by
  intro w _ h
  cases h
  simp [need, decCtr]

theorem cpRdc (d c sel) : Statement (.cpRdc d c sel) := by
  intro w _ h
  cases h
  simp [need, decCtr]

theorem amoAdd (w aq rl sc d a b) : Statement (.amoAdd w aq rl sc d a b) := by
  intro w hw h
  replace hw : (scopeOk sc) = true := hw
  cases h
  simp_all [need, decAmo]

theorem amoAnd (w aq rl sc d a b) : Statement (.amoAnd w aq rl sc d a b) := by
  intro w hw h
  replace hw : (scopeOk sc) = true := hw
  cases h
  simp_all [need, decAmo]

theorem amoOr (w aq rl sc d a b) : Statement (.amoOr w aq rl sc d a b) := by
  intro w hw h
  replace hw : (scopeOk sc) = true := hw
  cases h
  simp_all [need, decAmo]

theorem amoXor (w aq rl sc d a b) : Statement (.amoXor w aq rl sc d a b) := by
  intro w hw h
  replace hw : (scopeOk sc) = true := hw
  cases h
  simp_all [need, decAmo]

theorem amoSwap (w aq rl sc d a b) : Statement (.amoSwap w aq rl sc d a b) := by
  intro w hw h
  replace hw : (scopeOk sc) = true := hw
  cases h
  simp_all [need, decAmo]

theorem amoMin (w aq rl sc d a b) : Statement (.amoMin w aq rl sc d a b) := by
  intro w hw h
  replace hw : (scopeOk sc) = true := hw
  cases h
  simp_all [need, decAmo]

theorem amoMax (w aq rl sc d a b) : Statement (.amoMax w aq rl sc d a b) := by
  intro w hw h
  replace hw : (scopeOk sc) = true := hw
  cases h
  simp_all [need, decAmo]

theorem amoMinn (w aq rl sc d a b) : Statement (.amoMinn w aq rl sc d a b) := by
  intro w hw h
  replace hw : (scopeOk sc) = true := hw
  cases h
  simp_all [need, decAmo]

theorem amoMaxn (w aq rl sc d a b) : Statement (.amoMaxn w aq rl sc d a b) := by
  intro w hw h
  replace hw : (scopeOk sc) = true := hw
  cases h
  simp_all [need, decAmo]

theorem amoCas (w aq rl sc d a b) : Statement (.amoCas w aq rl sc d a b) := by
  intro w hw h
  replace hw : (scopeOk sc) = true := hw
  cases h
  simp_all [need, decAmo]

theorem amoFadd (w aq rl sc d a b) : Statement (.amoFadd w aq rl sc d a b) := by
  intro w hw h
  replace hw : (scopeOk sc) = true := hw
  cases h
  simp_all [need, decAmo]

theorem lamoAdd (w aq rl sc d a b) : Statement (.lamoAdd w aq rl sc d a b) := by
  intro w hw h
  replace hw : (scopeOk sc) = true := hw
  cases h
  simp_all [need, decLamo]

theorem lamoAnd (w aq rl sc d a b) : Statement (.lamoAnd w aq rl sc d a b) := by
  intro w hw h
  replace hw : (scopeOk sc) = true := hw
  cases h
  simp_all [need, decLamo]

theorem lamoOr (w aq rl sc d a b) : Statement (.lamoOr w aq rl sc d a b) := by
  intro w hw h
  replace hw : (scopeOk sc) = true := hw
  cases h
  simp_all [need, decLamo]

theorem lamoXor (w aq rl sc d a b) : Statement (.lamoXor w aq rl sc d a b) := by
  intro w hw h
  replace hw : (scopeOk sc) = true := hw
  cases h
  simp_all [need, decLamo]

theorem lamoSwap (w aq rl sc d a b) : Statement (.lamoSwap w aq rl sc d a b) := by
  intro w hw h
  replace hw : (scopeOk sc) = true := hw
  cases h
  simp_all [need, decLamo]

theorem lamoMin (w aq rl sc d a b) : Statement (.lamoMin w aq rl sc d a b) := by
  intro w hw h
  replace hw : (scopeOk sc) = true := hw
  cases h
  simp_all [need, decLamo]

theorem lamoMax (w aq rl sc d a b) : Statement (.lamoMax w aq rl sc d a b) := by
  intro w hw h
  replace hw : (scopeOk sc) = true := hw
  cases h
  simp_all [need, decLamo]

theorem lamoMinn (w aq rl sc d a b) : Statement (.lamoMinn w aq rl sc d a b) := by
  intro w hw h
  replace hw : (scopeOk sc) = true := hw
  cases h
  simp_all [need, decLamo]

theorem lamoMaxn (w aq rl sc d a b) : Statement (.lamoMaxn w aq rl sc d a b) := by
  intro w hw h
  replace hw : (scopeOk sc) = true := hw
  cases h
  simp_all [need, decLamo]

theorem lamoCas (w aq rl sc d a b) : Statement (.lamoCas w aq rl sc d a b) := by
  intro w hw h
  replace hw : (scopeOk sc) = true := hw
  cases h
  simp_all [need, decLamo]

theorem lamoFadd (w aq rl sc d a b) : Statement (.lamoFadd w aq rl sc d a b) := by
  intro w hw h
  replace hw : (scopeOk sc) = true := hw
  cases h
  simp_all [need, decLamo]

theorem futRes (d a b) : Statement (.futRes d a b) := by
  intro w _ h
  cases h
  simp [need, decFut]

theorem futReg (d a b) : Statement (.futReg d a b) := by
  intro w _ h
  cases h
  simp [need, decFut]

theorem futOn (a b c) : Statement (.futOn a b c) := by
  intro w _ h
  cases h
  simp [need, decFut]

theorem futRst (d a) : Statement (.futRst d a) := by
  intro w _ h
  cases h
  simp [need, decFut]

theorem barArr (d a) : Statement (.barArr d a) := by
  intro w _ h
  cases h
  simp [need, decBar]

theorem barWait (d a b) : Statement (.barWait d a b) := by
  intro w _ h
  cases h
  simp [need, decBar]

theorem barPoll (d a b) : Statement (.barPoll d a b) := by
  intro w _ h
  cases h
  simp [need, decBar]

theorem barJoin (a) : Statement (.barJoin a) := by
  intro w _ h
  cases h
  simp [need, decBar]

theorem barLeave (a) : Statement (.barLeave a) := by
  intro w _ h
  cases h
  simp [need, decBar]

theorem barCfg (a b) : Statement (.barCfg a b) := by
  intro w _ h
  cases h
  simp [need, decBar]

theorem fence (sc p q) : Statement (.fence sc p q) := by
  intro w hw h
  replace hw : (scopeOk sc) = true := hw
  cases h
  simp_all [need, decFence]

theorem qpush (q a) : Statement (.qpush q a) := by
  intro w _ h
  cases h
  simp [need, decPush]

theorem qpushAt (q a b) : Statement (.qpushAt q a b) := by
  intro w _ h
  cases h
  simp [need, decPush]

theorem qmark (q) : Statement (.qmark q) := by
  intro w _ h
  cases h
  simp [need, decPush]

theorem qmarkF (q) : Statement (.qmarkF q) := by
  intro w _ h
  cases h
  simp [need, decPush]

theorem qpop (d q) : Statement (.qpop d q) := by
  intro w hw h
  replace hw : (pairDest d) = true := hw
  cases h
  simp_all [need, decPop]

theorem qpopm (d q b) : Statement (.qpopm d q b) := by
  intro w hw h
  replace hw : (pairDest d) = true := hw
  cases h
  simp_all [need, decPop]

theorem qpeek (d q) : Statement (.qpeek d q) := by
  intro w hw h
  replace hw : (pairDest d) = true := hw
  cases h
  simp_all [need, decPop]

theorem qstat (d q sel) : Statement (.qstat d q sel) := by
  intro w hw h
  replace hw : (decide (sel.toNat < 5)) = true := hw
  cases h
  simp_all [need, decPop]

theorem amSend (d a b) : Statement (.amSend d a b) := by
  intro w _ h
  cases h
  simp [need, decAm]

theorem amReply (a b) : Statement (.amReply a b) := by
  intro w _ h
  cases h
  simp [need, decAm]

theorem amStat (d sel) : Statement (.amStat d sel) := by
  intro w hw h
  replace hw : (decide (sel.toNat < 5)) = true := hw
  cases h
  simp_all [need, decAm]

theorem shTag (d a b) : Statement (.shTag d a b) := by
  intro w _ h
  cases h
  simp [need, decSh]

theorem shChk (d a b) : Statement (.shChk d a b) := by
  intro w _ h
  cases h
  simp [need, decSh]

theorem shRed (a b) : Statement (.shRed a b) := by
  intro w _ h
  cases h
  simp [need, decSh]

theorem shAck (a b) : Statement (.shAck a b) := by
  intro w _ h
  cases h
  simp [need, decSh]

theorem shRel (d a b) : Statement (.shRel d a b) := by
  intro w _ h
  cases h
  simp [need, decSh]

theorem trap (n) : Statement (.trap n) := by
  intro w hw h
  cases h
  simp [decodeWord, decSys, need]
  replace hw : (!(monitorCallNumbers.contains n)) = true := hw
  simp [monitorCallNumbers] at hw
  obtain ⟨h1, h2, h3, h4, h5, h6, h7, h8, h9, h10, h11, h12, h13, h14⟩ := hw
  unfold decTrap
  split <;> first | rfl | (exfalso; bv_omega)

theorem brk (n) : Statement (.brk n) := by
  intro w _ h
  cases h
  simp [need, decodeWord, decSys, decTrap]

theorem srd (d r) : Statement (.srd d r) := by
  intro w hw h
  replace hw : (sysRegAssigned r) = true := hw
  cases h
  simp_all [need, decSr, decSwr]

theorem swr (r a) : Statement (.swr r a) := by
  intro w hw h
  replace hw : (sysRegAssigned r && !(isBfmtReg r) && !(isLoopReg r) && !(isPhiloxReg r)) = true := hw
  cases h
  simp_all [need, decSr, decSwr]

theorem swrBfmt (n a) : Statement (.swrBfmt n a) := by
  intro w _ h
  cases h
  have h1 : ∀ n : BitVec 4, sysRegAssigned (16#8 ++ n) = true ∧ isBfmtReg (16#8 ++ n) = true ∧
      (16#8 ++ n).extractLsb' 0 4 = n := by decide
  obtain ⟨h2, h3, h4⟩ := h1 n
  simp only [decSr, decSwr, need, major_39, sysImm_r, sysImm_hi, h2, h3, h4, BitVec.ofNat_eq_ofNat]
  simp

theorem swrLoopReg (r a) : Statement (.swrLoopReg r a) := by
  intro w hw h
  cases h
  replace hw : (isLoopReg r) = true := hw
  have h1 : sysRegAssigned r = true := by simp [sysRegAssigned, hw]
  have h2 : isBfmtReg r = false := by
    simp only [isLoopReg, isBfmtReg, Bool.and_eq_true, decide_eq_true_eq, Bool.and_eq_false_iff, decide_eq_false_iff_not] at *
    omega
  simp [decSr, decSwr, need, h1, h2, hw]

theorem swrPhilox (r a) : Statement (.swrPhilox r a) := by
  intro w hw h
  cases h
  replace hw : (isPhiloxReg r) = true := hw
  have h1 : sysRegAssigned r = true := by simp [sysRegAssigned, hw]
  have h2 : isBfmtReg r = false ∧ isLoopReg r = false := by
    simp only [isLoopReg, isPhiloxReg, isBfmtReg, Bool.and_eq_true, decide_eq_true_eq, Bool.and_eq_false_iff, decide_eq_false_iff_not] at *
    omega
  simp [decSr, decSwr, need, h1, h2, hw]

theorem ifl (a b n) : Statement (.ifl a b n) := by
  intro w _ h
  cases h
  simp [need, decInv]

theorem tlbinv (a b) : Statement (.tlbinv a b) := by
  intro w _ h
  cases h
  simp [need, decInv]

theorem tbrd (d) : Statement (.tbrd d) := by
  intro w _ h
  cases h
  simp [need, decTime]

theorem tbrdSt (d) : Statement (.tbrdSt d) := by
  intro w _ h
  cases h
  simp [need, decTime]

theorem waitt (a) : Statement (.waitt a) := by
  intro w _ h
  cases h
  simp [need, decTime]

theorem hintBr (lk) : Statement (.hintBr lk) := by
  intro w hw h
  cases h
  replace hw : (decide (lk ≠ 3)) = true := hw
  revert hw
  revert lk
  decide

theorem hintPf (a off) : Statement (.hintPf a off) := by
  intro w _ h
  cases h
  simp [need, decHint]

theorem hintPg (a n) : Statement (.hintPg a n) := by
  intro w _ h
  cases h
  simp [need, decHint]

theorem hintBank (n) : Statement (.hintBank n) := by
  intro w hw h
  cases h
  clear hw
  revert n
  decide

theorem ximm (e) : Statement (.ximm e) := by
  intro w _ h
  cases h
  simp [need, decodeWord]

theorem flit (l f) : Statement (.flit l f) := by intro _ _ h; cases h

theorem notify (r) : Statement (.notify r) := by intro _ _ h; cases h

theorem bind (r) : Statement (.bind r) := by intro _ _ h; cases h

theorem unbind (r) : Statement (.unbind r) := by intro _ _ h; cases h

theorem inject (r) : Statement (.inject r) := by intro _ _ h; cases h

theorem status (r) : Statement (.status r) := by intro _ _ h; cases h

theorem summary (r) : Statement (.summary r) := by intro _ _ h; cases h

theorem reconfig (r recs) : Statement (.reconfig r recs) := by intro _ _ h; cases h

theorem exportRequest (r arg records) : Statement (.exportRequest r arg records) := by intro _ _ h; cases h

theorem importRequest (r arg records) : Statement (.importRequest r arg records) := by intro _ _ h; cases h

theorem attestRequest (r nonce) : Statement (.attestRequest r nonce) := by intro _ _ h; cases h

theorem packageReset (r) : Statement (.packageReset r) := by intro _ _ h; cases h

theorem unassignedEncoding (w) : Statement (.unassignedEncoding w) := by intro _ _ h; cases h

theorem commit : Statement (.commit) := by
  intro w _ h
  cases h
  simp [need, decEnd]

theorem abort : Statement (.abort) := by
  intro w _ h
  cases h
  simp [need, decEnd]

theorem yield : Statement (.yield) := by
  intro w _ h
  cases h
  simp [need, decEnd]

theorem amEnd : Statement (.amEnd) := by
  intro w _ h
  cases h
  simp [need, decAm]

theorem eret : Statement (.eret) := by
  intro w _ h
  cases h
  simp [need, decodeWord, decSys, decTrap]

theorem wfi : Statement (.wfi) := by
  intro w _ h
  cases h
  simp [need, decodeWord, decSys, decTrap]

theorem halt : Statement (.halt) := by
  intro w _ h
  cases h
  simp [need, decodeWord, decSys, decTrap]

theorem info : Statement (.info) := by
  intro w _ h
  cases h
  simp [need, decodeWord, decSys, decTrap]

theorem ctxPark : Statement (.ctxPark) := by
  intro w _ h
  cases h
  simp [need, decodeWord, decSys, decTrap]

theorem ctxResume : Statement (.ctxResume) := by
  intro w _ h
  cases h
  simp [need, decodeWord, decSys, decTrap]

theorem ctxKill : Statement (.ctxKill) := by
  intro w _ h
  cases h
  simp [need, decodeWord, decSys, decTrap]

theorem quarantine : Statement (.quarantine) := by
  intro w _ h
  cases h
  simp [need, decodeWord, decSys, decTrap]

theorem regionSet : Statement (.regionSet) := by
  intro w _ h
  cases h
  simp [need, decodeWord, decSys, decTrap]

theorem keyLoad : Statement (.keyLoad) := by
  intro w _ h
  cases h
  simp [need, decodeWord, decSys, decTrap]

theorem keyClear : Statement (.keyClear) := by
  intro w _ h
  cases h
  simp [need, decodeWord, decSys, decTrap]

theorem routeSet : Statement (.routeSet) := by
  intro w _ h
  cases h
  simp [need, decodeWord, decSys, decTrap]

theorem routeClear : Statement (.routeClear) := by
  intro w _ h
  cases h
  simp [need, decodeWord, decSys, decTrap]

theorem vqBind : Statement (.vqBind) := by
  intro w _ h
  cases h
  simp [need, decodeWord, decSys, decTrap]

theorem exportCall : Statement (.exportCall) := by
  intro w _ h
  cases h
  simp [need, decodeWord, decSys, decTrap]

theorem importCall : Statement (.importCall) := by
  intro w _ h
  cases h
  simp [need, decodeWord, decSys, decTrap]

theorem attest : Statement (.attest) := by
  intro w _ h
  cases h
  simp [need, decodeWord, decSys, decTrap]

theorem hintNop : Statement (.hintNop) := by
  intro w _ h
  cases h
  simp [need, decHint]

theorem mrqReplyArrival : Statement (.mrqReplyArrival) := by intro _ _ h; cases h

theorem thresherStep : Statement (.thresherStep) := by intro _ _ h; cases h

theorem thresherStop : Statement (.thresherStop) := by intro _ _ h; cases h

theorem thresherCommandComplete : Statement (.thresherCommandComplete) := by intro _ _ h; cases h

theorem tailFault : Statement (.tailFault) := by intro _ _ h; cases h

theorem wainCommandStart : Statement (.wainCommandStart) := by intro _ _ h; cases h

theorem wainTransfer : Statement (.wainTransfer) := by intro _ _ h; cases h

theorem wainCommandComplete : Statement (.wainCommandComplete) := by intro _ _ h; cases h

theorem atomicAtHomeSlice : Statement (.atomicAtHomeSlice) := by intro _ _ h; cases h

theorem globalAtomicReply : Statement (.globalAtomicReply) := by intro _ _ h; cases h

theorem asyncAtomicFault : Statement (.asyncAtomicFault) := by intro _ _ h; cases h

theorem atomicReplay : Statement (.atomicReplay) := by intro _ _ h; cases h

theorem atomicGiveUp : Statement (.atomicGiveUp) := by intro _ _ h; cases h

theorem joinDecrement : Statement (.joinDecrement) := by intro _ _ h; cases h

theorem barrierTimeout : Statement (.barrierTimeout) := by intro _ _ h; cases h

theorem shRedDeparture : Statement (.shRedDeparture) := by intro _ _ h; cases h

theorem memoryWaitEnd : Statement (.memoryWaitEnd) := by intro _ _ h; cases h

theorem engineWaitEnd : Statement (.engineWaitEnd) := by intro _ _ h; cases h

theorem queueWaitEnd : Statement (.queueWaitEnd) := by intro _ _ h; cases h

theorem timeWaitEnd : Statement (.timeWaitEnd) := by intro _ _ h; cases h

theorem faultRecordPlaced : Statement (.faultRecordPlaced) := by intro _ _ h; cases h

theorem budgetExpiry : Statement (.budgetExpiry) := by intro _ _ h; cases h

theorem remap : Statement (.remap) := by intro _ _ h; cases h

theorem rd : Statement (.rd) := by intro _ _ h; cases h

theorem wr : Statement (.wr) := by intro _ _ h; cases h

theorem wrm : Statement (.wrm) := by intro _ _ h; cases h

theorem sqrd : Statement (.sqrd) := by intro _ _ h; cases h

theorem sqwr : Statement (.sqwr) := by intro _ _ h; cases h

theorem atomwb : Statement (.atomwb) := by intro _ _ h; cases h

theorem walk : Statement (.walk) := by intro _ _ h; cases h

theorem pdelta : Statement (.pdelta) := by intro _ _ h; cases h

theorem memoryEventForward : Statement (.memoryEventForward) := by intro _ _ h; cases h

theorem scrub : Statement (.scrub) := by intro _ _ h; cases h

theorem channelStateChange : Statement (.channelStateChange) := by intro _ _ h; cases h

theorem homeSliceRead : Statement (.homeSliceRead) := by intro _ _ h; cases h

theorem homeSliceWrite : Statement (.homeSliceWrite) := by intro _ _ h; cases h

theorem baseDieReply : Statement (.baseDieReply) := by intro _ _ h; cases h

theorem pageEventOpen : Statement (.pageEventOpen) := by intro _ _ h; cases h

theorem pageEventTimeout : Statement (.pageEventTimeout) := by intro _ _ h; cases h

theorem pageResume : Statement (.pageResume) := by intro _ _ h; cases h

theorem agentPushRetry : Statement (.agentPushRetry) := by intro _ _ h; cases h

theorem switchArrival : Statement (.switchArrival) := by intro _ _ h; cases h

theorem reductionEmit : Statement (.reductionEmit) := by intro _ _ h; cases h

theorem redtimeout : Statement (.redtimeout) := by intro _ _ h; cases h

theorem messageArrival : Statement (.messageArrival) := by intro _ _ h; cases h

theorem handlerStart : Statement (.handlerStart) := by intro _ _ h; cases h

theorem acceptance : Statement (.acceptance) := by intro _ _ h; cases h

theorem refusal : Statement (.refusal) := by intro _ _ h; cases h

theorem messageResend : Statement (.messageResend) := by intro _ _ h; cases h

theorem reject : Statement (.reject) := by intro _ _ h; cases h

theorem remoteStore : Statement (.remoteStore) := by intro _ _ h; cases h

theorem remoteLoad : Statement (.remoteLoad) := by intro _ _ h; cases h

theorem loadReply : Statement (.loadReply) := by intro _ _ h; cases h

theorem remoteAtomic : Statement (.remoteAtomic) := by intro _ _ h; cases h

theorem atomicReply : Statement (.atomicReply) := by intro _ _ h; cases h

theorem sheafResend : Statement (.sheafResend) := by intro _ _ h; cases h

theorem ackDelivery : Statement (.ackDelivery) := by intro _ _ h; cases h

theorem nak : Statement (.nak) := by intro _ _ h; cases h

theorem replayTimeout : Statement (.replayTimeout) := by intro _ _ h; cases h

theorem linkRetrain : Statement (.linkRetrain) := by intro _ _ h; cases h

theorem linkDown : Statement (.linkDown) := by intro _ _ h; cases h

theorem timeExchange : Statement (.timeExchange) := by intro _ _ h; cases h

theorem syncTimeout : Statement (.syncTimeout) := by intro _ _ h; cases h

theorem itemArrival : Statement (.itemArrival) := by intro _ _ h; cases h

theorem bindMarkerArrival : Statement (.bindMarkerArrival) := by intro _ _ h; cases h

theorem nbtReached : Statement (.nbtReached) := by intro _ _ h; cases h

theorem creditReturn : Statement (.creditReturn) := by intro _ _ h; cases h

theorem schedulerBoundary : Statement (.schedulerBoundary) := by intro _ _ h; cases h

theorem fallowSteps : Statement (.fallowSteps) := by intro _ _ h; cases h

theorem virtqueueCompletion : Statement (.virtqueueCompletion) := by intro _ _ h; cases h

theorem flr : Statement (.flr) := by intro _ _ h; cases h

theorem flrComplete : Statement (.flrComplete) := by intro _ _ h; cases h

theorem deviceReset : Statement (.deviceReset) := by intro _ _ h; cases h

theorem featuresOk : Statement (.featuresOk) := by intro _ _ h; cases h

theorem ioDieFailover : Statement (.ioDieFailover) := by intro _ _ h; cases h

theorem droop : Statement (.droop) := by intro _ _ h; cases h

theorem powerCap : Statement (.powerCap) := by intro _ _ h; cases h

theorem thermalLimit : Statement (.thermalLimit) := by intro _ _ h; cases h

theorem itemRefusal : Statement (.itemRefusal) := by intro _ _ h; cases h

theorem linkRetrainComplete : Statement (.linkRetrainComplete) := by intro _ _ h; cases h

theorem droopRecovery : Statement (.droopRecovery) := by intro _ _ h; cases h

theorem parityAck : Statement (.parityAck) := by intro _ _ h; cases h

theorem driverOk : Statement (.driverOk) := by intro _ _ h; cases h

theorem atomicEntryExpiry : Statement (.atomicEntryExpiry) := by intro _ _ h; cases h

end Sys2Proof.Laws.RoundTrip
end

