-- ==== Sys2Proof/Laws/Translate.lean ====
section
/-! SUPPORT. Sys2Proof/Laws/Translate.lean: what a read at a home slice and a translation can change (04 R95-R97, 05 R109). -/
namespace Sys2Proof.Machine

/-! ### Reading through a home slice -/

theorem OnlyDram.refl (s : State) : OnlyDram s s := rfl

theorem OnlyDram.trans {s t u : State} (h : OnlyDram s t) (k : OnlyDram t u) : OnlyDram s u := by
  unfold OnlyDram at *
  rw [k, h]

theorem OnlyDram.foldl {α : Type} {f : State → α → State} (h : ∀ s a, OnlyDram s (f s a)) (l : List α) (s : State) :
    OnlyDram s (l.foldl f s) := by
  induction l generalizing s with
  | nil => exact .refl s
  | cons a l ih => exact (h s a).trans (ih _)

theorem setChannel_only (s : State) (k c : Nat) (x : ChanState) : OnlyDram s (s.setChannel k c x) := rfl

theorem failChannel_only (s : State) (k c : Nat) : OnlyDram s (s.failChannel k c) := by
  unfold State.failChannel
  dsimp only
  split
  · exact .refl s
  · split
    · exact (setChannel_only s k c .lost).trans (OnlyDram.foldl (fun s a => setChannel_only s _ _ _) _ _)
    · exact setChannel_only s k c .degraded

theorem noteRebuild_only (s : State) (k c : Nat) : OnlyDram s (s.noteRebuild k c) := by
  unfold State.noteRebuild
  dsimp only
  split
  · exact OnlyDram.trans (show OnlyDram s (s.modChannel k c _) from rfl) (failChannel_only _ k c)
  · rfl

theorem OnlyDram.mem (s : State) (m : Memory) : OnlyDram s { s with mem := m } := rfl

theorem OnlyDram.ecc (s : State) (l : List Nat) : OnlyDram s { s with eccBad := l } := rfl

theorem memEvent_only (s : State) (k pa n : Nat) (b : Bool) : OnlyDram s (s.memEvent k pa n b) := rfl

theorem rebuild_only (s : State) (g : Nat) : OnlyDram s (s.rebuild g) := by
  unfold State.rebuild
  split
  · exact .refl s
  · split
    · exact .refl s
    · exact OnlyDram.mem s _

theorem meetEcc_only (s : State) (n : Nat) (b : Bool) (g : Nat) : OnlyDram s (s.meetEcc n b g).2 := by
  have hp : OnlyDram s (s.poisonGranule n b g) := rfl
  have hr := rebuild_only s g
  unfold State.meetEcc
  generalize s.rebuild g = r at hr
  dsimp only
  split
  · exact .refl s
  · split
    · exact .refl s
    · split
      · exact hr
      · exact hp
  · split
    · split
      · exact ((hr.trans (OnlyDram.ecc r _)).trans (memEvent_only _ _ _ _ _)).trans (noteRebuild_only _ _ _)
      · exact hp
    · split
      · rfl
      · exact .refl s

theorem meetEccs_only (s : State) (n : Nat) (b : Bool) (gs : List Nat) : OnlyDram s (s.meetEccs n b gs).2 := by
  unfold State.meetEccs
  suffices ∀ a : Bool × State, OnlyDram s a.2 → OnlyDram s (gs.foldl (fun a g =>
      let r := a.2.meetEcc n b g
      (a.1 || r.1, r.2)) a).2 from this _ (.refl s)
  induction gs with
  | nil => exact fun a h => h
  | cons g l ih => exact fun a h => ih _ (h.trans (meetEcc_only _ _ _ _))

theorem baseRead_only (s : State) (a : Asker) (pa n : Nat) : OnlyDram s (s.baseRead a pa n).2.2 := by
  have h := meetEccs_only s a.source false (granulesOf pa n)
  unfold State.baseRead
  split
  · split
    split
    · simp_all
    · dsimp only
      split
      · exact OnlyDram.trans (by simp_all) (t := _) rfl
      · simp_all
  · rfl
  · rfl

theorem fillLine_only (s : State) (pa : Nat) (k : BitVec 13) (ok : Bool) (bs : List Byte) : OnlyDram s (s.fillLine pa k ok bs) := rfl

/-- A read at a home slice changes the line array and what the DRAM read brings with it. -/
theorem sliceRead_only (s : State) (a : Asker) (pa n : Nat) : OnlyDram s (s.sliceRead a pa n).2.2 := by
  unfold State.sliceRead
  split
  · rfl
  · have h := baseRead_only s a pa n
    generalize s.baseRead a pa n = r at h
    obtain ⟨st, bs, s1⟩ := r
    dsimp only at h ⊢
    split
    · exact (h.trans (meetEccs_only _ _ _ _)).trans (fillLine_only _ _ _ _ _)
    · exact h.trans (fillLine_only _ _ _ _ _)

/-! ### Writing through a home slice -/

theorem OnlyStore.refl (s : State) : OnlyStore s s := rfl

theorem OnlyStore.trans {s t u : State} (h : OnlyStore s t) (k : OnlyStore t u) : OnlyStore s u := by
  unfold OnlyStore at *
  rw [k, h]

theorem OnlyDram.store {s t : State} (h : OnlyDram s t) : OnlyStore s t := by
  unfold OnlyDram at h
  unfold OnlyStore
  rw [h]

theorem OnlyStore.foldl {α : Type} {f : State → α → State} (h : ∀ s a, OnlyStore s (f s a)) (l : List α) (s : State) :
    OnlyStore s (l.foldl f s) := by
  induction l generalizing s with
  | nil => exact .refl s
  | cons a l ih => exact (h s a).trans (ih _)

theorem OnlyStore.parity (s : State) (l k : List Nat) (m : Memory) : OnlyStore s { s with parityBad := l, parityStale := k, parity := m } := rfl

theorem memEventAt_only (s : State) (k st c p o n : Nat) (b : Bool) : OnlyStore s (s.memEventAt k st c p o n b) := rfl

theorem meetParity_only (s : State) (n : Nat) (b : Bool) (p : Nat) : OnlyStore s (s.meetParity n b p) := by
  unfold State.meetParity
  dsimp only
  split
  · exact .refl s
  · split
    · split
      · exact ((OnlyStore.parity s _ s.parityStale _).trans (memEventAt_only _ _ _ _ _ _ _ _)).trans (noteRebuild_only _ _ _).store
      · exact memEventAt_only _ _ _ _ _ _ _ _
    · split
      · rfl
      · exact .refl s

theorem takeDelta_only (s : State) (n g : Nat) (d : List Byte) : OnlyStore s (s.takeDelta n g d) := by
  have h := meetParity_only s n false (parityOf g)
  unfold State.takeDelta
  dsimp only
  generalize s.meetParity n false (parityOf g) = t at h
  split
  · exact OnlyStore.parity s _ _ _
  · split
    · split
      · exact OnlyStore.parity s _ _ _
      · rfl
    · split
      · exact h
      · exact h.trans (OnlyStore.parity t _ _ _)

theorem applyDelta_only (n : Nat) : ∀ (k pa : Nat) (d : List Byte) (s : State), OnlyStore s (s.applyDelta n pa k d) := by
  intro k
  induction k with
  | zero => exact fun _ _ s => .refl s
  | succ k ih => exact fun pa d s => (takeDelta_only s n _ _).trans (ih _ _ _)

theorem OnlyStore.write (s : State) (m : Memory) (p e f : List Nat) (k : List (Nat × BitVec 13 × KeyMaterial)) (n : Nat) :
    OnlyStore s { s with mem := m, poison := p, eccBad := e, eccSoft := f, granKeys := k, free := n } := rfl

theorem putPlain_only (s : State) (k : BitVec 13) (pa : Nat) (bs : List Byte) (en : Nat → Bool) : OnlyStore s (s.putPlain k pa bs en) := by
  unfold State.putPlain
  dsimp only
  refine OnlyStore.trans (OnlyStore.foldl (fun s g => ?_) _ s) (OnlyStore.write _ _ _ _ _ _ _)
  split
  · exact OnlyStore.write s _ s.poison s.eccBad s.eccSoft s.granKeys _
  · exact .refl s

theorem baseWrite_only (s : State) (a : Asker) (pa : Nat) (bs : List Byte) (en : Nat → Bool) : OnlyStore s (s.baseWrite a pa bs en).2.2 := by
  unfold State.baseWrite
  split
  · exact (meetEccs_only _ _ _ _).store.trans (putPlain_only _ _ _ _ _)
  · rfl
  · rfl

/-- A write at a home slice changes memory and its parity, what reading them brings with it, and the line array. -/
theorem sliceWrite_only (s : State) (a : Asker) (pa : Nat) (bs : List Byte) : OnlyStore s (s.sliceWrite a pa bs).2 := by
  have h := baseWrite_only s a pa bs fun _ => true
  unfold State.sliceWrite
  generalize s.baseWrite a pa bs (fun _ => true) = r at h
  obtain ⟨st, d, s1⟩ := r
  dsimp only at h ⊢
  have k := h.trans (applyDelta_only a.source (d.length / 32) (pa / 32 * 32) d s1)
  split
  · exact k.trans rfl
  · exact k

/-- A write of whole lines is OK where its paddock and its key pass. -/
theorem sliceWrite_ok (s : State) (a : Asker) (pa : Nat) (bs : List Byte) (h : s.askCheck a pa = .ok) (al : pa % 32 = 0) (n : bs.length % 32 = 0) :
    (s.sliceWrite a pa bs).1 = .ok := by
  have w : ∀ g, g ∈ writtenGranules pa bs.length (fun _ => true) → coversAll pa bs.length (fun _ => true) g = true := by
    intro g hg
    simp only [writtenGranules, List.mem_filter, touches, byteIn, Bool.and_true, List.any_eq_true, List.mem_range, Bool.and_eq_true,
      decide_eq_true_eq] at hg
    obtain ⟨-, i, hi, lo, hh⟩ := hg
    simp only [coversAll, byteIn, Bool.and_true, List.all_eq_true, List.mem_range, Bool.and_eq_true, decide_eq_true_eq]
    omega
  unfold State.sliceWrite State.baseWrite
  rw [h]
  have e : ∀ p : Nat → Bool, ((writtenGranules pa bs.length fun _ => true).any fun g => p g && !(coversAll pa bs.length (fun _ => true) g)) = false := by
    intro p
    simp only [List.any_eq_false, Bool.and_eq_true, Bool.not_eq_true', not_and]
    intro g hg _
    simp [w g hg]
  simp only [e]
  rfl

/-! ### Translation -/

theorem OnlyCaches.refl (s : State) : OnlyCaches s s := rfl

theorem cacheLeaf_only (s : State) (tile : Nat) (e : TlbEntry) : OnlyCaches s (s.cacheLeaf tile e) := by
  have h : OnlyCaches s (s.modTile tile fun t => { t with tlb := pushTlb 256 e t.tlb }) := by
    unfold State.modTile State.putTile State.getTile
    split <;> rfl
  unfold State.cacheLeaf
  dsimp only
  split
  · exact h
  · unfold OnlyCaches at h ⊢
    rw [h]

/-- A translation changes only the caches of leaves. -/
theorem translate_only (s : State) (tile : Nat) (x : XCtx) (p : BitVec 5) (va : DW) (n kind : Nat) (w : Bool) :
    OnlyCaches s (s.translate tile x p va n kind w).2 := by
  unfold State.translate
  repeat' split
  all_goals first | exact .refl s | exact cacheLeaf_only _ _ _

end Sys2Proof.Machine
end

