-- ==== Sys2Proof/Laws/Vector.lean ====
section
/-! SUPPORT. Sys2Proof/Laws/Vector.lean: the elements of a built vector register (02 R48), and the masked update of one. -/
namespace Sys2Proof.Machine

theorem packList_lt (w : Nat) (l : List Nat) : packList w l < 2 ^ (w * l.length) := by
  induction l with
  | nil => simp [packList]
  | cons x r ih =>
    rw [packList, List.length_cons, Nat.mul_succ, Nat.pow_add, Nat.mul_comm (2 ^ (w * r.length))]
    have h1 : x % 2 ^ w < 2 ^ w := Nat.mod_lt _ (Nat.two_pow_pos w)
    calc x % 2 ^ w + 2 ^ w * packList w r < 2 ^ w + 2 ^ w * packList w r := by omega
      _ = 2 ^ w * (packList w r + 1) := by rw [Nat.mul_add, Nat.mul_one, Nat.add_comm]
      _ ≤ 2 ^ w * 2 ^ (w * r.length) := Nat.mul_le_mul_left _ ih

/-- A part of a packed number. -/
theorem bitsOf_packList (w e : Nat) (l : List Nat) : bitsOf (packList w l) (w * e) w = l.getD e 0 % 2 ^ w := by
  have hw := Nat.two_pow_pos w
  induction l generalizing e with
  | nil => simp [packList, bitsOf]
  | cons x r ih =>
    cases e with
    | zero => simp [packList, bitsOf]
    | succ e =>
      have h : (x % 2 ^ w + 2 ^ w * packList w r) / 2 ^ w = packList w r := by
        rw [Nat.add_mul_div_left _ _ hw, Nat.div_eq_of_lt (Nat.mod_lt _ hw), Nat.zero_add]
      have := ih e
      simp only [bitsOf] at this
      rw [packList, bitsOf, Nat.mul_succ, Nat.add_comm (w * e), Nat.pow_add, ← Nat.div_div_eq_div_mul, h, this]
      simp

/-- An element of a register whose elements are given. -/
theorem vElem_pack (w e : Nat) (l : List Nat) (h : w * l.length ≤ 1024) :
    vElem w (BitVec.ofNat 1024 (packList w l)) e = l.getD e 0 % 2 ^ w := by
  have h1 : packList w l < 2 ^ 1024 := Nat.lt_of_lt_of_le (packList_lt w l) (Nat.pow_le_pow_right (by omega) h)
  rw [vElem, BitVec.toNat_ofNat, Nat.mod_eq_of_lt h1, bitsOf_packList]

theorem vElem_lt (w : Nat) (x : VWord) (e : Nat) : vElem w x e < 2 ^ w := Nat.mod_lt _ (Nat.two_pow_pos w)

theorem vElem_vBuild (w n e : Nat) (f : Nat → Nat) (h : w * n ≤ 1024) (he : e < n) :
    vElem w (vBuild w n f) e = f e % 2 ^ w := by
  rw [vBuild, vElem_pack _ _ _ (by simpa using h)]
  simp [he]

/-- The masked update: an element takes its new value where its mask bit is 1, and keeps its value elsewhere (08 R178). -/
theorem vElem_vMasked (w : Nat) (m : BitVec 32) (old : VWord) (f : Nat → Nat) (e : Nat) (he : e < 1024 / w) :
    vElem w (vMasked w m old f) e = if maskBit w m e then f e % 2 ^ w else vElem w old e := by
  have h : w * (1024 / w) ≤ 1024 := Nat.mul_div_le 1024 w
  rw [vMasked, vElem_vBuild _ _ _ _ h he]
  split
  · rfl
  · exact Nat.mod_eq_of_lt (vElem_lt _ _ _)

/-- The elements that a masked operation writes. -/
theorem vApply_elem (s : State) (n w : Nat) (d : VReg) (k : KReg) (f : Nat → Nat × Flags) (e : Nat) (he : e < 1024 / w) :
    vElem w ((s.vApply n w d k f).vreg d) e =
      if maskBit w (s.kreg k) e then (f e).1 % 2 ^ w else vElem w (s.vreg d) e := by
  have h : w * (1024 / w) ≤ 1024 := Nat.mul_div_le 1024 w
  have h1 : (s.vApply n w d k f).vreg d = BitVec.ofNat 1024 (packList w (((List.range (1024 / w)).map fun e =>
      if maskBit w (s.kreg k) e then f e else (vElem w (s.vreg d) e, 0)).map Prod.fst)) := by
    simp only [State.vApply, State.vreg, orFlags_tile_v]
    simp [State.setV]
  rw [h1, vElem_pack _ _ _ (by simpa using h)]
  simp only [List.map_map, List.getD_eq_getElem?_getD, List.getElem?_map, List.getElem?_range he, Option.map_some,
    Option.getD_some, Function.comp]
  split
  · rfl
  · exact Nat.mod_eq_of_lt (vElem_lt _ _ _)

end Sys2Proof.Machine
end

