-- ==== Sys2Proof/Tests/Slice0.lean ====
section
/-! SUPPORT. Sys2Proof/Tests/Slice0.lean: the model's own tests. Ill-formed terms that WellFormed refuses; a word for every row that
has an encoding; worked examples of the manual; and, for each statement of Certificates/Slice0/Obligations.lean that has
hypotheses, states and operands that meet them, clause by clause (`witness_<statement>`). The expected results are the manual's or
computed by hand from it. -/
namespace Sys2Proof.Tests
open Sys2Proof Sys2Proof.Machine
set_option Elab.async false

/-! ### Small states -/

/-- The page at 0x10000 is mapped for context 0, which runs at L0 on the main strand of tile 0 with its whole scratchpad
permitted; the paddock owns every channel and has key slot 1 loaded; four barrier objects; s8 = 64, s9 = 128, s10 = 0x10040. -/
def base : State :=
  let p : PaddockCfg := { probeCfg 0 with chans := BitVec.allOnes 32, barBase := 8, barCount := 4, kcount := 2 }
  let s := (State.placeWord { State.reset with paddocks := [p], chanOwner := ownersOf [p], keySlots := State.reset.keySlots ++
    [{ id := 1, contents := some (.loaded []) }] } 0x04A63800).issuing .main
  (((s.onTile fun t => { t with regions0 := Vector.replicate 16 0xFFFC000007, regions1 := Vector.replicate 16 0xFFFC000007 }).setReg 8 64).setReg
    9 128).setReg 10 0x10040

/-- The same at another level. -/
def lv (l : BitVec 2) : State := base.onSt fun x => { x with lvl := l }

/-- An event's object and its other inputs. -/
def at' (s : State) (k j : Nat) (bits : DW := 0) : State := { s with input := { s.input with k := k, j := j, bits := bits } }

/-- A user message to tile 0 of package 0 for a program handler entry. -/
def note : Msg :=
  { entry := 16, kind := 0, len := 2, lane := 0, paddock := 0, l1 := true, redel := 0, id := 7, source := 0, dest := 0,
    payload := Vector.replicate 6 0 }

/-- The handler strand runs for `note`. -/
def hand : State := base.onTile fun t =>
  { t with lastIssued := .handler, handler := t.main, handlerRun := some { run := 2, msgs := [], replied := false, ending := false }, mailbox := [note] }

/-- The next state, or the reset state where there is none. -/
def nextOf (o : Host.Outcome State Fault Refusal) : State := match o with
  | .next s => s
  | _ => State.reset

/-- A translation answers an address. -/
def mapped (s : State) (va : DW) (n kind : Nat) : Bool := match (s.translate s.tile.ltn s.xc s.tile.paddock va n kind false).1 with
  | .ok _ _ => true
  | _ => false

theorem exists_translate {s : State} {va : DW} {n kind : Nat} (h : mapped s va n kind = true) :
    ∃ (pa : Nat) (key : BitVec 13) (t : State), s.translate s.tile.ltn s.xc s.tile.paddock va n kind false = (.ok pa key, t) := by
  unfold mapped at h
  split at h
  · next pa key e => exact ⟨pa, key, _, Prod.ext e rfl⟩
  · cases h

/-- A translation fails with a cause; it needs a walk. -/
def fails (s : State) (va : DW) (n kind : Nat) : Bool := match s.translate s.tile.ltn s.xc s.tile.paddock va n kind false with
  | (.fault _, _) => true
  | _ => false
def walks (s : State) (va : DW) (n kind : Nat) : Bool := match s.translate s.tile.ltn s.xc s.tile.paddock va n kind false with
  | (.walk, _) => true
  | _ => false

/-- An answer that is no error. -/
def answers {ε α β : Type} (e : Except ε (α × β)) : Bool := match e with
  | .ok _ => true
  | .error _ => false

theorem exists_ok {ε α β : Type} {e : Except ε (α × β)} (h : answers e = true) : ∃ (a : α) (b : β), e = .ok (a, b) := by
  unfold answers at h
  split at h
  · next p => exact ⟨p.1, p.2, rfl⟩
  · cases h

/-- The residue of an AIC32 block whose codes are zero is 0 (10 R223). -/
theorem residue_of_zeros {h : Nat} {cs : List Nat} (z : (cs.all fun c => c == 0) = true) : residueOf 15 h cs = 0 := by
  have e : elemOf cs.toArray = fun _ _ => 0 := by
    funext i j
    simp only [List.all_eq_true, beq_iff_eq] at z
    unfold elemOf
    rw [Array.getD_eq_getD_getElem?]
    cases q : (cs.toArray)[32 * i + j]? with
    | none => rfl
    | some v => exact z v (by simpa using Array.mem_of_getElem? q)
  have a : ∀ i j, alignedInt 15 h i j 0 = 0 := by intro i j; simp [alignedInt, signed]
  unfold residueOf
  rw [e]
  simp only [residue31, a, if_neg (show ¬ (15 : Nat) = 14 by decide), if_neg (show ¬ (15 : Nat) = 13 by decide)]
  decide +kernel

/-- An AIC32 record of zero codes under a tag. -/
def zeroRecord (tag : Nat) : List Byte := leBytes 32 0 ++ leBytes 8 tag ++ List.replicate (24 + 4096) 0

theorem zero_record_residue {bs : List Byte} (f : recFmt bs = 15) (z : ((recCodes bs).all fun c => c == 0) = true) : recResidue bs = 0 := by
  unfold recResidue
  rw [f]
  exact residue_of_zeros z

/-- A fetch answers a word, in a state of which `p` holds. -/
def fetches (s : State) (w : IWord) (p : State → Bool) : Bool := match s.fetch with
  | .word v t => v == w && p t
  | _ => false

theorem exists_fetch {s : State} {w : IWord} {p : State → Bool} (h : fetches s w p = true) : ∃ t : State, s.fetch = .word w t ∧ p t = true := by
  unfold fetches at h
  split at h
  · next v t e =>
    simp only [Bool.and_eq_true, beq_iff_eq] at h
    exact ⟨t, h.1 ▸ e, h.2⟩
  · cases h

/-- The region part of `LocalOk`, by the check of the model. -/
theorem region_ok {s : State} {a n : Nat} {wr : Bool} (h : s.tile.regionOk s.st.lvl a n wr = true) :
    s.st.lvl = 2 ∨ ∃ d ∈ (if s.st.lvl = 0 then s.tile.regions0 else s.tile.regions1).toList, regionHolds d a n wr = true := by
  unfold Tile.regionOk at h
  simp only [Bool.or_eq_true, beq_iff_eq, List.any_eq_true] at h
  exact h

/-- Several local accesses pass their checks: address, size, whether it writes. -/
abbrev AllLocal (s : State) (l : List (DW × Nat × Bool)) : Prop := ∀ p ∈ l, LocalOk s p.1 p.2.1 p.2.2

theorem allLocal {s : State} {l : List (DW × Nat × Bool)} (h : (l.all fun p => p.1.toNat % p.2.1 == 0 && decide (p.1.toNat + p.2.1 ≤ 0x100000) &&
    s.tile.regionOk s.st.lvl p.1.toNat p.2.1 p.2.2) = true) : AllLocal s l := by
  intro p hp
  have q := List.all_eq_true.mp h p hp
  simp only [Bool.and_eq_true, beq_iff_eq, decide_eq_true_eq] at q
  exact ⟨q.1.1, q.1.2, region_ok q.2⟩

/-! ### Well-formedness: one term that each check refuses, and its neighbour that it admits -/

theorem test_wellFormed_shift_count : wellFormed (.shli 1 2 64) = false ∧ wellFormed (.shriN 1 2 64) = false ∧
    wellFormed (.shriI 1 2 64) = false ∧ wellFormed (.shli 1 2 63) = true := by decide
theorem test_wellFormed_local_load : wellFormed (.ldI 3 1 2 0) = false ∧ wellFormed (.ldN 3 1 2 0) = true := by decide
theorem test_wellFormed_requests : wellFormed (.mrqRd 0 1 2 3 0) = false ∧ wellFormed (.mrqRd 0 1 2 0 0) = true ∧
    wellFormed (.mrqWrm 1 2 3 0) = false := by decide
theorem test_wellFormed_loops : wellFormed (.loop 0 1 0) = false ∧ wellFormed (.loopi 1 5 0) = false ∧ wellFormed (.loop 0 1 1) = true := by
  decide
theorem test_wellFormed_conditions : wellFormed (.sel 6 1 2 3) = false ∧ wellFormed (.cmov 7 1 2 3) = false ∧ wellFormed (.sel 5 1 2 3) = true := by
  decide
theorem test_wellFormed_compares : wellFormed (.vcmpEq 6 1 2 3 0) = false ∧ wellFormed (.vcmpNe 0 0 2 3 0) = false ∧
    wellFormed (.vcmpLt 7 1 2 3 0) = false ∧ wellFormed (.vcmpLe 1 0 2 3 0) = false ∧ wellFormed (.vcmpUn 2 1 2 3 0) = false ∧
    wellFormed (.vcmpUn 1 1 2 3 0) = true := by decide
theorem test_wellFormed_conversions : wellFormed (.vcvt 15 0 1 2) = false ∧ wellFormed (.vcvt 0 15 1 2) = false ∧
    wellFormed (.vcvt 14 14 1 2) = true := by decide
theorem test_wellFormed_reductions : wellFormed (.vsum 4 1 2 0) = false ∧ wellFormed (.vmaxi 4 1 2 3 0) = false ∧
    wellFormed (.vmaxi 0 0 2 3 0) = false ∧ wellFormed (.vmini 0 31 2 3 0) = false ∧ wellFormed (.vmini 3 30 2 3 0) = true := by decide
theorem test_wellFormed_accumulators : wellFormed (.accZero 8 8 0) = false ∧ wellFormed (.accZero 8 7 0) = true ∧
    wellFormed (.accCvt 1 2 3 0) = false ∧ wellFormed (.sqQuant 1 2 5 3 4 0) = false ∧ wellFormed (.sqDeq 1 7 2 3 0) = false ∧
    wellFormed (.sqDeq 0 7 2 3 0) = true := by decide
theorem test_wellFormed_copy : wellFormed (.cp2 0 1 0 1 2 31) = false ∧ wellFormed (.cp2 0 1 0 1 2 30) = true := by decide
theorem test_wellFormed_scopes : (∀ i ∈ [Instr.amoAdd 1 0 0 5 1 2 3, .amoAnd 1 0 0 5 1 2 3, .amoOr 1 0 0 5 1 2 3, .amoXor 1 0 0 5 1 2 3,
    .amoSwap 1 0 0 5 1 2 3, .amoMin 1 0 0 5 1 2 3, .amoMax 1 0 0 5 1 2 3, .amoMinn 1 0 0 5 1 2 3, .amoMaxn 1 0 0 5 1 2 3,
    .amoCas 1 0 0 5 1 2 3, .amoFadd 1 0 0 5 1 2 3, .lamoAdd 1 0 0 5 1 2 3, .lamoAnd 1 0 0 5 1 2 3, .lamoOr 1 0 0 5 1 2 3,
    .lamoXor 1 0 0 5 1 2 3, .lamoSwap 1 0 0 5 1 2 3, .lamoMin 1 0 0 5 1 2 3, .lamoMax 1 0 0 5 1 2 3, .lamoMinn 1 0 0 5 1 2 3,
    .lamoMaxn 1 0 0 5 1 2 3, .lamoCas 1 0 0 5 1 2 3, .lamoFadd 1 0 0 5 1 2 3, .fence 5 1 1], wellFormed i = false) ∧
    wellFormed (.fence 4 15 15) = true := by decide
theorem test_wellFormed_queues : wellFormed (.qpop 0 1) = false ∧ wellFormed (.qpopm 31 1 2) = false ∧ wellFormed (.qpeek 0 1) = false ∧
    wellFormed (.qstat 1 2 5) = false ∧ wellFormed (.qstat 1 2 4) = true := by decide
theorem test_wellFormed_messages : wellFormed (.amStat 1 5) = false ∧ wellFormed (.amStat 1 4) = true := by decide
theorem test_wellFormed_system : wellFormed (.trap 0x010) = false ∧ wellFormed (.trap 0x014) = true ∧ wellFormed (.srd 1 0x005) = false ∧
    wellFormed (.srd 1 0x004) = true ∧ wellFormed (.swr 0x100 1) = false ∧ wellFormed (.swr 0x012 1) = false ∧
    wellFormed (.swr 0x041 1) = false ∧ wellFormed (.swr 0x00B 1) = false ∧ wellFormed (.swrLoopReg 0x016 1) = false ∧
    wellFormed (.swrPhilox 0x043 1) = false ∧ wellFormed (.hintBr 3) = false := by decide
theorem test_wellFormed_flit : wellFormed (.flit 16 { header := 0, body := [], crc := 0 }) = false ∧
    wellFormed (.flit 15 { header := 0, body := [], crc := 0 }) = true := by decide

/-! ### Decoding: for every row that has an encoding, the word written from the table of 02 and of its own chapter, with a different
value in each field -/

/-- Each word decodes to the instruction beside it. -/
def readsAs (l : List (IWord × Instr)) : Bool := l.all fun p => decodeWord p.1 == .ok p.2

theorem test_decode_scalar : readsAs
    [(0x0532D800, .add 9 18 27), (0x0532D801, .sub 9 18 27), (0x0532D802, .mul 9 18 27), (0x0532D803, .mulhI 9 18 27),
     (0x0532D804, .mulhN 9 18 27), (0x0532D805, .divI 9 18 27), (0x0532D806, .divN 9 18 27), (0x0532D807, .remI 9 18 27),
     (0x0532D808, .remN 9 18 27), (0x0532D809, .and 9 18 27), (0x0532D80A, .or 9 18 27), (0x0532D80B, .xor 9 18 27),
     (0x0532D80C, .andn 9 18 27), (0x0532D80D, .shl 9 18 27), (0x0532D80E, .shrN 9 18 27), (0x0532D80F, .shrI 9 18 27),
     (0x0532D810, .rotr 9 18 27), (0x0532D811, .sltI 9 18 27), (0x0532D812, .sltN 9 18 27), (0x0532D813, .seq 9 18 27),
     (0x0532D814, .minI 9 18 27), (0x0532D815, .maxI 9 18 27), (0x0532D816, .minN 9 18 27), (0x0532D817, .maxN 9 18 27),
     (0x0532D818, .addsI 9 18 27), (0x0532D819, .subsI 9 18 27), (0x0532001A, .clz 9 18), (0x0532001B, .ctz 9 18),
     (0x0532001C, .pop 9 18), (0x0532001D, .sextI8 9 18), (0x0532001E, .sextI16 9 18), (0x0532001F, .sextI32 9 18),
     (0x05320020, .zextN8 9 18), (0x05320021, .zextN16 9 18), (0x05320022, .zextN32 9 18), (0x05320023, .bswap 9 18),
     (0x0532D824, .addsc1 9 18 27), (0x0532D825, .addsc2 9 18 27), (0x0532D826, .addsc3 9 18 27)] = true := by decide +kernel

theorem test_decode_immediate : readsAs
    [(0x09320158, .addi 9 18 344), (0x0D320158, .andi 9 18 344), (0x11320158, .ori 9 18 344), (0x15320158, .xori 9 18 344),
     (0x19320158, .slti 9 18 344), (0x1D320158, .sltni 9 18 344), (0x21320025, .shli 9 18 37),
     (0x25320025, .shriN 9 18 37), (0x29320025, .shriI 9 18 37), (0x2D320158, .addhi 9 18 344)] = true := by decide +kernel

theorem test_decode_local_access : readsAs
    [(0x313B2B01, .ldN 1 9 27 344), (0x313B2B05, .ldI 1 9 27 344), (0x353B2B01, .st 1 9 27 344),
     (0x353B2B05, .stK 1 9 27 344), (0x393B2B00, .vld 9 27 344), (0x393B55A4, .vldM 9 27 85 5),
     (0x393BC568, .vldG32 9 27 24 5 3), (0x393BC569, .vldG64 9 27 24 5 3), (0x393B2B0C, .vldCvtF32 9 27 344),
     (0x393B2B0D, .vldCvtF64 9 27 344), (0x3D3B2B00, .vst 9 27 344), (0x3D3B55A4, .vstM 9 27 85 5),
     (0x3D3BC568, .vstS32 9 27 24 5 3), (0x3D3BC569, .vstS64 9 27 24 5 3)] = true := by decide +kernel

theorem test_decode_requests : readsAs
    [(0x41320858, .mrqRd 1 1 18 9 24), (0x41320958, .mrqWr 1 1 18 9 24), (0x41320A55, .mrqWrm 1 18 9 85),
     (0x41200B00, .mrqWait 9 1), (0x41200C00, .mrqPoll 9 1)] = true := by decide +kernel

theorem test_decode_branches : readsAs
    [(0x4412D955, .beq 18 27 341), (0x4432D955, .bne 18 27 341), (0x4452D955, .blt 18 27 341),
     (0x4472D955, .bge 18 27 341), (0x4492D955, .bltn 18 27 341), (0x44B2D955, .bgen 18 27 341), (0x48000155, .jmp 341),
     (0x4C120158, .jmpr 18 344), (0x50120003, .loop 0 18 3), (0x52001803, .loopi 0 3 3)] = true := by decide +kernel

theorem test_decode_select : readsAs
    [(0x5532D803, .sel 3 9 18 27), (0x5532D80B, .cmov 3 9 18 27)] = true := by decide +kernel

theorem test_decode_vector_float : readsAs
    [(0x6132DD80, .vaddFp 1 9 18 27 5), (0x6132DD81, .vsubFp 1 9 18 27 5), (0x6132DD82, .vmulFp 1 9 18 27 5),
     (0x6132DD83, .vfma 1 9 18 27 5), (0x6132DD84, .vfms 1 9 18 27 5), (0x6132DD85, .vdiv 1 9 18 27 5),
     (0x61320586, .vsqrt 1 9 18 5), (0x6132DD87, .vminFp 1 9 18 27 5), (0x6132DD88, .vmaxFp 1 9 18 27 5),
     (0x61320589, .vabsFp 1 9 18 5), (0x6132058A, .vnegFp 1 9 18 5), (0x6132058B, .vrcp 1 9 18 5),
     (0x6132058C, .vrsq 1 9 18 5)] = true := by decide +kernel

theorem test_decode_vector_integer : readsAs
    [(0x6532DDA0, .vaddInt 2 1 9 18 27 5), (0x6532DDA1, .vsubInt 2 1 9 18 27 5), (0x6532DDA2, .vadds 2 1 9 18 27 5),
     (0x6532DDA3, .vsubs 2 1 9 18 27 5), (0x6532DDA4, .vmulInt 2 1 9 18 27 5), (0x6532DDA5, .vmulh 2 1 9 18 27 5),
     (0x6532DDA6, .vminInt 2 1 9 18 27 5), (0x6532DDA7, .vmaxInt 2 1 9 18 27 5), (0x6532DDA8, .vand 2 1 9 18 27 5),
     (0x6532DDA9, .vor 2 1 9 18 27 5), (0x6532DDAA, .vxor 2 1 9 18 27 5), (0x6532DDAB, .vshl 2 1 9 18 27 5),
     (0x6532DDAC, .vshr 2 1 9 18 27 5), (0x653205AD, .vabsInt 2 9 18 5)] = true := by decide +kernel

theorem test_decode_compares_conversions : readsAs
    [(0x6892DD20, .vcmpEq 1 4 18 27 5), (0x6892DD21, .vcmpNe 1 4 18 27 5), (0x6892DD22, .vcmpLt 1 4 18 27 5),
     (0x6892DD23, .vcmpLe 1 4 18 27 5), (0x6892DD24, .vcmpUn 1 4 18 27 5), (0x6D320021, .vcvt 2 1 9 18),
     (0x71320500, .vlog2 9 18 5), (0x71320501, .vexp2 9 18 5), (0x71200502, .vrand 9 5), (0x71200503, .vrandF32 9 5)] = true := by decide +kernel

theorem test_decode_reductions_permutes_masks : readsAs
    [(0x75320520, .vsum 1 9 18 5), (0x7532DD21, .vmaxi 1 9 18 27 5), (0x7532DD22, .vmini 1 9 18 27 5),
     (0x7932DD00, .vperm 9 18 27 5), (0x7932DD01, .vrot 9 18 27 5), (0x79320502, .vbcast32 9 18 5),
     (0x79320503, .vbcast64 9 18 5), (0x79321804, .vins32 9 18 3), (0x79321805, .vext32 9 18 3), (0x79200506, .vlane 9 5),
     (0x7932DD07, .vsel32 9 18 27 5), (0x79320508, .vmov32 9 18 5), (0x79321809, .vins64 9 18 3),
     (0x7932180A, .vext64 9 18 3), (0x7932DD0B, .vsel64 9 18 27 5), (0x7932050C, .vmov64 9 18 5),
     (0x7C221800, .kand 1 2 3), (0x7C221801, .kor 1 2 3), (0x7C221802, .kxor 1 2 3), (0x7C221803, .kandn 1 2 3),
     (0x7C320004, .kset 1 18), (0x7D220005, .kget 9 2), (0x7D220006, .kpop 9 2), (0x7D220007, .kffs 9 2)] = true := by decide +kernel

theorem test_decode_thresher : readsAs
    [(0x825B1B60, .mma 6 18 27 3 3), (0x825B1B70, .mmaZ 6 18 27 3 3), (0x825B1B61, .mmaT 6 18 27 3 3),
     (0x825B1B71, .mmaTZ 6 18 27 3 3), (0x84001B60, .accZero 6 3 3), (0x85200361, .accLd 6 9 3),
     (0x85200362, .accSt 9 6 3), (0x85200373, .accCvt 1 9 6 3), (0x8932DB70, .sqQuant 1 9 6 18 27 3),
     (0x8920DB71, .sqDeq 1 6 9 27 3), (0x8932D862, .sqAlign 9 18 27 3), (0x8932D863, .sqScale 9 18 27 3),
     (0x8C125800, .bfmtSet 11 18), (0x8D205801, .bfmtGet 9 11)] = true := by decide +kernel

theorem test_decode_wain : readsAs
    [(0xA132DE30, .cp 1 1 3 9 18 27), (0xA120DE60, .cpZ 1 3 9 27), (0xA012DE80, .cpPf 3 18 27),
     (0xA532DE30, .cp2 1 1 3 9 18 27), (0xA932DE30, .cpSq 1 1 3 9 18 27), (0xA932DE70, .cpSqt 1 1 3 9 18 27),
     (0xA932DE80, .cpFill 3 9 18 27), (0xAC120600, .cpWait 3 18), (0xAD320640, .cpWaitq 9 3 18), (0xAD200681, .cpRdc 9 3 1)] = true := by decide +kernel

theorem test_decode_atomics : readsAs
    [(0xB132D862, .amoAdd 1 1 0 1 9 18 27), (0xB132D8E2, .amoAnd 1 1 0 1 9 18 27), (0xB132D962, .amoOr 1 1 0 1 9 18 27),
     (0xB132D9E2, .amoXor 1 1 0 1 9 18 27), (0xB132DA62, .amoSwap 1 1 0 1 9 18 27), (0xB132DAE2, .amoMin 1 1 0 1 9 18 27),
     (0xB132DB62, .amoMax 1 1 0 1 9 18 27), (0xB132DBE2, .amoMinn 1 1 0 1 9 18 27), (0xB132DC62, .amoMaxn 1 1 0 1 9 18 27),
     (0xB132DCE2, .amoCas 1 1 0 1 9 18 27), (0xB132DD62, .amoFadd 1 1 0 1 9 18 27)] = true := by decide +kernel

theorem test_decode_local_atomics : readsAs
    [(0xB532D862, .lamoAdd 1 1 0 1 9 18 27), (0xB532D8E2, .lamoAnd 1 1 0 1 9 18 27), (0xB532D962, .lamoOr 1 1 0 1 9 18 27),
     (0xB532D9E2, .lamoXor 1 1 0 1 9 18 27), (0xB532DA62, .lamoSwap 1 1 0 1 9 18 27),
     (0xB532DAE2, .lamoMin 1 1 0 1 9 18 27), (0xB532DB62, .lamoMax 1 1 0 1 9 18 27),
     (0xB532DBE2, .lamoMinn 1 1 0 1 9 18 27), (0xB532DC62, .lamoMaxn 1 1 0 1 9 18 27),
     (0xB532DCE2, .lamoCas 1 1 0 1 9 18 27), (0xB532DD62, .lamoFadd 1 1 0 1 9 18 27)] = true := by decide +kernel

theorem test_decode_futures_barriers_fence : readsAs
    [(0xB932D800, .futRes 9 18 27), (0xB932D900, .futReg 9 18 27), (0xB812DA60, .futOn 18 27 3),
     (0xB9320300, .futRst 9 18), (0xBD320000, .barArr 9 18), (0xBD32D900, .barWait 9 18 27),
     (0xBD32DA00, .barPoll 9 18 27), (0xBC120300, .barJoin 18), (0xBC120400, .barLeave 18), (0xBC12DD00, .barCfg 18 27),
     (0xC0000111, .fence 1 1 1)] = true := by decide +kernel

theorem test_decode_queues_activations : readsAs
    [(0xC4120180, .qpush 3 18), (0xC412D990, .qpushAt 3 18 27), (0xC40001A0, .qmark 3), (0xC40001B0, .qmarkF 3),
     (0xC9200180, .qpop 9 3), (0xC920D990, .qpopm 9 3 27), (0xC92001A0, .qpeek 9 3), (0xC92001B3, .qstat 9 3 3),
     (0xCC000000, .commit), (0xCC000010, .abort), (0xCC000020, .yield)] = true := by decide +kernel

theorem test_decode_messages_sheaves : readsAs
    [(0xD132D800, .amSend 9 18 27), (0xD012D900, .amReply 18 27), (0xD0000200, .amEnd), (0xD1200304, .amStat 9 4),
     (0xD532D800, .shTag 9 18 27), (0xD4EA6000, .shTag 7 10 12), (0xD414AA00, .shRed 20 21), (0xD532D900, .shChk 9 18 27), (0xD412DA00, .shRed 18 27), (0xD412DB00, .shAck 18 27),
     (0xD532DC00, .shRel 9 18 27)] = true := by decide +kernel

theorem test_decode_system : readsAs
    [(0xE00D5800, .trap 427), (0xE0000001, .eret), (0xE0000002, .wfi), (0xE0000003, .halt), (0xE0001804, .brk 3),
     (0xE0000800, .info), (0xE0008000, .ctxPark), (0xE0008800, .ctxResume), (0xE0009000, .ctxKill),
     (0xE0009800, .quarantine), (0xE000A800, .regionSet), (0xE0010000, .keyLoad), (0xE0010800, .keyClear),
     (0xE0018000, .routeSet), (0xE0018800, .routeClear), (0xE0020000, .vqBind), (0xE0028000, .exportCall),
     (0xE0028800, .importCall), (0xE0030000, .attest), (0xE520010F, .srd 9 271), (0xE4121030, .swr 48 18),
     (0xE4121103, .swrBfmt 3 18), (0xE872D800, .ifl 18 27 3), (0xE812D900, .tlbinv 18 27), (0xED200000, .tbrd 9),
     (0xED200001, .tbrdSt 9), (0xEC120002, .waitt 18), (0xF8000000, .hintNop), (0xF8200002, .hintBr 2),
     (0xF8520155, .hintPf 18 341), (0xF8720003, .hintPg 18 3), (0xF880000B, .hintBank 11), (0xFC000002, .ximm 2),
     (0xE4071012, .swrLoopReg 0x012 7), (0xE4091040, .swrPhilox 0x040 9)] = true := by decide +kernel


/-! ### Witnesses: states and operands that meet the hypotheses of the statements -/

theorem witness_DecodeOfEncode : wellFormed (.vmaxi 0 8 2 10 0) = true ∧ encode (.vmaxi 0 8 2 10 0) = some 0x75025001 ∧
    wellFormed (.ximm 0x3FFFFFF) = true ∧ encode (.ximm 0x3FFFFFF) = some 0xFFFFFFFF := by decide +kernel

theorem witness_EncodeOfDecode : decodeWord 0x75025001 = .ok (.vmaxi 0 8 2 10 0) ∧ decodeWord 0xFFFFFFFF = .ok (.ximm 0x3FFFFFF) := by
  decide +kernel

/-- The word of `add s5, s6, s7` is the next that step runs, with no hint before it, and after one; a BUDGET that has fallen due, and an
`eret` at L0, stop the unit first. -/
theorem witness_StepRunsDecodedWord : base.agenda = [] ∧ base.nextStrand = some .main ∧ (base.tile.strand .main).asyncFaults = [] ∧
    (∃ s' : State, (base.issuing .main).fetch = .word 0x04A63800 s' ∧
      (gate (.add 5 6 7) s' == none && !s'.st.budgetDue && !s'.stopsFirst (.add 5 6 7) && s'.st.hint == none && s'.stopsFirst .eret) = true) ∧
    (∃ s' : State, ((base.onSt fun x => { x with hint := some (.hintPf 1 0), budgetDue := true }).issuing .main).fetch = .word 0x04A63800 s' ∧
      (s'.st.hint == some (.hintPf 1 0) && s'.st.budgetDue) = true) ∧
    decodeWord 0x04A63800 = .ok (.add 5 6 7) ∧ isHint (.add 5 6 7) = false ∧ isHint .hintNop = true := by
  refine ⟨?_, ?_, ?_, exists_fetch ?_, exists_fetch ?_, ?_⟩ <;> decide +kernel

/-- Outside the code region; a word that the instruction cache holds; one that it does not hold. -/
theorem witness_FetchReadsWord :
    ((base.onSt fun x => { x with pc := 0x10004 }).cx.clim.toNat ≤ 0x10004) ∧
    (base.cx.cbase.toNat ≤ base.st.pc.toNat ∧ base.st.pc.toNat < base.cx.clim.toNat) ∧ mapped base base.st.pc 4 2 = true ∧
    base.tile.icache.find? (fun p => p.1 == 0x10000) = some (0x10000, 0x04A63800) ∧ base.tile.codeBad.contains 0x10000 = false ∧
    (let s := base.onTile fun t => { t with icache := [] }
     mapped s s.st.pc 4 2 = true ∧ s.tile.icache.find? (fun p => p.1 == 0x10000) = none ∧ s.reqs = [] ∧ s.atomics = [] ∧ s.lineHit 0x10000 1 = none ∧
     s.askCheck (s.askerOf s.tile.ltn s.tile.paddock (s.st.lvl == 2) 1) 0x10000 = .ok ∧
     { s with reqs := [{ serial := 0, kind := .wr, handle := .none, strand := .main, source := 0, paddock := 0, l2 := false, pa := 0x10000, key := 1,
                         len := 64, bmask := 0, data := [], phase := .toBase, status := .ok, version := 0, refused := false }] }.lineBusy 0x10000 = true ∧
     { s with reqs := [{ serial := 0, kind := .wr, handle := .none, strand := .main, source := 0, paddock := 0, l2 := false, pa := 0x10000 + 64, key := 1,
                         len := 64, bmask := 0, data := [], phase := .toSlice, status := .ok, version := 0, refused := false }], reqSerial := 1 }.olderWaits
       (s.gid s.tile.ltn) (sliceOf (0x10000 + 64)) 1 = true ∧
     (s.onTile fun t => { t with icache := [(0x10000, 5)], codeBad := [0x10000] }).tile.codeBad.contains 0x10000 = true ∧
     fails (s.onCx fun c => { c with clim := 0x40000 }) 0x20000 4 2 = true ∧ walks (s.onCx fun c => { c with clim := 0x40000, rootKey := 1 }) 0x20000 4 2 = true ∧
     s.eccBad = [] ∧ s.eccSoft = [] ∧ s.channels = [] ∧ s.poison = [] ∧ s.rangeStale 1 0x10000 4 = false) := by decide +kernel

theorem witness_MemoryReadAfterWrite : Memory.wf [⟨5, 1⟩, ⟨9, 2⟩] = true := by decide +kernel

theorem witness_ScalarRegisterResults : ∀ i ∈ [Instr.add 1 2 3, .sub 1 2 3, .mul 1 2 3, .mulhI 1 2 3, .mulhN 1 2 3, .divI 1 2 3, .divN 1 2 3,
    .remI 1 2 3, .remN 1 2 3, .addsI 1 2 3, .subsI 1 2 3, .addsc1 1 2 3, .addsc2 1 2 3, .addsc3 1 2 3, .and 1 2 3, .or 1 2 3, .xor 1 2 3,
    .andn 1 2 3, .shl 1 2 3, .shrN 1 2 3, .shrI 1 2 3, .rotr 1 2 3, .sltI 1 2 3, .sltN 1 2 3, .seq 1 2 3, .minI 1 2 3, .maxI 1 2 3,
    .minN 1 2 3, .maxN 0 31 0], Issues i base := by decide +kernel

theorem witness_ScalarUnaryImmediatesAndMoves : (∀ i ∈ [Instr.clz 1 2, .ctz 1 2, .pop 1 2, .sextI8 1 2, .sextI16 1 2, .sextI32 1 2, .zextN8 1 2,
      .zextN16 1 2, .zextN32 1 2, .bswap 1 2, .sel 0 1 2 3, .sel 7 1 2 3, .cmov 5 1 2 3, .cmov 6 1 2 3], Issues i base) ∧
    SignedImm base (0x8000 : BitVec 16) 0xFFFFFFFFFFFF8000 ∧ UnsignedImm base (63 : BitVec 16) 63 ∧ UnsignedImm base (64 : BitVec 16) 64 ∧
    (∀ i ∈ [Instr.addi 1 2 0x8000, .andi 1 2 0, .ori 1 2 0, .xori 1 2 0, .slti 1 2 0, .sltni 1 2 0, .addhi 1 2 0, .shli 1 2 63, .shriN 1 2 64,
      .shriI 1 2 0], Issues i (base.onSt fun x => { x with ximm := some 0x3FF89AB })) ∧
    ((0x3FF89AB : BitVec 26) ++ (0xCDEF : BitVec 16)).signExtend 64 = (0xFFFFFFFF89ABCDEF : DW) := by decide +kernel

theorem witness_BranchesAndJumps : (∀ i ∈ [Instr.beq 1 2 3, .bne 1 2 3, .blt 1 2 3, .bge 1 2 3, .bltn 1 2 3, .bgen 1 2 3, .jmp 3, .jmpr 1 4],
    Issues i base) ∧ SignedImm base (0x7FF : BitVec 11) (-1) ∧ SignedImm base (0x2000000 : BitVec 26) (-0x2000000) ∧
    SignedImm base (4 : BitVec 16) 4 := by decide +kernel

/-- The two instructions; a level whose end is the word, with a count of 2 and of 1, and one whose new end lies before the word. -/
theorem witness_Loops : Issues (.loop 1 8 3) base ∧ Issues (.loopi 0 5 3) base ∧ UnsignedImm base (5 : BitVec 13) 5 ∧ (base.reg 8).extractLsb' 0 32 = 64 ∧
    (let l : LoopLevel := { LoopLevel.reset with lc := 2, ls := 0xFFF0, le := 0x10000, active := true }
     let x : Strand := { base.st with loop1 := l }
     (x.loop1.active && x.loop1.le == x.pc) = true ∧ 2 ≤ l.install.lc.toNat ∧ x.pc.toNat ≤ l.install.le.toNat ∧
     { l with pendLe := some 0xFF00 }.install.le.toNat < x.pc.toNat ∧ { l with lc := 1 }.install.lc.toNat ≤ 1 ∧
     ({ base.st with loop0 := l }.loop1.active && (base.st.loop1.le == base.st.pc)) = false ∧
     ((base.st.loop1.active && base.st.loop1.le == base.st.pc) = false ∧ (base.st.loop0.active && base.st.loop0.le == base.st.pc) = false)) := by
  decide +kernel

/-- A word that completes, without and with s0 as its destination. -/
theorem witness_ScalarFrame : scalarDest (.add 5 8 9) = some 5 ∧ scalarDest (.divN 0 8 9) = some 0 ∧ Issues (.add 5 8 9) base ∧
    exec (.add 5 8 9) base = .next (nextOf (exec (.add 5 8 9) base)) ∧ (nextOf (exec (.add 5 8 9) base)).st.act = true ∧
    exec (.divN 0 8 9) base = .next (nextOf (exec (.divN 0 8 9) base)) ∧ (nextOf (exec (.divN 0 8 9) base)).st.act = true :=
  by refine ⟨?_, ?_, ?_, rfl, ?_, rfl, ?_⟩ <;> decide +kernel

/-- Misaligned, past the end, outside the regions; a bad word; the last doubleword of the scratchpad passes. -/
theorem witness_LocalAccessTraps : SignedImm base (0 : BitVec 11) 0 ∧ ¬ (65 : DW).toNat % 8 = 0 ∧ ¬ (0xFFFF8 + 8 : DW).toNat + 8 ≤ 0x100000 ∧
    ¬ Readable (base.onTile fun t => { t with spadBad := [8] }) 64 8 ∧ Readable (base.onTile fun t => { t with spadBad := [7, 9] }) 64 8 ∧
    (∀ i ∈ [Instr.ldN 3 1 8 0, .ldI 2 1 8 0, .ldI 3 1 8 0, .st 3 1 8 0, .stK 3 1 8 0], Issues i base) := by decide +kernel
theorem witness_LocalAccessTraps_pass : AllLocal base [(0xFFFF8, 8, true), (64, 8, false)] := allLocal (by decide +kernel)

/-- A scalar and a vector load and store, at s8 and s9; a commit buffer with 63 entries and with 64. -/
theorem witness_LoadsAndStores : SignedImm base (0 : BitVec 11) 0 ∧ SignedImm base (0 : BitVec 8) 0 ∧ base.reg 9 = 128 ∧ base.tile.spad.wf = true ∧
    base.tile.act = some probeAct ∧ probeAct.staged.length < 64 ∧ 64 ≤ (List.replicate 64 ({ addr := 0, size := 1, data := 0 } : Staged)).length ∧
    (∀ i ∈ [Instr.ldN 3 1 8 0, .ldI 0 1 8 0, .st 0 1 8 0, .stK 3 1 8 0, .vld 1 9 0, .vldM 1 9 0 2, .vst 1 9 0, .vstM 1 9 0 2], Issues i base) ∧
    Readable base 64 8 ∧ Readable base 128 128 := by decide +kernel
theorem witness_LoadsAndStores_local : AllLocal base [(64, 1, false), (64, 8, true), (128, 128, false), (0xFFF80, 128, true)] :=
  allLocal (by decide +kernel)

/-- Every index is 0, so all elements meet at s8; with a mask of one bit none meets another. -/
theorem witness_LoadsAndStores_gathers : (∀ i ∈ [Instr.vldG32 1 8 2 3 1, .vldG64 1 8 2 3 7, .vstS32 1 8 2 3 0, .vstS64 1 8 2 3 0], Issues i base) ∧
    (∀ e, e < 32 → vElem 32 (base.vreg 2) e = 0) ∧ base.reg 8 = 64 ∧ Readable base 64 8 ∧
    ((List.range 32).filter fun f => ((base.setK 3 1).kreg 3).getLsbD f) = [0] := by decide +kernel
theorem witness_LoadsAndStores_gathers_local : AllLocal base [(64, 4, false), (64, 8, true)] := allLocal (by decide +kernel)

/-- A decoded load at s8 of 32 one-byte codes, of a linear bank of squares, and of a plane-major bank of FP8: element and place edges. -/
theorem witness_DecodedLoads : Issues (.vldCvtF32 1 8 0) base ∧ Issues (.vldCvtF64 1 8 0) base ∧ SignedImm base (0 : BitVec 11) 0 ∧
    bankFmt (base.tile.bank 0) = 0 ∧ bankPlane (base.tile.bank 0) = false ∧ isSquareFmt 0 = false ∧ Readable base 64 32 ∧
    ¬ Readable (base.onTile fun t => { t with spadBad := [8] }) 64 32 ∧
    (let t := (base.onTile fun t => { t with bfmt := (t.bfmt.set 0 15).set 1 0x1D }).tile
     bankFmt (t.bank 0) = 15 ∧ isSquareFmt 15 = true ∧ bankPlane (t.bank 1) = true ∧ bankFmt (t.bank 1) = 13) ∧
    (0x40 % (128 * bankWidth 13) / 4 < 32 ∧ 0x40 / (128 * bankWidth 13) < slotCount 13) ∧
    slotCount 13 ≤ 0xFFFC / (128 * bankWidth 13) := by decide +kernel

theorem witness_VectorFloat : ∀ i ∈ [Instr.vaddFp 0 1 2 3 4, .vsubFp 1 1 2 3 4, .vmulFp 0 1 2 3 0, .vfma 1 1 2 3 4, .vfms 0 1 1 1 4, .vdiv 1 1 2 3 4,
    .vminFp 0 1 2 3 4, .vmaxFp 1 1 2 3 4, .vsqrt 0 1 2 4, .vrcp 1 1 2 4, .vrsq 0 1 2 4, .vabsFp 1 1 2 4, .vnegFp 0 1 2 4],
    Issues i base := by decide +kernel

/-- The smallest significand; finite, infinite and quiet operands that are no NaN or are one. -/
theorem witness_VectorFloat_special : 0 < (1 : Nat) ∧ (FVal.fin true 0 0).isNan = false ∧ (FVal.inf true).isNan = false := by decide

theorem witness_VectorInteger : ∀ i ∈ [Instr.vaddInt 0 0 1 2 3 4, .vsubInt 1 1 1 2 3 4, .vadds 2 1 1 2 3 4, .vsubs 3 0 1 2 3 4, .vmulInt 0 0 1 2 3 4,
    .vmulh 1 1 1 2 3 4, .vminInt 2 0 1 2 3 4, .vmaxInt 3 1 1 2 3 4, .vand 0 0 1 2 3 4, .vor 1 0 1 2 3 4, .vxor 2 0 1 2 3 4,
    .vshl 3 0 1 2 3 4, .vshr 0 1 1 2 3 4, .vabsInt 3 1 2 4], Issues i base := by decide +kernel

/-- A conversion between floats with SR_FPCTL.STO, which draws; one from an integer, which does not; a drawing command in flight. -/
theorem witness_ConversionsAndRandom : (∀ i ∈ [Instr.vcvt 8 7 1 2, .vcvt 15 7 1 2, .vcvt 7 15 1 2, .vcvt 7 1 1 2, .vlog2 1 2 3, .vexp2 1 2 3, .vrand 1 2,
      .vrandF32 1 2], Issues i base) ∧ base.tile.drawing = false ∧
    (let s := base.onCx fun c => { c with sto := true }
     (s.sto && (fmtOf 7).isSome && (fmtOf 8).isSome && (8 : BitVec 4) != 7) = true ∧ (s.sto && (fmtOf 1).isSome && (fmtOf 7).isSome) = false) := by
  decide +kernel

/-- A mask of one element, an element that is a signalling NaN, and no candidate at all. -/
theorem witness_Reductions : (∀ i ∈ [Instr.vsum 0 1 2 3, .vsum 1 1 2 3, .vsum 2 1 2 3, .vsum 3 1 2 3, .vsum 4 1 2 3, .vmaxi 0 8 2 10 0,
      .vmini 3 30 2 10 0, .vmaxi 0 31 2 10 0, .vmini 4 8 2 10 0, .vmaxi 2 0 2 10 0], Issues i base) ∧
    redNan 0 0x7F800001 = (true, true) ∧ redNan 0 0x7FC00000 = (true, false) ∧ redNan 2 0x7F800001 = (false, false) ∧
    ((List.range 32).filter fun e => (base.kreg 3).getLsbD e) = [] ∧ ((List.range 16).filter fun e => (base.kreg 0).getLsbD e).length = 16 := by
  decide +kernel

theorem witness_PermutesMovesAndMasks : ∀ i ∈ [Instr.vperm 1 2 3 4, .vrot 1 2 3 4, .vbcast32 1 2 3, .vbcast64 1 2 3, .vlane 1 2, .vmov32 1 2 3,
    .vmov64 1 2 3, .vins32 1 2 31, .vins64 1 2 15, .vsel32 1 2 3 4, .vsel64 1 2 3 4, .vext32 1 2 31, .vext64 0 2 15, .kand 1 2 3, .kor 1 2 3, .kxor 1 2 3, .kandn 0 2 3, .kset 1 2, .kget 0 2,
    .kpop 1 2, .kffs 1 0], Issues i base := by
  decide +kernel

theorem witness_VectorCompares : (∀ i ∈ [Instr.vcmpEq 5 1 2 3 4, .vcmpNe 6 1 2 3 4, .vcmpLt 0 0 2 3 4, .vcmpLe 4 1 2 3 4, .vcmpUn 1 1 2 3 4,
      .vcmpUn 2 1 2 3 4], Issues i base) ∧
    (FVal.nan true true).isNan = true ∧ (FVal.nan true true).isSig = true := by decide +kernel

/-- The last full granule of the mapped page, an idle tag and a busy one; a misaligned address and an empty mask. -/
theorem witness_RequestIssue : (∀ i ∈ [Instr.mrqRd 3 1 10 8 0, .mrqRd 0 1 10 0 0, .mrqWr 3 7 10 8 0, .mrqWrm 1 10 8 0x81, .mrqWrm 1 10 8 0], Issues i base) ∧
    SignedImm base (0 : BitVec 6) 0 ∧ base.reg 10 = 0x10040 ∧ (0x10040 : DW).toNat % 64 = 0 ∧ mapped base 0x10040 64 0 = true ∧
    mapped base 0x1FFC0 64 1 = true ∧ Readable base 64 64 ∧
    (base.tile.tag 1).phase = .idle ∧ ((base.setTag 1 { Tag.reset with phase := .busy }).tile.tag 1).phase = .busy ∧ (0x10044 : DW).toNat % 64 ≠ 0 := by
  decide +kernel
theorem witness_RequestIssue_local : AllLocal base [(64, 64, true), (64, 64, false)] := allLocal (by decide +kernel)

/-- Records whose tag agrees with their codes, disagrees, or is BAD. -/
theorem witness_records : recResidue (zeroRecord (makeTag 0 3 1 false)) = tagResidue (recTag (zeroRecord (makeTag 0 3 1 false))) ∧
    recResidue (zeroRecord (makeTag 5 3 1 false)) ≠ tagResidue (recTag (zeroRecord (makeTag 5 3 1 false))) ∧
    tagBad (recTag (zeroRecord (tagSetBad (makeTag 0 3 1 false)))) = true ∧ tagBad (recTag (zeroRecord (makeTag 0 3 1 false))) = false ∧
    recTag (zeroRecord (makeTag 0 3 1 false)) ≠ 0 ∧ (zeroRecord (makeTag 0 3 1 false)).length = 4160 ∧
    hE (recHeader (zeroRecord 0)) = hE (recHeader (zeroRecord (makeTag 0 3 1 false))) := by
  rw [zero_record_residue (by decide +kernel) (by decide +kernel), zero_record_residue (by decide +kernel) (by decide +kernel)]
  decide +kernel

/-- A request as its packet leaves the tile. -/
def req (kind : ReqKind) (phase : ReqPhase) : MemReq :=
  { serial := 0, kind := kind, handle := .tag 1, strand := .main, source := 0, paddock := 0, l2 := false, pa := 0x10040, key := 1, len := 64,
    bmask := BitVec.allOnes 64, data := List.replicate 64 5, phase := phase, status := .ok, version := 0,
    refused := false }

/-- The request is on its way, its tag busy. -/
def withReq (q : MemReq) : State :=
  at' { base.setTag 1 { Tag.reset with phase := .busy, dest := some 64 } with reqs := [q], reqSerial := 1 } 0 0

theorem witness_RequestReplies : (∀ i ∈ [Instr.mrqWait 5 1, .mrqPoll 5 1], Issues i base) ∧ (base.tile.tag 1).phase = .idle ∧
    (let d := base.setTag 1 { Tag.reset with phase := .done, data := 9 }
     (d.tile.tag 1).phase = .done ∧ (d.tile.tag 1).status = .ok) ∧
    ((base.setTag 1 { Tag.reset with phase := .done, status := .poison }).tile.tag 1).status = .poison ∧
    (let s := withReq { req .rd .toTile with len := 8, data := List.replicate 8 5 }
     s.input.k = 0 ∧ s.reqs[0]? = some { req .rd .toTile with len := 8, data := List.replicate 8 5 } ∧ s.tile.spad.wf = true ∧
     (req .rd .toTile).source = s.gid s.tile.ltn ∧ (s.tile.tag 1).dest = some 64) := by decide +kernel

/-- A read that hits and one that misses, a write, a request of a younger tile request behind an older one; a reply that may pass. -/
theorem witness_RequestsAtHomeSlice : (withReq (req .rd .toSlice)).sliceMay (req .rd .toSlice) = true ∧
    (∀ q ∈ (withReq (req .rd .toSlice)).reqs, q.taken = true → q.kind = .sqwr → q.sameLine (req .rd .toSlice) = false) ∧
    (withReq (req .rd .toSlice)).lineHit 0x10040 1 = none ∧
    ({ withReq (req .rd .toSlice) with lines := [{ pa := 0x10040, key := 1, data := List.replicate 64 3 }] }.lineHit 0x10040 1).isSome = true ∧
    (withReq (req .wr .toSlice)).sliceMay (req .wr .toSlice) = true ∧ (withReq (req .sqrd .toSlice)).sliceMay (req .sqrd .toSlice) = true ∧
    (withReq (req .rd .toBase)).sliceMay (req .rd .toBase) = false ∧
    (withReq (req .rd .fromBase)).replyMay 0 (req .rd .fromBase) = true ∧ (withReq (req .rd .toBase)).replyMay 0 (req .rd .toBase) = false := by
  decide +kernel

theorem witness_RequestsAtHomeSlice_tags : recTag (List.replicate 64 0) = 0 ∧ tagBad (makeTag 0 3 1 false) = false ∧
    recTag (leBytes 32 0 ++ leBytes 8 (makeTag 0 3 1 false)) = makeTag 0 3 1 false ∧
    (withReq (req .rd .fromBase)).eccBad = [] ∧ (withReq (req .rd .fromBase)).rangeStale 1 0x10040 64 = false := by decide +kernel

theorem witness_BaseDieRequests : (withReq (req .rd .toBase)).baseMay 0 (req .rd .toBase) = true ∧
    (withReq (req .rd .toSlice)).baseMay 0 (req .rd .toSlice) = false ∧
    (let s := withReq (req .wr .toBase)
     s.askCheck (req .wr .toBase).asker 0x10040 = .ok ∧ s.eccBad = [] ∧ s.eccSoft = [] ∧ s.parityBad = [] ∧ s.paritySoft = [] ∧ s.channels = [] ∧ s.poison = [] ∧ s.rangeStale 1 0x10040 64 = false ∧
     s.mem.wf = true ∧ s.parity.wf = true ∧ (req .wr .toBase).data.length = 64) ∧
    { withReq (req .rd .toBase) with chanOwner := [] }.askCheck (req .rd .toBase).asker 0x10040 = .ownErr ∧
    { withReq (req .rd .toBase) with keySlots := [] }.askCheck (req .rd .toBase).asker 0x10040 = .keyErr ∧
    squarePlaceOk 0x10040 64 = true ∧ squarePlaceOk 0x10FC0 128 = false ∧ (0x10040 / 32) ∈ granulesOf 0x10040 64 ∧
    (withReq (req .pdelta .toBase)).ownerOk (req .pdelta .toBase).asker 0x10040 = true ∧
    { withReq (req .pdelta .toBase) with chanOwner := [] }.ownerOk (req .pdelta .toBase).asker 0x10040 = false ∧
    0x10040 % 32 = 0 ∧ (req .pdelta .toBase).data.length % 32 = 0 ∧
    (withReq { req .pdelta .fromBase with handle := .delta 3 }).reqs[0]? = some { req .pdelta .fromBase with handle := .delta 3 } := by decide +kernel

theorem witness_MemoryUpkeep : (let s := at' { base with eccBad := [5] } 5 0
     5 ∈ s.eccBad ∧ s.chanState (mainMap (5 * 32)).stack (mainMap (5 * 32)).ch = .healthy ∧ s.canRebuild 5 = true ∧
     5 ∉ { s with eccBad := [], eccSoft := [5] }.eccBad ∧ { s with poison := ((stripeGranules (parityOf 5)).filter (· != 5)).take 1 }.canRebuild 5 = false ∧ (∀ r ∈ s.reqs, r.taken = true → 5 ∉ granulesOf r.pa r.len)) ∧
    (let s := { base with eccBad := [5], parity := base.parity.writeBytes (parityOf 5 * 32) [9], granKeys := [] }
     s.canRebuild 5 = true ∧ s.survivors 5 ≠ s.cipher 5 ∧ { s with parity := [] }.survivors 5 = { s with parity := [] }.cipher 5) ∧
    (let s := at' { base with channels := [{ stack := 1, ch := 3, state := .degraded, rebuilds := [] }] } 0 3
     s.chanState 0 3 = .healthy ∧ s.otherFailed 0 3 = true ∧ s.chanState 1 3 ≠ .healthy ∧ s.otherFailed 15 31 = false ∧ s.chanState 15 31 = .healthy) ∧
    (let e : MemEvent := { kind := 2, stack := 0, ch := 0, stripe := 0, offset := 0, source := 0, scrub := true, count := 1, time := 0 }
     let s := at' { base with memEvents := [e] } 0 0
     s.memEvents[0]? = some e ∧ (s.chanOwner.find? fun x => x.1 == e.ch) = some (0, 0) ∧ e.kind ≠ 1 ∧ s.corrAt { e with kind := 1 } = none ∧
     { s with corrSent := [(0, 0, 5)] }.corrAt { e with kind := 1 } = some 5 ∧ s.tb.toNat < 5 + 10 ^ 9) := by decide +kernel

/-- A strand that waits on an entry, without and with an open event; an event that is 2^30 ns old. -/
def pageWait : PageWait :=
  { tile := 0, agent := .mrq .main, access := 0, lvl := 3, va := 0x20000, ptePa := 0x40, pte := 0, asid := 0, ctx := 0, onHandler := false, paddock := 0,
    event := none }
def pageEvent : PageEvent := { die := 0, id := 4, paddock := 0, ptePa := 0x40, postedAt := 0 }

theorem witness_PageEvents :
    (let s := at' { base with pageWaits := [pageWait] } 0 0
     s.pageWaits[0]? = some pageWait ∧ pageWait.event = none ∧
     (s.pageEvents.find? fun x => x.die == dieOf pageWait.tile && x.ptePa == pageWait.ptePa && x.paddock == pageWait.paddock) = none ∧
     0 < s.eventQuota 0 ∧ ({ s with pageEvents := [pageEvent] }.pageEvents.find? fun x =>
       x.die == dieOf pageWait.tile && x.ptePa == pageWait.ptePa && x.paddock == pageWait.paddock) = some pageEvent) ∧
    (let s := { base with pageWaits := [{ pageWait with event := some 4 }], pageEvents := [pageEvent], tb := 0x40000000 }
     s.pageEvents[0]? = some pageEvent ∧ pageEvent.postedAt + 2 ^ 30 ≤ s.tb.toNat ∧ dieOf pageWait.tile = pageEvent.die) ∧
    (let m : Msg := { note with entry := 12, payload := (Vector.replicate 6 (0 : DW)).set 0 4 }
     let s := { base with pageWaits := [{ pageWait with event := some 4 }], pageEvents := [pageEvent],
                          tile := { base.tile with mailbox := [m] } }
     s.builtin 12 = some m ∧ (∀ x ∈ s.pageEvents, x.die = pageEvent.die → x.id = pageEvent.id → x = pageEvent) ∧ m.dw 0 = BitVec.ofNat 64 (pageEvent.id.toNat + pageEvent.die * 2 ^ 16)) := by decide +kernel

theorem witness_GlobalAtomicIssue : (∀ i ∈ [Instr.amoAdd 1 0 0 2 5 10 6, .amoAnd 0 1 1 3 0 10 6, .amoOr 1 0 0 0 5 10 6, .amoXor 1 0 0 0 5 10 6,
      .amoSwap 1 0 0 0 5 10 6, .amoMin 1 0 0 0 5 10 6, .amoMax 1 0 0 0 5 10 6, .amoMinn 1 0 0 0 5 10 6, .amoMaxn 1 0 0 0 5 10 6,
      .amoCas 1 0 0 4 5 10 6, .amoFadd 0 0 0 0 5 10 6], Issues i base) ∧ base.reg 10 = 0x10040 ∧ mapped base 0x10040 8 0 = true ∧
    mapped (base.translate 0 base.xc 0 0x10040 8 0 false).2 0x10040 8 1 = true ∧ base.laneBusy 0 (laneOf 0x10040) = false ∧
    fails base 0x20000 8 0 = true ∧ base.fenceWaits 3 3 = false ∧ { base with reqs := [req .wr .toSlice] }.fenceWaits 3 3 = true ∧ (0x10044 : DW).toNat % 8 ≠ 0 := by
  decide +kernel

/-- A 64-bit ADD at its home slice, which holds its lane. -/
def amo : AtomicReq :=
  { serial := 0, tile := 0, strand := .main, run := 1, ctx := 0, op := .amo 0 true, lane := 1, seq := 0, va := 0x10040, pa := 0x10040, key := 1, x := 2,
    c := 0, d := 5, hold := true, aq := false, trigger := false, unit := 0x10000, word := 0x10000, paddock := 0, l2 := false, sentAt := 0, lastSent := 0, atSlice := false,
    reply := none }

theorem witness_GlobalAtomicIssue_busy : { base with atomics := [amo] }.laneBusy 0 (laneOf 0x10040) = true := by decide +kernel

theorem witness_AtomicsAtHome :
    (let s := at' { base with atomics := [amo] } 0 0
     s.atomics[0]? = some amo ∧ amo.reply = none ∧ s.lineBusy amo.pa = false ∧ s.olderWaits (s.gid amo.tile) (sliceOf amo.pa) amo.serial = false ∧
     s.idTable = [] ∧ (s.sliceRead (s.atomAsker amo) amo.pa amo.bytes).1 = .ok ∧ (amo.effect 3).new = some 5) ∧
    (let e : IdEntry := { slice := sliceOf amo.pa, source := BitVec.ofNat 23 (base.gid 0), lane := 1, seq := 0, old := 9, cause := .none, lastUse := 0 }
     let s := at' { base with atomics := [amo], idTable := [e] } 0 0
     s.idTable.find? (s.idKey amo) = some e ∧ e.seq = amo.seq ∧ s.idTable[0]? = some e) ∧
    (let a := { amo with reply := some (9, .ok, .none) }
     let s := at' { base.onSt (fun x => { x with wait := some (.reply 1) }) with atomics := [a], tb := 0x1000000 } 0 1
     s.atomics[0]? = some a ∧ (s.tile.strand a.strand).wait = some (.reply a.lane) ∧ a.tile = s.tile.ltn ∧ a.sentAt + 2 ^ 22 ≤ s.tb.toNat ∧
     (∀ g ∈ s.tile.triggers, (s.tile.ctr g.ctr).done < g.n) ∧ a.lastSent + 65536 ≤ s.tb.toNat ∧ replyCause .poison .none = some .uncorr ∧ s.input.j ≠ 0) := by decide +kernel

theorem witness_LocalAtomics : (∀ i ∈ [Instr.lamoAdd 1 0 0 2 5 8 6, .lamoAnd 0 1 1 3 0 8 6, .lamoOr 1 0 0 0 5 8 6, .lamoXor 1 0 0 0 5 8 6,
      .lamoSwap 1 0 0 0 5 8 6, .lamoMin 1 0 0 0 5 8 6, .lamoMax 1 0 0 0 5 8 6, .lamoMinn 1 0 0 0 5 8 6, .lamoMaxn 1 0 0 0 5 8 6,
      .lamoCas 1 0 0 4 5 8 6, .lamoFadd 0 0 0 0 5 8 6], Issues i base) ∧ base.fenceWaits 1 3 = false ∧
    { base with reqs := [req .wr .toSlice] }.fenceWaits 1 3 = true ∧
    base.reg 8 = 64 ∧ Readable base 64 8 ∧ base.tile.spad.wf = true ∧ ¬ Readable (base.onTile fun t => { t with spadBad := [8] }) 64 8 ∧
    (let s := base.onTile fun t => { t with regions0 := Vector.replicate 16 0xFFFC000003 }
     s.tile.regionOk 0 64 8 false = true ∧ s.tile.regionOk 0 64 8 true = false) := by decide +kernel
theorem witness_LocalAtomics_local : AllLocal base [(64, 8, false), (64, 8, true)] := allLocal (by decide +kernel)

theorem witness_FuturesAndJoins : (∀ i ∈ [Instr.futRes 5 10 8, .futReg 5 10 9, .futRst 5 10, .futOn 10 8 2, .futOn 10 0 2], Issues i base) ∧
    mapped base 0x10040 8 0 = true ∧ mapped (base.translate 0 base.xc 0 0x10040 8 0 false).2 0x10040 8 1 = true ∧
    mapped (base.setReg 9 0x10080) 0x10080 16 1 = true ∧ base.laneBusy 0 (laneOf 0x10040) = false ∧ (base.reg 8).toNat < 2 ^ 33 ∧ base.fenceWaits 3 3 = false ∧
    ((base.tile.ctr 2).issue < (base.reg 8).toNat) ∧ (base.reg 0).toNat ≤ (base.tile.ctr 2).issue ∧ (base.reg 0).toNat ≤ (base.tile.ctr 2).done ∧
    base.tile.triggers = [] ∧ (base.tile.ctr 2).err.valid = false ∧ (0x10044 : DW).toNat % 8 ≠ 0 ∧ (0x10088 : DW).toNat % 16 ≠ 0 ∧
    2 ^ 33 ≤ ((base.setReg 8 0x200000000).reg 8).toNat ∧
    (base.onTile fun t => { t with triggers := List.replicate 16 { ctr := 2, n := 1, pa := 0x10040, key := 1 } }).tile.triggers.length = 16 ∧
    (let t := base.onTile fun t => t.modCtr 2 fun k => { k with issue := 64 }
     (t.reg 8).toNat ≤ (t.tile.ctr 2).issue ∧ (t.tile.ctr 2).done < (t.reg 8).toNat) ∧
    (let j : JoinDec := { slice := 0, lane := 0, seq := 0, pa := 0x10050, key := 1, paddock := 0, fail := true }
     let s := at' { base with joins := [j], mem := base.mem.writeLe 0x10050 8 2 } 0 0
     s.joins[0]? = some j ∧ s.lineBusy j.pa = false ∧ s.idTable = [] ∧
     (State.sliceRead { s with joins := dropAt 0 s.joins } { source := 2 ^ 22 + s.pkg.toNat * 2 ^ 10 + j.slice, paddock := j.paddock, l2 := false, key := j.key }
       j.pa 16).1 = .ok ∧
     (State.sliceRead { s with joins := dropAt 0 s.joins } { source := 2 ^ 22 + s.pkg.toNat * 2 ^ 10 + j.slice, paddock := j.paddock, l2 := false, key := j.key }
       j.pa 16).2.1 = leBytes 8 2 ++ leBytes 8 0 ∧ 1 % 2 ^ 16 = 1 ∧ s.joinTarget j.paddock (0 % 2 ^ 22) (0 / 2 ^ 22 % 16) = none ∧
     (let u := { s with mem := base.mem.writeLe 0x10050 8 1 }
      (State.sliceRead { u with joins := [] } { source := 2 ^ 22 + s.pkg.toNat * 2 ^ 10 + j.slice, paddock := j.paddock, l2 := false, key := j.key }
        j.pa 16).2.1 = leBytes 8 1 ++ leBytes 8 0) ∧
     (State.sliceRead { base with joins := [] } { source := 2 ^ 22 + s.pkg.toNat * 2 ^ 10 + j.slice, paddock := j.paddock, l2 := false, key := j.key }
       j.pa 16).2.1 = leBytes 8 0 ++ leBytes 8 0) := by decide +kernel

/-- A request of the main strand of tile 0 for object 8. -/
def barReq (op : BarOp) (p : BarPhase) : BarReq :=
  { tile := 0, strand := .main, run := base.runRef.run, ctx := 0, paddock := 0, obj := 8, op := op, seq := 0, sentAt := 0, copy := false, phase := p }
def asking (op : BarOp) (p : BarPhase) : State := { base with barReqs := [barReq op p] }

/-- A turn answers a next state. -/
def moves (s : State) (t : Turn) : Bool := match s.turn t with
  | .next _ => true
  | _ => false

theorem exists_next {s : State} {t : Turn} (h : moves s t = true) : ∃ u : State, s.turn t = .next u := by
  unfold moves at h
  split at h
  · next u e => exact ⟨u, e⟩
  · cases h

/-- No request of the strand, one in each phase; a full queue; a request at its object, one behind another of its tile, one that the object
has applied, and one whose run is over. -/
theorem witness_Barriers_requests : (base.barReqs.find? fun r => r.of base.tile.ltn base.runRef) = none ∧ base.barRoom (barDie 8) 0 = true ∧
    (base.barReqs.filter fun r => r.inQueue (barDie 8) && r.paddock == base.tile.paddock).length < 8 ∧
    { base with barReqs := List.replicate 256 { barReq .arr .queued with run := 7 } }.barRoom (barDie 8) 0 = false ∧
    (({ base with barReqs := List.replicate 256 { barReq .arr .queued with run := 7 } } : State).barReqs.find? fun r => r.of base.tile.ltn base.runRef) = none ∧
    (∀ p ∈ [BarPhase.queued, .pending, .done (some 1), .done none], ((asking .arr p).barReqs.find? fun r =>
      r.of (asking .arr p).tile.ltn (asking .arr p).runRef) = some (barReq .arr p)) ∧
    ((base.setReg 8 (1024 + 5 * 2 ^ 11)).reg 8).toNat < 2 ^ 35 ∧
    (asking .arr .queued).barReqs[0]? = some (barReq .arr .queued) ∧ ((asking .arr .queued).barId 0 8).applied ≠ some 0 ∧
    ({ asking .arr .queued with barIds := [{ tile := 0, obj := 8, sent := 1, applied := some 0 }] }.barId 0 8).applied = some (barReq .arr .queued).seq ∧
    ((asking .arr .queued).getTile 0).live { strand := .main, run := base.runRef.run } = true ∧
    ((asking .arr .queued).getTile 0).live { strand := .main, run := 9 } = false ∧
    (∃ q ∈ ([barReq .arr .queued, barReq (.poll 3) .queued].take 1), q.phase = .queued ∧ q.tile = 0 ∧ q.obj = 8) := by decide +kernel

theorem witness_Barriers_turns : ∀ op ∈ [BarOp.arr, .wait 4, .poll 4, .cfg 2 1], ∃ u : State, (asking op .queued).turn (.barrier 0) = .next u := by
  intro op h
  have q : ∀ op ∈ [BarOp.arr, .wait 4, .poll 4, .cfg 2 1], moves (asking op .queued) (.barrier 0) = true := by decide +kernel
  exact exists_next (q op h)

/-- A barrier object with two members, the last arrival and the first; broken; the last object of the paddock and the one past it; L1. -/
theorem witness_Barriers : (∀ i ∈ [Instr.barArr 5 6, .barWait 5 6 7, .barPoll 5 6 7, .barJoin 6, .barLeave 6, .barCfg 6 8], Issues i base) ∧
    (base.pcfg 0).map PaddockCfg.barCount = some 4 ∧ base.fenceWaits 3 3 = false ∧ ((base.setReg 6 3).reg 6).toNat < 4 ∧
    (let b : Barrier := { Barrier.blank 8 with members := 2, timeout := 1, gen := 5, cfgGen := 3 }
     let s := at' { base with barriers := [b], tb := 2048 } 8 0
     s.barrier 8 = b ∧ b.members ≠ 0 ∧ b.arrived = 0 ∧ b.timeout ≠ 0 ∧ ({ b with arrived := 1 }.arrived.toNat + 1 = b.members.toNat) ∧
     (b.gen - b.cfgGen).toNat < (b.gen - 2).toNat ∧ (b.gen - 3).toNat ≤ (b.gen - b.cfgGen).toNat ∧ b.gen ≠ 4 ∧ s.input.k = 8 ∧
     { b with timer := some 1024 }.since + 1024 ≤ s.tb.toNat ∧ b.absent = 0 ∧ b.broken = false) ∧ (base.barrier 8).members = 0 ∧ (lv 1).st.lvl ≠ 0 ∧ (base.reg 8).toNat % 2 ^ 11 ≠ 0 ∧
    (base.reg 8).toNat % 2 ^ 11 ≤ 1024 ∧ (base.reg 8).toNat < 2 ^ 35 ∧ base.cx.barriers.length < 2 ∧
    ((base.onCx fun c => { c with barriers := [{ obj := 8, token := true }] }).cx.barriers.any fun r => r.obj == 8) = true ∧
    2 ≤ (List.replicate 2 ({ obj := 9, token := false } : BarReg)).length := by
  decide +kernel

theorem witness_FencesHintsAndUnits : (∀ i ∈ [Instr.fence 3 3 8, .fence 0 15 15, .fence 4 0 1, .hintNop, .hintBr 2, .hintPf 1 2, .hintPg 1 2, .hintBank 15,
      .ximm 5, .unassignedEncoding 0], Issues i base) ∧ base.fenceWaits 3 3 = false ∧ { base with reqs := [req .wr .toSlice] }.fenceWaits 3 1 = true ∧
    base.atomics = [] ∧ base.flight = [] ∧ base.tile.sendQ = [] ∧ base.tile.shSends = [] ∧ base.packets = [] ∧ base.msgs = [] ∧
    base.slots = [] ∧ base.farSheaves = [] ∧ base.tile.early = [] ∧
    (let e : EarlyWord := { strand := .main, word := 8, view := List.replicate 8 0, ready := none }
     let s := base.onTile fun t => { t with early := [e] }
     s.tile.early = [e] ∧ e.strand = s.cur ∧ { e with strand := .handler }.strand ≠ s.cur ∧ s.fenceWaits 1 3 = false) ∧
    base.st.ximm = none ∧ base.st.hint = none ∧ base.cur = .main ∧ hand.cur = .handler ∧ hand.st.ximm = none ∧ hand.st.hint = none := by decide +kernel

/-- Banks of fp32, fp64, sq8, sq4 and AIC32 operands, all accumulators of the context, s1 the base of bank 0 on. -/
def engines : State :=
  ((base.onTile fun t => { t with bfmt := (((((t.bfmt.set 0 8).set 1 6).set 2 13).set 3 14).set 4 15) }).onCx fun c => { c with accMask := 0xFFFF }).setReg 11 0x20000

theorem witness_ThresherIssue : (∀ i ∈ [Instr.mma 4 0 0 12 2, .mmaZ 4 0 0 12 2, .mmaT 4 0 0 12 2, .mmaTZ 4 0 0 12 2, .accZero 0 15 3, .accZero 1 15 3,
      .accLd 2 0 0, .accSt 0 2 0, .accCvt 0 0 3 1, .sqQuant 1 11 4 0 12 1, .sqDeq 0 3 11 12 1, .sqAlign 12 11 8 1, .sqScale 11 0 8 1],
      Issues i engines) ∧ engines.tile.stop = none ∧ engines.st.mstepValid = false ∧ (engines.tile.operand 0).fmt = 8 ∧
    (engines.tile.operand 0x20000).fmt = 13 ∧ (engines.tile.operand 0).aligned = true ∧ (engines.tile.operand 0x20000).aligned = true ∧
    (engines.tile.operand 0).rangeOk engines.tile 0 1 false = true ∧ (engines.tile.operand 0).rangeOk engines.tile 0 1 true = true ∧
    (engines.tile.operand 0x20000).rangeOk engines.tile 0 16 true = true ∧ (engines.tile.operand 0x20000).rangeOk engines.tile 0 16 false = true ∧
    (engines.tile.operand 0x40000).fmt = 15 ∧ (engines.tile.operand 0x40000).rangeOk engines.tile 0 15 true = true ∧
    (engines.tile.operand 0x10000).fmt = 6 ∧ engines.cx.accMask.getLsbD 15 = true ∧ base.cx.accMask.getLsbD 4 = false ∧
    engines.tile.feat.getLsbD 1 = true ∧ engines.tile.feat.getLsbD 2 = true ∧ engines.tile.regionOk 0 0 4096 true = true ∧ engines.tile.drawing = false ∧
    15 < (1 : AReg).toNat + (15 : BitVec 5).toNat ∧ (0 : AReg).toNat + (15 : BitVec 5).toNat ≤ 15 ∧
    ((engines.onSt fun x => { x with mstep := 3, mstepValid := true }).st.mstepValid = true) := by
  decide +kernel

/-- A command of one step that zeroes a0, at its only step and past it. -/
def zeroing : ThrCmd :=
  { op := .accZero, z := false, f64 := false, addrA := 0, addrB := 0, addrD := 0, ctl := 0, acc := 0, steps := 1, next := 0, ctr := 0, num := 1,
    owner := { strand := .main, run := 1 }, ctx := 0, unit := 0x10000, word := 0x10000, order := 0, c0 := none, sto := false, rm := 0, el := none,
    fault := none, flags := 0 }
def withCommand (c : ThrCmd) : State := at' ((base.onTile fun t => { t with thresher := [c] }).onSt fun x => { x with wait := some .thresher }) 0 0

theorem witness_ThresherStepsAndEnds : (withCommand zeroing).tile.stepping = some (0, zeroing) ∧ (withCommand zeroing).tile.stepConflicts zeroing 0 = [] ∧
    (withCommand zeroing).tile.rangesBad (zeroing.reads (withCommand zeroing).tile 0) = false ∧ (withCommand zeroing).tile.accBad = [] ∧
    (withCommand zeroing).tile.acc.wf = true ∧ (withCommand { zeroing with op := .mma true, addrB := 0x800 }).tile.stepping.isSome = true ∧
    isSquareFmt ((withCommand zeroing).tile.operand 0).fmt = false ∧ (withCommand zeroing).tile.main.wait = some .thresher ∧
    (∀ c ∈ [{ zeroing with op := .accLd }, { zeroing with op := .accSt, addrD := 0x1000 }], (withCommand c).tile.stepping = some (0, c)) ∧
    (let c := { zeroing with next := 1 }
     (withCommand c).tile.thresher = [c] ∧ c.next = c.steps ∧ (withCommand c).tile.triggers = [] ∧ (withCommand c).tile.live c.owner = true ∧
     ((withCommand c).tile.ctr c.ctr).ahead = [] ∧ c.num = ((withCommand c).tile.ctr c.ctr).done + 1) ∧
    (withCommand zeroing).tile.live { strand := .main, run := 9 } = false ∧ (withCommand zeroing).input.j = 0 ∧
    (withCommand { zeroing with next := 1, fault := some (.sheaf, 0) }).tile.triggers = [] ∧
    (let c := { zeroing with op := .accLd }
     let s := (withCommand c).onTile fun t => { t with spadBad := [0] }
     (c.reads s.tile 0).find? (fun r => s.tile.rangesBad [r]) = some { space := .loc, lo := 0, hi := 4096 }) := by decide +kernel

/-- A step whose outcome is a done one. -/
def doneStep (t : Tile) (c : ThrCmd) : Bool := match c.step t with
  | .done _ _ _ => true
  | _ => false

theorem of_doneStep {t : Tile} {c : ThrCmd} (h : doneStep t c = true) : (∀ r e f h a, c.step t ≠ .bad r e f h a) ∧ ∀ e f h a, c.step t ≠ .slip e f h a := by
  unfold doneStep at h
  split at h
  · next q => exact ⟨fun _ _ _ _ _ => by rw [q]; simp, fun _ _ _ _ => by rw [q]; simp⟩
  · cases h

/-- `sq.deq` of a tagged AIC32 block of zero codes, whose tag names another residue. -/
theorem deq_broken {t : Tile} {c : ThrCmd} {o : Operand} (op : c.op = .deq) (ho : o = t.operand c.addrA.toNat) (f : o.fmt = 15)
    (r : ((c.reads t c.next).find? fun r => t.rangesBad [r]) = none) (z : ((o.codes t c.next).all fun x => x == 0) = true)
    (n : hTag (o.header t c.next) ≠ 0) (w : tagResidue (hTag (o.header t c.next)) ≠ 0) : ∃ h e f a, c.step t = .bad .sheaf h e f a := by
  subst ho
  have b : blockBroken (t.operand c.addrA.toNat) ((t.operand c.addrA.toNat).header t c.next) ((t.operand c.addrA.toNat).codes t c.next) c.next =
      some (.bad .sheaf ((t.operand c.addrA.toNat).header t c.next) (tagResidue (hTag ((t.operand c.addrA.toNat).header t c.next)))
        (residueOf 15 ((t.operand c.addrA.toNat).header t c.next) ((t.operand c.addrA.toNat).codes t c.next)) ((t.operand c.addrA.toNat).addr c.next)) := by
    unfold blockBroken tagBroken
    simp only [f, residue_of_zeros z]
    rw [if_pos]
    simpa [n, isSquareFmt] using Ne.symm w
  unfold ThrCmd.step
  simp only [r, ThrCmd.readsAcc, op, deqStep]
  exact ⟨_, _, _, _, by rw [b]; rfl⟩

/-- A copy from main memory to the first line of the scratchpad, whose page has to come. -/
def coming : WainCmd :=
  { form := .plain, dl := true, sl := false, dst := 0, src := 0x20000, rows := 1, rowLen := 64, dStride := 0, sStride := 0, cnt := 0, fmtSrc := 0, fmtDst := 0,
    fmt := none, key := 0, ctr := 2, num := 1, owner := { strand := .main, run := 1 }, xc := base.xc, order := 0, reads := [],
    writes := [rowsRange .loc 0 0 1 64], started := true, pieces := 1, moves := 1, done := [], unwritten := [], stages := [(0, .paged)], flags := 0 }

/-- A copy that the step's source still waits for, paused on a page event; a tagged block whose residue is wrong; a command that draws. -/
theorem witness_ThresherStepsAndEnds_stops :
    (let w := coming
     let c := { zeroing with op := .accLd, order := 1 }
     let p := { pageWait with agent := .wain 2 1 0, event := some 4 }
     let s := { ((withCommand c).onTile fun t => { t with wain := [w] }) with pageWaits := [p], pageEvents := [pageEvent] }
     s.tile.stepping = some (0, c) ∧ s.tile.stepConflicts c 0 = [w] ∧ s.copyEvent w = some p) ∧
    (∀ c ∈ [zeroing, { zeroing with op := .accLd, steps := 2 }, { zeroing with op := .mma false, addrB := 0x800 }], doneStep (withCommand c).tile c = true) ∧
    (let c := { zeroing with next := 1, c0 := some 5, sto := true }
     (withCommand c).tile.thresher = [c] ∧ c.c0 = some 5 ∧ (withCommand c).tile.live c.owner = true) := by decide +kernel

def taggedSquare : State :=
  at' (engines.onTile fun t => { t with spad := t.spad.writeLe 0x40020 8 (makeTag 5 3 1 false), thresher := [{ zeroing with op := .deq, addrA := 0x40000 }] }) 0 0

theorem witness_ThresherStepsAndEnds_sheaf : ∃ h e f a, ({ zeroing with op := .deq, addrA := 0x40000 } : ThrCmd).step taggedSquare.tile = .bad .sheaf h e f a :=
  deq_broken (o := taggedSquare.tile.operand 0x40000) rfl rfl (by decide +kernel) (by decide +kernel) (by decide +kernel) (by decide +kernel) (by decide +kernel)

/-- A command of each kind of SquareSteps at its only step, over banks of fp16, sq8 and AIC32. -/
def squaring (c : ThrCmd) : State := at' (engines.onTile fun t => { t with thresher := [c] }) 0 0
theorem witness_SquareSteps :
    (∀ c ∈ [{ zeroing with op := .accCvt }, { zeroing with op := .quant, addrD := 0x20000 }, { zeroing with op := .deq, addrA := 0x20000 },
        { zeroing with op := .align, addrA := 0x20000, addrD := 0x40000, el := some 5 }, { zeroing with op := .align, addrA := 0x20000, addrD := 0x40000 },
        { zeroing with op := .scale, addrD := 0x20000 }],
      (squaring c).tile.stepping = some (0, c) ∧ (squaring c).tile.stepConflicts c c.next = [] ∧ (squaring c).tile.rangesBad (c.reads (squaring c).tile c.next) = false ∧
      (squaring c).tile.accBad = [] ∧ (squaring c).tile.acc.wf = true ∧ (squaring c).tile.spad.wf = true ∧ (squaring c).input.j = 0) ∧
    doneStep (squaring { zeroing with op := .align, addrA := 0x20000, addrD := 0x40000, el := some 5 }).tile
      { zeroing with op := .align, addrA := 0x20000, addrD := 0x40000, el := some 5 } = true ∧
    tagBroken 13 ((engines.tile.operand 0x20000).header engines.tile 0) [] = false ∧
    isSquareFmt (engines.tile.operand 0).fmt = false ∧ Placed (engines.tile.operand 0) 1 ∧ (engines.tile.operand 0x20000).fmt = 13 ∧
    Placed (engines.tile.operand 0x20000) 1 ∧ isSquareFmt 13 = true ∧ (engines.tile.operand 0x40000).fmt = 15 ∧ (engines.tile.operand 0x40000).plane = false ∧
    Placed (engines.tile.operand 0x40000) 1 ∧ (naturalExp 13 0).1 ≤ 145 ∧ hTag ((engines.tile.operand 0x20000).header engines.tile 0) = 0 := by decide +kernel

/-- Copies of 64 bytes: local, global, of nothing, converting; square records; a fill at L1. -/
theorem witness_CopyIssue : (∀ i ∈ [Instr.cp 1 1 2 8 9 8, .cp 0 1 2 10 9 8, .cp 1 0 2 8 10 0, .cp2 1 1 2 8 9 14, .cpZ 1 2 8 8, .cpPf 2 10 8, .cpSq 1 0 2 11 10 8,
      .cpSqt 0 1 2 10 11 8], Issues i engines) ∧ Issues (.cpFill 2 0 10 8) (lv 1) ∧ engines.tile.wain.length < 64 ∧
    engines.st.wait = none ∧
    localRowsIn 64 0 1 64 = true ∧ localRowsOk engines.tile 0 64 0 1 64 false = true ∧ localRowsOk engines.tile 0 128 0 1 64 true = true ∧
    localRowsIn 0xFFFC0 0 1 64 = true ∧ localRowsIn 0xFFFC1 0 1 64 = false ∧
    (engines.tile.operand 64).fmt ≠ (engines.tile.operand 0x10000).fmt ∧ rowsInBank 64 0 1 64 = true ∧ rowsInBank 0x10000 0 1 (convertedBytes 8 6 64).1 = true ∧
    (engines.tile.ctr 2).ahead = [] ∧ (engines.tile.ctr 2).done = (engines.tile.ctr 2).issue ∧ engines.tile.triggers = [] ∧
    (engines.tile.operand 0x20000).regionsOk engines.tile 0 64 true = true ∧ (0x10040 : DW).toNat % 64 = 0 ∧ (lv 1).keyOk 0 1 = true ∧ (lv 1).keyOk 0 2 = true ∧
    (lv 1).keyOk 0 3 = false := by decide +kernel

/-- A local copy of 64 bytes whose one piece is not over, and whose piece is over. -/
def copy : WainCmd :=
  { form := .plain, dl := true, sl := true, dst := 128, src := 64, rows := 1, rowLen := 64, dStride := 0, sStride := 0, cnt := 0, fmtSrc := 0, fmtDst := 0,
    fmt := none, key := 0, ctr := 2, num := 1, owner := { strand := .main, run := 1 }, xc := base.xc, order := 0, reads := [rowsRange .loc 64 0 1 64],
    writes := [rowsRange .loc 128 0 1 64], started := true, pieces := 1, moves := 1, done := [], unwritten := [], stages := [], flags := 0 }
def withCopy (w : WainCmd) : State := at' (base.onTile fun t => { t with wain := [w] }) 0 0

theorem witness_CopyIssue_full : 64 ≤ (engines.onTile fun t => { t with wain := List.replicate 64 copy }).tile.wain.length := by decide +kernel

theorem witness_CopyWaitsAndTransfers : (∀ i ∈ [Instr.cpWait 2 8, .cpWaitq 5 2 8, .cpRdc 5 2 3], Issues i base) ∧ base.st.sample = none ∧
    (let s := base.onTile fun t => t.modCtr 2 fun k => { k with issue := 3, done := 2, err := { k.err with valid := true, num := 2, cause := 5 } }
     (s.tile.ctr 2).done < min (s.reg 8).toNat (s.tile.ctr 2).issue ∧ min 2 (s.tile.ctr 2).issue ≤ (s.tile.ctr 2).done ∧
     (s.tile.ctr 2).err.num ≤ 2 ∧ 1 < (s.tile.ctr 2).err.num) ∧
    (withCopy { copy with started := false }).tile.copyFree { copy with started := false } = true ∧ (withCopy copy).tile.wain[0]? = some copy ∧
    0 < copy.rowPieces 0 ∧ pieceSpan (copy.cuts 0).1 (copy.cuts 0).2 copy.rowLen 0 = some (0, 64) ∧ (withCopy copy).tile.spadBad = [] ∧
    copy.src.toNat + copy.rowLen ≤ copy.dst.toNat ∧ copy.done.length < copy.pieces ∧ 0 < copy.moves ∧ copy.dst.toNat + copy.rowLen ≤ 2 ^ 20 ∧
    (let w := { copy with form := .zero, reads := [], done := [0] }
     w.pieces ≤ w.done.length ∧ ((withCopy w).tile.ctr w.ctr).ahead = [] ∧ w.num = ((withCopy w).tile.ctr w.ctr).done + 1) := by decide +kernel

/-- An answer of an access that is `ok`, a failure, or to come again. -/
def okIo {α : Type} (x : Io α × State) : Bool := match x with
  | (.ok _, _) => true
  | _ => false
def failIo {α : Type} (x : Io α × State) : Bool := match x with
  | (.fail _ _, _) => true
  | _ => false
def busyIo {α : Type} (x : Io α × State) : Bool := match x with
  | (.busy, _) => true
  | _ => false

/-- A tile request has been taken to the line at 0x10040. -/
def lineTaken (s : State) : State := { s with reqs := [req .wr .toBase] }

/-- The piece of a copy is its only row, and none of its bytes is left out. -/
def onePiece (w : WainCmd) : Bool := w.started && decide (0 < w.pieces) && decide (0 < w.moves) && w.done.isEmpty && w.stages.isEmpty && w.pieceAt 0 == some (0, 0, 64) &&
  (List.range 64).all fun i => !(w.skips 0 (w.dst.toNat + i))

def toGlobal (dst : DW) : WainCmd := { copy with dl := false, dst := dst, writes := [rowsRange (.virt 0) dst 0 1 64] }
def fromGlobal (src : DW) : WainCmd := { copy with sl := false, src := src, reads := [rowsRange (.virt 0) src 0 1 64] }

/-- Zeroing, local, to and from main memory: done, failing and to come again; a bad word of the source. -/
theorem witness_CopyPieces_plain :
    (∀ w ∈ [copy, { copy with form := .zero, reads := [] }, toGlobal 0x10040, toGlobal 0x20000, fromGlobal 0x10040, fromGlobal 0x20000], onePiece w = true ∧
      (withCopy w).tile.wain[0]? = some w ∧ (withCopy w).tile.spad.wf = true) ∧
    wordsBad (withCopy copy).tile.spadBad 64 64 = false ∧ wordsBad ((withCopy copy).onTile fun t => { t with spadBad := [8] }).tile.spadBad 64 64 = true ∧
    okIo ((withCopy (toGlobal 0x10040)).vaWrite (toGlobal 0x10040) 0x10040 (List.replicate 64 0)) = true ∧
    busyIo ((lineTaken (withCopy (toGlobal 0x10040))).vaWrite (toGlobal 0x10040) 0x10040 (List.replicate 64 0)) = true ∧
    failIo ((withCopy (toGlobal 0x20000)).vaWrite (toGlobal 0x20000) 0x20000 (List.replicate 64 0)) = true ∧
    okIo ((withCopy (fromGlobal 0x10040)).vaRead (fromGlobal 0x10040) 0x10040 64) = true ∧
    busyIo ((lineTaken (withCopy (fromGlobal 0x10040))).vaRead (fromGlobal 0x10040) 0x10040 64) = true ∧
    failIo ((withCopy (fromGlobal 0x20000)).vaRead (fromGlobal 0x20000) 0x20000 64) = true ∧
    okIo (((withCopy { fromGlobal 0x10040 with dl := false, dst := 0x10080 }).vaRead (fromGlobal 0x10040) 0x10040 64).2.vaWrite (toGlobal 0x10080) 0x10080
      (List.replicate 64 0)) = true := by decide +kernel

/-- A row of 16 fp16 elements to FP32; a square of sq8 at 0x20000. -/
def converting : WainCmd := { copy with form := .convert, fmtSrc := 8, fmtDst := 7, rowLen := 32, writes := [rowsRange .loc 128 0 1 64] }
def records (f : BitVec 4) (tr : Bool) : WainCmd := { copy with form := .square tr, fmt := some f, cnt := 1, rows := 0, rowLen := 0, src := 0x20000, dst := 0x20800 }
def withSquare (w : WainCmd) : State := at' (engines.onTile fun t => { t with wain := [w] }) 0 0

theorem witness_CopyPieces_convert : converting.started = true ∧ 0 < converting.pieces ∧ (withCopy converting).tile.wain[0]? = some converting ∧
    0 < converting.rowLen * 8 / bankWidth 8 ∧ wordsBad (withCopy converting).tile.spadBad 64 32 = false ∧
    (∀ i < (converting.rowLen * 8 / bankWidth 8 * bankWidth 7 + 7) / 8, converting.skips 0 (128 + i) = false) ∧
    wordsBad ((withCopy converting).onTile fun t => { t with spadBad := [8] }).tile.spadBad 64 32 = true := by decide +kernel

theorem witness_CopyPieces_squares : isSquareFmt 13 = true ∧ isSquareFmt 15 = true ∧
    (withSquare (records 13 true)).tile.wain[0]? = some (records 13 true) ∧ (engines.tile.operand 0x20000).fmt = 13 ∧
    engines.tile.rangesBad ((engines.tile.operand 0x20000).ranges 0) = false ∧
    (engines.onTile fun t => { t with spadBad := [0x20000 / 8] }).tile.rangesBad ((engines.tile.operand 0x20000).ranges 0) = true ∧
    hTag ((engines.tile.operand 0x20000).header engines.tile 0) = 0 ∧ (engines.tile.operand 0x20800).fmt = 13 ∧ Placed (engines.tile.operand 0x20800) 1 ∧
    tagBad (hTag ((taggedSquare.tile.operand 0x40000).header taggedSquare.tile 0)) = false ∧
    tagBad (hTag (((taggedSquare.onTile fun t => { t with spad := t.spad.writeLe 0x40020 8 (tagSetBad (makeTag 5 3 1 false)) }).tile.operand 0x40000).header
      (taggedSquare.onTile fun t => { t with spad := t.spad.writeLe 0x40020 8 (tagSetBad (makeTag 5 3 1 false)) }).tile 0)) = true ∧
    (let w := { records 13 false with dl := false, dst := 0x10040 }
     recAddr 1088 w.dst.toNat 0 = 0x10040 ∧ okIo ((withSquare w).wainXlate w 0x10040 1) = true) ∧
    (let w := { records 13 false with sl := false, src := 0x10040 }
     recAddr 1088 w.src.toNat 0 = 0x10040 ∧ okIo ((withSquare w).wainXlate w 0x10040 0) = true) ∧
    (let w := { records 13 false with sl := false, stages := [(0, .reading)] }
     let head := fun f : Nat => leBytes 64 (f * 2 ^ 16)
     let x := fun f : Nat => { req .sqrd .toTile with handle := .wainRead 2 1 0, data := head f ++ List.replicate 1024 0 }
     (∀ f ∈ [13, 7], { withSquare w with reqs := [x f] }.pieceReply w 0 false = some (x f) ∧ hFormat (ofLe ((x f).data.take 64)) % 16 = f ∧ (x f).status = .ok) ∧
     hTag (ofLe ((x 13).data.take 64)) = 0 ∧ w.dl = true) ∧
    (let w := { records 13 false with dl := false, stages := [(0, .writing)] }
     let x := { req .sqwr .toTile with handle := .wainWrite 2 1 0 }
     ∀ y ∈ [x, { x with refused := true }, { x with status := .keyErr }], { withSquare w with reqs := [y] }.pieceReply w 0 true = some y) := by decide +kernel

/-- A fill unit at 0x20000 whose image lies at 0x10040: a frame outside main memory; a line in use; an invalid descriptor and one whose stream
has the wrong length. -/
def filling : WainCmd := { copy with form := .fill, dl := false, sl := false, dst := 0x20000, src := 0x10040, rows := 0, rowLen := 0, cnt := 1, key := 1, reads := [], writes := [] }
def imageAt (bs : List Byte) : State := let s := withCopy filling; { s with mem := s.mem.writeBytes 0x10040 bs }
/-- Whole lines of main memory that pass their checks take a unit, where no request is on its way. -/
theorem unitWrite_ok (a : Asker) : ∀ (n pa : Nat) (bs : List Byte) (s : State), s.reqs = [] → s.atomics = [] → bs.length = 64 * n → pa % 64 = 0 →
    (∀ i, i < n → pa + 64 * i < Config.mainSize ∧ s.askCheck a (pa + 64 * i) = .ok) → ∃ t : State, s.unitWrite a n pa bs = (.ok (), t) := by
  intro n
  induction n with
  | zero => exact fun _ _ s _ _ _ _ _ => ⟨s, rfl⟩
  | succ n ih =>
    intro pa bs s r m l al h
    have h0 := h 0 (by omega)
    simp only [Nat.mul_zero, Nat.add_zero] at h0
    have o := sliceWrite_only s a pa (bs.take 64)
    have k := sliceWrite_ok s a pa (bs.take 64) h0.2 (by omega) (by simp [l])
    have e : s.physWrite s.tile.paddock a pa (bs.take 64) = (.ok (), (s.sliceWrite a pa (bs.take 64)).2) := by
      unfold State.physWrite State.lineBusy State.olderWaits
      rw [if_pos h0.1, r, m]
      generalize s.sliceWrite a pa (bs.take 64) = x at k
      obtain ⟨st, s1⟩ := x
      subst k
      rfl
    unfold State.unitWrite
    rw [e]
    generalize (s.sliceWrite a pa (bs.take 64)).2 = t at o
    unfold OnlyStore at o
    refine ih (pa + 64) (bs.drop 64) t (by rw [o]; exact r) (by rw [o]; exact m) (by simp [l]; omega) (by omega) fun i hi => ?_
    have hs := h (i + 1) (by omega)
    rw [show pa + 64 + 64 * i = pa + 64 * (i + 1) by omega, o]
    exact hs

theorem witness_CopyPieces_fill_write : ∃ t : State, (withCopy filling).unitWrite ((withCopy filling).wainAsker filling 1) 1024 0x20000 (List.replicate 65536 0) = (.ok (), t) :=
  unitWrite_ok _ _ _ _ _ rfl rfl (List.length_replicate ..) (by decide) (by decide +kernel)

theorem witness_CopyPieces_fill : (withCopy filling).unitOk filling 0x20000 = none ∧ filling.dst.toNat + 0 * 65536 = 0x20000 ∧
    (withCopy { filling with dst := 0xFFFFFFFFFFFF0000 }).unitOk filling (0xFFFFFFFFFFFF0000 : DW).toNat = some 1 ∧
    busyIo ((lineTaken (withCopy filling)).unitRead filling 0) = true ∧ failIo ((imageAt [3]).unitRead filling 0) = true ∧
    okIo ((imageAt [3]).vaReads filling 3 filling.src 16) = true ∧ (fillDesc ([3] ++ List.replicate 15 0)).valid = false ∧
    (fillDesc (List.replicate 16 0)).valid = true ∧ (fillDesc (List.replicate 16 0)).mode = 0 ∧
    okIo ((withCopy filling).vaReads filling (lineFuel 32) filling.src 32) = true ∧ fillUnit (List.replicate 16 0 ++ [1] ++ List.replicate 15 0) = none := by
  decide +kernel

/-- A queue of two-unit items bound to tile 0: endpoint 0 an input of context 0, endpoint 1 an output with two credits; one item at the head. -/
def qcb : Qcb :=
  { fmt := 0, logCap := 1, isize := 2, qprio := 0, paddock := 0, gring := false, agent := 0, ringAddr := 0x1000, window := 2, nprod := 1, members := [(0, 0)] }
def queue : Queue := { pa := 0x10080, key := 1, qcb := qcb, producers := [(0, 1)], seeds := 0, frozen := false, bindGen := 0, released := 0, etime := 0 }
def ringItem : RingItem := { kind := 0, round := 0, nbt := 0, id := 3, slot := 1, held := false, agent := false }
def input : Endpoint := { Endpoint.reset with role := .input, qcb := 0x10080, ringAddr := 0x1000, ring := [ringItem], head := 1, tail := 2 }
def output : Endpoint := { Endpoint.reset with role := .output, qcb := 0x10080, credits := 2 }
def queues : State := { base.onTile fun t => { t with eps := (t.eps.set 0 input).set 1 output } with queues := [queue] }

/-- An item of the queue on its way to the member. -/
def item : ItemFlight :=
  { qcb := 0x10080, tile := 0, ep := 0, src := .producer 0 1, kind := 0, round := 0, nbt := 0, id := 4, payload := List.replicate 32 7, refusals := 0,
    refused := false, travel := false, arrived := none }
def withItem (i : ItemFlight) : State := at' { queues with flight := [i] } 0 0

theorem witness_QueueInstructions : (∀ i ∈ [Instr.qpush 1 8, .qpushAt 1 8 9, .qmark 1, .qmarkF 1, .qpop 5 0, .qpopm 5 0 8, .qpeek 5 0, .qstat 5 0 3,
      .qstat 5 1 0, .qpush 0 8, .qpop 5 1], Issues i queues) ∧ queues.queueAt (queues.tile.ep 1).qcb = some queue ∧ (queues.tile.ep 1).role = .output ∧
    (queues.tile.ep 1).ctx = queues.st.ctx ∧ (queues.tile.ep 1).closed = false ∧ 0 < (queues.tile.ep 1).credits ∧ queues.tile.act = some probeAct ∧
    probeAct.outputs.length < 32 ∧ (queues.reg 8).toNat % 16 = 0 ∧ queues.tile.regionOk 0 64 32 false = true ∧ Readable queues 64 32 ∧
    (queues.tile.ep 0).role = .input ∧ (queues.tile.ep 0).ctx = queues.st.ctx ∧ queues.tile.heldCount < 64 ∧
    ((queues.tile.ep 0).ring.filter fun x => !x.held) = [ringItem] ∧ ringItem.nbt.toNat ≤ queues.tb.toNat ∧ ringItem.kind = 0 ∧
    (queues.tile.ep 0).ring.head? = some ringItem ∧ (queues.tile.ep 0).ring.find? RingItem.held = none ∧
    (queues.onTile fun t => { t with eps := t.eps.set 1 { output with closed := true } }).tile.ep 1 ≠ output ∧
    (queues.setReg 8 0xFFFF0).reg 8 + 16 = 0x100000 := by decide +kernel

theorem witness_QueueEvents : (withItem item).flight[0]? = some item ∧ (withItem item).queueAt item.qcb = some queue ∧ item.agent = false ∧
    (withItem item).itemFirst 0 item = true ∧ ((withItem item).getTile 0).eps[0]? = some input ∧
    ((withItem item).ctxOf 0 0).state = .running ∧ input.ring.length < 2 ^ qcb.logCap ∧ item.refused = false ∧ item.travel = false ∧
    (∀ v ∈ (withItem item).virtqueues, v.compQ ≠ item.qcb) ∧ input.qcb = item.qcb ∧ (withItem item).tile.spad.wf = true ∧
    squareItemBad (List.replicate 64 255) ≠ (false, false) ∧ { item with refused := true, refusals := 2 }.refused = true ∧
    (let m := { item with kind := 3 }
     let s := (withItem m).onTile fun t => t.modCtx 0 fun c => { c with state := .binding }
     s.flight[0]? = some m ∧ s.itemFirst 0 m = true ∧ (s.ctxOf 0 0).state = .binding ∧
     (∀ p : Fin 16, ((s.getTile 0).eps[p.val]?).map Endpoint.role = some .input → p.val = 0)) ∧
    (let x := { ringItem with nbt := 5 }
     let s := (queues.onTile fun t => { t with eps := t.eps.set 0 { input with ring := [x] } }).onSt fun y => { y with wait := some (.event 2) }
     s.tile.eps[0]? = some { input with ring := [x] } ∧ (s.tile.strand .main).wait = some (.event 2) ∧ (2 : DW).toNat < x.nbt.toNat ∧ s.tb.toNat < x.nbt.toNat ∧
     x.nbt.toNat ≤ { s with tb := 5 }.tb.toNat) ∧
    (let x : CreditOut := { qcb := 0x10080, tile := 0, ep := 1, id := 3, left := 0 }
     { queues with credits := [x] }.credits[0]? = some x ∧ (queues.getTile 0).eps[1]? = some output) := by decide +kernel

theorem witness_ActivationEnds : (∀ i ∈ [Instr.commit, .yield, .abort], Issues i queues) ∧ queues.tile.act = some probeAct ∧
    (∀ x ∈ queues.tile.thresher, x.owner ≠ queues.runRef) ∧ (∃ x ∈ (withCommand zeroing).tile.thresher, x.owner = (withCommand zeroing).runRef) ∧
    queues.atomicsDone = true ∧ { base with atomics := [amo] }.atomicsDone = false ∧ queues.tile.firstErr queues.runRef = none ∧
    queues.tile.sendRoom queues.buffered.length = true ∧ queues.cx.killPending = false ∧ probeAct.outputs = [] ∧ probeAct.final = false := by
  decide +kernel

theorem witness_ActivationStarts : queues.tile.act.isSome = true ∧
    (let s := queues.onTile fun t => { t.modCtx 0 fun c => { c with state := .idle } with act := none }
     s.tile.act = none ∧ s.tile.halted = false ∧ s.tile.remapping = false ∧ s.halted = false ∧ (s.tile.ctxs[0]).state = .idle ∧ (s.tile.ctxs[0]).fallowOut = none ∧
     (s.tile.ctxs[0]).mode = .any ∧ (∀ d : BitVec 2, d ≠ 0 → (s.tile.ctxs[d.toNat]'(d.isLt)).state ≠ .idle) ∧
     (∀ d : BitVec 2, (s.tile.ctxs[d.toNat]'(d.isLt)).barriers = []) ∧ s.tile.epsOf 0 .input = [0] ∧ s.tile.eps[0]? = some input ∧
     s.queueAt input.qcb = some queue ∧ (input.ring.find? fun y => !y.held) = some ringItem ∧ s.candidate s.tile 0 = true) ∧
    (let s := at' (queues.onTile fun t => { t.modCtx 0 fun c => { c with fallowOut := some [1] } with act := none }) 0 0
     (s.tile.ctxs[0]).fallowOut = some [1] ∧ s.tile.eps[1]? = some output ∧ output.ctx = 0 ∧ s.queueAt output.qcb = some queue ∧ 0 < output.credits) ∧
    (∀ d : BitVec 2, State.candidate { base with tile := { base.tile with act := none } } { base.tile with act := none } d = false) := by decide +kernel

/-- A counter's failure of the run; a buffered output of each kind; 16 messages that still wait to go. -/
theorem witness_ActivationEnds_outputs :
    (let e : ErrRec := { valid := true, cause := 5, detail := 2, unit := 0, num := 1, owner := queues.runRef, localSrc := false }
     (queues.onTile fun t => t.modCtr 2 fun k => { k with err := e }).tile.firstErr queues.runRef = some (2, e)) ∧
    ([Output.push 1 0 0 0 64 (List.replicate 32 7), .msg note, .red 0x40000 false, .ack 5 3 1].all queues.plainOutput = true) ∧
    queues.plainOutput (.push 1 2 0 0 0 []) = true ∧
    (queues.onTile fun t => { t with sendQ := List.replicate 16 { msg := note, strand := some .main, rel := 0, phase := .sent, refusals := 0, backoff := 0 } }).tile.sendRoom 1 =
      false ∧ (5, 7) ∈ ({ probeAct with recOround := [(5, 7)] } : Activation).recOround := by decide +kernel

/-- Context 0 in an input mode, IDLE, with an item at the head of each of its inputs. -/
def idle (mode : InMode) (fallow : Option DW) (es : List (Nat × RingItem)) : State :=
  let s := base.onTile fun t => { t.modCtx 0 fun c => { c with state := .idle, mode := mode, fallow := fallow } with act := none }
  { s.onTile fun t => es.foldl (fun t p => t.modEp p.1 fun _ => { input with ring := [p.2] }) t with queues := [queue] }

/-- A data item at input 0, a round-end at input 3; a fallow marker; another round. -/
def roundEnd : RingItem := { ringItem with kind := 1 }
def fallowMark : RingItem := { ringItem with kind := 2 }
def later : RingItem := { ringItem with round := 5 }

/-- The heads of inputs 0 and 3, in each mode. -/
theorem witness_ActivationStarts_heads :
    (∀ p ∈ [(InMode.any, ringItem, roundEnd), (.all, ringItem, roundEnd), (.round, ringItem, roundEnd), (.round, roundEnd, fallowMark), (.any, fallowMark, fallowMark),
        (.round, later, roundEnd), (.all, ringItem, fallowMark)],
      let s := idle p.1 none [(0, p.2.1), (3, p.2.2)]
      SchedulerActs s ∧ OnlyIdle s 0 ∧ s.tile.epsOf 0 .input = [0, 3] ∧ s.tile.eps[0]? = some { input with ring := [p.2.1] } ∧
      s.tile.eps[3]? = some { input with ring := [p.2.2] } ∧ s.queueAt input.qcb = some queue ∧ s.candidate s.tile 0 = true ∧ (s.tile.cx 0).mode = p.1 ∧
      (s.tile.cx 0).killPending = false ∧ (s.tile.cx 0).cround = 0) ∧
    queue.frozen = false ∧ (∀ x ∈ [ringItem, roundEnd, fallowMark, later], [x].find? (fun y => !y.held) = some x ∧ x.nbt.toNat ≤ base.tb.toNat) ∧
    ringItem.round = 0 ∧ later.round ≠ 0 ∧ (idle .any (some 0x10000) [(0, fallowMark)]).tile.epsOf 0 .input = [0] ∧
    ((idle .any (some 0x10000) [(0, fallowMark)]).tile.cx 0).fallow = some 0x10000 ∧ SchedulerActs (idle .any (some 0x10000) [(0, fallowMark)]) := by
  decide +kernel

theorem witness_ActivationStarts_headIs : HeadIs (idle .any none [(0, ringItem), (3, roundEnd)]) 0 input queue ringItem ∧
    AnyHead (idle .all none [(0, ringItem), (3, fallowMark)]) 3 fallowMark := by
  refine ⟨by decide +kernel, { input with ring := [fallowMark] }, ?_⟩
  decide +kernel

/-- Two candidates: of another priority, never started, and started earlier. -/
theorem witness_ActivationStarts_choice :
    (let s := (idle .any none [(0, ringItem)]).onTile fun t =>
       (t.modCtx 1 fun c => { c with state := .idle, mode := .any }).modEp 3 fun _ => { input with ctx := 1 }
     SchedulerActs s ∧ s.candidate s.tile 0 = true ∧ s.candidate s.tile 1 = true ∧ (s.tile.cx 0).killPending = false ∧ (s.tile.cx 0).lastStart = none ∧
     (s.tile.cx 1).prio + (s.tile.cx 1).boost ≤ (s.tile.cx 0).prio + (s.tile.cx 0).boost ∧ s.candidate s.tile 2 = false) := by decide +kernel

theorem witness_ActivationStarts_before : StartsBefore 0 1 Ctx.reset Ctx.reset ∧ StartsBefore 1 0 { Ctx.reset with prio := 2 } Ctx.reset ∧
    StartsBefore 1 0 { Ctx.reset with lastStart := some 4 } { Ctx.reset with lastStart := some 7 } :=
  ⟨.inr ⟨rfl, .inl ⟨rfl, .inr (by decide)⟩⟩, .inl (by decide), .inr ⟨rfl, .inr ⟨4, 7, rfl, rfl, by decide⟩⟩⟩

theorem witness_MessageInstructions : Issues (.amSend 5 6 8) base ∧ Issues (.amStat 5 3) base ∧ Issues (.amReply 6 8) hand ∧ Issues .amEnd hand ∧
    base.tile.feat.getLsbD 8 = true ∧ base.canBuffer = true ∧ base.inPaddock 0 0 = true ∧ base.inPaddock 0 1023 = true ∧ base.tile.act ≠ none ∧
    (let h : Nat := 16 * 2 ^ 22 + 3 * 2 ^ 30 + 6 * 2 ^ 33
     h < 2 ^ 36 ∧ h / 2 ^ 22 % 256 = 16 ∧ h / 2 ^ 33 % 8 = 6 ∧ h % 2 ^ 22 / 1024 = base.pkg.toNat) ∧
    base.reg 8 + 40 = 104 ∧ Readable base 64 48 ∧ hand.tile.handlerRun = some { run := 2, msgs := [], replied := false, ending := false } ∧
    hand.tile.mailbox.head? = some note ∧ hand.atomicsDone = true ∧ hand.tile.firstErr hand.runRef = none ∧ hand.tile.sendQ = [] := by decide +kernel
theorem witness_MessageInstructions_local : AllLocal base [(104, 8, false)] := allLocal (by decide +kernel)
theorem witness_MessageInstructions_fence : hand.release true 1 = .ok () := rfl

/-- A message on its way to tile 0, alone and behind another of its source; its entry valid and not. -/
def flightOf (p : MsgPhase) : MsgFlight := { msg := note, rel := 0, phase := p }
def receiving : State :=
  at' { base.onTile (fun t => { t with handlers := [{ idx := 16, image := 0, ctx := 0, pc := 0x10000 }] }) with msgs := [flightOf .toDest] } 0 0
def sending (p : MsgPhase) (ph : SendPhase) : State :=
  at' { base.onTile (fun t => { t with sendQ := [{ msg := note, strand := some .main, rel := 0, phase := ph, refusals := 2, backoff := 0 }] }) with msgs := [flightOf p] } 0 0

theorem witness_MessageEvents : receiving.msgs[0]? = some (flightOf .toDest) ∧ note.dest.toNat / 1024 = receiving.pkg.toNat ∧
    (receiving.getTile 0).entryValid 16 = true ∧ (base.getTile 0).entryValid 16 = false ∧ (receiving.getTile 0).mailbox.length < 28 ∧
    ({ note with kind := 1 }.reserved = true ∨ note.reserved = false) ∧ receiving.ordered note note = true ∧
    (sending .accepted .sent).msgs[0]? = some (flightOf .accepted) ∧ (sending .refused .sent).ours note = true ∧
    note.source.toNat % 1024 = (sending .refused .sent).tile.ltn ∧ (sending (.rejected 4) .sent).msgs[0]? = some (flightOf (.rejected 4)) ∧
    (sending .refused .backoff).tile.sendQ[0]? = some { msg := note, strand := some .main, rel := 0, phase := .backoff, refusals := 2, backoff := 0 } ∧
    note.kind.toNat < 2 ∧ 2 ≤ { note with kind := 2 }.kind.toNat ∧ { note with kind := 1 }.reserved = true ∧
    (let s := receiving.onTile fun t => { t with mailbox := [note] }
     s.tile.handlerRun = none ∧ s.tile.halted = false ∧ s.halted = false ∧ s.tile.mailbox.head? = some note ∧
     (s.tile.handlers.find? fun x => x.idx == note.entry) = some { idx := 16, image := 0, ctx := 0, pc := 0x10000 } ∧ s.tile.remapping = false ∧ (s.tile.ctxs[0]).state ≠ .unbound) ∧
    hand.tile.handlerRun.isSome = true := by decide +kernel

/-- A full buffer, another package without FEAT0.XPKG, a second reply; `am.end` before and in its fence. -/
theorem witness_MessageInstructions_edges :
    (let s := hand.onTile fun t => { t with handlerRun := some { run := 2, msgs := List.replicate 16 note, replied := true, ending := false } }
     s.canBuffer = false ∧ Issues (.amSend 5 6 8) s ∧ s.tile.handlerRun.isSome = true) ∧
    (let s := base.onTile fun t => { t with feat := t.feat &&& 0xFF }
     s.tile.feat.getLsbD 8 = false ∧ 1024 % 2 ^ 22 / 1024 ≠ s.pkg.toNat) ∧ ({ base with paddocks := [] } : State).destInPaddock 5 = false ∧ base.destInPaddock 1023 = true ∧
    (let s := hand.onTile fun t => { t with handlerRun := some { run := 2, msgs := [], replied := false, ending := true } }
     s.tile.handlerRun = some { run := 2, msgs := [], replied := false, ending := true } ∧ Issues .amEnd s ∧ s.strandWaits .handler 1 3 = false ∧
     { s with reqs := [{ req .wr .toSlice with strand := .handler }] }.strandWaits .handler 1 3 = true ∧ { hand with atomics := [{ amo with strand := .handler, run := 2 }] }.atomicsDone = false) ∧
    (let e : ErrRec := { valid := true, cause := 5, detail := 2, unit := 0, num := 1, owner := hand.runRef, localSrc := false }
     (hand.onTile fun t => t.modCtr 2 fun k => { k with err := e }).tile.firstErr hand.runRef = some (2, e)) := by decide +kernel

/-- An ack behind a message that its tile released before it; full mailboxes; a handler whose context is not bound. -/
theorem witness_MessageEvents_edges :
    (let m := { note with entry := 14 }
     let s := receiving.onTile fun t => { t with sendQ := [{ msg := note, strand := some .main, rel := 3, phase := .backoff, refusals := 1, backoff := 64 }] }
     s.sentBefore m 4 = true ∧ s.sentBefore m 3 = false) ∧
    (∀ n ∈ [28, 32], ((receiving.onTile fun t => { t with mailbox := List.replicate n note }).getTile 0).mailbox.length = n) ∧
    (let s := (base.onTile fun t => { t with mailbox := [note], handlers := [{ idx := 16, image := 0, ctx := 1, pc := 0x10000 }] })
     (s.tile.handlers.find? fun x => x.idx == note.entry) = some { idx := 16, image := 0, ctx := 1, pc := 0x10000 } ∧ (s.tile.ctxs[1]).state = .unbound ∧
     16 ≤ note.entry) ∧ (base.tile.handlers.find? fun x => x.idx == note.entry) = none := by decide +kernel

/-- A built-in message: doublewords 0 to 4. -/
def builtin (e : Nat) (a b c d r : DW) : Msg :=
  { note with entry := e, payload := ((((((Vector.replicate 6 (0 : DW)).set 0 a).set 1 b).set 2 c).set 3 d).set 4 r) }
def withMsg (m : Msg) : State := base.onTile fun t => { t with mailbox := [m] }

theorem witness_BuiltInHandlers : (withMsg (builtin 0 64 3 9 0 0)).tile.handlerRun = none ∧
    (withMsg (builtin 3 64 2 9 0 0xFFFFFFFFFFFFFFFF)).tile.mailbox.head? = some (builtin 3 64 2 9 0 0xFFFFFFFFFFFFFFFF) ∧
    (builtin 3 64 2 9 0 0xFFFFFFFFFFFFFFFF).dw 4 = BitVec.allOnes 64 ∧ (builtin 3 64 3 9 0 0).dw 4 ≠ BitVec.allOnes 64 ∧
    ((builtin 0 64 3 9 0 0).dw 0).toNat % 8 = 0 ∧ (withMsg note).tile.regionOk 1 64 8 true = true ∧ (withMsg note).tile.regionOk 1 64 8 false = true ∧
    ¬ ((builtin 0 66 3 9 0 0).dw 0).toNat % 8 = 0 ∧ Readable (withMsg note) 64 8 ∧ (withMsg note).tile.spad.wf = true ∧
    (withMsg note).strandWaits .handler 1 3 = false ∧ { withMsg note with reqs := [{ req .wr .toSlice with strand := .handler }] }.strandWaits .handler 1 3 = true ∧
    (builtin 1 64 3 9 0 0).source.toNat / 1024 = (withMsg note).pkg.toNat := by decide +kernel

/-- A record operand in bank 4, AIC32 row-major: a header with a plain-data tag route, and codes of zero. -/
def sheaf : State := { engines with packets := [], tile := { engines.tile with bfmt := engines.tile.bfmt.set 4 15 } }

/-- A reduced record: 64 bytes of header with the tag of route 3, and 4,096 bytes of codes. -/
def recordOf (tag : Nat) : List Byte := leBytes 32 0 ++ leBytes 8 tag ++ leBytes 24 0 ++ List.replicate 4096 0
def held (t : Nat) : Retention := { chunk := 5, tensor := 6, gen := BitVec.ofNat 8 t, addr := 0x40000, auto := false, st := .sent }

theorem witness_SheafInstructions : (∀ i ∈ [Instr.shTag 5 6 8, .shChk 5 6 8, .shRed 6 0, .shRed 6 8, .shAck 6 8, .shAck 6 0, .shRel 5 6 8], Issues i sheaf) ∧
    (sheaf.tile.operand 0x40000).fmt = 15 ∧ (sheaf.tile.operand 0x40000).plane = false ∧ (sheaf.tile.operand 0x40000).aligned = true ∧
    (sheaf.tile.operand 0x40000).rangeOk sheaf.tile 0 1 false = true ∧ isSquareFmt 15 = true ∧ isSquareFmt 8 = false ∧
    sheaf.tile.regionOk 0 ((sheaf.tile.operand 0x40000).headerAddr 0) 64 true = true ∧
    (sheaf.tile.operand 0).aligned = true ∧ (sheaf.tile.operand 0).rangeOk sheaf.tile 0 1 false = true ∧ sheaf.tile.thresher = [] ∧ sheaf.tile.wain = [] ∧
    sheaf.tile.spadBad = [] ∧ sheaf.tile.act = some probeAct ∧ hTag ((sheaf.tile.operand 0x40000).header sheaf.tile 0) = 0 ∧
    tagRoute (makeTag 0 3 1 false) = 3 ∧ tagPlain (makeTag 0 3 1 false) = false ∧ tagBad (makeTag 0 3 1 false) = false ∧ makeTag 0 3 1 false ≠ 0 ∧
    tagResidue (makeTag 0 3 1 false) = 0 ∧ sheaf.tile.retention.length + sheaf.redsBuffered < 32 ∧
    ([held 1].find? fun x => x.is (5 + 6 * 2 ^ 24) 1) = some (held 1) := by decide +kernel

/-- The same with a tag in its header, released to leave. -/
def sheafTagged (tag : Nat) : State :=
  sheaf.onTile fun t => { t with spad := t.spad.writeLe 0x40020 8 tag, shSends := [{ addr := 0x40000, auto := false, resend := false }] }

theorem operand_residue {t : Tile} {o : Operand} {j : Nat} (f : o.fmt = 15) (z : ((o.codes t j).all fun c => c == 0) = true) : o.residue t j = 0 := by
  unfold Operand.residue
  rw [f]
  exact residue_of_zeros z

/-- A tag that agrees with its block, one that does not, and ones that may not be sent. -/
theorem witness_SheafInstructions_tags :
    (∀ tag ∈ [makeTag 0 3 1 false, makeTag 5 3 1 false, makeTag 0 3 1 true, makeTag 0 0 1 false, tagSetBad (makeTag 0 3 1 false)],
      let s := sheafTagged tag
      hTag ((s.tile.operand 0x40000).header s.tile 0) = tag ∧ (s.tile.operand 0x40000).fmt = 15 ∧ tag ≠ 0) ∧
    tagPlain (makeTag 0 3 1 true) = true ∧ tagRoute (makeTag 0 0 1 false) = 0 ∧ tagBad (tagSetBad (makeTag 0 3 1 false)) = true ∧
    32 ≤ (List.replicate 32 (Output.red 0 false)).length ∧ 32 ≤ (List.replicate 32 (held 1)).length ∧ (∀ r ∈ sheaf.tile.retention, r.is 0 0 = false) := by
  decide +kernel

theorem witness_SheafInstructions_residues : ((sheafTagged (makeTag 0 3 1 false)).tile.operand 0x40000).residue (sheafTagged (makeTag 0 3 1 false)).tile 0 =
      tagResidue (makeTag 0 3 1 false) ∧
    ((sheafTagged (makeTag 5 3 1 false)).tile.operand 0x40000).residue (sheafTagged (makeTag 5 3 1 false)).tile 0 ≠ tagResidue (makeTag 5 3 1 false) := by
  rw [operand_residue (by decide +kernel) (by decide +kernel), operand_residue (by decide +kernel) (by decide +kernel)]
  decide +kernel

/-- An entry of route 3 to one neighbour, one to the tile itself, one of a reduction; a slot with both its inputs, 2^20 ns old. -/
def routeEntry : RouteEntry := { switch := 0, idx := 0, route := 3, paddock := 0, inMask := 1, outMask := 2, red := false }
def packetOf (bs : List Byte) : Packet := { switch := 0, port := 0, route := 3, paddock := 0, dest := 0, sources := [], body := .sheaf bs }
def slot : RedSlot :=
  { switch := 0, route := 3, paddock := 0, chunk := 0, tensor := 0, gen := 0, inputs := [(0, packetOf []), (1, packetOf [])], openedAt := 0 }

theorem witness_SheafNetwork :
    (let s := { sheaf with routes := [routeEntry] }
     s.routesFor (packetOf []) = [routeEntry] ∧ maskPorts routeEntry.outMask = [1] ∧ maskPorts 1 = [0] ∧ sheaf.routesFor (packetOf []) = [] ∧
     tagHop (makeTag 0 3 1 false) < 63) ∧
    (recordOf (makeTag 0 3 1 false)).length = 4160 ∧ recTag (recordOf (makeTag 0 3 1 false)) = makeTag 0 3 1 false ∧
    (let x : ShSend := { addr := 0x40000, auto := false, resend := false }
     (sheaf.onTile fun t => { t with shSends := [x] }).tile.shSends = [x] ∧ x.resend = false) ∧
    (let r := { routeEntry with inMask := 3, red := true }
     let s := at' { sheaf with routes := [r], slots := [slot], tb := 0x100000 } 0 0
     s.slots[0]? = some slot ∧ slot.complete r = true ∧ slot.complete { r with inMask := 7 } = false ∧ slot.openedAt + 2 ^ 20 ≤ s.tb.toNat ∧
     (s.routes.find? fun q => q.switch == slot.switch && q.route == slot.route && q.paddock == slot.paddock && q.red) = some r) ∧
    (let s := (withMsg (builtin 13 (5 + 6 * 2 ^ 24 + 2 ^ 48 + 2 * 2 ^ 56) 0 0 0 0)).onTile fun t => { t with retention := [held 1] }
     s.tile.handlerRun = none ∧ s.tile.halted = false ∧ s.tile.remapping = false ∧ s.halted = false ∧
     (s.tile.retention.find? fun x => x.is (5 + 6 * 2 ^ 24 + 2 ^ 48 + 2 * 2 ^ 56) 1) = some (held 1) ∧ (held 2).is (5 + 6 * 2 ^ 24) 1 = false) := by
  decide +kernel

/-- Sends whose record agrees with its tag and does not; slots with both inputs, of one E and of two. -/
theorem witness_SheafNetwork_records :
    (∀ tag ∈ [makeTag 0 3 1 false, makeTag 5 3 1 false], let s := sheafTagged tag
      s.tile.shSends = [{ addr := 0x40000, auto := false, resend := false }] ∧ recTag (s.tile.readSpad 0x40000 4160) = tag ∧ tagBad tag = false ∧ tag ≠ 0) ∧
    (let a := zeroRecord (makeTag 0 3 1 false)
     let b := 1 :: a.drop 1
     let x := fun bs : List Byte => { slot with inputs := [(0, packetOf a), (1, packetOf bs)] }
     hE (recHeader a) ≠ hE (recHeader b) ∧ b.length = 4160 ∧
     (x a).complete { routeEntry with inMask := 3, red := true } = true) ∧
    (let p := packetOf (zeroRecord (makeTag 0 3 1 false))
     let s := at' { sheaf with routes := [routeEntry], packets := [p] } 0 0
     s.routesFor p = [routeEntry] ∧ p.route ≠ 0 ∧ s.input.bits = 0) ∧
    (let s := withMsg (builtin 14 (5 + 6 * 2 ^ 24 + 2 ^ 48) 0 0 0 0)
     s.tile.handlerRun = none ∧ s.tile.mailbox.head? = some (builtin 14 (5 + 6 * 2 ^ 24 + 2 ^ 48) 0 0 0 0)) ∧
    (withMsg (builtin 13 0 0 0 0 0)).strandWaits .handler 1 3 = false ∧ (∀ r ∈ (withMsg (builtin 13 0 0 0 0 0)).tile.retention, r.is 0 0 = false) := by
  decide +kernel

theorem witness_SheafNetwork_packet (p : Packet) : ({ sheaf with routes := [routeEntry], packets := [p] } : State).packets[0]? = some p := rfl

theorem witness_SheafNetwork_inputs (a b : List Byte) : ({ slot with inputs := [(0, packetOf a), (1, packetOf b)] } : RedSlot).records = [a, b] := rfl

theorem witness_SheafNetwork_residues : recResidue ((sheafTagged (makeTag 0 3 1 false)).tile.readSpad 0x40000 4160) = tagResidue (makeTag 0 3 1 false) ∧
    recResidue ((sheafTagged (makeTag 5 3 1 false)).tile.readSpad 0x40000 4160) ≠ tagResidue (makeTag 5 3 1 false) := by
  rw [zero_record_residue (by decide +kernel) (by decide +kernel), zero_record_residue (by decide +kernel) (by decide +kernel)]
  decide +kernel

/-- A trap on the main strand, on the handler strand with its message's first and third trap; a failed atomic that was not awaited. -/
theorem witness_TrapsAndAsynchronousFaults : base.cur = .main ∧ base.tile.act = some probeAct ∧ base.cx.killPending = false ∧
    (raise .ill).isLocal = false ∧ { raise .uncorr with localSrc := true }.isLocal = true ∧ base.cx.runs = 0 ∧ base.cx.parkPending = false ∧
    (base.onCx fun c => { c with runs := 2 }).cx.runs = 2 ∧ base.cx.runsId = probeAct.firstId ∧ hand.cur = .handler ∧
    hand.tile.mailbox.head? = some note ∧ note.redel < 2 ∧ 2 ≤ { note with redel := 2 }.redel ∧
    (let f : AsyncFault := { cause := .uncorr, epc := 0x10000, fval := 0x10004, addr := 0x10040, info := 0, localSrc := false, step := none }
     let s := base.onSt fun x => { x with asyncFaults := [f] }
     (s.tile.strand s.input.strand).asyncFaults = [f] ∧ (s.tile.strand s.input.strand).wait = none) := by decide +kernel

theorem witness_TrapsReturnsAndWaits : (∀ i ∈ [Instr.trap 5, .trap 0x3FF, .brk 0, .eret, .halt, .wfi], Issues i base) ∧ base.st.lvl = 0 ∧ (lv 1).st.lvl = 1 ∧
    (lv 2).st.lvl = 2 ∧ ((lv 2).onSt fun x => { x with callerLvl := some 1 }).st.callerLvl = some 1 ∧
    ((base.onSt fun x => { x with wait := some (.retry .memory) }).tile.strand .main).wait = some (.retry .memory) ∧
    ((base.onSt fun x => { x with wait := some (.time 5) }).tile.strand .main).wait = some (.time 5) ∧ base.tb.toNat < (5 : DW).toNat ∧
    (let s := base.onSt fun x => { x with wait := some .monitor, cycles := 11 }
     (s.tile.strand .main).wait = some .monitor ∧ (s.tile.strand .main).act = true) ∧
    (let s := (base.onCx fun c => { c with budget := 10 }).onSt fun x => { x with cycles := 11 }
     s.cx.budget.toNat < (s.tile.strand .main).cycles ∧ (s.tile.strand .main).act = true) ∧
    (base.onSt fun x => { x with budgetDue := true }).st.budgetDue = true := by decide +kernel

theorem witness_SystemRegisters : (∀ i ∈ [Instr.srd 5 0, .srd 5 0x10F, .srd 5 0x200, .swr 0x001 8, .swr 0x030 8, .swrLoopReg 0x012 8, .swrLoopReg 0x013 8,
      .swrPhilox 0x042 8, .swrBfmt 15 8, .bfmtSet 0 8, .bfmtGet 5 15, .tbrd 5, .tbrdSt 5, .waitt 8], Issues i base ∧ Issues i (lv 1)) ∧ base.st.ximm = none ∧
    base.st.loop0.active = false ∧ base.tile.drawing = false ∧ base.tile.bankBusy 15 = false ∧ planeCapable 13 = true ∧ planeCapable 15 = false ∧
    base.tb.toNat < (base.reg 8).toNat := by decide +kernel

/-- A tile of its own, its column and the paddock's every tile; a range in the page; a record at a queue of the paddock. -/
theorem witness_InvalidationsAndRecords : Issues (.ifl 6 10 8) base ∧ Issues (.tlbinv 10 8) (lv 1) ∧ (base.reg 8).toNat < 2 ^ 24 ∧
    (base.reg 8).toNat / 2 ^ 10 % 2 ^ 12 = base.pkg.toNat ∧ (base.reg 10).toNat % 4 = 0 ∧ base.inPaddock base.tile.paddock 64 = true ∧
    (∃ (rs : List (Nat × Nat)) (t : State), base.iflPages 0x10040 64 258 = .ok (rs, t)) ∧ base.ifls = [] ∧ base.walks = [] ∧ base.atomics = [] ∧
    base.destInPaddock 64 = true ∧ base.passesNow (64, .main) = true ∧ base.passesNow (0, .main) = false ∧ base.passesNow (0, .handler) = true ∧
    hand.passesNow (0, .handler) = false ∧
    (let f : Ifl := { tile := 0, strand := .main, run := base.runRef.run, ranges := none, targets := [(0, .handler)] }
     ({ base with ifls := [f] }.ifls.find? fun f => f.tile == base.tile.ltn && f.strand == base.cur && f.run == base.runRef.run) = some f) ∧
    (0x20000 : DW).toNat % 2 ^ 16 = 0 ∧ (base.reg 10).toNat % 2 ^ 16 ≠ 0 ∧ (∀ x ∈ base.reqs, x.paddock ≠ base.tile.paddock) ∧
    (let r : RecordWait := { paddock := 0, queue := .fault, bytes := leBytes 64 16, holds := none }
     let q := { queue with qcb := { qcb with isize := 4, nprod := 0, agent := 1 } }
     let s := at' { queues with records := [r], queues := [q], paddocks := queues.paddocks.map fun c => { c with faultQ := 0x10080 } } 0 0
     s.records[0]? = some r ∧ s.recordQueue r = some q ∧ q.qcb.members = [(0, 0)] ∧ (s.getTile 0).eps[0]? = some input ∧ s.memberTakes q.pa 0 0 = .yes ∧
     (s.getTile 0).spad.wf = true ∧ sheafKind r.bytes = false ∧ s.ringRoom q 0 0 true 1 = true ∧
     base.recordQueue r = none ∧ s.ringRoom queue 0 0 true 1 = false) :=
  by refine ⟨?_, ?_, ?_, ?_, ?_, ?_, exists_ok ?_, ?_⟩ <;> decide +kernel

/-- A pending `ifl`, whose targets are between units or not; an access of the paddock that is open; lost records of the gleaner. -/
theorem witness_InvalidationsAndRecords_waits :
    (let f : Ifl := { tile := 0, strand := .main, run := base.runRef.run, ranges := some [(0x10000, 64)], targets := [(64, .main), (0, .handler)] }
     let s := { base with ifls := [f] }
     s.ifls[0]? = some f ∧ f.targets ≠ [] ∧ s.betweenUnits (64, .main) = true ∧ Issues (.ifl 6 10 8) s) ∧
    (lv 1).accessesOpen (lv 1).tile.paddock = false ∧ ({ lv 1 with reqs := [req .wr .toSlice] } : State).accessesOpen (lv 1).tile.paddock = true ∧
    ((lv 1).reg 8).toNat < 2 ^ 48 ∧ 2 ^ 48 ≤ (((lv 1).setReg 8 0x1000000000000).reg 8).toNat ∧ ((lv 1).reg 0).toNat % 2 ^ 16 = 0 ∧
    2 ^ 24 ≤ ((base.setReg 8 0x1000000).reg 8).toNat ∧ sheafKind (leBytes 64 1) = true ∧
    (let r : RecordWait := { paddock := 0, queue := .gleaner, bytes := leBytes 64 1, holds := none }
     let s := at' { base with records := [r, r] } 1 0
     s.records[1]? = some r ∧ (∃ x ∈ s.records.take 1, x.paddock = r.paddock ∧ x.queue = r.queue ∧ sheafKind x.bytes = sheafKind r.bytes)) := by decide +kernel

/-- The calls at L0, L1 and L2; contexts of the caller's tile in each state; a quarantine queue with room. -/
theorem witness_ContextCalls : (∀ i ∈ [Instr.info, .ctxPark, .ctxResume, .ctxKill, .quarantine, .regionSet, .keyLoad, .keyClear, .routeSet, .routeClear,
      .vqBind, .exportCall, .importCall, .attest], Issues i base ∧ Issues i (lv 1) ∧ Issues i (lv 2)) ∧ (lv 1).reg 6 = 0 ∧
    (lv 1).callTurn.isSome = true ∧ { lv 1 with paddocks := [] }.callTurn = none ∧ (lv 1).st.sample ≠ some 2 ∧
    (Arbiter.grant (fun q => if q = 3 ∨ q = 30 then 2 else 0) (fun q => q == 3 || q == 30) { turn := 3, used := 2 }).map Prod.fst = some 30 ∧
    (∀ q ∈ ((lv 1).getTile 0).queuesOf 0, (lv 1).qcbBusy q = false) ∧ (lv 1).inPaddock (lv 1).tile.paddock 0 = true ∧ (lv 1).inPaddock (lv 1).tile.paddock 1024 = false ∧ ((lv 1).ctxOf 0 0).state = .running ∧
    ((lv 1).ctxOf 0 1).state = .unbound ∧ ((lv 1).getTile 0).runsCtx 0 = true ∧ ((lv 1).getTile 0).runsCtx 1 = false ∧
    (((lv 1).onCx fun c => { c with state := .parked }).ctxOf 0 0).state = .parked ∧ (lv 1).queueAt ((lv 1).reg 8).toNat = none ∧
    (let s := { (lv 1).onTile fun t => { t.modCtx 0 fun c => { c with state := .parked, lastHeld := [(0, 1)] } with eps := (t.eps.set 0 input).set 1 input } with
                  queues := [queue, { queue with pa := 64, qcb := { qcb with nprod := 0, members := [(0, 1)] } }] }
     (s.queueAt (s.reg 8).toNat).map (fun z => z.qcb.members) = some [(0, 1)] ∧ (s.ctxOf 0 0).lastHeld = [(0, 1)] ∧ (s.getTile 0).eps[0]? = some input ∧
     s.queueAt input.qcb = some queue ∧ (s.queueAt 64).map (fun z => s.ringRoom z 0 1 true 1) = some true ∧ s.memberTakes 64 0 1 = .unbound ∧
     (s.onTile fun t => { t with eps := t.eps.set 1 { input with qcb := 64 } }).memberTakes 64 0 1 = .yes) := by decide +kernel

theorem witness_ResourceCalls : (lv 1).st.lvl = 1 ∧ (lv 1).callTurn.isSome = true ∧ (lv 1).st.sample ≠ some 2 ∧
    { lv 1 with packets := [packetOf []] }.routeHolds { routeEntry with red := true } = true ∧
    { lv 1 with routes := [routeEntry] }.routeHolds routeEntry = false ∧ (lv 1).exportBusy 0 64 = false ∧ 0 < vqCount 0 ∧ ((lv 1).pcfg 0).isSome = true ∧ ((lv 1).reg 6).toNat % 64 = 0 ∧ ((lv 1).reg 6).toNat + 64 ≤ 2 ^ 20 ∧
    regionInvalid 0xFFFC000007 = false ∧ regionInvalid 8 = true ∧ (∀ m ∈ ((lv 1).getTile 0).images, m.region ≠ some 3) ∧ (lv 1).keyOk 0 1 = true ∧
    (lv 1).keyOk 0 0 = false ∧ (lv 1).keyPending 1 = false ∧ { lv 1 with reqs := [req .wr .toSlice] }.keyPending 1 = true ∧
    (lv 1).tile.spadBad = [] ∧ routeMalformed (3 + 2 ^ 21 + 2 ^ 28 + 2 ^ 34) = false ∧ (routeOf 0 7 (3 + 2 ^ 21 + 2 ^ 28 + 2 ^ 34)).isSome = true ∧
    (routeOf 0 7 (3 + 2 ^ 21 + 2 ^ 28 + 2 ^ 34)).map (lv 1).routeConflict = some false ∧
    (routeOf 0 7 (3 + 2 ^ 21 + 2 ^ 28 + 2 ^ 34)).map { lv 1 with routes := [routeEntry] }.routeConflict = some true ∧
    ([routeEntry].find? fun r => r.switch == 0 && r.idx == 0) = some routeEntry ∧ (lv 1).ownsVf 0 0 = true ∧ (lv 1).ownsVf 0 64 = false ∧
    (let s := { lv 1 with queues := [{ queue with pa := 64, qcb := { qcb with isize := 4 } }] }
     s.hostQueue 0 (s.reg 8).toNat = true ∧ (s.device 0 0).status.getLsbD 2 = false) ∧
    ((lv 1).enterMonitor.exportBytes 0 1 0).1 = 0 ∧ ((lv 1).enterMonitor.exportBytes 0 0 0).1 = 1 ∧
    (lv 1).enterMonitor.importSize 1 0 = 0 := by decide +kernel

/-- A link that is up, one with an unacknowledged flit, one that trains beside a link that is up. -/
def flit (seq ack : Nat) : Flit :=
  let h : BitVec 32 := BitVec.ofNat 32 (seq + ack * 2 ^ 12)
  { header := h, body := [], crc := flitCrc h [] }
def sentFlit (seq : Nat) : SentFlit := { paddock := some 0, flit := flit seq 0 }
def beats (p : Option (BitVec 5)) : LinkBeats := { paddock := p, vc := 0, body := [] }
def linked (k : Link) : State := at' { base with links := base.links.set 0 k } 0 1

theorem witness_KyxusLinks : (linked Link.reset).links[0]? = some Link.reset ∧ Link.reset.state = .up ∧ (flit 0 5).header.extractLsb' 0 12 = Link.reset.expected ∧
    (flit 0 5).crc = flitCrc (flit 0 5).header (flit 0 5).body ∧ (flit 1 5).header.extractLsb' 0 12 ≠ Link.reset.expected ∧
    (let k := { Link.reset with retained := [sentFlit 4, sentFlit 5], replays := 16, sinceAck := 1000, sendQ := [beats (some 0), beats none] }
     k.retained = [sentFlit 4] ++ sentFlit 5 :: [] ∧ flitSeq (flit 5 0) = (flit 0 5).header.extractLsb' 12 12 ∧ k.retained ≠ [] ∧ 1000 ≤ k.sinceAck ∧
     16 ≤ k.replays ∧ k.retained.length < 4095 ∧ k.sendQ = [beats (some 0)] ++ beats none :: []) ∧
    (let k := { Link.reset with sendQ := [beats (some 0)] }
     (∀ x ∈ k.sendQ, x.paddock ≠ none) ∧ k.arb.grant base.weight (fun q => k.sendQ.any fun x => x.paddock == some (BitVec.ofNat 5 q)) =
       some (0, { turn := 0, used := 1 })) ∧
    (let s : State := { linked { Link.reset with state := .training, retained := [sentFlit 4] } with
                          paddocks := base.paddocks.map fun (c : PaddockCfg) => { c with links := 3 } }
     s.input.j ≠ 0 ∧ s.links[1]? = some Link.reset ∧ ((s.pcfg 0).map fun c => c.links.getLsbD 1) = some true ∧ (sentFlit 4).paddock = some 0 ∧
     Link.reset.state ≠ .down) ∧
    (let s := at' { base with links := (Vector.replicate 16 { Link.reset with state := .down }).set 0 { Link.reset with state := .training },
                              msgs := [{ msg := { note with dest := 1024 }, rel := 0, phase := .toDest }] } 0 0
     (∀ i : Fin 16, i.val ≠ 0 → (s.links[i.val]?).map Link.state = some .down) ∧ ({ note with dest := 1024 } : Msg).dest.toNat / 1024 ≠ s.pkg.toNat) := by
  decide +kernel

/-- A tile that is to move, before and after its contexts are parked; a root and a package that is not; the configuration of one paddock. -/
theorem witness_RemapPowerTimeAndBringUp :
    (let s := base.onTile fun t => { t with remapAsked := true }
     s.tile.remapAsked = true ∧ s.tile.remapping = false ∧ (s.ctxOf 0 0).state = .running ∧
     (({ s with tile := { s.tile with remapping := true } } : State).remapReady 0 = false)) ∧
    (let s := base.onTile fun t => { t.modCtx 0 fun c => { c with state := .parked } with remapAsked := true, remapping := true, remapCtxs := [0], act := none }
     s.remapReady 0 = true ∧ s.sparesFree (dieOf 0) = 128 :: (List.range 7).map (· + 129) ∧
     { s with spareMap := [(1, 128)], deadSpares := [(0, 129)] }.sparesFree 0 = 130 :: (List.range 5).map (· + 131) ∧
     { s with spareMap := (List.range 8).map fun i => (i, 128 + i) }.sparesFree (dieOf 0) = []) ∧
    base.timeRoot = true ∧ { base with timeRoot := false, sinceSync := 2 ^ 24 }.sinceSync = 2 ^ 24 ∧ base.links[0]? = some Link.reset ∧
    (let k := { Link.reset with sinceExchange := 2 ^ 16 }
     (linked k).links[0]? = some k ∧ k.state = .up ∧ 2 ^ 16 ≤ k.sinceExchange ∧ { k with sinceExchange := 65535 }.sinceExchange < 2 ^ 16) ∧
    (let p := { probeCfg 0 with svc0 := 0, svc1 := 1 }
     cfgOk [p] = true ∧ ([{ kind := 0, bytes := [], rsa := [], slh := [], version := 0 }, { kind := 1, bytes := [], rsa := [], slh := [], version := 0 }] :
       List BootImage).map BootImage.kind = [0, 1]) := by decide +kernel

/-- A virtqueue of device 0 of VF 0, whose item and completion queues are bound. -/
def vq : Virtqueue :=
  { id := { vf := 0, dev := 0, vq := 0 }, itemQ := 0x10080, compQ := 0x10100, pool := 0x10800, poolBytes := 64, tile := 0, xc := base.xc,
    pending := [], moving := none, back := 0, notified := false, outstanding := [], lastAvail := 0, used := 0, availWrap := true, usedWrap := true }
def notifyOf (n : Nat) : NotifyReq := { vq := { vf := 0, dev := 0, vq := 0 }, chain := 3, descs := 1, readable := [], writable := n }
def driven : Device := { freshDevice 0 0 1 with status := 12, confs := [(0, { VqConf.reset with size := 8, enabled := true })] }
def itemQueue : Queue := { queue with qcb := { qcb with isize := 4, nprod := 0 } }
def hosts : State := at' { queues with virtqueues := [vq], devices := [driven], queues := [itemQueue, { queue with pa := 0x10100 }] } 0 0

/-- A completion of the chain 3 with no bytes, for the device's epoch 1. -/
def completion : ItemFlight :=
  { item with qcb := 0x10100, payload := leBytes 2 0 ++ leBytes 2 3 ++ leBytes 4 0 ++ leBytes 12 0 ++ leBytes 4 1 ++ leBytes 40 0 }

/-- The head of a vsock packet of VF 0's driver from its port 7 to port 5140 of CID 2: a request to open a stream connection. -/
def vsockHead : List Byte :=
  leBytes 8 3 ++ leBytes 8 2 ++ leBytes 4 7 ++ leBytes 4 5140 ++ leBytes 4 0 ++ leBytes 2 1 ++ leBytes 2 1 ++ leBytes 12 0

/-- A notify of more bytes than one transfer moves, of a pool that holds them; a packet to the service's port; no grant while WEIGHT is 0. -/
theorem witness_VirtioDevices_notify :
    (let r := { notifyOf 0 with readable := List.replicate 300 5 }
     let v := { vq with poolBytes := 1024 }
     let s := ({ hosts with virtqueues := [v] } : State).modVq r.vq fun v => { v with pending := [r] }
     staysAtIo r.vq r.readable = false ∧ v.placeFree 0 300 = true ∧ s.vqLive r.vq = true ∧ (s.dmaTurn 0 0).isSome = true ∧
     (s.dmaTurn 0 0).map (fun g => okIo (g.gWrites (g.poolAgent v) (lineFuel 256) v.pool (List.replicate 256 5))) = some true) ∧
    ({ hosts with paddocks := hosts.paddocks.map fun (c : PaddockCfg) => { c with weight := 0 } } : State).dmaTurn 0 0 = none ∧
    (let v := { vq with id := { vf := 0, dev := 2, vq := 1 } }
     let d := { driven with dev := 2, confs := [(1, { VqConf.reset with enabled := true })] }
     let s := { hosts with virtqueues := [v], devices := [d] }
     s.vqLive v.id = true ∧ s.vq v.id = some v ∧ vsockHead.length = 44 ∧ ofLe ((vsockHead.drop 20).take 4) = 5140 ∧ s.vsock = [] ∧
     ofLe ((vsockHead.drop 28).take 2) = 1 ∧ ofLe ((vsockHead.drop 30).take 2) = 1 ∧ (s.dmaTurn 0 0).isSome = true) ∧
    (let c : Chain := { id := 3, descs := 1, writable := 64, buf := 0x10800, bytes := 64 }
     let s := { hosts with virtqueues := [{ vq with outstanding := [c] }] }
     (s.dmaTurn 0 0).map (fun g => okIo (g.gReads (g.poolAgent vq) (lineFuel 4) c.buf 4)) = some true) := by decide +kernel

theorem witness_VirtioDevices : hosts.vfPresent 0 = true ∧ (hosts.device 0 0) = driven ∧ driven.status.getLsbD 3 = true ∧ driven.status.getLsbD 2 = true ∧
    driven.resetting = false ∧ driven.driverSel = 0 ∧ driven.queueSel.toNat < vqCount 0 ∧ driven.packed = false ∧
    (0 : Nat).lor (offered 0) = offered 0 ∧ (2 ^ 63 : Nat).lor (offered 2) ≠ offered 2 ∧ hosts.vqLive (notifyOf 64).vq = true ∧
    hosts.vqLive { vf := 0, dev := 1, vq := 0 } = false ∧ (hosts.device 0 1).status.getLsbD 3 = false ∧
    hosts.vfPresent 5 = false ∧
    (let a := { item with src := .inject }
     let s := { hosts with flight := [a] }
     a.agent = true ∧ a.travel = false ∧ s.itemFirst 0 a = true ∧ (∀ v ∈ s.virtqueues, v.compQ ≠ a.qcb) ∧ ((s.queueAt a.qcb).map fun z => s.ringRoom z 0 0 true 1) = some true ∧
     s.ringRoom { itemQueue with qcb := { itemQueue.qcb with nprod := 2 } } 0 0 true 1 = false ∧
     (s.ctxOf 0 0).state ≠ .unbound ∧ (s.ctxOf 0 0).state ≠ .binding) ∧
    hosts.vq (notifyOf 64).vq = some vq ∧ (hosts.queueAt vq.itemQ).isSome = true ∧ hosts.bitmaps = [] ∧ (hosts.dmaTurn 0 0).isSome = true ∧ hosts.vqWaits (notifyOf 64).vq = false ∧
    { hosts with flight := [{ item with src := .virtqueue 0 0 0 }] }.vqWaits (notifyOf 64).vq = true ∧ vq.placeFree 0 64 = true ∧ vq.placeFree 1 64 = false ∧
    (let c : Chain := { id := 3, descs := 1, writable := 64, buf := 0x10800, bytes := 64 }
     let s := { hosts with flight := [completion], virtqueues := [{ vq with outstanding := [c] }] }
     s.flight[0]? = some completion ∧ s.itemFirst 0 completion = true ∧ (s.queueAt completion.qcb).map Queue.frozen = some false ∧
     c.id.toNat = ofLe ((completion.payload.drop 2).take 2) ∧ 0 = ofLe ((completion.payload.drop 4).take 4) ∧
     (s.device 0 0).epoch.toNat = ofLe ((completion.payload.drop 20).take 4)) := by decide +kernel

/-- An image of one instruction, and a request that binds its one context to tile 1. -/
def image : List Byte :=
  leBytes 4 0x3149584B ++ leBytes 4 1 ++ leBytes 8 0x01B20909 ++ leBytes 4 128 ++ leBytes 4 4 ++ leBytes 104 0 ++ leBytes 4 0xE0000003
def ask : SvcReq := { vf := 0, conn := 7, status := 0, len := 0, reqId := 9, sel := 0 }
def epDecl : EpDecl := { ep := 2, input := true, itemUnits := 2, logCap := 1, window := none, ring := some 0x2000, rate := 1 }
def ctxDecl : CtxDecl := { num := 1, prio := 0, mode := .any, entry := 0, fallow := none, level := 0, budget := 100, endpoints := [epDecl] }
def imageMeta : ImageMeta :=
  { spadOrg := 0x2000, spadBytes := 0x1000, ctxTotal := 1, epTotal := 1, handlerTotal := 0, contexts := [ctxDecl], accMask := 1, handlers := [], banks := [], kxCores := none, kxRoutes := none }
def queueDecl : QueueDecl :=
  { qcb := 0x10100, fmt := 0, logCap := 1, itemUnits := 2, qprio := 0, gring := false, agent := 1, ringAddr := none, window := none, members := [(1, 2)],
    producers := [], seeds := 0, external := true }
def bindReq : BindReq :=
  { svc := ask, images := [{ image := image, decls := imageMeta, tiles := [1], codeBase := 0x10000, globalBase := 0 }], queues := [queueDecl], maps := [],
    rootPa := 0x20000, rootKey := 1, asid := 0, key := 1, routes := [] }

/-- Tables at 0x20000 to 0x26000 map the page at 0x10000; the guest's port 7 has a connection to the service, whose context runs at L1. -/
def served : State :=
  let table := fun (pa : Nat) => pa / 2 ^ 13 * 2 ^ 12 + 1 + 2 ^ 51
  let s := base.onCx fun c => { c with lvl := 1 }
  { s with mem := (((s.mem.writeLe 0x20000 8 (table 0x22000)).writeLe 0x22000 8 (table 0x24000)).writeLe 0x24000 8 (table 0x26000)).writeLe 0x26008 8
             (probeLeaf 1).toNat,
           vsock := [{ vf := 0, guest := 7, port := 5140, seqpacket := false }] }

/-- A request that passes and one that waits; an image in two places on two tiles; one with no image, one refused, one that maps nothing. -/
theorem witness_ServiceRequests_bind : (served.vfOwner 0).isSome = true ∧ served.vfOwner 5 = none ∧ bindPlaced (served.attach bindReq) = true ∧
    ((served.vfOwner 0).map fun c => served.bindCheck c (served.attach bindReq)) = some none ∧
    (match served.bindRings (served.attach bindReq) with | .ok rs => rs.length == 1 | .error _ => false) = true ∧
    (match served.loaderPlan 0 (served.attach bindReq) with
      | some plan => !served.bindBusy (served.attach bindReq) plan && plan.length == 1 &&
        { served with reqs := [{ req .wr .toBase with pa := 0x10000 }] }.bindBusy (served.attach bindReq) plan
      | none => false) = true ∧
    served.loaderPlan 0 { served.attach bindReq with rootPa := 0x40000 } = none ∧
    (∀ m ∈ (served.attach bindReq).images, (m.decls.contexts.map CtxDecl.num).Nodup ∧ imagesOn (served.attach bindReq) 1 = [m]) ∧
    bindPlaced { bindReq with images := [] } = false ∧
    ((served.vfOwner 0).map fun c => served.bindCheck c { bindReq with images := bindReq.images.map fun m => { m with image := [] } }) =
      some (some (1, 0)) := by decide +kernel

theorem witness_ServiceRequests : served.reachesService ask = true ∧ base.reachesService ask = false ∧ served.outstanding 0 7 = [] ∧
    (let x : SvcJob := { vf := 0, conn := 7, op := 4, reqId := 9, stage := .answered 0 [], closed := false }
     let y := { x with stage := .waiting (.reconfig served.paddocks) }
     { served with svcJobs := [x] }.outstanding 0 7 = [x] ∧ { served with svcJobs := List.replicate 16 x }.outstanding ask.vf ask.conn = List.replicate 16 x ∧
     { served with svcJobs := [y] }.outstanding 0 7 = [y] ∧ ({ served with svcJobs := [{ y with closed := true }] } : State).svcJobs[0]? = some { y with closed := true }) ∧
    ({ ask with len := 0x1000001 } : SvcReq).len.toNat > 2 ^ 24 ∧ ({ ask with status := 1 } : SvcReq).status ≠ 0 ∧
    (∃ l ∈ summaryTiles (served.summaryCfgs (probeCfg 0) false) false, (served.getTile l).act ≠ none) ∧
    (∀ l ∈ summaryTiles (served.summaryCfgs (probeCfg 0) false) false, ((served.onTile fun t => { t with act := none }).getTile l).act = none) ∧
    served.exportBusy 1 0 = false ∧ { queues with reqs := [{ req .wr .toSlice with pa := 0x100E0 }] }.exportBusy 0 0x10080 = true ∧
    ((base.vfOwner 0).map fun c => (cfgHasTile c 1023, cfgHasTile c 1024)) = some (true, false) ∧
    (base.getTile 0).runsCtx 0 = true ∧ (base.getTile 0).runsCtx 1 = false ∧ ((base.onTile fun t => t.modCtx 1 fun c => { c with state := .idle }).ctxOf 0 1).state ≠ .unbound ∧
    (let z := { queue with qcb := { qcb with nprod := 0 } }
     let s := { queues with queues := [z] }
     s.queueAt 0x10080 = some z ∧ z.qcb.paddock = 0 ∧ s.waveDone 0x10080 = true ∧ s.memberTakes 0x10080 0 0 = .yes ∧
     s.ringRoom z 0 0 true 1 = true ∧ s.roomForAll z 2 = false) ∧
    (let h : BindHandle := { handle := 0, vf := 0, contexts := [(0, 0)], queues := [] }
     ({ base with handles := [h] }.handles.find? fun x => x.handle == ask.sel.toNat && x.vf == ask.vf) = some h ∧
     ({ base with handles := [{ h with queues := [0x10080], contexts := [(1, 1)] }],
                  others := [(1, { Tile.reset 1 with ctxs := (Tile.reset 1).ctxs.set 1 { Ctx.reset with state := .binding } })] }.waveDone 0x10080) = false) ∧
    base.isAdmin 0 = true ∧ base.isAdmin 1 = false ∧ cfgOk base.paddocks = true ∧ cfgOk [probeCfg 0, probeCfg 1] = false ∧
    State.reset.reconfigBusy base.paddocks = false ∧ base.reconfigBusy (base.paddocks.map fun c => { c with weight := 2 }) = false ∧
    base.reconfigBusy [] = true ∧ base.purgeWaits base.paddocks = false ∧ { base with reqs := [req .wr .toSlice] }.purgeWaits [] = true ∧
    ((base.vfOwner 0).map base.supervisorCtx) = some none ∧
    (let s := base.onCx fun c => { c with lvl := 1 }
     ((s.vfOwner 0).map s.supervisorCtx) = some (some 0) ∧ ((s.exportBytes 0 1 0).1 = 0) ∧ ((s.exportBytes 0 0 0).1 = 1)) ∧
    served.importSize 1 0 = 0 ∧ (served.importBytes 0 1 0 []).1 = 0 ∧
    (List.replicate 48 (0 : Byte)).length = 48 := by decide +kernel

/-- A step answers a next state. -/
def steps (s : State) : Bool := match step s with
  | .next _ => true
  | _ => false

theorem exists_step {s : State} (h : steps s = true) : ∃ t : State, step s = .next t := by
  unfold steps at h
  split at h
  · next t e => exact ⟨t, e⟩
  · cases h

theorem witness_StepKeepsMemoryCanonical : MemoryCanonical base ∧ base.mem ≠ [] ∧ ∃ t : State, step base = .next t := by
  refine ⟨?_, ?_, exists_step ?_⟩ <;> decide +kernel

/-! ### One step: worked examples of the manual, and edges computed by hand -/

/-- `base` with two scalar registers and one vector register. -/
def regs (a b : DW) (v : VWord := 0) : State := ((base.setReg 1 a).setReg 2 b).setV 1 v
/-- s5 after a word. -/
def s5 (i : Instr) (s : State) : DW := (nextOf (exec i s)).reg 5
def cause (i : Instr) (s : State) : BitVec 5 := (nextOf (exec i s)).st.cause
/-- A vector of 32-bit elements, the others zero. -/
def lanes (l : List (Nat × Nat)) : VWord := BitVec.ofNat 1024 (l.foldl (fun a p => a + p.2 * 2 ^ (32 * p.1)) 0)

theorem test_add_wraps : s5 (.add 5 1 2) (regs 0xFFFFFFFFFFFFFFFF 2) = 1 := by decide +kernel
theorem test_write_to_s0_is_lost : (nextOf (exec (.add 0 1 2) (regs 3 4))).reg 0 = 0 := by decide +kernel
/-- 14 R300: the quotient of the least number by −1 wraps, by 0 it is all ones; the remainders are 0 and the dividend. -/
theorem test_division_edges : s5 (.divI 5 1 2) (regs 0x8000000000000000 0xFFFFFFFFFFFFFFFF) = 0x8000000000000000 ∧
    s5 (.remI 5 1 2) (regs 0x8000000000000000 0xFFFFFFFFFFFFFFFF) = 0 ∧ s5 (.divN 5 1 2) (regs 9 0) = 0xFFFFFFFFFFFFFFFF ∧
    s5 (.remN 5 1 2) (regs 9 0) = 9 ∧ s5 (.remI 5 1 2) (regs 0xFFFFFFFFFFFFFFF9 2) = 0xFFFFFFFFFFFFFFFF := by decide +kernel
theorem test_mulh_signs : s5 (.mulhI 5 1 2) (regs 0xFFFFFFFFFFFFFFFF 1) = 0xFFFFFFFFFFFFFFFF ∧ s5 (.mulhN 5 1 2) (regs 0xFFFFFFFFFFFFFFFF 2) = 1 := by
  decide +kernel
theorem test_saturation : s5 (.addsI 5 1 2) (regs 0x7FFFFFFFFFFFFFFF 1) = 0x7FFFFFFFFFFFFFFF ∧
    s5 (.subsI 5 1 2) (regs 0x8000000000000000 1) = 0x8000000000000000 := by decide +kernel
theorem test_counts : s5 (.clz 5 1) (regs 0 0) = 64 ∧ s5 (.ctz 5 1) (regs 0 0) = 64 ∧ s5 (.pop 5 1) (regs 0xF0F0 0) = 8 := by decide +kernel
theorem test_bswap : s5 (.bswap 5 1) (regs 0x0123456789ABCDEF 0) = 0xEFCDAB8967452301 := by decide +kernel
theorem test_shift_counts : s5 (.shrI 5 1 2) (regs 0x8000000000000000 68) = 0xF800000000000000 ∧ cause (.shli 5 1 64) (regs 1 0) = 1 := by decide +kernel

/-- 14, worked example: 0x0123_4567_89AB_CDEF into s5. -/
theorem test_load_constant : s5 (.addi 5 0 0xCDEF) (nextOf (exec (.ximm 0x3FF89AB) base)) = 0xFFFFFFFF89ABCDEF ∧
    s5 (.addi 5 0 0xCDEF) base = 0xFFFFFFFFFFFFCDEF ∧
    s5 (.addhi 5 5 0x4568) (nextOf (exec (.ximm 0x123) (base.setReg 5 0xFFFFFFFF89ABCDEF))) = 0x0123456789ABCDEF := by decide +kernel

/-- 14, worked example: `loopi 0, 5, last` at 0x1000 sets LC0 5, LS0 0x1004 and LE0 0x1010. -/
theorem test_loopi : (let s := nextOf (exec (.loopi 0 5 4) (base.onSt fun x => { x with pc := 0x1000 }))
    (s.st.loop0.lc, s.st.loop0.ls, s.st.loop0.le, s.st.loop0.active)) = (5, 0x1004, 0x1010, true) := by decide +kernel
theorem test_conditions : s5 (.sel 2 5 1 2) ((regs 3 4).setReg 5 0xFFFFFFFFFFFFFFFF) = 3 ∧ s5 (.cmov 1 5 1 2) ((regs 3 0).setReg 5 8) = 8 := by
  decide +kernel
theorem test_branch_backwards : (nextOf (exec (.blt 1 2 0x7FF) ((regs 0xFFFFFFFFFFFFFFFF 0).onSt fun x => { x with pc := 0x10004 }))).st.pc = 0x10000 := by
  decide +kernel

theorem test_load_sign_extends : s5 (.ldI 0 5 8 1) (nextOf (exec (.st 0 1 8 1) (regs 0x180 0))) = 0xFFFFFFFFFFFFFF80 ∧
    s5 (.ldN 0 5 8 1) (nextOf (exec (.st 0 1 8 1) (regs 0x180 0))) = 0x80 := by decide +kernel
theorem test_store_is_little_endian : (nextOf (exec (.st 3 1 8 0) (regs 0x0102030405060708 0))).tile.spad.read 64 = 8 := by decide +kernel

/-- 08, worked examples: the exact sum, rounded once; the running maximum keeps the lowest index among equals. -/
theorem test_vsum : s5 (.vsum 0 5 1 0) (regs 0 0 (lanes [(0, 0x4B800000), (1, 0x3F800000), (2, 0x3F800000)])) = 0x4B800001 ∧
    (nextOf (exec (.vsum 0 5 1 0) (regs 0 0 (lanes [(0, 0x4B800000), (1, 0x3F800000), (2, 0x3F800000)])))).cx.landFlags.flags = 0 := by decide +kernel
theorem test_vmaxi : (let v := lanes ((List.range 32).map fun e => (e, if e = 1 ∨ e = 2 then 0x40200000 else if e = 4 then 0x7FC00000 else 0xBF800000))
    let s := nextOf (exec (.vmaxi 0 8 1 10 0) ((((regs 0 0 v).setReg 8 0x40200000).setReg 9 7).setReg 10 32))
    (s.reg 8, s.reg 9)) = (0x40200000, 7) := by decide +kernel
/-- 08 R179: ∞ × 0 with a NaN addend gives the quiet NaN with sign 0, and NV. -/
theorem test_vfma_invalid : (let s := (((base.setV 1 (lanes [(0, 0x7F800000)])).setV 2 0).setV 3 (lanes [(0, 0xFFC00001)])).setK 1 1
    let t := nextOf (exec (.vfma 0 3 1 2 1) s)
    (vElem 32 (t.vreg 3) 0, t.cx.landFlags.flags)) = (0x7FC00000, 1) := by decide +kernel
theorem test_vadd_masked : (let s := ((base.setV 1 (lanes [(0, 5), (1, 6)])).setV 2 (lanes [(0, 0xFFFFFFFF), (1, 1)])).setK 1 1
    let t := nextOf (exec (.vaddInt 0 0 3 1 2 1) s)
    (vElem 32 (t.vreg 3) 0, vElem 32 (t.vreg 3) 1)) = (4, 0) := by decide +kernel
/-- 07 R158: to nearest, ties to even. -/
theorem test_bf16_ties : (cvtOne 7 9 .near none 0x3F808000).1 = 0x3F80 ∧ (cvtOne 7 9 .near none 0x3F818000).1 = 0x3F82 := by decide +kernel
/-- 07: 65,505 into FP16 is 65,504 with NX, 65,520 is +∞ with OF and NX; 2^−140 is +0 with UF and NX, 2^−20 is exact. -/
theorem test_fp16_edges : (cvtOne 7 8 .near none 0x477FE100).1 = 0x7BFF ∧ (cvtOne 7 8 .near none 0x477FF000).1 = 0x7C00 ∧
    (cvtOne 7 8 .near none 0x00000200).1 = 0 ∧ (cvtOne 7 8 .near none 0x35800000) = (0x0010, 0) := by decide +kernel
theorem test_kffs : s5 (.kffs 5 1) base = 32 ∧ s5 (.kffs 5 1) (base.setK 1 0x80000000) = 31 ∧ s5 (.kget 5 0) base = 0xFFFFFFFF := by decide +kernel

/-- 07, worked example: two steps into one FP32 element. -/
theorem test_accumulate_steps : (accumulateStep fp32 64 0 [exactMul (decodeFmt bf16 0x4480) (decodeFmt bf16 0x4480),
      exactMul (decodeFmt bf16 0x3D80) (decodeFmt bf16 0x3F80), exactMul (decodeFmt bf16 0x3300) (decodeFmt bf16 0x3300)]).1 = 0x49800001 ∧
    (accumulateStep fp32 64 0x49800001 [exactMul (decodeFmt bf16 0xC480) (decodeFmt bf16 0x4480)]).1 = 0x3E000000 := by decide +kernel

/-- 13, worked example: a future armed with a join, one that is resolved twice. -/
theorem test_future_states : ({ amo with op := .futReg 0x5A0020010 }.effect 0).new = some 0x0000005A00200101 ∧
    ({ amo with op := .futRes 7 false }.effect 0x0000005A00200101).new = some 0x0000000700000002 ∧
    ({ amo with op := .futRes 7 false }.effect 0x0000005A00200101).decrement = some (false, 0x5A0020010) ∧
    ({ amo with op := .futRes 7 false }.effect 0x0000000700000002).cause = .futdbl := by decide +kernel
theorem test_amo_cas : ({ amo with op := .amo 9 true, c := 3 }.effect 3).new = some 2 ∧ ({ amo with op := .amo 9 true, c := 4 }.effect 3).new = none := by
  decide +kernel

/-- 03 R75 names AES-256: FIPS 197, C.3. -/
theorem test_aes256 : aesEncrypt ((List.range 32).map (BitVec.ofNat 8)) [0x00, 0x11, 0x22, 0x33, 0x44, 0x55, 0x66, 0x77, 0x88, 0x99, 0xAA, 0xBB, 0xCC,
    0xDD, 0xEE, 0xFF] = [0x8E, 0xA2, 0xB7, 0xCA, 0x51, 0x67, 0x45, 0xBF, 0xEA, 0xFC, 0x49, 0x90, 0x4B, 0x49, 0x60, 0x89] := by decide +kernel

/-- FIPS 180-4: the digest of "abc". -/
theorem test_sha384 : ofLe (sha384 [0x61, 0x62, 0x63]).reverse =
    0xCB00753F45A35E8BB5A03D699AC65007272C32AB0EDED1631A8B605A43FF5BED8086072BA1E7CC2358BAECA134C825A7 := by decide +kernel

/-- 16 R352: an unassigned encoding at L0 ends the activation with cause 1, SR_EPC and SR_FVAL at the word. -/
theorem test_illegal_word_traps : (let s := nextOf (exec (.unassignedEncoding 0) base)
    (s.st.cause, s.st.epc, s.st.fval, s.st.act)) = (1, 0x10000, 0x10000, false) := by decide +kernel
theorem test_privilege : cause .eret base = 2 ∧ cause .halt (lv 1) = 2 ∧ (nextOf (exec .halt (lv 2))).tile.halted = true := by decide +kernel
theorem test_monitor_call_needs_l1 : cause .info base = 13 ∧ cause .info (lv 1) = 14 := by decide +kernel
/-- A step after reset, with a word placed where it fetches: `addi s5, s0, 9`. -/
theorem test_step_runs_placed_word : (nextOf (step (State.reset.withFetchWord 32 0x08A00009))).reg 5 = 9 := by decide +kernel
/-- Nothing runs right after reset: no strand has a run. -/
theorem test_reset_waits : step State.reset = .next State.reset := rfl

end Sys2Proof.Tests
end

section
/-! 00 R4, R9 and the canonical form of memory (log 2): reading after writing sparse memory, and the state after reset. -/
namespace Sys2Proof.Machine

/-! ### Sparse memory -/

/-- Reading bytes one after another lists the byte at each place. -/
theorem Memory.readBytes_eq (m : Memory) (a n : Nat) : m.readBytes a n = (List.range n).map fun i => m.read (a + i) := by
  induction n generalizing a with
  | zero => rfl
  | succ n ih =>
    rw [Memory.readBytes, ih, List.range_succ_eq_map, List.map_cons, List.map_map]
    refine congrArg _ (List.map_congr_left fun i _ => ?_)
    simp only [Function.comp_apply, Nat.succ_eq_add_one]
    congr 1
    omega

/-- The bytes written are the bytes read back over the whole span. -/
theorem Memory.readBytes_writeBytes {m : Memory} (a : Nat) (bs : List Byte) (h : m.wf = true) :
    (m.writeBytes a bs).readBytes a bs.length = bs := by
  refine List.ext_getElem (by simp [Memory.readBytes_eq]) fun i _ hi => ?_
  simp [Memory.readBytes_eq, Memory.read_writeBytes _ _ _ h, hi]

/-- Settles O7: the canonical form, and reading after writing, byte by byte and as a little-endian number. -/
theorem memoryReadAfterWrite : Obligations.MemoryReadAfterWrite := by
  intro m a bs n v h
  refine ⟨Memory.wf_writeBytes a bs h, fun k hk => ?_, fun b hb => ?_, Memory.wf_writeLe a n v h, ?_⟩
  · rw [Memory.read_writeBytes _ _ _ h, if_pos (by omega), Nat.add_sub_cancel_left]
  · rw [Memory.read_writeBytes _ _ _ h, if_neg (by omega)]
  · have hread := Memory.readBytes_writeBytes a (leBytes n v) h
    rw [leBytes_length] at hread
    rw [Memory.readLe, Memory.writeLe, hread, ofLe_leBytes]

/-! ### Reset -/

/-- After reset every tile is as `Tile.reset` leaves it. -/
theorem getTile_reset (l : Nat) : State.reset.getTile l = Tile.reset l := by
  unfold State.getTile
  split
  · next h => exact congrArg Tile.reset h
  · rfl

/-- After reset one key slot has been written, slot 0, and it holds the monitor's key (03 R75). -/
theorem keySlot_reset (k : BitVec 13) : (State.reset.keySlot k).isSome = true ↔ k = 0 := by
  simpa [State.keySlot, State.reset] using eq_comm

/-- An element of a vector of equal elements. -/
theorem eq_of_mem_replicate_toList {α : Type} {n : Nat} {a x : α} (h : x ∈ (Vector.replicate n a).toList) : x = a :=
  List.eq_of_mem_replicate (by simpa using h)

/-- Settles O6: the reset values, tile by tile and then of what the package shares. -/
theorem resetState : Obligations.ResetState := by
  refine ⟨fun l => ?_, rfl, rfl, rfl, rfl, rfl, rfl, rfl, rfl, rfl, rfl, rfl, rfl, rfl, keySlot_reset⟩
  rw [getTile_reset]
  refine ⟨fun x hx => ?_, rfl, rfl, rfl, rfl, fun b hb => eq_of_mem_replicate_toList hb, fun c hc => ?_, rfl, rfl, rfl, rfl, rfl,
    fun c hc => ?_, fun e he => ?_, fun k hk => ?_, fun t ht => ?_⟩
  · obtain rfl | rfl := hx <;> exact ⟨rfl, rfl, rfl, rfl, rfl, rfl, rfl⟩
  · obtain rfl := eq_of_mem_replicate_toList hc; exact ⟨rfl, rfl, rfl, rfl⟩
  · obtain rfl := eq_of_mem_replicate_toList hc; rfl
  · obtain rfl := eq_of_mem_replicate_toList he; exact ⟨rfl, rfl⟩
  · obtain rfl := eq_of_mem_replicate_toList hk; exact ⟨rfl, rfl, rfl⟩
  · obtain rfl := eq_of_mem_replicate_toList ht; rfl

/-- Settles O60: the memory and the parity of reset list no byte. -/
theorem resetMemoryCanonical : Obligations.ResetMemoryCanonical := fun _ => ⟨rfl, rfl⟩

end Sys2Proof.Machine
end

section

/-! 00 R4 and the canonical form of memory (log 2): every step keeps it. Each function of the model that leaves a state leaves
one whose memory and parity are in canonical form, when those of the state it starts from are: a lemma per function, in the order of
the model's files. What changes either is the store of bytes (`Memory.wf_writeBytes`, `Memory.wf_writeWhere`) and the reset of the
package; every other function passes them on. -/

namespace Sys2Proof.Machine

/-! ### What it means for an answer to leave canonical memory -/

/-- The state in which a word stops has its memory in canonical form. -/
def Stop.Canonical : Stop → Prop
  | .trap _ s => MemoryCanonical s
  | .wait _ s => MemoryCanonical s
  | .ended s => MemoryCanonical s

/-- A computation of a word's body yields a value with a property, or stops in a state whose memory is in canonical form. -/
def Yields {α : Type} (P : α → Prop) : Except Stop α → Prop
  | .ok a => P a
  | .error x => x.Canonical

/-- The next state, where there is one, has its memory in canonical form. -/
def NextCanonical : Host.Outcome State Fault Refusal → Prop
  | .next s => MemoryCanonical s
  | .fault _ => True
  | .refused _ => True

/-- Every state that a fetch leaves has its memory in canonical form. -/
def Fetched.Canonical : Fetched → Prop
  | .word _ s => MemoryCanonical s
  | .trap _ s => MemoryCanonical s
  | .page s => MemoryCanonical s
  | .busy s => MemoryCanonical s

/-- A monitor call that is done leaves a state whose memory is in canonical form. -/
def MonRes.Canonical : MonRes → Prop
  | .done _ s => MemoryCanonical s
  | .wait => True
  | .miss _ => True

/-- The state that a piece of the service's work leaves, done or still waiting. -/
def SvcEnd.state : SvcEnd → State
  | .done _ _ s => s
  | .wait _ s => s

/-- The state that a piece of the service's work leaves has its memory in canonical form. -/
def SvcEnd.Canonical (r : SvcEnd) : Prop := MemoryCanonical r.state

/-- A bind that is done leaves a state whose memory is in canonical form. -/
def BindEnd.Canonical : BindEnd → Prop
  | .malformed => True
  | .refused _ _ => True
  | .busy => True
  | .done s => MemoryCanonical s

/-! ### Passing the property on -/

theorem MemoryCanonical.of_snd {α : Type} {p : α × State} {a : α} {t : State} (e : p = (a, t)) (h : MemoryCanonical p.2) :
    MemoryCanonical t := by
  subst e; exact h

theorem MemoryCanonical.of_snd_snd {α β : Type} {p : α × β × State} {a : α} {b : β} {t : State} (e : p = (a, b, t))
    (h : MemoryCanonical p.2.2) : MemoryCanonical t := by
  subst e; exact h

theorem MemoryCanonical.of_fst {α : Type} {p : State × α} {a : α} {t : State} (e : p = (t, a)) (h : MemoryCanonical p.1) :
    MemoryCanonical t := by
  subst e; exact h

theorem Yields.bind {α β : Type} {P : α → Prop} {Q : β → Prop} {e : Except Stop α} {f : α → Except Stop β} (he : Yields P e)
    (hf : ∀ a, P a → Yields Q (f a)) : Yields Q (e >>= f) := by
  cases e with
  | error x => exact he
  | ok a => exact hf a he

/-- A check that yields nothing about its value, and then the rest. -/
theorem Yields.check {α β : Type} {Q : β → Prop} {e : Except Stop α} {f : α → Except Stop β} (he : Yields (fun _ => True) e)
    (hf : ∀ a, Yields Q (f a)) : Yields Q (e >>= f) :=
  he.bind fun a _ => hf a

theorem Yields.of_error {α : Type} {P : α → Prop} {e : Except Stop α} {x : Stop} (h : Yields P e) (he : e = .error x) :
    x.Canonical := by
  subst he; exact h

theorem foldl_canonical {α : Type} {f : State → α → State} (hf : ∀ s a, MemoryCanonical s → MemoryCanonical (f s a)) {l : List α}
    {s : State} (h : MemoryCanonical s) : MemoryCanonical (l.foldl f s) := by
  induction l generalizing s with
  | nil => exact h
  | cons a l ih => exact ih (hf s a h)

theorem foldl_snd_canonical {α β : Type} {f : β × State → α → β × State}
    (hf : ∀ p a, MemoryCanonical p.2 → MemoryCanonical (f p a).2) {l : List α} {p : β × State} (h : MemoryCanonical p.2) :
    MemoryCanonical (l.foldl f p).2 := by
  induction l generalizing p with
  | nil => exact h
  | cons a l ih => exact ih (hf p a h)

theorem getD_canonical {o : Option State} {s : State} (ho : ∀ t, o = some t → MemoryCanonical t) (h : MemoryCanonical s) :
    MemoryCanonical (o.getD s) := by
  cases o with
  | none => exact h
  | some t => exact ho t rfl

section
variable {s t : State}

/-! ### What the functions of `Sys2Proof.Machine.Path` leave -/

theorem takeFree_canonical (h : MemoryCanonical s) : MemoryCanonical s.takeFree := h

theorem memEventAt_canonical {kind stack ch stripe offset source scrub} (h : MemoryCanonical s) :
    MemoryCanonical (s.memEventAt kind stack ch stripe offset source scrub) :=
  h

theorem memEvent_canonical {kind pa source scrub} (h : MemoryCanonical s) : MemoryCanonical (s.memEvent kind pa source scrub) := h

theorem modChannel_canonical {stack ch f} (h : MemoryCanonical s) : MemoryCanonical (s.modChannel stack ch f) := h

theorem setChannel_canonical {stack ch x} (h : MemoryCanonical s) : MemoryCanonical (s.setChannel stack ch x) := h

theorem failChannel_canonical {stack ch} (h : MemoryCanonical s) : MemoryCanonical (s.failChannel stack ch) := by
  unfold State.failChannel
  split
  · exact h
  · split
    · dsimp only
      exact foldl_canonical (fun _ _ => setChannel_canonical) (setChannel_canonical h)
    · exact setChannel_canonical h

theorem noteRebuild_canonical {stack ch} (h : MemoryCanonical s) : MemoryCanonical (s.noteRebuild stack ch) := by
  unfold State.noteRebuild
  dsimp only
  split
  · exact failChannel_canonical (modChannel_canonical h)
  · exact modChannel_canonical h

theorem rebuild_canonical {g} (h : MemoryCanonical s) : MemoryCanonical (s.rebuild g) := by
  unfold State.rebuild
  split
  · exact h
  · split
    · exact h
    · generalize xtsDecrypt _ _ _ = bs
      exact ⟨Memory.wf_writeBytes _ _ h.1, h.2⟩

theorem poisonGranule_canonical {source scrub g} (h : MemoryCanonical s) : MemoryCanonical (s.poisonGranule source scrub g) := h

theorem meetEcc_canonical {source scrub g r} (h : MemoryCanonical s) (e : s.meetEcc source scrub g = (r, t)) :
    MemoryCanonical t := by
  have hr := rebuild_canonical (g := g) h
  have hp : MemoryCanonical (s.poisonGranule source scrub g) := poisonGranule_canonical h
  have hn (u : State) (hu : MemoryCanonical u) (l : List Nat) {stack ch} :
      MemoryCanonical ((({ u with eccBad := l } : State).memEvent 2 (g * 32) source scrub).noteRebuild stack ch) :=
    noteRebuild_canonical (memEvent_canonical hu)
  refine .of_snd e ?_
  unfold State.meetEcc
  dsimp only
  split
  · exact h
  · split
    · exact h
    · split
      · exact hr
      · exact hp
  · split
    · split
      · exact hn _ hr _
      · exact hp
    · split
      · exact memEvent_canonical h
      · exact h

theorem meetEccs_canonical {source scrub gs r} (h : MemoryCanonical s) (e : s.meetEccs source scrub gs = (r, t)) :
    MemoryCanonical t := by
  refine .of_snd e ?_
  unfold State.meetEccs
  refine foldl_snd_canonical (fun _ _ hp => ?_) ?_
  · exact meetEcc_canonical hp rfl
  · exact h

theorem meetParity_canonical {source scrub p} (h : MemoryCanonical s) : MemoryCanonical (s.meetParity source scrub p) := by
  unfold State.meetParity
  dsimp only
  split
  · exact h
  · split
    · split
      · exact noteRebuild_canonical (memEventAt_canonical ⟨h.1, Memory.wf_writeBytes _ _ h.2⟩)
      · exact memEventAt_canonical h
    · split
      · exact memEventAt_canonical h
      · exact h

theorem takeDelta_canonical {source g delta} (h : MemoryCanonical s) : MemoryCanonical (s.takeDelta source g delta) := by
  have hp := meetParity_canonical (source := source) (scrub := false) (p := parityOf g) h
  unfold State.takeDelta
  dsimp only
  split
  · exact h
  · split
    · split
      · exact ⟨h.1, Memory.wf_writeBytes _ _ h.2⟩
      · exact poisonGranule_canonical h
    · split
      · exact hp
      · exact ⟨hp.1, Memory.wf_writeBytes _ _ hp.2⟩

theorem applyDelta_canonical {source pa n delta} (h : MemoryCanonical s) : MemoryCanonical (s.applyDelta source pa n delta) := by
  induction n generalizing s pa delta with
  | zero => exact h
  | succ n ih => exact ih (takeDelta_canonical h)

theorem putPlain_canonical {k pa bytes en} (h : MemoryCanonical s) : MemoryCanonical (s.putPlain k pa bytes en) := by
  unfold State.putPlain
  refine And.imp (Memory.wf_writeWhere _ _ _ _) id (foldl_canonical (fun _ _ hs => ?_) h)
  split
  · generalize List.map _ _ = bs
    exact ⟨Memory.wf_writeBytes _ _ hs.1, hs.2⟩
  · exact hs

theorem baseRead_canonical {a pa n r q} (h : MemoryCanonical s) (e : s.baseRead a pa n = (r, q, t)) : MemoryCanonical t := by
  refine .of_snd_snd e ?_
  unfold State.baseRead
  split
  · split
    · next e1 =>
      have h1 := meetEccs_canonical h e1
      split
      · exact h1
      · split
        · split
          · exact takeFree_canonical h1
          · exact h1
        · split
          · exact takeFree_canonical h1
          · exact h1
  · exact memEvent_canonical h
  · exact memEvent_canonical h

theorem baseWrite_canonical {a pa bytes en} {r : Status} {d : List Byte} (h : MemoryCanonical s)
    (e : s.baseWrite a pa bytes en = (r, d, t)) : MemoryCanonical t := by
  refine .of_snd_snd e ?_
  unfold State.baseWrite
  split
  · exact putPlain_canonical (meetEccs_canonical h rfl)
  · exact memEvent_canonical h
  · exact memEvent_canonical h

theorem fillLine_canonical {pa k ok data} (h : MemoryCanonical s) : MemoryCanonical (s.fillLine pa k ok data) := h

theorem updateLines_canonical {pa bytes en} (h : MemoryCanonical s) : MemoryCanonical (s.updateLines pa bytes en) := h

theorem fillWhole_canonical {source k pa} (h : MemoryCanonical s) : MemoryCanonical (s.fillWhole source k pa) := by
  unfold State.fillWhole
  extract_lets s1
  have h1 : MemoryCanonical s1 := meetEccs_canonical h rfl
  exact fillLine_canonical h1

theorem sliceRead_canonical {a pa n r q} (h : MemoryCanonical s) (e : s.sliceRead a pa n = (r, q, t)) : MemoryCanonical t := by
  refine .of_snd_snd e ?_
  unfold State.sliceRead
  split
  · exact h
  · split
    · next e1 =>
      have h1 := baseRead_canonical h e1
      split
      · exact fillWhole_canonical h1
      · exact fillLine_canonical h1

theorem sliceWrite_canonical {a pa bytes r} (h : MemoryCanonical s) (e : s.sliceWrite a pa bytes = (r, t)) :
    MemoryCanonical t := by
  refine .of_snd e ?_
  unfold State.sliceWrite
  split
  · next e =>
    have h1 := baseWrite_canonical h e
    split
    · exact updateLines_canonical (applyDelta_canonical h1)
    · exact applyDelta_canonical h1

theorem addReq_canonical {r} (h : MemoryCanonical s) : MemoryCanonical (s.addReq r) := h

/-! ### What the functions of `Sys2Proof.Machine.Ops` leave -/

theorem putTile_canonical {l t} (h : MemoryCanonical s) : MemoryCanonical (s.putTile l t) := by
  unfold State.putTile
  split <;> exact h

theorem modTile_canonical {l f} (h : MemoryCanonical s) : MemoryCanonical (s.modTile l f) := putTile_canonical h

theorem switchTo_canonical {l} (h : MemoryCanonical s) : MemoryCanonical (s.switchTo l) := by
  unfold State.switchTo
  split <;> exact h

theorem onTile_canonical {f} (h : MemoryCanonical s) : MemoryCanonical (s.onTile f) := h

theorem onSt_canonical {f} (h : MemoryCanonical s) : MemoryCanonical (s.onSt f) := h

theorem setReg_canonical {r v} (h : MemoryCanonical s) : MemoryCanonical (s.setReg r v) := by
  unfold State.setReg
  split
  · exact h
  · exact onSt_canonical h

theorem setPair_canonical {r v w} (h : MemoryCanonical s) : MemoryCanonical (s.setPair r v w) :=
  setReg_canonical (setReg_canonical h)

theorem setV_canonical {r v} (h : MemoryCanonical s) : MemoryCanonical (s.setV r v) := h

theorem setK_canonical {r v} (h : MemoryCanonical s) : MemoryCanonical (s.setK r v) := by
  unfold State.setK
  split
  · exact h
  · exact onTile_canonical h

theorem onCx_canonical {f} (h : MemoryCanonical s) : MemoryCanonical (s.onCx f) := h

theorem orFlags_canonical {n f} (h : MemoryCanonical s) : MemoryCanonical (s.orFlags n f) := h

theorem post_canonical {p q bytes holds} (h : MemoryCanonical s) : MemoryCanonical (s.post p q bytes holds) := h

theorem postFault_canonical {p tile type cause fs} (h : MemoryCanonical s) : MemoryCanonical (s.postFault p tile type cause fs) :=
  h

theorem engineRecord_canonical {tile c e} (h : MemoryCanonical s) : MemoryCanonical (s.engineRecord tile c e) := h

theorem clearErrs_canonical {tile r} (h : MemoryCanonical s) : MemoryCanonical (s.clearErrs tile r) := by
  unfold State.clearErrs
  refine foldl_canonical (fun _ _ h1 => ?_) h
  dsimp only
  split
  · exact engineRecord_canonical (modTile_canonical h1)
  · exact h1

theorem fireTriggers_canonical {tile n} (h : MemoryCanonical s) : MemoryCanonical (s.fireTriggers tile n) := by
  induction n generalizing s with
  | zero => exact h
  | succ n ih =>
    unfold State.fireTriggers
    dsimp only
    split
    · exact h
    · exact ih (modTile_canonical (modTile_canonical h))

theorem completeNum_canonical {tile c n} (h : MemoryCanonical s) : MemoryCanonical (s.completeNum tile c n) :=
  fireTriggers_canonical (modTile_canonical h)

theorem modBarrier_canonical {obj f} (h : MemoryCanonical s) : MemoryCanonical (s.modBarrier obj f) := h

theorem switchOut_canonical {tile c} (h : MemoryCanonical s) : MemoryCanonical (s.switchOut tile c) := by
  unfold State.switchOut
  refine modTile_canonical (foldl_canonical (fun _ _ h1 => ?_) h)
  split
  · exact modBarrier_canonical h1
  · exact h1

theorem switchIn_canonical {tile c} (h : MemoryCanonical s) : MemoryCanonical (s.switchIn tile c) := by
  unfold State.switchIn
  refine modTile_canonical (foldl_canonical (fun _ _ h1 => ?_) h)
  split
  · exact modBarrier_canonical h1
  · exact h1

theorem consumed_canonical {qcb id} (h : MemoryCanonical s) : MemoryCanonical (s.consumed qcb id) := h

theorem consumeHeld_canonical {tile} (h : MemoryCanonical s) : MemoryCanonical (s.consumeHeld tile) :=
  modTile_canonical (foldl_canonical (fun _ _ h1 => foldl_canonical (fun _ _ => consumed_canonical) h1) h)

theorem writeQueueState_canonical {q qstate} (h : MemoryCanonical s) : MemoryCanonical (s.writeQueueState q qstate) := h

theorem closeQueue_canonical {qcb} (h : MemoryCanonical s) : MemoryCanonical (s.closeQueue qcb) := by
  unfold State.closeQueue
  split
  · exact h
  · split
    · exact h
    · extract_lets s1
      have h1 : MemoryCanonical s1 := writeQueueState_canonical h
      exact h1

theorem unbind_canonical {tile c} (h : MemoryCanonical s) : MemoryCanonical (s.unbind tile c) := by
  unfold State.unbind
  extract_lets s1 _ s2 s3
  have h1 : MemoryCanonical s1 := switchIn_canonical h
  have h2 : MemoryCanonical s2 := foldl_canonical (fun _ _ => foldl_canonical fun _ _ => consumed_canonical) h1
  have h3 : MemoryCanonical s3 := modTile_canonical h2
  exact foldl_canonical (fun _ _ => closeQueue_canonical) h3

theorem endThresher_canonical {tile} (h : MemoryCanonical s) : MemoryCanonical (s.endThresher tile) := by
  unfold State.endThresher
  dsimp only
  split
  · exact completeNum_canonical (foldl_canonical (fun _ _ => completeNum_canonical) (modTile_canonical h))
  · exact foldl_canonical (fun _ _ => completeNum_canonical) (modTile_canonical h)

theorem atTile_canonical {l} {f : State → State} (h : MemoryCanonical s) (hf : ∀ t, MemoryCanonical t → MemoryCanonical (f t)) :
    MemoryCanonical (s.atTile l f) :=
  switchTo_canonical (hf _ (switchTo_canonical h))

theorem dropAskers_canonical {tile st} (h : MemoryCanonical s) : MemoryCanonical (s.dropAskers tile st) := h

theorem dropAwait_canonical {tile st} (h : MemoryCanonical s) : MemoryCanonical (s.dropAwait tile st) := h

theorem rollback_canonical {tile c a} (h : MemoryCanonical s) : MemoryCanonical (s.rollback tile c a) := modTile_canonical h

theorem leaveRun_canonical {tile c park} (h : MemoryCanonical s) : MemoryCanonical (s.leaveRun tile c park) := by
  unfold State.leaveRun
  dsimp only
  split
  · exact unbind_canonical (modTile_canonical h)
  · split
    · exact switchOut_canonical (modTile_canonical h)
    · exact modTile_canonical h

theorem mainTrap_canonical {tile t epc fval} (h : MemoryCanonical s) : MemoryCanonical (s.mainTrap tile t epc fval) := by
  unfold State.mainTrap
  refine leaveRun_canonical (post_canonical (modTile_canonical (dropAwait_canonical (clearErrs_canonical ?_))))
  refine endThresher_canonical ?_
  split
  · exact rollback_canonical h
  · exact h

theorem handlerTrap_canonical {tile t epc fval} (h : MemoryCanonical s) : MemoryCanonical (s.handlerTrap tile t epc fval) :=
  post_canonical (modTile_canonical (dropAwait_canonical (clearErrs_canonical h)))

theorem trapStrand_canonical {tile st t epc fval} (h : MemoryCanonical s) :
    MemoryCanonical (s.trapStrand tile st t epc fval) := by
  unfold State.trapStrand
  split
  · exact mainTrap_canonical h
  · exact handlerTrap_canonical h

theorem takeTrap_canonical {t} (h : MemoryCanonical s) : MemoryCanonical (s.takeTrap t) := trapStrand_canonical h

theorem retire_canonical (h : MemoryCanonical s) : MemoryCanonical s.retire := h

theorem check_canonical {ok c} (h : MemoryCanonical s) : Yields (fun _ => True) (s.check ok c) := by
  unfold State.check
  split
  · trivial
  · exact h

theorem takeBudget_canonical (h : MemoryCanonical s) : MemoryCanonical s.takeBudget := trapStrand_canonical h

theorem finish_canonical {r : Exec} (h : MemoryCanonical s) (hr : Yields MemoryCanonical r) : MemoryCanonical (finish s r) := by
  unfold finish
  split
  · exact takeTrap_canonical hr
  · split
    · exact takeBudget_canonical h
    · exact retire_canonical hr
  · split
    · exact takeBudget_canonical h
    · exact hr
  · split
    · exact takeBudget_canonical h
    · exact onSt_canonical hr

theorem run_canonical {i : Instr} {body : State → Exec} (h : MemoryCanonical s) (hb : Yields MemoryCanonical (body s)) :
    NextCanonical (run i s body) := by
  unfold run
  split
  · exact takeTrap_canonical h
  · exact finish_canonical h hb

theorem event_canonical (h : MemoryCanonical s) : NextCanonical (event s) := h

theorem branchTo_canonical {t} (h : MemoryCanonical s) : Yields MemoryCanonical (s.branchTo t) := by
  unfold State.branchTo
  split
  · exact h
  · split
    · exact h
    · exact onSt_canonical h

theorem enterMonitor_canonical (h : MemoryCanonical s) : MemoryCanonical s.enterMonitor := h

theorem exitMonitor_canonical (h : MemoryCanonical s) : MemoryCanonical s.exitMonitor := h

/-! ### What the functions of `Sys2Proof.Machine.Arbiter` leave -/

theorem cxlTurn_canonical {p pa} (h : MemoryCanonical s) (e : s.cxlTurn p pa = some t) : MemoryCanonical t := by
  obtain ⟨_, -, rfl⟩ := Option.map_eq_some_iff.mp e
  exact h

theorem modLink_canonical {l f} (h : MemoryCanonical s) : MemoryCanonical (s.modLink l f) := h

theorem toLink_canonical {p vc bytes} (h : MemoryCanonical s) : MemoryCanonical (s.toLink p vc bytes) := by
  unfold State.toLink
  split
  · exact h
  · exact modLink_canonical h

/-! ### What the functions of `Sys2Proof.Machine.Operands` leave -/

theorem scalarOp_canonical {i d a b f} (h : MemoryCanonical s) : NextCanonical (scalarOp i d a b f s) :=
  run_canonical h (setReg_canonical h)

theorem scalarUn_canonical {i d a f} (h : MemoryCanonical s) : NextCanonical (scalarUn i d a f s) :=
  run_canonical h (setReg_canonical h)

theorem scalarImm_canonical {i d a m f} (h : MemoryCanonical s) : NextCanonical (scalarImm i d a m f s) :=
  run_canonical h (setReg_canonical h)

theorem scalarShift_canonical {i d a m f} (h : MemoryCanonical s) : NextCanonical (scalarShift i d a m f s) := by
  unfold scalarShift
  refine run_canonical h ?_
  split
  · exact h
  · exact setReg_canonical h

theorem condBranch_canonical {i c a b off} (h : MemoryCanonical s) : NextCanonical (condBranch i c a b off s) := by
  unfold condBranch
  refine run_canonical h ?_
  split
  · exact branchTo_canonical h
  · exact h

/-! ### What the functions of `Sys2Proof.Machine.LocalAccess` leave -/

theorem localCheck_canonical {a n wr} (h : MemoryCanonical s) : Yields (fun _ => True) (s.localCheck a n wr) := by
  unfold State.localCheck
  split
  · exact h
  · trivial

theorem checkAt_canonical {ok c a} (h : MemoryCanonical s) : Yields (fun _ => True) (s.checkAt ok c a) := by
  unfold State.checkAt
  split
  · trivial
  · exact h

theorem localFence_canonical {sc w r} (h : MemoryCanonical s) : MemoryCanonical (s.localFence sc w r) := by
  unfold State.localFence
  split
  · exact h
  · exact onTile_canonical h

theorem loadLocal_canonical {a n} (h : MemoryCanonical s) : Yields (fun _ => True) (s.loadLocal a n) := by
  unfold State.loadLocal
  split
  · exact h
  · trivial

theorem storeLocal_canonical {a bs} (h : MemoryCanonical s) : MemoryCanonical (s.storeLocal a bs) := h

theorem engineStore_canonical {a bs} (h : MemoryCanonical s) : MemoryCanonical (s.engineStore a bs) := h

theorem scalarLoad_canonical {i sz d base off f} (h : MemoryCanonical s) : NextCanonical (scalarLoad i sz d base off f s) := by
  unfold scalarLoad
  refine run_canonical h ?_
  refine (localCheck_canonical h).check fun _ => ?_
  exact (loadLocal_canonical h).check fun _ => setReg_canonical h

theorem execLdI_canonical {sz d base off} (h : MemoryCanonical s) : NextCanonical (execLdI sz d base off s) := by
  unfold execLdI
  split
  · refine run_canonical h ?_
    exact h
  · exact scalarLoad_canonical h

theorem execSt_canonical {sz d base off} (h : MemoryCanonical s) : NextCanonical (execSt sz d base off s) :=
  run_canonical h ((localCheck_canonical h).check fun _ => storeLocal_canonical h)

theorem onAct_canonical {f} (h : MemoryCanonical s) : MemoryCanonical (s.onAct f) := h

theorem execStK_canonical {sz d base off} (h : MemoryCanonical s) : NextCanonical (execStK sz d base off s) := by
  unfold execStK
  refine run_canonical h ?_
  refine (localCheck_canonical h).check fun _ => ?_
  split
  · exact h
  · exact onAct_canonical h

theorem execVld_canonical {d base off} (h : MemoryCanonical s) : NextCanonical (execVld d base off s) := by
  unfold execVld
  refine run_canonical h ?_
  refine (localCheck_canonical h).check fun _ => ?_
  exact (loadLocal_canonical h).check fun _ => setV_canonical h

theorem execVldM_canonical {d base off m} (h : MemoryCanonical s) : NextCanonical (execVldM d base off m s) := by
  unfold execVldM
  refine run_canonical h ?_
  refine (localCheck_canonical h).check fun _ => ?_
  exact (loadLocal_canonical h).check fun _ => setV_canonical h

theorem execVst_canonical {d base off} (h : MemoryCanonical s) : NextCanonical (execVst d base off s) :=
  run_canonical h ((localCheck_canonical h).check fun _ => storeLocal_canonical h)

theorem execVstM_canonical {d base off m} (h : MemoryCanonical s) : NextCanonical (execVstM d base off m s) := by
  unfold execVstM
  refine run_canonical h ?_
  refine (localCheck_canonical h).check fun _ => ?_
  refine foldl_canonical (fun _ _ h1 => ?_) h
  split
  · exact storeLocal_canonical h1
  · exact h1

theorem gatherCheck_canonical {base idx m sc n wr es} (h : MemoryCanonical s) :
    Yields (fun _ => True) (s.gatherCheck base idx m sc n wr es) := by
  induction es with
  | nil => trivial
  | cons e es ih =>
    unfold State.gatherCheck
    split
    · split
      · exact ih
      · next he => exact (localCheck_canonical h).of_error he
    · exact ih

theorem gather_canonical {i n d base idx m sc} (h : MemoryCanonical s) : NextCanonical (gather i n d base idx m sc s) := by
  unfold gather
  refine run_canonical h ?_
  refine (gatherCheck_canonical h).check fun _ => ?_
  split
  · exact h
  · exact setV_canonical h

theorem scatter_canonical {i n d base idx m sc} (h : MemoryCanonical s) : NextCanonical (scatter i n d base idx m sc s) :=
  run_canonical h ((gatherCheck_canonical h).check fun _ => foldl_canonical (fun _ _ => storeLocal_canonical) h)

theorem decodedLoad_canonical {i g w d base off} (h : MemoryCanonical s) : NextCanonical (decodedLoad i g w d base off s) := by
  unfold decodedLoad
  refine run_canonical h ?_
  refine (localCheck_canonical h).check fun _ => ?_
  split
  · exact h
  · split
    · exact h
    · exact orFlags_canonical (setV_canonical h)

/-! ### What the functions of `Sys2Proof.Machine.Fence` leave -/

theorem release_canonical {on sc} (h : MemoryCanonical s) : Yields (fun _ => True) (s.release on sc) := by
  unfold State.release
  split
  · exact h
  · trivial

theorem execFence_canonical {sc p q} (h : MemoryCanonical s) : NextCanonical (execFence sc p q s) := by
  unfold execFence
  refine run_canonical h ?_
  split
  · exact h
  · split
    · exact h
    · exact localFence_canonical h

/-! ### What the functions of `Sys2Proof.Machine.Engines` leave -/

theorem sheafRecord_canonical {p kind gen hop chunk tensor route hopid expect found addr} (h : MemoryCanonical s) :
    MemoryCanonical (s.sheafRecord p kind gen hop chunk tensor route hopid expect found addr) :=
  h

theorem localRecord_canonical {hd expect found addr} (h : MemoryCanonical s) :
    MemoryCanonical (s.localRecord hd expect found addr) :=
  h

theorem releaseMain_canonical (h : MemoryCanonical s) : MemoryCanonical s.releaseMain := h

theorem failNum_canonical {tile c num owner cause detail unit loc} (h : MemoryCanonical s) :
    MemoryCanonical (s.failNum tile c num owner cause detail unit loc) := by
  unfold State.failNum
  dsimp only
  split
  · exact engineRecord_canonical h
  · split
    · exact h
    · exact modTile_canonical h

/-! ### What the functions of `Sys2Proof.Machine.Translate` leave -/

theorem cacheLeaf_canonical {tile e} (h : MemoryCanonical s) : MemoryCanonical (s.cacheLeaf tile e) := by
  unfold State.cacheLeaf
  dsimp only
  split <;> exact modTile_canonical h

theorem translate_canonical {tile x p va n kind wain r} (h : MemoryCanonical s)
    (e : s.translate tile x p va n kind wain = (r, t)) : MemoryCanonical t := by
  refine .of_snd e ?_
  unfold State.translate
  split
  · exact h
  · split
    · exact h
    · split
      · exact h
      · split
        · exact cacheLeaf_canonical h
        · exact h

theorem sendWalk_canonical {w} (h : MemoryCanonical s) : MemoryCanonical (s.sendWalk w) := h

theorem askWalk_canonical {p a} (h : MemoryCanonical s) : MemoryCanonical (s.askWalk p a) := by
  unfold State.askWalk
  dsimp only
  split
  · exact h
  · split
    · exact h
    · exact sendWalk_canonical h

theorem waitPage_canonical {tile ag x kind va lvl ptePa pte} (h : MemoryCanonical s) :
    MemoryCanonical (s.waitPage tile ag x kind va lvl ptePa pte) :=
  h

theorem xlate_canonical {ag va n kind} (h : MemoryCanonical s) :
    Yields (fun r => MemoryCanonical r.2.2) (s.xlate ag va n kind) := by
  unfold State.xlate
  split
  · next e => exact translate_canonical h e
  · next e => exact translate_canonical h e
  · next e => exact waitPage_canonical (translate_canonical h e)
  · next e => exact askWalk_canonical (translate_canonical h e)

theorem invalidate_canonical {p asid va n} (h : MemoryCanonical s) : MemoryCanonical (s.invalidate p asid va n) := h

/-! ### What the functions of `Sys2Proof.Machine.Global` leave -/

theorem missed_canonical {tile ag x a} (h : MemoryCanonical s) : MemoryCanonical (s.missed tile ag x a) := by
  unfold State.missed
  split
  · exact waitPage_canonical h
  · exact askWalk_canonical h

theorem physRead_canonical {p a pa n r} (h : MemoryCanonical s) (e : s.physRead p a pa n = (r, t)) : MemoryCanonical t := by
  refine .of_snd e ?_
  unfold State.physRead
  split
  · split
    · exact h
    · dsimp only
      exact sliceRead_canonical h rfl
  · split
    · exact h
    · next e => exact cxlTurn_canonical h e

theorem physWrite_canonical {p a pa bs r} (h : MemoryCanonical s) (e : s.physWrite p a pa bs = (r, t)) : MemoryCanonical t := by
  refine .of_snd e ?_
  unfold State.physWrite
  split
  · split
    · exact h
    · exact sliceWrite_canonical h rfl
  · split
    · exact h
    · next e1 =>
      have h1 := cxlTurn_canonical h e1
      exact ⟨Memory.wf_writeBytes _ _ h1.1, h1.2⟩

theorem gXlate_canonical {g va kind r} (h : MemoryCanonical s) (e : s.gXlate g va kind = (r, t)) : MemoryCanonical t := by
  refine .of_snd e ?_
  unfold State.gXlate
  split <;> next e => exact translate_canonical h e

theorem gRead_canonical {g va n r} (h : MemoryCanonical s) (e : s.gRead g va n = (r, t)) : MemoryCanonical t := by
  refine .of_snd e ?_
  unfold State.gRead
  split
  · next e => exact physRead_canonical (gXlate_canonical h e) rfl
  · next e => exact gXlate_canonical h e

theorem gWrite_canonical {g va bs r} (h : MemoryCanonical s) (e : s.gWrite g va bs = (r, t)) : MemoryCanonical t := by
  refine .of_snd e ?_
  unfold State.gWrite
  split
  · next e => exact physWrite_canonical (gXlate_canonical h e) rfl
  · next e => exact gXlate_canonical h e

theorem gReads_canonical {g fuel va n} {r : Io (List Byte)} (h : MemoryCanonical s) (e : s.gReads g fuel va n = (r, t)) :
    MemoryCanonical t := by
  induction fuel generalizing s va n r t with
  | zero => exact .of_snd e h
  | succ fuel ih =>
    refine .of_snd e ?_
    unfold State.gReads
    split
    · exact h
    · dsimp only
      split
      · next e1 =>
        have h1 := gRead_canonical h e1
        split
        · next e2 => exact ih h1 e2
        · exact ih h1 rfl
      · exact gRead_canonical h rfl

theorem gWrites_canonical {g fuel va bs} {r : Io Unit} (h : MemoryCanonical s) (e : s.gWrites g fuel va bs = (r, t)) :
    MemoryCanonical t := by
  induction fuel generalizing s va bs r t with
  | zero => exact .of_snd e h
  | succ fuel ih =>
    refine .of_snd e ?_
    unfold State.gWrites
    split
    · exact h
    · dsimp only
      split
      · next e1 => exact ih (gWrite_canonical h e1) rfl
      · exact gWrite_canonical h rfl

/-! ### What the functions of `Sys2Proof.Machine.Queues` leave -/

theorem modQueue_canonical {qcb f} (h : MemoryCanonical s) : MemoryCanonical (s.modQueue qcb f) := h

theorem queueRecord_canonical {p tile c pa} (h : MemoryCanonical s) : MemoryCanonical (s.queueRecord p tile c pa) := h

theorem freeze_canonical {q tile} (h : MemoryCanonical s) : MemoryCanonical (s.freeze q tile) := h

theorem putGlobalItem_canonical {tile c va bs r} (h : MemoryCanonical s) (e : s.putGlobalItem tile c va bs = (r, t)) :
    MemoryCanonical t := by
  refine .of_snd e ?_
  unfold State.putGlobalItem
  dsimp only
  split
  · next e => exact gWrites_canonical h e
  · next e => exact missed_canonical (gWrites_canonical h e)
  · next e => exact gWrites_canonical h e

theorem placeItem_canonical {q i agent r} (h : MemoryCanonical s) (e : s.placeItem q i agent = (r, t)) : MemoryCanonical t := by
  refine .of_snd e ?_
  unfold State.placeItem
  extract_lets _ _ _ put
  have hput : MemoryCanonical put.2 := by
    unfold put
    split
    · exact h
    · split
      · exact putGlobalItem_canonical h rfl
      · exact modTile_canonical h
  split
  · exact hput
  · exact modTile_canonical hput

theorem chargeSquare_canonical {p kind hop addr payload r} (h : MemoryCanonical s)
    (e : s.chargeSquare p kind hop addr payload = (t, r)) : MemoryCanonical t := by
  refine .of_fst e ?_
  unfold State.chargeSquare
  exact sheafRecord_canonical h

theorem discardItem_canonical {why i} (h : MemoryCanonical s) : MemoryCanonical (s.discardItem why i) := by
  unfold State.discardItem
  split
  · exact consumed_canonical h
  · exact queueRecord_canonical (consumed_canonical h)
  · split
    · exact queueRecord_canonical (consumed_canonical h)
    · split
      · exact consumed_canonical h
      · exact queueRecord_canonical (modTile_canonical (consumed_canonical h))

theorem countRelease_canonical {qcb} (h : MemoryCanonical s) : MemoryCanonical (s.countRelease qcb) := h

theorem launchItems_canonical {q members src kind round nbt payload} (h : MemoryCanonical s) :
    MemoryCanonical (s.launchItems q members src kind round nbt payload) :=
  h

theorem sendSquare_canonical {tile q id src payload members} (h : MemoryCanonical s) :
    MemoryCanonical (s.sendSquare tile q id src payload members) :=
  h

theorem releaseItem_canonical {tile ep kind round nbt addr payload} (h : MemoryCanonical s) :
    MemoryCanonical (s.releaseItem tile ep kind round nbt addr payload) := by
  unfold State.releaseItem
  split
  · exact h
  · extract_lets
    split
    next s1 _ e1 =>
    have h1 : MemoryCanonical s1 := by
      split at e1
      · exact chargeSquare_canonical h e1
      · cases e1; exact h
    extract_lets s2
    have h2 : MemoryCanonical s2 := launchItems_canonical (s := { s1 with credits := _ }) h1
    split
    · exact sendSquare_canonical h2
    · exact h2

theorem agentPush_canonical {q members src payload} (h : MemoryCanonical s) :
    MemoryCanonical (s.agentPush q members src payload) :=
  h

theorem agentItem_canonical {q i} (h : MemoryCanonical s) : MemoryCanonical (s.agentItem q i) := by
  unfold State.agentItem
  split
  · extract_lets _ s1
    have h1 : MemoryCanonical s1 := by
      unfold s1
      split
      · exact chargeSquare_canonical h rfl
      · exact h
    split
    · exact h1
    · split
      · exact h
      · exact placeItem_canonical h rfl
  · exact discardItem_canonical h

theorem agentPushNow_canonical {q src payload} (h : MemoryCanonical s) (e : s.agentPushNow q src payload = some t) :
    MemoryCanonical t := by
  unfold State.agentPushNow at e
  split at e
  · cases e
    exact foldl_canonical (fun _ _ => agentItem_canonical) (countRelease_canonical h)
  · cases e

theorem arriveItem_canonical {k i} (h : MemoryCanonical s) : MemoryCanonical (s.arriveItem k i) := by
  unfold State.arriveItem
  extract_lets rest _ s1
  have h1 : MemoryCanonical rest := h
  have h2 : MemoryCanonical s1 := by
    unfold s1
    split
    · exact chargeSquare_canonical h rfl
    · exact h
  split
  · exact discardItem_canonical h1
  · split
    · exact h
    · split
      · extract_lets
        split
        · exact h2
        · split
          · split
            next e2 =>
            have h3 := placeItem_canonical h e2
            split <;> exact h3
          · exact h
      · exact discardItem_canonical h1

theorem execItemArrival_canonical (h : MemoryCanonical s) : NextCanonical (execItemArrival s) := by
  unfold execItemArrival
  refine event_canonical ?_
  split
  · exact h
  · split
    · exact h
    · exact arriveItem_canonical h

theorem execItemRefusal_canonical (h : MemoryCanonical s) : NextCanonical (execItemRefusal s) := by
  unfold execItemRefusal
  refine event_canonical ?_
  split
  · exact h
  · split
    · exact h
    · dsimp only
      split
      · split
        · refine freeze_canonical ?_
          split
          · exact sendSquare_canonical h
          · exact h
        · split
          · exact sendSquare_canonical h
          · exact h
      · exact h

theorem execBindMarkerArrival_canonical (h : MemoryCanonical s) : NextCanonical (execBindMarkerArrival s) := by
  unfold execBindMarkerArrival
  refine event_canonical ?_
  split
  · exact h
  · split
    · exact h
    · dsimp only
      split
      · exact consumed_canonical h
      · split
        · split
          · exact switchOut_canonical (modTile_canonical (modTile_canonical (consumed_canonical h)))
          · exact modTile_canonical (modTile_canonical (consumed_canonical h))
        · exact modTile_canonical (consumed_canonical h)

theorem execNbtReached_canonical (h : MemoryCanonical s) : NextCanonical (execNbtReached s) := by
  unfold execNbtReached
  refine event_canonical ?_
  split
  · exact h
  · split
    · exact onTile_canonical h
    · exact h

theorem execCreditReturn_canonical (h : MemoryCanonical s) : NextCanonical (execCreditReturn s) := by
  unfold execCreditReturn
  refine event_canonical ?_
  split
  · exact h
  · split
    · exact h
    · exact modTile_canonical h

theorem buffer_canonical {o} (h : MemoryCanonical s) : MemoryCanonical (s.buffer o) := h

theorem pushForm_canonical {i q kind addr nbt} (h : MemoryCanonical s) : NextCanonical (pushForm i q kind addr nbt s) := by
  unfold pushForm
  refine run_canonical h ?_
  extract_lets _ _ _ _ push rest
  have hpush bs : Yields MemoryCanonical (push bs) := buffer_canonical (onTile_canonical h)
  have hrest u : Yields MemoryCanonical (rest u) := by
    unfold rest
    split
    · exact h
    · split
      · exact h
      · split
        · exact (loadLocal_canonical h).check hpush
        · exact Yields.check trivial hpush
  split
  · exact h
  · split
    · refine (checkAt_canonical h).check fun _ => ?_
      exact (checkAt_canonical h).check fun _ => (checkAt_canonical h).check hrest
    · exact Yields.check trivial hrest

theorem popLoop_canonical {q n k first prev} {r : Nat} {x : Option RingItem} (h : MemoryCanonical s)
    (e : s.popLoop q n k first prev = (r, x, t)) : MemoryCanonical t := by
  induction n generalizing s k first prev r x t with
  | zero => exact .of_snd_snd e h
  | succ n ih =>
    refine .of_snd_snd e ?_
    unfold State.popLoop
    dsimp only
    split
    · exact h
    · split
      · exact h
      · exact ih (onTile_canonical h) rfl

theorem popWake_canonical {q} (h : MemoryCanonical s) : MemoryCanonical (s.popWake q) := by
  unfold State.popWake
  split
  · exact onTile_canonical h
  · exact h

theorem execQpop_canonical {d q} (h : MemoryCanonical s) : NextCanonical (execQpop d q s) := by
  unfold execQpop
  refine run_canonical h ?_
  split
  · exact h
  · split
    · exact h
    · extract_lets
      split
      next e1 =>
      have h1 := popLoop_canonical h e1
      show MemoryCanonical _
      split
      · exact setPair_canonical (popWake_canonical h1)
      · exact setPair_canonical h1

theorem execQpopm_canonical {d q b} (h : MemoryCanonical s) : NextCanonical (execQpopm d q b s) := by
  unfold execQpopm
  refine run_canonical h ?_
  split
  · exact h
  · extract_lets
    split
    next e1 =>
    have h1 := popLoop_canonical h e1
    show MemoryCanonical _
    split
    · exact setPair_canonical (popWake_canonical h1)
    · exact setPair_canonical h1

theorem execQpeek_canonical {d q} (h : MemoryCanonical s) : NextCanonical (execQpeek d q s) := by
  unfold execQpeek
  refine run_canonical h ?_
  split
  · exact h
  · dsimp only
    split <;> exact setPair_canonical h

theorem execQstat_canonical {d q sel} (h : MemoryCanonical s) : NextCanonical (execQstat d q sel s) :=
  run_canonical h (setReg_canonical h)

/-! ### What the functions of `Sys2Proof.Machine.Wain` leave -/

theorem issueCopy_canonical {c w} (h : MemoryCanonical s) : Yields MemoryCanonical (s.issueCopy c w) := by
  unfold State.issueCopy
  split
  · exact h
  · dsimp only
    split
    · exact completeNum_canonical (onTile_canonical h)
    · exact onTile_canonical h

theorem plainCopy_canonical {c dl sl dst src rows len ds ss} (h : MemoryCanonical s) :
    Yields MemoryCanonical (s.plainCopy c dl sl dst src rows len ds ss) := by
  unfold State.plainCopy
  refine (checkAt_canonical h).check fun _ => ?_
  refine (checkAt_canonical h).check fun _ => ?_
  refine (check_canonical h).check fun _ => ?_
  iterate 4 refine (checkAt_canonical h).check fun _ => ?_
  exact (check_canonical h).check fun _ => issueCopy_canonical h

theorem execCp_canonical {dl sl c d a b} (h : MemoryCanonical s) : NextCanonical (execCp dl sl c d a b s) :=
  run_canonical h (plainCopy_canonical h)

theorem execCp2_canonical {dl sl c d a b} (h : MemoryCanonical s) : NextCanonical (execCp2 dl sl c d a b s) := by
  unfold execCp2
  refine run_canonical h ?_
  split
  · exact h
  · dsimp only
    exact plainCopy_canonical h

theorem execCpZ_canonical {dl c d b} (h : MemoryCanonical s) : NextCanonical (execCpZ dl c d b s) := by
  unfold execCpZ
  refine run_canonical h ?_
  refine (checkAt_canonical h).check fun _ => ?_
  refine (check_canonical h).check fun _ => ?_
  exact (checkAt_canonical h).check fun _ => issueCopy_canonical h

theorem execCpPf_canonical {c a b} (h : MemoryCanonical s) : NextCanonical (execCpPf c a b s) := by
  unfold execCpPf
  refine run_canonical h ?_
  split
  · exact h
  · exact issueCopy_canonical h

theorem squareCopy_canonical {i tr dl sl c d a b} (h : MemoryCanonical s) : NextCanonical (squareCopy i tr dl sl c d a b s) := by
  unfold squareCopy
  refine run_canonical h ?_
  iterate 5 refine (check_canonical h).check fun _ => ?_
  iterate 3 refine (checkAt_canonical h).check fun _ => ?_
  exact (checkAt_canonical h).check fun _ => issueCopy_canonical h

theorem execCpFill_canonical {c d a b} (h : MemoryCanonical s) : NextCanonical (execCpFill c d a b s) := by
  unfold execCpFill
  refine run_canonical h ?_
  refine (check_canonical h).check fun _ => ?_
  refine (checkAt_canonical h).check fun _ => ?_
  refine (check_canonical h).check fun _ => ?_
  refine (check_canonical h).check fun _ => ?_
  exact (checkAt_canonical h).check fun _ => issueCopy_canonical h

theorem takeErr_canonical {c} (h : MemoryCanonical s) : MemoryCanonical (s.takeErr c) := h

theorem waitCounter_canonical {c a} (h : MemoryCanonical s) : Yields (fun _ => True) (s.waitCounter c a) := by
  unfold State.waitCounter
  dsimp only
  split
  · split
    · exact onSt_canonical h
    · trivial
  · split
    · exact onSt_canonical h
    · trivial

theorem execCpWait_canonical {c a} (h : MemoryCanonical s) : NextCanonical (execCpWait c a s) := by
  unfold execCpWait
  refine run_canonical h ?_
  refine (waitCounter_canonical h).check fun _ => ?_
  dsimp only
  split
  · exact takeErr_canonical h
  · exact h

theorem execCpWaitq_canonical {d c a} (h : MemoryCanonical s) : NextCanonical (execCpWaitq d c a s) := by
  unfold execCpWaitq
  refine run_canonical h ?_
  refine (waitCounter_canonical h).check fun _ => ?_
  dsimp only
  split
  · exact setReg_canonical (takeErr_canonical h)
  · exact setReg_canonical h

theorem execCpRdc_canonical {d c sel} (h : MemoryCanonical s) : NextCanonical (execCpRdc d c sel s) := by
  unfold execCpRdc
  refine run_canonical h ?_
  split
  · exact setReg_canonical h
  · exact setReg_canonical h
  · exact setReg_canonical h
  · exact setReg_canonical (takeErr_canonical h)

theorem wainXlate_canonical {w va kind r} (h : MemoryCanonical s) (e : s.wainXlate w va kind = (r, t)) : MemoryCanonical t := by
  refine .of_snd e ?_
  unfold State.wainXlate
  exact gXlate_canonical h rfl

theorem vaRead_canonical {w va n r} (h : MemoryCanonical s) (e : s.vaRead w va n = (r, t)) : MemoryCanonical t := by
  refine .of_snd e ?_
  unfold State.vaRead
  exact gRead_canonical h rfl

theorem vaWrite_canonical {w va bs r} (h : MemoryCanonical s) (e : s.vaWrite w va bs = (r, t)) : MemoryCanonical t := by
  refine .of_snd e ?_
  unfold State.vaWrite
  exact gWrite_canonical h rfl

theorem vaReads_canonical {w fuel va n r} (h : MemoryCanonical s) (e : s.vaReads w fuel va n = (r, t)) : MemoryCanonical t := by
  refine .of_snd e ?_
  unfold State.vaReads
  exact gReads_canonical h rfl

theorem modWain_canonical {k f} (h : MemoryCanonical s) : MemoryCanonical (s.modWain k f) := h

theorem pieceDone_canonical {k p} (h : MemoryCanonical s) : MemoryCanonical (s.pieceDone k p) := h

theorem pieceFail_canonical {k w p c detail loc} (h : MemoryCanonical s) : MemoryCanonical (s.pieceFail k w p c detail loc) :=
  modWain_canonical (pieceDone_canonical (failNum_canonical h))

theorem setStage_canonical {k p st} (h : MemoryCanonical s) : MemoryCanonical (s.setStage k p st) := h

theorem pieceMiss_canonical {k w p m} (h : MemoryCanonical s) : MemoryCanonical (s.pieceMiss k w p m) := by
  unfold State.pieceMiss
  split
  · exact setStage_canonical (missed_canonical h)
  · exact missed_canonical h

theorem spoilLocal_canonical {a n} (h : MemoryCanonical s) : MemoryCanonical (s.spoilLocal a n) := h

theorem srcRead_canonical {w a n r} (h : MemoryCanonical s) (e : s.srcRead w a n = (r, t)) : MemoryCanonical t := by
  refine .of_snd e ?_
  unfold State.srcRead
  split
  · split <;> exact h
  · exact vaRead_canonical h rfl

theorem dstWrite_canonical {w pieces} {r : Io Unit} (h : MemoryCanonical s) (e : s.dstWrite w pieces = (r, t)) :
    MemoryCanonical t := by
  induction pieces generalizing s r t with
  | nil => exact .of_snd e h
  | cons x rest ih =>
    refine .of_snd e ?_
    unfold State.dstWrite
    split
    · exact ih (engineStore_canonical h) rfl
    · split
      · next e1 => exact ih (vaWrite_canonical h e1) rfl
      · exact vaWrite_canonical h rfl

theorem spoilPiece_canonical {w p} (h : MemoryCanonical s) : MemoryCanonical (s.spoilPiece w p) := by
  unfold State.spoilPiece
  split
  · extract_lets
    exact takeFree_canonical (dstWrite_canonical h rfl)
  · exact h

theorem prefetchPiece_canonical {k w p sa} (h : MemoryCanonical s) : MemoryCanonical (s.prefetchPiece k w p sa) := by
  unfold State.prefetchPiece
  split
  · next e => exact pieceMiss_canonical (wainXlate_canonical h e)
  · next e =>
    have h1 := wainXlate_canonical h e
    split
    · exact pieceDone_canonical h1
    · split
      · exact h
      · next e1 => exact pieceDone_canonical (physRead_canonical h1 e1)
  · next e => exact pieceDone_canonical (wainXlate_canonical h e)

theorem plainPiece_canonical {k w p} (h : MemoryCanonical s) : MemoryCanonical (s.plainPiece k w p) := by
  unfold State.plainPiece
  split
  · exact h
  · extract_lets
    split
    · exact prefetchPiece_canonical h
    · split
      next s1 e1 =>
      have h1 : MemoryCanonical s1 := by
        split at e1
        · cases e1; exact h
        · exact srcRead_canonical h e1
      split
      · exact h
      · exact pieceMiss_canonical h1
      · exact pieceFail_canonical (spoilPiece_canonical h1)
      · split
        · next e2 => exact pieceDone_canonical (dstWrite_canonical h1 e2)
        · exact h
        · next e2 => exact pieceFail_canonical (dstWrite_canonical h1 e2)
        · next e2 => exact pieceMiss_canonical (dstWrite_canonical h1 e2)

theorem convertPiece_canonical {k w row} (h : MemoryCanonical s) : MemoryCanonical (s.convertPiece k w row) := by
  unfold State.convertPiece
  dsimp only
  split
  · exact pieceFail_canonical (spoilPiece_canonical h)
  · exact pieceDone_canonical (modWain_canonical (foldl_canonical (fun _ _ => engineStore_canonical) h))

theorem overlapPiece_canonical {k w p} (h : MemoryCanonical s) : MemoryCanonical (s.overlapPiece k w p) := by
  unfold State.overlapPiece
  split
  · exact h
  · split
    · exact h
    · split
      · next e1 => exact pieceDone_canonical (takeFree_canonical (dstWrite_canonical h e1))
      · exact h
      · next e1 => exact pieceFail_canonical (dstWrite_canonical h e1)
      · next e1 => exact pieceMiss_canonical (dstWrite_canonical h e1)

theorem spoilSlot_canonical {w i} (h : MemoryCanonical s) : MemoryCanonical (s.spoilSlot w i) := by
  unfold State.spoilSlot
  split
  · exact foldl_canonical (fun _ _ => spoilLocal_canonical) h
  · exact h

theorem recordFail_canonical {k w i c detail loc} (h : MemoryCanonical s) : MemoryCanonical (s.recordFail k w i c detail loc) :=
  pieceFail_canonical (spoilSlot_canonical h)

theorem recordRefused_canonical {k w i fmt r} (h : MemoryCanonical s) : MemoryCanonical (s.recordRefused k w i fmt r) := by
  unfold State.recordRefused
  refine recordFail_canonical ?_
  split
  · exact h
  · exact sheafRecord_canonical h

theorem atLine_canonical {k i o} (h : MemoryCanonical s) : MemoryCanonical (s.atLine k i o) := h

theorem linesWrite_canonical {k w i fuel o va bs} (h : MemoryCanonical s) :
    MemoryCanonical (s.linesWrite k w i fuel o va bs) := by
  induction fuel generalizing s o va bs with
  | zero => exact pieceDone_canonical h
  | succ fuel ih =>
    unfold State.linesWrite
    split
    · exact pieceDone_canonical h
    · split
      · next e1 => exact ih (vaWrite_canonical h e1)
      · next e1 => exact ih (failNum_canonical (vaWrite_canonical h e1))
      · exact atLine_canonical h
      · next e1 => exact atLine_canonical (pieceMiss_canonical (vaWrite_canonical h e1))

theorem squareWrite_canonical {k w i fmt tr r} (h : MemoryCanonical s) : MemoryCanonical (s.squareWrite k w i fmt tr r) := by
  unfold State.squareWrite
  split
  · exact recordRefused_canonical h
  · dsimp only
    split
    · exact pieceDone_canonical (onTile_canonical h)
    · split
      · exact linesWrite_canonical h
      · split
        · exact h
        · next e => exact pieceMiss_canonical (wainXlate_canonical h e)
        · next e => exact pieceFail_canonical (wainXlate_canonical h e)
        · next e =>
          have h1 := wainXlate_canonical h e
          split
          · exact linesWrite_canonical h1
          · exact setStage_canonical (addReq_canonical h1)

theorem squareArrives_canonical {k w i fmt tr bs} (h : MemoryCanonical s) :
    MemoryCanonical (s.squareArrives k w i fmt tr bs) := by
  unfold State.squareArrives
  dsimp only
  split
  · exact recordFail_canonical h
  · exact squareWrite_canonical h

theorem squareRead_canonical {k w i fmt tr} (h : MemoryCanonical s) : MemoryCanonical (s.squareRead k w i fmt tr) := by
  unfold State.squareRead
  dsimp only
  split
  · exact h
  · next e => exact pieceMiss_canonical (wainXlate_canonical h e)
  · next e => exact recordFail_canonical (wainXlate_canonical h e)
  · next e =>
    have h1 := wainXlate_canonical h e
    split
    · split
      · exact h
      · next e1 => exact pieceMiss_canonical (vaReads_canonical h1 e1)
      · next e1 => exact recordFail_canonical (vaReads_canonical h1 e1)
      · next e1 => exact squareArrives_canonical (vaReads_canonical h1 e1)
    · exact setStage_canonical (addReq_canonical h1)

theorem headerFail_canonical {k w c detail} (h : MemoryCanonical s) : MemoryCanonical (s.headerFail k w c detail) :=
  modWain_canonical (pieceFail_canonical h)

theorem squareStart_canonical {k w i tr} (h : MemoryCanonical s) : MemoryCanonical (s.squareStart k w i tr) := by
  unfold State.squareStart
  split
  · dsimp only
    split
    · split
      · exact recordFail_canonical h
      · exact squareWrite_canonical h
    · exact squareRead_canonical h
  · split
    · exact h
    · next e1 => exact pieceMiss_canonical (vaRead_canonical h e1)
    · next e1 => exact headerFail_canonical (vaRead_canonical h e1)
    · next e1 =>
      have h1 := vaRead_canonical h e1
      dsimp only
      split
      · exact modWain_canonical h1
      · exact headerFail_canonical h1

theorem dropReq_canonical {r} (h : MemoryCanonical s) : MemoryCanonical (s.dropReq r) := h

theorem squarePiece_canonical {k w i tr} (h : MemoryCanonical s) : MemoryCanonical (s.squarePiece k w i tr) := by
  unfold State.squarePiece
  split
  · exact h
  · exact h
  · split
    · dsimp only
      split
      · exact squareArrives_canonical (dropReq_canonical h)
      · exact recordFail_canonical (dropReq_canonical h)
      · exact dropReq_canonical h
    · exact h
  · split
    · dsimp only
      split
      · exact pieceFail_canonical (dropReq_canonical h)
      · split
        · exact pieceFail_canonical (dropReq_canonical h)
        · exact pieceDone_canonical (dropReq_canonical h)
    · exact h
  · exact squareStart_canonical h
  · exact squareStart_canonical h

theorem unitAt_canonical {w u va} {r : Io DW} (h : MemoryCanonical s) (e : s.unitAt w u va = (r, t)) : MemoryCanonical t := by
  induction u generalizing s va r t with
  | zero => exact .of_snd e h
  | succ u ih =>
    refine .of_snd e ?_
    unfold State.unitAt
    split
    · next e1 => exact ih (vaReads_canonical h e1) rfl
    · next e1 => exact vaReads_canonical h e1

theorem unitRead_canonical {w u r} (h : MemoryCanonical s) (e : s.unitRead w u = (r, t)) : MemoryCanonical t := by
  refine .of_snd e ?_
  unfold State.unitRead
  split
  · next e =>
    have h1 := unitAt_canonical h e
    split
    · next e1 =>
      have h2 := vaReads_canonical h1 e1
      dsimp only
      split
      · exact h2
      · split
        · next e2 =>
          have h3 := vaReads_canonical h2 e2
          split <;> exact h3
        · exact vaReads_canonical h2 rfl
    · exact vaReads_canonical h1 rfl
  · next e => exact unitAt_canonical h e

theorem unitWrite_canonical {a n pa bs} {r : Io Unit} (h : MemoryCanonical s) (e : s.unitWrite a n pa bs = (r, t)) :
    MemoryCanonical t := by
  induction n generalizing s pa bs r t with
  | zero => exact .of_snd e h
  | succ n ih =>
    refine .of_snd e ?_
    unfold State.unitWrite
    split
    · next e1 => exact ih (physWrite_canonical h e1) rfl
    · exact physWrite_canonical h rfl

theorem unitPut_canonical {k w u bytes} {after : State → State} (h : MemoryCanonical s)
    (ha : ∀ t, MemoryCanonical t → MemoryCanonical (after t)) : MemoryCanonical (s.unitPut k w u bytes after) := by
  unfold State.unitPut
  split
  · next e1 => exact ha _ (unitWrite_canonical h e1)
  · next e1 => exact pieceFail_canonical (unitWrite_canonical h e1)
  · exact h

theorem fillPiece_canonical {k w u} (h : MemoryCanonical s) : MemoryCanonical (s.fillPiece k w u) := by
  unfold State.fillPiece
  split
  · exact pieceFail_canonical h
  · split
    · exact unitPut_canonical h fun _ h1 => pieceDone_canonical (takeFree_canonical h1)
    · split
      · exact h
      · next e1 => exact pieceMiss_canonical (unitRead_canonical h e1)
      · next e1 => exact unitPut_canonical (unitRead_canonical h e1) fun _ h2 => pieceDone_canonical h2
      · next e1 => exact unitPut_canonical (unitRead_canonical h e1) fun _ h2 => pieceFail_canonical (takeFree_canonical h2)

theorem wainFails_canonical {ctr num p c detail} (h : MemoryCanonical s) : MemoryCanonical (s.wainFails ctr num p c detail) := by
  unfold State.wainFails
  split
  · exact h
  · next w _ _ =>
    have hs : MemoryCanonical (if w.moves ≤ p then s else s.spoilPiece w p) := by
      split
      · exact h
      · exact spoilPiece_canonical h
    split
    · exact h
    · split
      · exact pieceDone_canonical h
      · exact pieceFail_canonical hs
      · exact pieceFail_canonical hs
      · exact pieceFail_canonical hs
      · split
        · exact headerFail_canonical h
        · exact atLine_canonical (modWain_canonical (failNum_canonical h))
        · exact recordFail_canonical h
      · exact setStage_canonical (failNum_canonical h)

theorem wainAgain_canonical {ctr num p} (h : MemoryCanonical s) : MemoryCanonical (s.wainAgain ctr num p) := h

theorem execWainCommandStart_canonical (h : MemoryCanonical s) : NextCanonical (execWainCommandStart s) := by
  unfold execWainCommandStart
  refine event_canonical ?_
  split
  · exact h
  · split
    · exact h
    · exact modWain_canonical h

theorem execWainTransfer_canonical (h : MemoryCanonical s) : NextCanonical (execWainTransfer s) := by
  unfold execWainTransfer
  refine event_canonical ?_
  split
  · exact h
  · dsimp only
    split
    · exact h
    · split
      · exact overlapPiece_canonical h
      · split
        · exact plainPiece_canonical h
        · exact plainPiece_canonical h
        · exact plainPiece_canonical h
        · exact convertPiece_canonical h
        · exact squarePiece_canonical h
        · exact fillPiece_canonical h

theorem execWainCommandComplete_canonical (h : MemoryCanonical s) : NextCanonical (execWainCommandComplete s) := by
  unfold execWainCommandComplete
  refine event_canonical ?_
  split
  · exact h
  · split
    · exact h
    · dsimp only
      exact completeNum_canonical (onTile_canonical h)

/-! ### What the functions of `Sys2Proof.Machine.Messages` leave -/

theorem emit_canonical {e} (h : MemoryCanonical s) : MemoryCanonical (s.emit e) := by
  unfold State.emit
  dsimp only
  split
  · exact h
  · split
    · exact toLink_canonical h
    · split <;> exact h

theorem answer_canonical {m kind reason} (h : MemoryCanonical s) : MemoryCanonical (s.answer m kind reason) := toLink_canonical h

theorem pump_canonical {tile} (h : MemoryCanonical s) : MemoryCanonical (s.pump tile) :=
  foldl_canonical (fun _ _ => emit_canonical) (modTile_canonical h)

theorem releaseMsgs_canonical {tile st ms} (h : MemoryCanonical s) : MemoryCanonical (s.releaseMsgs tile st ms) :=
  pump_canonical (modTile_canonical h)

theorem bufferMsg_canonical {m} (h : MemoryCanonical s) : MemoryCanonical (s.bufferMsg m) := by
  unfold State.bufferMsg
  split
  · exact buffer_canonical h
  · exact onTile_canonical h

theorem checkPayload_canonical {a n} (h : MemoryCanonical s) : Yields (fun _ => True) (s.checkPayload a n) := by
  induction n with
  | zero => trivial
  | succ n ih => exact ih.bind fun _ _ => localCheck_canonical h

theorem execAmSend_canonical {d a b} (h : MemoryCanonical s) : NextCanonical (execAmSend d a b s) := by
  unfold execAmSend
  refine run_canonical h ?_
  iterate 4 refine (check_canonical h).check fun _ => ?_
  refine (checkPayload_canonical h).check fun _ => ?_
  refine (check_canonical h).check fun _ => ?_
  exact (loadLocal_canonical h).check fun _ => setReg_canonical (onTile_canonical (bufferMsg_canonical h))

theorem execAmReply_canonical {a b} (h : MemoryCanonical s) : NextCanonical (execAmReply a b s) := by
  unfold execAmReply
  refine run_canonical h ?_
  refine (check_canonical h).check fun _ => ?_
  refine (checkPayload_canonical h).check fun _ => ?_
  refine (check_canonical h).check fun _ => ?_
  refine (check_canonical h).check fun _ => ?_
  split
  · exact h
  · exact (loadLocal_canonical h).check fun _ => onTile_canonical (bufferMsg_canonical h)

theorem execAmStat_canonical {d sel} (h : MemoryCanonical s) : NextCanonical (execAmStat d sel s) :=
  run_canonical h (setReg_canonical h)

theorem messageFault_canonical {tile m reason} (h : MemoryCanonical s) : MemoryCanonical (s.messageFault tile m reason) := h

theorem setMsg_canonical {k p} (h : MemoryCanonical s) : MemoryCanonical (s.setMsg k p) := h

theorem dropMsg_canonical {k} (h : MemoryCanonical s) : MemoryCanonical (s.dropMsg k) := h

theorem execMessageArrival_canonical (h : MemoryCanonical s) : NextCanonical (execMessageArrival s) := by
  unfold execMessageArrival
  refine event_canonical ?_
  split
  · exact h
  · dsimp only
    split
    · exact h
    · split
      · exact dropMsg_canonical h
      · split
        · exact h
        · split
          · exact h
          · split
            · exact setMsg_canonical h
            · split
              · exact h
              · split
                · exact setMsg_canonical h
                · exact modTile_canonical (setMsg_canonical h)

theorem execAcceptance_canonical (h : MemoryCanonical s) : NextCanonical (execAcceptance s) := by
  unfold execAcceptance
  refine event_canonical ?_
  split
  · exact h
  · split
    · exact h
    · split
      · exact answer_canonical (dropMsg_canonical h)
      · dsimp only
        exact pump_canonical (modTile_canonical (dropMsg_canonical h))

theorem execRefusal_canonical (h : MemoryCanonical s) : NextCanonical (execRefusal s) := by
  unfold execRefusal
  refine event_canonical ?_
  split
  · exact h
  · split
    · exact h
    · split
      · exact answer_canonical (dropMsg_canonical h)
      · dsimp only
        split
        · exact postFault_canonical (modTile_canonical (dropMsg_canonical h))
        · exact modTile_canonical (dropMsg_canonical h)

theorem execMessageResend_canonical (h : MemoryCanonical s) : NextCanonical (execMessageResend s) := by
  unfold execMessageResend
  refine event_canonical ?_
  split
  · exact h
  · split
    · exact emit_canonical (onTile_canonical h)
    · exact h

theorem execReject_canonical (h : MemoryCanonical s) : NextCanonical (execReject s) := by
  unfold execReject
  refine event_canonical ?_
  split
  · exact h
  · dsimp only
    split
    · exact h
    · split
      · exact answer_canonical (dropMsg_canonical h)
      · exact messageFault_canonical (pump_canonical (modTile_canonical (dropMsg_canonical h)))

theorem freeSlot_canonical (h : MemoryCanonical s) : MemoryCanonical s.freeSlot := h

theorem execHandlerStart_canonical (h : MemoryCanonical s) : NextCanonical (execHandlerStart s) := by
  unfold execHandlerStart
  refine event_canonical ?_
  have hf {m} : MemoryCanonical (s.freeSlot.messageFault s.tile.ltn m 1) := messageFault_canonical (freeSlot_canonical h)
  split
  · exact h
  · split
    · exact h
    · split
      · exact hf
      · extract_lets _ _ s1
        have h1 : MemoryCanonical s1 := onTile_canonical h
        clear_value s1
        split
        · exact hf
        · exact h1

theorem raiseErr_canonical (h : MemoryCanonical s) : Yields (fun _ => True) s.raiseErr := by
  unfold State.raiseErr
  split
  · exact takeErr_canonical h
  · trivial

theorem endHandler_canonical {ms} (h : MemoryCanonical s) : Yields MemoryCanonical (s.endHandler ms) := by
  unfold State.endHandler
  extract_lets s1
  have h1 : MemoryCanonical s1 := onTile_canonical (releaseMsgs_canonical h)
  refine (release_canonical h1).check fun _ => ?_
  exact onTile_canonical (freeSlot_canonical (localFence_canonical h1))

theorem execAmEnd_canonical (h : MemoryCanonical s) : NextCanonical (execAmEnd s) := by
  unfold execAmEnd
  refine run_canonical h ?_
  split
  · exact endHandler_canonical h
  · split
    · exact h
    · refine (raiseErr_canonical h).check fun _ => ?_
      dsimp only
      split
      · exact h
      · exact endHandler_canonical h

theorem rejectHead_canonical {m r} (h : MemoryCanonical s) : MemoryCanonical (s.rejectHead m r) := h

theorem builtinReply_canonical {m entry addr sz value} (h : MemoryCanonical s) :
    MemoryCanonical (s.builtinReply m entry addr sz value) :=
  releaseMsgs_canonical h

theorem builtinWrite_canonical {a bs} (h : MemoryCanonical s) : MemoryCanonical (s.builtinWrite a bs) := h

theorem builtinStore_canonical {entry} (h : MemoryCanonical s) : MemoryCanonical (s.builtinStore entry) := by
  unfold State.builtinStore
  split
  · exact h
  · dsimp only
    split
    · exact rejectHead_canonical h
    · exact builtinWrite_canonical (freeSlot_canonical h)

theorem execRemoteStore_canonical (h : MemoryCanonical s) : NextCanonical (execRemoteStore s) :=
  event_canonical (builtinStore_canonical h)

theorem execLoadReply_canonical (h : MemoryCanonical s) : NextCanonical (execLoadReply s) :=
  event_canonical (builtinStore_canonical h)

theorem execAtomicReply_canonical (h : MemoryCanonical s) : NextCanonical (execAtomicReply s) :=
  event_canonical (builtinStore_canonical h)

theorem execRemoteLoad_canonical (h : MemoryCanonical s) : NextCanonical (execRemoteLoad s) := by
  unfold execRemoteLoad
  refine event_canonical ?_
  split
  · exact h
  · dsimp only
    split
    · exact rejectHead_canonical h
    · split
      · exact rejectHead_canonical h
      · exact builtinReply_canonical (freeSlot_canonical h)

theorem execRemoteAtomic_canonical (h : MemoryCanonical s) : NextCanonical (execRemoteAtomic s) := by
  unfold execRemoteAtomic
  refine event_canonical ?_
  split
  · exact h
  · dsimp only
    split
    · split
      · exact rejectHead_canonical h
      · split
        · split
          · exact builtinWrite_canonical (freeSlot_canonical h)
          · exact freeSlot_canonical h
        · refine builtinReply_canonical ?_
          split
          · exact builtinWrite_canonical (freeSlot_canonical h)
          · exact freeSlot_canonical h
    · exact rejectHead_canonical h

/-! ### What the functions of `Sys2Proof.Machine.Activation` leave -/

theorem releaseOutput_canonical {tile o} (h : MemoryCanonical s) : MemoryCanonical (s.releaseOutput tile o) := by
  unfold State.releaseOutput
  split
  · dsimp only
    split
    · exact modTile_canonical (releaseItem_canonical h)
    · exact releaseItem_canonical h
  · exact releaseMsgs_canonical h
  · exact modTile_canonical h
  · exact modTile_canonical h

theorem beginFallow_canonical {tile c} (h : MemoryCanonical s) : MemoryCanonical (s.beginFallow tile c) := by
  unfold State.beginFallow
  dsimp only
  refine modTile_canonical (foldl_canonical (fun _ _ h1 => ?_) h)
  split
  · split
    · split
      · exact modTile_canonical (modTile_canonical (consumed_canonical h1))
      · exact modTile_canonical (consumed_canonical h1)
    · exact h1
  · exact h1

theorem endActivation_canonical {yields a} (h : MemoryCanonical s) : MemoryCanonical (s.endActivation yields a) := by
  unfold State.endActivation
  extract_lets _ _ s1 s2 _ s4
  have h1 : MemoryCanonical s1 := onTile_canonical h
  have h2 : MemoryCanonical s2 := by
    unfold s2
    split
    · exact onTile_canonical h1
    · exact consumeHeld_canonical h1
  have h4 : MemoryCanonical s4 := onTile_canonical (foldl_canonical (fun _ _ => releaseOutput_canonical) h2)
  split
  · exact beginFallow_canonical (onTile_canonical h4)
  · exact leaveRun_canonical h4

theorem commitForm_canonical {i yields} (h : MemoryCanonical s) : NextCanonical (commitForm i yields s) := by
  unfold commitForm
  refine run_canonical h ?_
  split
  · exact h
  · split
    · exact h
    · split
      · exact h
      · refine (raiseErr_canonical h).check fun _ => ?_
        split
        · exact h
        · exact endActivation_canonical h

theorem execAbort_canonical (h : MemoryCanonical s) : NextCanonical (execAbort s) := by
  unfold execAbort
  refine run_canonical h ?_
  split
  · exact h
  · dsimp only
    refine leaveRun_canonical (onTile_canonical (dropAwait_canonical (clearErrs_canonical ?_)))
    exact endThresher_canonical (rollback_canonical h)

theorem ageAll_canonical {chosen} (h : MemoryCanonical s) : MemoryCanonical (s.ageAll chosen) := h

theorem startActivation_canonical {c eps closes final} (h : MemoryCanonical s) :
    MemoryCanonical (s.startActivation c eps closes final) := by
  unfold State.startActivation
  extract_lets _ _ _ _ _ _ _ s1 s2
  have h1 : MemoryCanonical s1 := onTile_canonical h
  have h2 : MemoryCanonical s2 := by
    unfold s2
    split
    · exact onTile_canonical h1
    · exact h1
  exact h2

theorem switchTokens_canonical {c} (h : MemoryCanonical s) : MemoryCanonical (s.switchTokens c) := by
  unfold State.switchTokens
  refine foldl_canonical (fun _ _ h1 => ?_) h
  split
  · exact switchIn_canonical h1
  · exact switchOut_canonical h1

theorem startFault_canonical {c} (h : MemoryCanonical s) : MemoryCanonical (s.startFault c) := by
  unfold State.startFault
  exact mainTrap_canonical (onTile_canonical h)

theorem startCtx_canonical {c} (h : MemoryCanonical s) : MemoryCanonical (s.startCtx c) := by
  unfold State.startCtx
  dsimp only
  split
  · exact h
  · split
    · exact startFault_canonical (switchTokens_canonical (ageAll_canonical h))
    · exact startActivation_canonical (switchTokens_canonical (ageAll_canonical h))
    · split
      · exact startActivation_canonical (switchTokens_canonical (ageAll_canonical h))
      · exact beginFallow_canonical (ageAll_canonical h)

theorem execSchedulerBoundary_canonical (h : MemoryCanonical s) : NextCanonical (execSchedulerBoundary s) := by
  unfold execSchedulerBoundary
  refine event_canonical ?_
  split
  · exact h
  · split
    · exact h
    · exact startCtx_canonical h

theorem emitFallow_canonical {tile q} (h : MemoryCanonical s) : MemoryCanonical (s.emitFallow tile q) :=
  modTile_canonical (releaseItem_canonical h)

theorem execFallowSteps_canonical (h : MemoryCanonical s) : NextCanonical (execFallowSteps s) := by
  unfold execFallowSteps
  refine event_canonical ?_
  dsimp only
  split
  · exact h
  · split
    · exact switchOut_canonical (onTile_canonical (foldl_canonical (fun _ _ => emitFallow_canonical) h))
    · exact onTile_canonical (foldl_canonical (fun _ _ => emitFallow_canonical) h)

/-! ### What the functions of `Sys2Proof.Machine.Tagged` leave -/

theorem setTag_canonical {i x} (h : MemoryCanonical s) : MemoryCanonical (s.setTag i x) := h

theorem consumeTag_canonical {i} (h : MemoryCanonical s) : Yields MemoryCanonical (s.consumeTag i) := by
  unfold State.consumeTag
  split <;> exact setTag_canonical h

theorem issueReq_canonical {kind i va n mask loc data} (h : MemoryCanonical s) :
    Yields MemoryCanonical (s.issueReq kind i va n mask loc data) := by
  unfold State.issueReq
  extract_lets rd rest
  clear_value rd
  have hrest u : Yields MemoryCanonical (rest u) := by
    refine (xlate_canonical h).bind fun _ h1 => ?_
    split
    split
    · exact h1
    · extract_lets send
      have hsend t (ht : MemoryCanonical t) : Yields MemoryCanonical (send t) := by
        unfold send
        extract_lets _ add
        have hadd bs : Yields MemoryCanonical (add bs) := setTag_canonical (addReq_canonical ht)
        split
        · exact Yields.check trivial hadd
        · exact (loadLocal_canonical ht).check hadd
        · exact Yields.check trivial hadd
      split
      · exact (consumeTag_canonical h1).bind hsend
      · exact hsend _ h1
  refine (checkAt_canonical h).check fun _ => ?_
  split
  · exact (localCheck_canonical h).check hrest
  · exact Yields.check trivial hrest

theorem execMrqRd_canonical {sz t a d off} (h : MemoryCanonical s) : NextCanonical (execMrqRd sz t a d off s) :=
  run_canonical h (issueReq_canonical h)

theorem execMrqWr_canonical {sz t a d off} (h : MemoryCanonical s) : NextCanonical (execMrqWr sz t a d off s) :=
  run_canonical h (issueReq_canonical h)

theorem execMrqWrm_canonical {t a d mask} (h : MemoryCanonical s) : NextCanonical (execMrqWrm t a d mask s) := by
  unfold execMrqWrm
  refine run_canonical h ?_
  split
  · exact h
  · exact issueReq_canonical h

theorem execMrqWait_canonical {d t} (h : MemoryCanonical s) : NextCanonical (execMrqWait d t s) := by
  unfold execMrqWait
  refine run_canonical h ?_
  split
  · exact h
  · exact setReg_canonical h
  · exact (consumeTag_canonical h).bind fun _ h1 => setReg_canonical h1

theorem execMrqPoll_canonical {d t} (h : MemoryCanonical s) : NextCanonical (execMrqPoll d t s) :=
  run_canonical h (setReg_canonical h)

theorem tagReply_canonical {i q} (h : MemoryCanonical s) : MemoryCanonical (s.tagReply i q) := by
  unfold State.tagReply
  refine onTile_canonical (setTag_canonical ?_)
  split
  · exact h
  · split
    · exact engineStore_canonical h
    · exact takeFree_canonical (engineStore_canonical h)

theorem execMrqReplyArrival_canonical (h : MemoryCanonical s) : NextCanonical (execMrqReplyArrival s) := by
  unfold execMrqReplyArrival
  refine event_canonical ?_
  split
  · exact h
  · split
    · split
      · exact tagReply_canonical h
      · exact h
    · exact h

/-! ### What the functions of `Sys2Proof.Machine.Atomics` leave -/

theorem sendAtomic_canonical {op va pa key x c d hold aq} (h : MemoryCanonical s) :
    MemoryCanonical (s.sendAtomic op va pa key x c d hold aq) :=
  h

theorem launch_canonical {op va pa key x c d hold aq} (h : MemoryCanonical s) :
    Yields MemoryCanonical (s.launch op va pa key x c d hold aq) := by
  unfold State.launch
  split
  · exact h
  · dsimp only
    split <;> exact sendAtomic_canonical h

theorem globalAtomic_canonical {i op w aq rl sc d a b} (h : MemoryCanonical s) :
    NextCanonical (globalAtomic i op w aq rl sc d a b s) := by
  unfold globalAtomic
  refine run_canonical h ?_
  refine (xlate_canonical h).bind fun _ h1 => ?_
  refine (xlate_canonical h1).bind fun _ h2 => ?_
  exact (release_canonical h2).check fun _ => launch_canonical (localFence_canonical h2)

theorem sendDecrement_canonical {a fail join} (h : MemoryCanonical s) : MemoryCanonical (s.sendDecrement a fail join) := h

theorem writeBack_canonical {k pa n v} (h : MemoryCanonical s) : MemoryCanonical (s.writeBack k pa n v) := h

theorem applyAtomic_canonical {a} {r : DW × Status × Cause} (h : MemoryCanonical s) (e : s.applyAtomic a = (t, r)) :
    MemoryCanonical t := by
  refine .of_fst e ?_
  unfold State.applyAtomic
  split
  next s1 e1 =>
  have h1 := sliceRead_canonical h e1
  split
  · exact h1
  · extract_lets _ _ s2 s3
    have h2 : MemoryCanonical s2 := by
      unfold s2
      split
      · exact writeBack_canonical h1
      · exact h1
    have h3 : MemoryCanonical s3 := by
      unfold s3
      split
      · exact sendDecrement_canonical h2
      · exact h2
    exact h3

theorem idRoom_canonical {slice own} (h : MemoryCanonical s) (e : s.idRoom slice own = some t) : MemoryCanonical t := by
  unfold State.idRoom at e
  split at e
  · cases e; exact h
  · dsimp only at e
    split at e
    · cases e; exact h
    · split at e
      · cases e; exact h
      · cases e

theorem modAtomic_canonical {k f} (h : MemoryCanonical s) : MemoryCanonical (s.modAtomic k f) := h

theorem execAtomicAtHomeSlice_canonical (h : MemoryCanonical s) : NextCanonical (execAtomicAtHomeSlice s) := by
  unfold execAtomicAtHomeSlice
  refine event_canonical ?_
  split
  · exact h
  · split
    · exact h
    · split
      · split
        · extract_lets s1
          have h1 : MemoryCanonical s1 := modAtomic_canonical h
          exact h1
        · split
          next e1 => exact modAtomic_canonical (applyAtomic_canonical h e1)
      · split
        · exact h
        · next e1 =>
          split
          next e2 => exact modAtomic_canonical (applyAtomic_canonical (idRoom_canonical h e1) e2)

theorem execAtomicEntryExpiry_canonical (h : MemoryCanonical s) : NextCanonical (execAtomicEntryExpiry s) := by
  unfold execAtomicEntryExpiry
  refine event_canonical ?_
  split
  · exact h
  · split <;> exact h

theorem execAtomicReplay_canonical (h : MemoryCanonical s) : NextCanonical (execAtomicReplay s) := by
  unfold execAtomicReplay
  refine event_canonical ?_
  split
  · exact h
  · split
    · exact modAtomic_canonical h
    · exact h

theorem takeReply_canonical {a o c} (h : MemoryCanonical s) : MemoryCanonical (s.takeReply a o c) := by
  unfold State.takeReply
  split
  · exact trapStrand_canonical h
  · exact onTile_canonical h

theorem noteReply_canonical {a c} (h : MemoryCanonical s) : MemoryCanonical (s.noteReply a c) := by
  unfold State.noteReply
  split
  · split
    · exact onTile_canonical h
    · exact h
  · exact h

theorem triggerReply_canonical {a c} (h : MemoryCanonical s) : MemoryCanonical (s.triggerReply a c) := by
  unfold State.triggerReply
  split
  · exact postFault_canonical h
  · exact h

theorem deliver_canonical {a o st c} (h : MemoryCanonical s) : MemoryCanonical (s.deliver a o st c) := by
  unfold State.deliver
  refine fireTriggers_canonical ?_
  split
  · exact triggerReply_canonical h
  · split
    · exact takeReply_canonical (onTile_canonical h)
    · exact noteReply_canonical (onTile_canonical h)

theorem execGlobalAtomicReply_canonical (h : MemoryCanonical s) : NextCanonical (execGlobalAtomicReply s) := by
  unfold execGlobalAtomicReply
  refine event_canonical ?_
  split
  · exact h
  · split
    · exact h
    · split
      · exact deliver_canonical h
      · exact h

theorem execAtomicGiveUp_canonical (h : MemoryCanonical s) : NextCanonical (execAtomicGiveUp s) := by
  unfold execAtomicGiveUp
  refine event_canonical ?_
  split
  · exact h
  · split
    · exact deliver_canonical h
    · exact h

theorem giveUpDue_canonical (h : MemoryCanonical s) : MemoryCanonical s.giveUpDue :=
  foldl_canonical (fun _ _ h1 => atTile_canonical h1 fun _ h2 => deliver_canonical h2) h

theorem raiseAsync_canonical {st} (h : MemoryCanonical s) : MemoryCanonical (s.raiseAsync st) := by
  unfold State.raiseAsync
  split
  · exact h
  · dsimp only
    exact trapStrand_canonical (onTile_canonical h)

theorem execAsyncAtomicFault_canonical (h : MemoryCanonical s) : NextCanonical (execAsyncAtomicFault s) := by
  unfold execAsyncAtomicFault
  refine event_canonical ?_
  split
  · exact raiseAsync_canonical h
  · exact h

theorem localAtomic_canonical {i op w aq rl sc d a b} (h : MemoryCanonical s) :
    NextCanonical (localAtomic i op w aq rl sc d a b s) := by
  unfold localAtomic
  refine run_canonical h ?_
  refine (localCheck_canonical h).check fun _ => ?_
  refine (localCheck_canonical h).check fun _ => ?_
  refine (release_canonical h).check fun _ => ?_
  split
  · exact h
  · refine setReg_canonical (orFlags_canonical (localFence_canonical ?_))
    split
    · exact storeLocal_canonical (localFence_canonical h)
    · exact onTile_canonical (localFence_canonical h)

/-! ### What the functions of `Sys2Proof.Machine.Barriers` leave -/

theorem barObject_canonical {a} (h : MemoryCanonical s) : Yields (fun _ => True) (s.barObject a) := by
  unfold State.barObject
  dsimp only
  split
  · split
    · trivial
    · exact h
  · exact h

theorem modBarId_canonical {tile obj f} (h : MemoryCanonical s) : MemoryCanonical (s.modBarId tile obj f) := h

theorem sendBar_canonical {obj op} (h : MemoryCanonical s) : MemoryCanonical (s.sendBar obj op) := h

theorem takeBar_canonical (h : MemoryCanonical s) : MemoryCanonical s.takeBar := h

theorem askBarrier_canonical {obj op} {k : Nat → State → Exec} (h : MemoryCanonical s)
    (hk : ∀ v t, MemoryCanonical t → Yields MemoryCanonical (k v t)) : Yields MemoryCanonical (s.askBarrier obj op k) := by
  unfold State.askBarrier
  split
  · split
    · exact hk _ _ (takeBar_canonical h)
    · exact takeBar_canonical h
    · exact h
  · split
    · exact sendBar_canonical h
    · exact h

theorem atBarrier_canonical {obj f} (h : MemoryCanonical s) : MemoryCanonical (s.atBarrier obj f) := h

theorem noteArrival_canonical {r g} (h : MemoryCanonical s) : MemoryCanonical (s.noteArrival r g) := by
  unfold State.noteArrival
  split
  · exact modTile_canonical h
  · exact h

theorem applyBar_canonical {k} (h : MemoryCanonical s) : MemoryCanonical (s.applyBar k) := by
  unfold State.applyBar
  split
  · exact h
  · extract_lets
    split
    · exact h
    · split
      · exact h
      · split
        extract_lets s1 s2
        have h1 : MemoryCanonical s1 := h
        have h2 : MemoryCanonical s2 := atBarrier_canonical (modBarId_canonical h1)
        split
        · split
          · exact h2
          · exact noteArrival_canonical h2
        · exact h2
        · exact h2

theorem resendBar_canonical {k} (h : MemoryCanonical s) : MemoryCanonical (s.resendBar k) := by
  unfold State.resendBar
  split
  · exact h
  · split <;> exact h

theorem execBarArr_canonical {d a} (h : MemoryCanonical s) : NextCanonical (execBarArr d a s) := by
  unfold execBarArr
  refine run_canonical h ?_
  refine (barObject_canonical h).check fun _ => ?_
  refine (release_canonical h).check fun _ => ?_
  exact askBarrier_canonical (localFence_canonical h) fun _ _ => setReg_canonical

theorem barResult_canonical {d v} (h : MemoryCanonical s) : Yields MemoryCanonical (s.barResult d v) :=
  setReg_canonical (localFence_canonical h)

theorem execBarWait_canonical {d a b} (h : MemoryCanonical s) : NextCanonical (execBarWait d a b s) := by
  unfold execBarWait
  refine run_canonical h ?_
  refine (barObject_canonical h).check fun _ => ?_
  exact askBarrier_canonical h fun _ _ => barResult_canonical

theorem execBarPoll_canonical {d a b} (h : MemoryCanonical s) : NextCanonical (execBarPoll d a b s) := by
  unfold execBarPoll
  refine run_canonical h ?_
  refine (barObject_canonical h).check fun _ => ?_
  exact askBarrier_canonical h fun _ _ => barResult_canonical

theorem execBarJoin_canonical {a} (h : MemoryCanonical s) : NextCanonical (execBarJoin a s) := by
  unfold execBarJoin
  refine run_canonical h ?_
  refine (barObject_canonical h).check fun _ => ?_
  split
  · exact h
  · split
    · exact h
    · exact onCx_canonical h

theorem execBarLeave_canonical {a} (h : MemoryCanonical s) : NextCanonical (execBarLeave a s) := by
  unfold execBarLeave
  refine run_canonical h ?_
  refine (barObject_canonical h).check fun _ => ?_
  refine onCx_canonical ?_
  split
  · exact modBarrier_canonical h
  · exact h

theorem execBarCfg_canonical {a b} (h : MemoryCanonical s) : NextCanonical (execBarCfg a b s) := by
  unfold execBarCfg
  refine run_canonical h ?_
  refine (check_canonical h).check fun _ => ?_
  refine (barObject_canonical h).check fun _ => ?_
  refine (check_canonical h).check fun _ => ?_
  exact askBarrier_canonical h fun _ _ h1 => h1

theorem execBarrierTimeout_canonical (h : MemoryCanonical s) : NextCanonical (execBarrierTimeout s) := by
  unfold execBarrierTimeout
  refine event_canonical ?_
  dsimp only
  split
  · exact h
  · split
    · exact h
    · exact postFault_canonical (atBarrier_canonical h)

/-! ### What the functions of `Sys2Proof.Machine.VectorFp` leave -/

theorem vApply_canonical {n w d k f} (h : MemoryCanonical s) : MemoryCanonical (s.vApply n w d k f) := h

theorem fpOp_canonical {i ty d a b k f} (h : MemoryCanonical s) : NextCanonical (fpOp i ty d a b k f s) :=
  run_canonical h (vApply_canonical h)

/-! ### What the functions of `Sys2Proof.Machine.VectorInt` leave -/

theorem intOp_canonical {i es sg d a b k f} (h : MemoryCanonical s) : NextCanonical (intOp i es sg d a b k f s) :=
  run_canonical h (vApply_canonical h)

theorem compareOp_canonical {i c ty d a b k} (h : MemoryCanonical s) : NextCanonical (compareOp i c ty d a b k s) := by
  unfold compareOp
  refine run_canonical h ?_
  split
  · exact h
  · dsimp only
    exact orFlags_canonical (setK_canonical h)

/-! ### What the functions of `Sys2Proof.Machine.VectorMisc` leave -/

theorem drew_canonical {n} (h : MemoryCanonical s) : MemoryCanonical (s.drew n) := onTile_canonical h

theorem execVcvt_canonical {g f d a} (h : MemoryCanonical s) : NextCanonical (execVcvt g f d a s) := by
  unfold execVcvt
  refine run_canonical h ?_
  split
  · exact h
  · dsimp only
    split
    · exact h
    · split
      · exact drew_canonical (orFlags_canonical (setV_canonical h))
      · exact orFlags_canonical (setV_canonical h)

theorem execVlog2_canonical {d a k} (h : MemoryCanonical s) : NextCanonical (execVlog2 d a k s) :=
  run_canonical h (vApply_canonical h)

theorem execVexp2_canonical {d a k} (h : MemoryCanonical s) : NextCanonical (execVexp2 d a k s) :=
  run_canonical h (vApply_canonical h)

theorem randomOp_canonical {i d k f} (h : MemoryCanonical s) : NextCanonical (randomOp i d k f s) := by
  unfold randomOp
  refine run_canonical h ?_
  split
  · exact h
  · exact drew_canonical (vApply_canonical h)

theorem execVsum_canonical {ty d a k} (h : MemoryCanonical s) : NextCanonical (execVsum ty d a k s) := by
  unfold execVsum
  refine run_canonical h ?_
  split
  · exact h
  · dsimp only
    split
    · exact setReg_canonical h
    · exact orFlags_canonical (setReg_canonical h)

theorem extremeOp_canonical {i mx ty d a b k} (h : MemoryCanonical s) : NextCanonical (extremeOp i mx ty d a b k s) := by
  unfold extremeOp
  refine run_canonical h ?_
  split
  · exact h
  · dsimp only
    split <;> exact setPair_canonical (orFlags_canonical h)

theorem moveOp_canonical {i w d k f} (h : MemoryCanonical s) : NextCanonical (moveOp i w d k f s) :=
  run_canonical h (vApply_canonical h)

theorem execVins32_canonical {d a n} (h : MemoryCanonical s) : NextCanonical (execVins32 d a n s) :=
  run_canonical h (setV_canonical h)

theorem execVext32_canonical {d a n} (h : MemoryCanonical s) : NextCanonical (execVext32 d a n s) :=
  run_canonical h (setReg_canonical h)

theorem selectOp_canonical {i w d a b k} (h : MemoryCanonical s) : NextCanonical (selectOp i w d a b k s) :=
  run_canonical h (setV_canonical h)

theorem execVins64_canonical {d a n} (h : MemoryCanonical s) : NextCanonical (execVins64 d a n s) :=
  run_canonical h (setV_canonical h)

theorem execVext64_canonical {d a n} (h : MemoryCanonical s) : NextCanonical (execVext64 d a n s) :=
  run_canonical h (setReg_canonical h)

theorem maskOp_canonical {i d a b f} (h : MemoryCanonical s) : NextCanonical (maskOp i d a b f s) :=
  run_canonical h (setK_canonical h)

theorem maskNum_canonical {i d a f} (h : MemoryCanonical s) : NextCanonical (maskNum i d a f s) :=
  run_canonical h (setReg_canonical h)

theorem execKset_canonical {d a} (h : MemoryCanonical s) : NextCanonical (execKset d a s) := run_canonical h (setK_canonical h)

/-! ### What the functions of `Sys2Proof.Machine.Thresher` leave -/

theorem issueThr_canonical {c draws k} (h : MemoryCanonical s) : Yields MemoryCanonical (s.issueThr c draws k) := by
  unfold State.issueThr
  split
  · exact h
  · dsimp only
    split
    · split <;> exact onSt_canonical (onTile_canonical h)
    · split <;> exact onSt_canonical (onTile_canonical h)

theorem mmaOp_canonical {i tr z acc a b n c} (h : MemoryCanonical s) : NextCanonical (mmaOp i tr z acc a b n c s) := by
  unfold mmaOp
  refine run_canonical h ?_
  iterate 6 refine (check_canonical h).check fun _ => ?_
  iterate 3 refine (checkAt_canonical h).check fun _ => ?_
  exact (checkAt_canonical h).check fun _ => issueThr_canonical h

theorem execAccZero_canonical {acc n c} (h : MemoryCanonical s) : NextCanonical (execAccZero acc n c s) := by
  unfold execAccZero
  refine run_canonical h ?_
  refine (check_canonical h).check fun _ => ?_
  exact (check_canonical h).check fun _ => issueThr_canonical h

theorem rawTileCheck_canonical {a wr} (h : MemoryCanonical s) : Yields (fun _ => True) (s.rawTileCheck a wr) :=
  (checkAt_canonical h).check fun _ => checkAt_canonical h

theorem execAccLd_canonical {acc d c} (h : MemoryCanonical s) : NextCanonical (execAccLd acc d c s) := by
  unfold execAccLd
  refine run_canonical h ?_
  refine (check_canonical h).check fun _ => ?_
  exact (rawTileCheck_canonical h).check fun _ => issueThr_canonical h

theorem execAccSt_canonical {d acc c} (h : MemoryCanonical s) : NextCanonical (execAccSt d acc c s) := by
  unfold execAccSt
  refine run_canonical h ?_
  refine (check_canonical h).check fun _ => ?_
  exact (rawTileCheck_canonical h).check fun _ => issueThr_canonical h

theorem execAccCvt_canonical {f d acc c} (h : MemoryCanonical s) : NextCanonical (execAccCvt f d acc c s) := by
  unfold execAccCvt
  refine run_canonical h ?_
  iterate 3 refine (check_canonical h).check fun _ => ?_
  refine (checkAt_canonical h).check fun _ => ?_
  exact (checkAt_canonical h).check fun _ => issueThr_canonical h

theorem execSqQuant_canonical {f d acc a b c} (h : MemoryCanonical s) : NextCanonical (execSqQuant f d acc a b c s) := by
  unfold execSqQuant
  refine run_canonical h ?_
  iterate 6 refine (check_canonical h).check fun _ => ?_
  refine (checkAt_canonical h).check fun _ => ?_
  exact (checkAt_canonical h).check fun _ => issueThr_canonical h

theorem execSqDeq_canonical {f acc d b c} (h : MemoryCanonical s) : NextCanonical (execSqDeq f acc d b c s) := by
  unfold execSqDeq
  refine run_canonical h ?_
  iterate 5 refine (check_canonical h).check fun _ => ?_
  refine (checkAt_canonical h).check fun _ => ?_
  exact (checkAt_canonical h).check fun _ => issueThr_canonical h

theorem execSqAlign_canonical {d a b c} (h : MemoryCanonical s) : NextCanonical (execSqAlign d a b c s) := by
  unfold execSqAlign
  refine run_canonical h ?_
  iterate 4 refine (check_canonical h).check fun _ => ?_
  iterate 3 refine (checkAt_canonical h).check fun _ => ?_
  exact (checkAt_canonical h).check fun _ => issueThr_canonical h

theorem execSqScale_canonical {d a b c} (h : MemoryCanonical s) : NextCanonical (execSqScale d a b c s) := by
  unfold execSqScale
  refine run_canonical h ?_
  iterate 3 refine (check_canonical h).check fun _ => ?_
  refine (checkAt_canonical h).check fun _ => ?_
  exact (checkAt_canonical h).check fun _ => issueThr_canonical h

theorem stepFails_canonical {k c cause addr tail} (h : MemoryCanonical s) :
    MemoryCanonical (s.stepFails k c cause addr tail) := by
  unfold State.stepFails
  split
  · exact releaseMain_canonical (onTile_canonical h)
  · exact trapStrand_canonical h

theorem execThresherStep_canonical (h : MemoryCanonical s) : NextCanonical (execThresherStep s) := by
  unfold execThresherStep
  refine event_canonical ?_
  split
  · exact h
  · split
    · exact h
    · dsimp only
      split
      · refine stepFails_canonical ?_
        split
        · exact localRecord_canonical h
        · exact h
      · exact stepFails_canonical (localRecord_canonical h)
      · exact stepFails_canonical (localRecord_canonical h)
      · split
        · exact releaseMain_canonical h
        · exact h

theorem execThresherStop_canonical (h : MemoryCanonical s) : NextCanonical (execThresherStop s) := by
  unfold execThresherStop
  refine event_canonical ?_
  split
  · exact h
  · split
    · exact h
    · extract_lets s1
      have h1 : MemoryCanonical s1 := onTile_canonical h
      clear_value s1
      exact h1

theorem execThresherCommandComplete_canonical (h : MemoryCanonical s) : NextCanonical (execThresherCommandComplete s) := by
  unfold execThresherCommandComplete
  refine event_canonical ?_
  split
  · exact h
  · split
    · exact h
    · dsimp only
      exact completeNum_canonical (onTile_canonical h)

theorem execTailFault_canonical (h : MemoryCanonical s) : NextCanonical (execTailFault s) := by
  unfold execTailFault
  refine event_canonical ?_
  split
  · exact h
  · dsimp only
    exact completeNum_canonical (onTile_canonical h)

/-! ### What the functions of `Sys2Proof.Machine.Sheaf` leave -/

theorem sheafBlocks_canonical {a b tags} (h : MemoryCanonical s) : Yields (fun _ => True) (s.sheafBlocks a b tags) := by
  unfold State.sheafBlocks
  dsimp only
  refine (check_canonical h).check fun _ => ?_
  refine (check_canonical h).check fun _ => ?_
  iterate 3 refine (checkAt_canonical h).check fun _ => ?_
  split
  · split
    · exact h
    · split
      · exact h
      · trivial
  · split
    · exact h
    · split
      · exact h
      · trivial

theorem execShTag_canonical {d a b} (h : MemoryCanonical s) : NextCanonical (execShTag d a b s) := by
  unfold execShTag
  refine run_canonical h ?_
  refine (sheafBlocks_canonical h).check fun _ => ?_
  refine setReg_canonical ?_
  split
  · exact onTile_canonical h
  · exact h

theorem execShChk_canonical {d a b} (h : MemoryCanonical s) : NextCanonical (execShChk d a b s) :=
  run_canonical h ((sheafBlocks_canonical h).check fun _ => setReg_canonical h)

theorem execShRed_canonical {a b} (h : MemoryCanonical s) : NextCanonical (execShRed a b s) := by
  unfold execShRed
  refine run_canonical h ?_
  dsimp only
  refine (check_canonical h).check fun _ => ?_
  refine (check_canonical h).check fun _ => ?_
  refine (checkAt_canonical h).check fun _ => ?_
  refine (checkAt_canonical h).check fun _ => ?_
  split
  · exact h
  · refine (check_canonical h).check fun _ => ?_
    split
    · exact localRecord_canonical h
    · refine (check_canonical h).check fun _ => ?_
      exact (check_canonical h).check fun _ => buffer_canonical h

theorem execShAck_canonical {a b} (h : MemoryCanonical s) : NextCanonical (execShAck a b s) := by
  unfold execShAck
  refine run_canonical h ?_
  refine (check_canonical h).check fun _ => ?_
  exact (check_canonical h).check fun _ => buffer_canonical h

theorem execShRel_canonical {d a b} (h : MemoryCanonical s) : NextCanonical (execShRel d a b s) := by
  unfold execShRel
  refine run_canonical h ?_
  dsimp only
  split
  · exact setReg_canonical h
  · exact setReg_canonical (onTile_canonical h)

/-! ### What the functions of `Sys2Proof.Machine.Network` leave -/

theorem chargeHop_canonical {p kind route hop bs found addr} (h : MemoryCanonical s) :
    MemoryCanonical (s.chargeHop p kind route hop bs found addr) :=
  h

theorem chargeRecord_canonical {p kind route l port bs found addr} (h : MemoryCanonical s) :
    MemoryCanonical (s.chargeRecord p kind route l port bs found addr) :=
  h

theorem checkRecord_canonical {p route l port bs r} (h : MemoryCanonical s) (e : s.checkRecord p route l port bs = (t, r)) :
    MemoryCanonical t := by
  refine .of_fst e ?_
  unfold State.checkRecord
  dsimp only
  split
  · exact h
  · exact chargeRecord_canonical h

theorem deliverRecord_canonical {p route l bs} (h : MemoryCanonical s) : MemoryCanonical (s.deliverRecord p route l bs) := by
  unfold State.deliverRecord
  split
  · next e =>
    have h1 := checkRecord_canonical h e
    split
    · exact h1
    · exact modTile_canonical h1

theorem ackMessage_canonical {l m rel} (h : MemoryCanonical s) : MemoryCanonical (s.ackMessage l m rel) := h

theorem itemHere_canonical {l qcb id src bs} (h : MemoryCanonical s) : MemoryCanonical (s.itemHere l qcb id src bs) := h

theorem leaveAbroad_canonical {k} (h : MemoryCanonical s) : MemoryCanonical (s.leaveAbroad k) := by
  unfold State.leaveAbroad
  split
  · exact h
  · dsimp only
    exact toLink_canonical h

theorem sendPort_canonical {k port} (h : MemoryCanonical s) : MemoryCanonical (s.sendPort k port) := by
  unfold State.sendPort
  split
  · split
    · exact deliverRecord_canonical h
    · exact ackMessage_canonical h
    · exact itemHere_canonical h
  · split
    · split
      · exact leaveAbroad_canonical h
      · exact h
    · dsimp only
      exact h

theorem acceptedAbroad_canonical {k} (h : MemoryCanonical s) : MemoryCanonical (s.acceptedAbroad k) := by
  unfold State.acceptedAbroad
  split
  · exact h
  · dsimp only
    split
    · exact foldl_canonical (fun _ _ => pump_canonical) h
    · exact h

theorem forward_canonical {k ports} (h : MemoryCanonical s) : MemoryCanonical (s.forward k ports) :=
  foldl_canonical (fun _ _ => sendPort_canonical) h

theorem checkInput_canonical {p route l port bs r} (h : MemoryCanonical s) (e : s.checkInput p route l port bs = (t, r)) :
    MemoryCanonical t := by
  refine .of_fst e ?_
  unfold State.checkInput
  split
  · next e =>
    have h1 := checkRecord_canonical h e
    dsimp only
    split
    · exact chargeRecord_canonical h1
    · exact h1

theorem switchCheck_canonical {k r} (h : MemoryCanonical s) (e : s.switchCheck k = (t, r)) : MemoryCanonical t := by
  refine .of_fst e ?_
  unfold State.switchCheck
  split
  · exact h
  · exact checkInput_canonical h rfl

theorem routeFault_canonical {k} (h : MemoryCanonical s) : MemoryCanonical (s.routeFault k) := by
  unfold State.routeFault
  split
  · dsimp only
    exact sheafRecord_canonical h
  · split
    · exact h
    · exact chargeRecord_canonical h
  · split
    · exact h
    · exact chargeRecord_canonical h

theorem holdInput_canonical {k bs} (h : MemoryCanonical s) (e : s.holdInput k bs = some t) : MemoryCanonical t := by
  unfold State.holdInput at e
  split at e
  · split at e
    · cases e; exact chargeRecord_canonical h
    · cases e; exact h
  · split at e
    · cases e
    · cases e; exact h

theorem squareAtSwitch_canonical {k r l port} (h : MemoryCanonical s) : MemoryCanonical (s.squareAtSwitch k r l port) := by
  unfold State.squareAtSwitch
  extract_lets
  split
  · exact h
  · split
    next s1 _ e1 =>
    have h1 := checkInput_canonical h e1
    split
    next s2 _ e2 =>
    have h2 : MemoryCanonical s2 := by
      split at e2
      · cases e2; exact h1
      · obtain ⟨rfl, -⟩ := Prod.mk.inj e2
        split
        · exact h1
        · exact chargeRecord_canonical h1
    exact h2

theorem pumpAck_canonical {k} (h : MemoryCanonical s) : MemoryCanonical (s.pumpAck k) := by
  unfold State.pumpAck
  split
  · split
    · exact pump_canonical h
    · exact h
  · exact h

theorem execSwitchArrival_canonical (h : MemoryCanonical s) : NextCanonical (execSwitchArrival s) := by
  unfold execSwitchArrival event
  split
  · split
    · exact squareAtSwitch_canonical h
    · exact h
  · extract_lets rest
    have h1 : MemoryCanonical rest := h
    split
    next e1 =>
    have h2 := switchCheck_canonical h1 e1
    split
    · extract_lets
      split
      · exact forward_canonical h2
      · exact forward_canonical (routeFault_canonical h2)
    · split
      · split
        · exact getD_canonical (fun _ e2 => holdInput_canonical h2 e2) h
        · split
          · exact h
          · exact pumpAck_canonical (forward_canonical h2)
      · exact pumpAck_canonical (routeFault_canonical h2)

theorem slotRecord_canonical {x kind expect found} (h : MemoryCanonical s) : MemoryCanonical (s.slotRecord x kind expect found) :=
  h

theorem emitSum_canonical {x r j bits} (h : MemoryCanonical s) : MemoryCanonical (s.emitSum x r j bits) := by
  unfold State.emitSum
  split
  · dsimp only
    split
    · exact slotRecord_canonical h
    · refine forward_canonical ?_
      split
      · exact slotRecord_canonical h
      · exact h
  · exact h

theorem execReductionEmit_canonical (h : MemoryCanonical s) : NextCanonical (execReductionEmit s) := by
  unfold execReductionEmit
  refine event_canonical ?_
  split
  · exact h
  · split
    · exact h
    · split
      · exact emitSum_canonical h
      · exact h

theorem execRedtimeout_canonical (h : MemoryCanonical s) : NextCanonical (execRedtimeout s) := by
  unfold execRedtimeout
  refine event_canonical ?_
  split
  · exact h
  · split
    · exact h
    · exact slotRecord_canonical h

theorem execShRedDeparture_canonical (h : MemoryCanonical s) : NextCanonical (execShRedDeparture s) := by
  unfold execShRedDeparture
  refine event_canonical ?_
  split
  · exact h
  · extract_lets _ _ _ _ _ _ _ _ s1 s2
    have h1 : MemoryCanonical s1 := onTile_canonical h
    have h2 : MemoryCanonical s2 := by
      unfold s2
      split
      · exact chargeRecord_canonical h1
      · exact h1
    clear_value s2
    split <;> exact h2

theorem execSheafResend_canonical (h : MemoryCanonical s) : NextCanonical (execSheafResend s) := by
  unfold execSheafResend
  refine event_canonical ?_
  split
  · exact h
  · dsimp only
    split
    · exact rejectHead_canonical h
    · exact onTile_canonical (builtinWrite_canonical (freeSlot_canonical h))

theorem execAckDelivery_canonical (h : MemoryCanonical s) : NextCanonical (execAckDelivery s) := by
  unfold execAckDelivery
  refine event_canonical ?_
  split
  · exact h
  · dsimp only
    exact onTile_canonical (freeSlot_canonical h)

/-! ### What the functions of `Sys2Proof.Machine.Paging` leave -/

theorem execPageEventOpen_canonical (h : MemoryCanonical s) : NextCanonical (execPageEventOpen s) := by
  unfold execPageEventOpen
  refine event_canonical ?_
  split
  · exact h
  · dsimp only
    split
    · exact h
    · split
      · exact h
      · split
        · exact h
        · exact post_canonical h

theorem retryAgent_canonical {tile a} (h : MemoryCanonical s) : MemoryCanonical (s.retryAgent tile a) := by
  unfold State.retryAgent
  split
  · exact modTile_canonical h
  · exact modTile_canonical h
  · exact modTile_canonical h
  · exact modTile_canonical h
  · exact atTile_canonical h fun _ h1 => wainAgain_canonical h1
  · exact modTile_canonical h
  · exact h
  · exact h

theorem failAgent_canonical {tile ag va c detail} (h : MemoryCanonical s) :
    MemoryCanonical (s.failAgent tile ag va c detail) := by
  unfold State.failAgent
  split
  · dsimp only
    exact trapStrand_canonical h
  · dsimp only
    exact trapStrand_canonical h
  · dsimp only
    exact trapStrand_canonical h
  · dsimp only
    exact trapStrand_canonical h
  · exact atTile_canonical h fun _ h1 => wainFails_canonical h1
  · exact modTile_canonical h
  · exact h
  · exact h

theorem resumeAgent_canonical {w status} (h : MemoryCanonical s) : MemoryCanonical (s.resumeAgent w status) := by
  unfold State.resumeAgent
  split
  · exact retryAgent_canonical h
  · split <;> exact failAgent_canonical h

theorem closeEvent_canonical {e status} (h : MemoryCanonical s) : MemoryCanonical (s.closeEvent e status) :=
  foldl_canonical (fun _ _ => resumeAgent_canonical) h

theorem execPageEventTimeout_canonical (h : MemoryCanonical s) : NextCanonical (execPageEventTimeout s) := by
  unfold execPageEventTimeout
  refine event_canonical ?_
  split
  · exact h
  · split
    · exact closeEvent_canonical h
    · exact h

theorem execPageResume_canonical (h : MemoryCanonical s) : NextCanonical (execPageResume s) := by
  unfold execPageResume
  refine event_canonical ?_
  split
  · exact h
  · dsimp only
    split
    · exact freeSlot_canonical h
    · exact closeEvent_canonical (freeSlot_canonical h)

theorem prefetchLines_canonical {key pa} (h : MemoryCanonical s) : MemoryCanonical (s.prefetchLines key pa) := by
  unfold State.prefetchLines
  refine foldl_canonical (fun _ _ h1 => ?_) h
  dsimp only
  split
  · exact h1
  · exact sliceRead_canonical h1 rfl

theorem postRange_canonical {base n} (h : MemoryCanonical s) : MemoryCanonical (s.postRange base n) := by
  unfold State.postRange
  split
  · exact h
  · dsimp only
    split
    · exact h
    · exact getD_canonical (fun _ e1 => agentPushNow_canonical h e1) h

/-! ### What the functions of `Sys2Proof.Machine.Walker` leave -/

theorem pageAsker_canonical {a lvl ptePa pte} (h : MemoryCanonical s) : MemoryCanonical (s.pageAsker a lvl ptePa pte) := by
  unfold State.pageAsker
  split
  · exact waitPage_canonical (modTile_canonical h)
  · exact waitPage_canonical (modTile_canonical h)
  · exact waitPage_canonical (modTile_canonical h)
  · exact waitPage_canonical (modTile_canonical h)
  · exact waitPage_canonical (modTile_canonical h)
  · refine atTile_canonical h fun _ h1 => ?_
    split
    · exact h1
    · split
      · exact pieceDone_canonical h1
      · exact setStage_canonical (waitPage_canonical h1)
  · exact h
  · exact h

theorem answerAsker_canonical {p r a} (h : MemoryCanonical s) : MemoryCanonical (s.answerAsker p r a) := by
  unfold State.answerAsker
  dsimp only
  split
  · exact failAgent_canonical h
  · split
    · exact failAgent_canonical h
    · exact pageAsker_canonical h
    · exact h
    · split
      · exact atTile_canonical (cacheLeaf_canonical h) fun _ h1 => prefetchLines_canonical h1
      · exact cacheLeaf_canonical h

theorem endWalk_canonical {w r} (h : MemoryCanonical s) : MemoryCanonical (s.endWalk w r) := by
  unfold State.endWalk
  refine foldl_canonical (fun _ _ => answerAsker_canonical) ?_
  split
  · exact h
  · exact sendWalk_canonical h

theorem walkerTakes_canonical {serial st data} (h : MemoryCanonical s) : MemoryCanonical (s.walkerTakes serial st data) := by
  unfold State.walkerTakes
  split
  · exact h
  · split
    · exact endWalk_canonical h
    · split
      · exact endWalk_canonical h
      · split
        · exact endWalk_canonical h
        · dsimp only
          exact sendWalk_canonical h

/-! ### What the functions of `Sys2Proof.Machine.BaseDie` leave -/

theorem modReq_canonical {k f} (h : MemoryCanonical s) : MemoryCanonical (s.modReq k f) := h

theorem takeReq_canonical {k r} (h : MemoryCanonical s) : MemoryCanonical (s.takeReq k r) := h

theorem leaveSlice_canonical {k r} (h : MemoryCanonical s) : MemoryCanonical (s.leaveSlice k r) := by
  unfold State.leaveSlice
  split
  · exact h
  · exact walkerTakes_canonical h
  · exact modReq_canonical h

theorem execHomeSliceRead_canonical (h : MemoryCanonical s) : NextCanonical (execHomeSliceRead s) := by
  unfold execHomeSliceRead
  refine event_canonical ?_
  split
  · exact h
  · split
    · exact h
    · split
      · split
        · exact leaveSlice_canonical h
        · exact takeReq_canonical h
      · split
        · exact leaveSlice_canonical h
        · exact takeReq_canonical h
      · exact takeReq_canonical h
      · exact h

theorem takeSquare_canonical {k r} (h : MemoryCanonical s) : MemoryCanonical (s.takeSquare k r) := by
  unfold State.takeSquare
  dsimp only
  split
  · exact takeReq_canonical h
  · split
    · refine modReq_canonical ?_
      split
      · exact chargeHop_canonical h
      · exact h
    · refine takeReq_canonical ?_
      split
      · exact chargeHop_canonical h
      · exact h

theorem execHomeSliceWrite_canonical (h : MemoryCanonical s) : NextCanonical (execHomeSliceWrite s) := by
  unfold execHomeSliceWrite
  refine event_canonical ?_
  split
  · exact h
  · split
    · exact h
    · split
      · exact takeSquare_canonical h
      · exact takeReq_canonical h

theorem serveRead_canonical {k r} (h : MemoryCanonical s) : MemoryCanonical (s.serveRead k r) := by
  unfold State.serveRead
  split
  next e1 => exact modReq_canonical (baseRead_canonical h e1)

theorem serveWrite_canonical {k r} (h : MemoryCanonical s) : MemoryCanonical (s.serveWrite k r) := by
  unfold State.serveWrite
  split
  · next e =>
    have h1 := baseWrite_canonical h e
    split
    · dsimp only
      exact addReq_canonical (modReq_canonical h1)
    · exact modReq_canonical h1

theorem baseEvent_canonical {kind} {f : State → Nat → MemReq → State} (h : MemoryCanonical s)
    (hf : ∀ t k r, MemoryCanonical t → MemoryCanonical (f t k r)) : NextCanonical (baseEvent kind f s) := by
  unfold baseEvent event
  split
  · exact h
  · split
    · exact hf _ _ _ h
    · exact h

theorem execRd_canonical (h : MemoryCanonical s) : NextCanonical (execRd s) :=
  baseEvent_canonical h fun _ _ _ => serveRead_canonical

theorem execWalk_canonical (h : MemoryCanonical s) : NextCanonical (execWalk s) :=
  baseEvent_canonical h fun _ _ _ => serveRead_canonical

theorem execWr_canonical (h : MemoryCanonical s) : NextCanonical (execWr s) :=
  baseEvent_canonical h fun _ _ _ => serveWrite_canonical

theorem execWrm_canonical (h : MemoryCanonical s) : NextCanonical (execWrm s) :=
  baseEvent_canonical h fun _ _ _ => serveWrite_canonical

theorem execAtomwb_canonical (h : MemoryCanonical s) : NextCanonical (execAtomwb s) :=
  baseEvent_canonical h fun _ _ _ => serveWrite_canonical

theorem squareKind_canonical {k r} {f : State → Nat → MemReq → State} (h : MemoryCanonical s)
    (hf : ∀ t k r, MemoryCanonical t → MemoryCanonical (f t k r)) : MemoryCanonical (s.squareKind k r f) := by
  unfold State.squareKind
  split
  · exact hf _ _ _ h
  · exact modReq_canonical h

theorem execSqrd_canonical (h : MemoryCanonical s) : NextCanonical (execSqrd s) := by
  unfold execSqrd
  refine baseEvent_canonical h fun _ _ _ h1 => ?_
  exact squareKind_canonical h1 fun _ _ _ => serveRead_canonical

theorem nextVersion_canonical {r} {v : BitVec 16} (h : MemoryCanonical s) (e : s.nextVersion r = (t, v)) : MemoryCanonical t :=
  .of_fst e (meetEccs_canonical h rfl)

theorem execSqwr_canonical (h : MemoryCanonical s) : NextCanonical (execSqwr s) := by
  refine baseEvent_canonical h fun _ _ _ h1 => ?_
  refine squareKind_canonical h1 fun _ _ _ h2 => ?_
  split
  · split
    next e3 => exact serveWrite_canonical (nextVersion_canonical h2 e3)
  · exact serveWrite_canonical h2

theorem execPdelta_canonical (h : MemoryCanonical s) : NextCanonical (execPdelta s) := by
  unfold execPdelta
  refine event_canonical ?_
  split
  · exact h
  · split
    · dsimp only
      refine modReq_canonical ?_
      split
      · exact applyDelta_canonical h
      · exact memEvent_canonical h
    · exact h

theorem execParityAck_canonical (h : MemoryCanonical s) : NextCanonical (execParityAck s) := by
  unfold execParityAck
  refine event_canonical ?_
  split
  · exact h
  · split <;> exact h

theorem checkSquareReply_canonical {r q} (h : MemoryCanonical s) (e : s.checkSquareReply r = (t, q)) : MemoryCanonical t := by
  refine .of_fst e ?_
  unfold State.checkSquareReply
  dsimp only
  split
  · exact h
  · exact chargeHop_canonical h

theorem execBaseDieReply_canonical (h : MemoryCanonical s) : NextCanonical (execBaseDieReply s) := by
  unfold execBaseDieReply
  refine event_canonical ?_
  split
  · exact h
  · split
    · exact h
    · split
      next s1 _ e1 =>
      have h1 : MemoryCanonical s1 := by
        split at e1
        · exact checkSquareReply_canonical h e1
        · cases e1; exact h
      refine leaveSlice_canonical ?_
      split
      · split
        · exact fillWhole_canonical h1
        · exact fillLine_canonical h1
      · split
        · exact fillWhole_canonical h1
        · exact fillLine_canonical h1
      · exact h1
      · split
        · exact updateLines_canonical h1
        · exact h1

theorem execScrub_canonical (h : MemoryCanonical s) : NextCanonical (execScrub s) := by
  unfold execScrub
  refine event_canonical ?_
  split
  · split
    · exact h
    · exact meetParity_canonical h
  · split
    · exact h
    · exact meetEcc_canonical h rfl

theorem execChannelStateChange_canonical (h : MemoryCanonical s) : NextCanonical (execChannelStateChange s) := by
  unfold execChannelStateChange
  refine event_canonical ?_
  split
  · exact h
  · exact failChannel_canonical h

theorem execMemoryEventForward_canonical (h : MemoryCanonical s) : NextCanonical (execMemoryEventForward s) := by
  unfold execMemoryEventForward
  refine event_canonical ?_
  split
  · exact h
  · dsimp only
    split
    · split
      · exact h
      · split
        · split <;> exact h
        · refine post_canonical ?_
          split <;> exact h
    · split
      · exact h
      · split
        · split <;> exact h
        · refine post_canonical ?_
          split <;> exact h

/-! ### What the functions of `Sys2Proof.Machine.Monitor` leave -/

theorem callTurn_canonical (h : MemoryCanonical s) (e : s.callTurn = some t) : MemoryCanonical t := by
  unfold State.callTurn at e
  split at e
  · cases e; exact h
  · dsimp only at e
    split at e
    · cases e; exact h
    · cases e

theorem monitorCall_canonical {i n} {f : State → MonRes} (h : MemoryCanonical s) (hf : ∀ t, MemoryCanonical t → (f t).Canonical) :
    NextCanonical (monitorCall i n f s) := by
  unfold monitorCall
  refine run_canonical h ?_
  split
  · exact h
  · split
    · split
      · exact h
      · next s1 e1 =>
        have h1 := callTurn_canonical h e1
        have hres : MonRes.Canonical (if s1.st.sample = some 2 then .done 1 s1.enterMonitor else f s1.enterMonitor) := by
          split
          · exact enterMonitor_canonical h1
          · exact hf _ (enterMonitor_canonical h1)
        split
        · next e2 =>
          rw [e2] at hres
          exact exitMonitor_canonical (setReg_canonical hres)
        · exact onSt_canonical h1
        · exact missed_canonical (onSt_canonical h1)
        · exact missed_canonical (onSt_canonical h1)
    · exact h

theorem ctxCall_canonical {f : State → Nat → BitVec 2 → MonRes} (h : MemoryCanonical s)
    (hf : ∀ t l c, MemoryCanonical t → (f t l c).Canonical) : (s.ctxCall f).Canonical := by
  unfold State.ctxCall
  dsimp only
  split
  · exact h
  · split
    · exact h
    · exact hf _ _ _ (modTile_canonical h)

theorem park_canonical {l c} (h : MemoryCanonical s) : MemoryCanonical (s.park l c) := by
  unfold State.park
  split
  · exact switchOut_canonical (modTile_canonical h)
  · exact modTile_canonical h
  · exact modTile_canonical h
  · exact modTile_canonical h
  · exact h
  · exact h

theorem execCtxPark_canonical (h : MemoryCanonical s) : NextCanonical (execCtxPark s) := by
  unfold execCtxPark
  refine monitorCall_canonical h fun _ h1 => ?_
  exact ctxCall_canonical h1 fun _ _ _ => park_canonical

theorem kill_canonical {l c} (h : MemoryCanonical s) : MemoryCanonical (s.kill l c) := by
  unfold State.kill
  dsimp only
  split
  · split
    · exact mainTrap_canonical (modTile_canonical h)
    · exact modTile_canonical h
  · exact unbind_canonical h

theorem execCtxKill_canonical (h : MemoryCanonical s) : NextCanonical (execCtxKill s) := by
  unfold execCtxKill
  refine monitorCall_canonical h fun _ h1 => ?_
  exact ctxCall_canonical h1 fun _ _ _ => kill_canonical

theorem compareQcb_canonical {q tile r} (h : MemoryCanonical s) (e : s.compareQcb q tile = (r, t)) : MemoryCanonical t := by
  refine .of_snd e ?_
  unfold State.compareQcb
  extract_lets
  split
  next e1 =>
  split
  next e2 =>
  have h1 := sliceRead_canonical (sliceRead_canonical h e1) e2
  split
  · exact h1
  · exact freeze_canonical h1

theorem writeState_canonical {qcb qstate} (h : MemoryCanonical s) : MemoryCanonical (s.writeState qcb qstate) := by
  unfold State.writeState
  split
  · exact writeQueueState_canonical h
  · exact h

theorem wakeMembers_canonical {q} (h : MemoryCanonical s) : MemoryCanonical (s.wakeMembers q) := by
  unfold State.wakeMembers
  refine foldl_canonical (fun _ _ h1 => ?_) h
  split
  · exact modTile_canonical h1
  · exact h1

theorem rebind_canonical {tile qcb} (h : MemoryCanonical s) : MemoryCanonical (s.rebind tile qcb) := by
  unfold State.rebind
  split
  · exact h
  · split
    · next e1 =>
      have h1 := compareQcb_canonical h e1
      split
      · exact wakeMembers_canonical (writeState_canonical (modQueue_canonical h1))
      · exact modQueue_canonical h1

theorem resume_canonical {l c rebind} (h : MemoryCanonical s) : MemoryCanonical (s.resume l c rebind) := by
  unfold State.resume
  split
  · exact foldl_canonical (fun _ _ => rebind_canonical) (modTile_canonical h)
  · exact modTile_canonical h

theorem execCtxResume_canonical (h : MemoryCanonical s) : NextCanonical (execCtxResume s) := by
  unfold execCtxResume
  refine monitorCall_canonical h fun _ h1 => ?_
  refine ctxCall_canonical h1 fun _ _ _ h2 => ?_
  split
  · exact h2
  · split
    · trivial
    · exact resume_canonical h2

theorem itemPayload_canonical {l ep i r} (h : MemoryCanonical s) (e : s.itemPayload l ep i = (r, t)) : MemoryCanonical t := by
  refine .of_snd e ?_
  unfold State.itemPayload
  dsimp only
  split
  · exact h
  · split
    · exact h
    · split
      · exact gReads_canonical h rfl
      · exact h

theorem pushItem_canonical {qcb i payload} (h : MemoryCanonical s) : MemoryCanonical (s.pushItem qcb i payload) := by
  unfold State.pushItem
  split
  · exact h
  · dsimp only
    exact foldl_canonical (fun _ _ => agentItem_canonical) (takeFree_canonical (countRelease_canonical h))

theorem takeItems_canonical {l items} (h : MemoryCanonical s) : MemoryCanonical (s.takeItems l items) :=
  foldl_canonical (fun _ _ h1 => modTile_canonical (consumed_canonical h1)) h

theorem payloads_canonical {l items} {r : Io (List (RingItem × List Byte))} (h : MemoryCanonical s)
    (e : s.payloads l items = (r, t)) : MemoryCanonical t := by
  have hmore : ∀ (i : RingItem) (bs : List Byte) (p : Io (List (RingItem × List Byte)) × State),
      (State.payloads.more i bs p).2 = p.2 := fun _ _ _ => by
    unfold State.payloads.more
    split <;> rfl
  induction items generalizing s r t with
  | nil => exact .of_snd e h
  | cons x rest ih =>
    refine .of_snd e ?_
    unfold State.payloads
    split
    · next e1 => rw [hmore]; exact ih (itemPayload_canonical h e1) rfl
    · next e1 => rw [hmore]; exact ih (itemPayload_canonical h e1) rfl
    · next e1 => exact itemPayload_canonical h e1
    · next e1 => exact itemPayload_canonical h e1

theorem execQuarantine_canonical (h : MemoryCanonical s) : NextCanonical (execQuarantine s) := by
  refine monitorCall_canonical h fun _ h1 => ?_
  refine ctxCall_canonical h1 fun _ _ _ h2 => ?_
  dsimp only
  split
  · exact h2
  · split
    · exact h2
    · split
      · exact h2
      · split
        · exact h2
        · split
          · exact h2
          · split
            · next e3 =>
              have h3 := payloads_canonical h2 e3
              exact modTile_canonical (foldl_canonical (fun _ _ => pushItem_canonical) (takeItems_canonical h3))
            · trivial
            · trivial

theorem execRegionSet_canonical (h : MemoryCanonical s) : NextCanonical (execRegionSet s) := by
  unfold execRegionSet
  refine monitorCall_canonical h fun _ h1 => ?_
  dsimp only
  split
  · exact h1
  · split
    · exact h1
    · exact modTile_canonical h1

theorem execInfo_canonical (h : MemoryCanonical s) : NextCanonical (execInfo s) := by
  unfold execInfo
  refine monitorCall_canonical h fun _ h1 => ?_
  split
  · exact h1
  · split
    · exact storeLocal_canonical h1
    · exact h1

theorem purgeKey_canonical {k} (h : MemoryCanonical s) : MemoryCanonical (s.purgeKey k) := h

theorem setKey_canonical {k m} (h : MemoryCanonical s) : MemoryCanonical (s.setKey k m) := h

theorem execKeyLoad_canonical (h : MemoryCanonical s) : NextCanonical (execKeyLoad s) := by
  unfold execKeyLoad
  refine monitorCall_canonical h fun _ h1 => ?_
  dsimp only
  split
  · exact h1
  · split
    · exact h1
    · split
      · exact h1
      · split
        · trivial
        · exact setKey_canonical (purgeKey_canonical h1)

theorem execKeyClear_canonical (h : MemoryCanonical s) : NextCanonical (execKeyClear s) := by
  unfold execKeyClear
  refine monitorCall_canonical h fun _ h1 => ?_
  dsimp only
  split
  · exact h1
  · split
    · trivial
    · exact setKey_canonical (purgeKey_canonical h1)

theorem dropRoute_canonical {switch idx} (h : MemoryCanonical s) : MemoryCanonical (s.dropRoute switch idx) := h

theorem execRouteSet_canonical (h : MemoryCanonical s) : NextCanonical (execRouteSet s) := by
  refine monitorCall_canonical h fun _ h1 => ?_
  split
  · exact h1
  · split
    · exact h1
    · split
      · exact dropRoute_canonical h1
      · split
        · exact h1
        · extract_lets s2
          have h2 : MemoryCanonical s2 := dropRoute_canonical h1
          exact h2

theorem execRouteClear_canonical (h : MemoryCanonical s) : NextCanonical (execRouteClear s) := by
  unfold execRouteClear
  refine monitorCall_canonical h fun _ h1 => ?_
  split
  · exact h1
  · split
    · exact h1
    · split
      · exact h1
      · split
        · trivial
        · exact dropRoute_canonical h1

theorem modDevice_canonical {vf dev f} (h : MemoryCanonical s) : MemoryCanonical (s.modDevice vf dev f) := h

theorem execVqBind_canonical (h : MemoryCanonical s) : NextCanonical (execVqBind s) := by
  unfold execVqBind
  refine monitorCall_canonical h fun _ h1 => ?_
  dsimp only
  split
  · exact h1
  · split
    · exact h1
    · split <;> exact h1

theorem exportQueue_canonical {q r} (h : MemoryCanonical s) (e : s.exportQueue q = (r, t)) : MemoryCanonical t := by
  refine .of_snd e ?_
  unfold State.exportQueue
  split
  next e1 => exact writeState_canonical (modQueue_canonical (compareQcb_canonical h e1))

theorem exportBytes_canonical {p sel arg r q} (h : MemoryCanonical s) (e : s.exportBytes p sel arg = (r, q, t)) :
    MemoryCanonical t := by
  refine .of_snd_snd e ?_
  unfold State.exportBytes
  split
  · split
    · exact h
    · split
      · exact h
      · split
        · exact h
        · dsimp only
          exact exportQueue_canonical h rfl
  · split
    · exact h
    · dsimp only
      split <;> exact h
  · split
    · exact h
    · dsimp only
      exact h
  · exact h

theorem importMember_canonical {q m bs} (h : MemoryCanonical s) : MemoryCanonical (s.importMember q m bs) := by
  unfold State.importMember
  extract_lets _ _ _ _ _ s2
  have h1 : MemoryCanonical s2 := modQueue_canonical (modTile_canonical h)
  exact h1

theorem importVq_canonical {vf bs} (h : MemoryCanonical s) : MemoryCanonical (s.importVq vf bs) := h

theorem noteNotify_canonical {id} (h : MemoryCanonical s) : MemoryCanonical (s.noteNotify id) := h

theorem importNotify_canonical {id} (h : MemoryCanonical s) : MemoryCanonical (s.importNotify id) := h

theorem importBitmaps_canonical {vf dirty notify pages} (h : MemoryCanonical s) :
    MemoryCanonical (s.importBitmaps vf dirty notify pages) :=
  foldl_canonical (fun _ _ => importNotify_canonical) h

theorem importBytes_canonical {p sel arg bs r} (h : MemoryCanonical s) (e : s.importBytes p sel arg bs = (r, t)) :
    MemoryCanonical t := by
  refine .of_snd e ?_
  unfold State.importBytes
  split
  · split
    · exact h
    · split
      · exact h
      · split
        · exact h
        · dsimp only
          split
          · exact wakeMembers_canonical (foldl_canonical (fun _ _ => importMember_canonical) h)
          · exact h
  · split
    · exact h
    · dsimp only
      split
      · exact h
      · split
        · exact foldl_canonical (fun _ _ => importVq_canonical) h
        · exact h
  · split
    · exact h
    · dsimp only
      split
      · exact h
      · exact importBitmaps_canonical h
  · exact h

theorem call_canonical {α : Type} {r : Io α × State} {s : State} {k : α → State → MonRes} (hr : MemoryCanonical r.2)
    (h : MemoryCanonical s) (hk : ∀ a t, MemoryCanonical t → (k a t).Canonical) : (Io.call r s k).Canonical := by
  unfold Io.call
  split
  · exact hk _ _ hr
  · exact h
  · trivial
  · trivial

theorem execExportCall_canonical (h : MemoryCanonical s) : NextCanonical (execExportCall s) := by
  refine monitorCall_canonical h fun _ h1 => ?_
  split
  · trivial
  · split
    · next e2 => exact call_canonical (gWrites_canonical (exportBytes_canonical h1 e2) rfl) h1 fun _ _ h2 => h2
    · exact h1

theorem importRead_canonical {g sel arg va r} (h : MemoryCanonical s) (e : s.importRead g sel arg va = (r, t)) :
    MemoryCanonical t := by
  refine .of_snd e ?_
  unfold State.importRead
  dsimp only
  split
  · next e =>
    have h1 := gReads_canonical h e
    split
    · split
      · exact h1
      · split
        · next e2 => exact gReads_canonical h1 e2
        · exact gReads_canonical h1 rfl
    · exact h1
  · exact gReads_canonical h rfl

theorem execImportCall_canonical (h : MemoryCanonical s) : NextCanonical (execImportCall s) := by
  refine monitorCall_canonical h fun _ h1 => ?_
  refine call_canonical (importRead_canonical h1 rfl) h1 fun _ _ h2 => ?_
  split
  · next e3 => exact importBytes_canonical h2 e3
  · exact h1

theorem execAttest_canonical (h : MemoryCanonical s) : NextCanonical (execAttest s) := by
  refine monitorCall_canonical h fun _ h1 => ?_
  exact call_canonical (gReads_canonical h1 rfl) h1 fun _ _ h2 => call_canonical (gWrites_canonical h2 rfl) h1 fun _ _ h3 => h3

theorem moveToSpare_canonical {l slot} (h : MemoryCanonical s) : MemoryCanonical (s.moveToSpare l slot) := h

theorem beginRemap_canonical {l} (h : MemoryCanonical s) : MemoryCanonical (s.beginRemap l) :=
  modTile_canonical (foldl_canonical (fun _ _ => park_canonical) h)

theorem endRemap_canonical {l} (h : MemoryCanonical s) : MemoryCanonical (s.endRemap l) := by
  unfold State.endRemap
  extract_lets
  split
  · exact postFault_canonical (modTile_canonical h)
  · extract_lets s2 s3
    have h1 : MemoryCanonical s2 := modTile_canonical (moveToSpare_canonical h)
    have h2 : MemoryCanonical s3 := foldl_canonical (fun _ _ hs => modTile_canonical (resume_canonical hs)) h1
    exact postFault_canonical h2

theorem execRemap_canonical (h : MemoryCanonical s) : NextCanonical (execRemap s) := by
  unfold execRemap
  refine event_canonical ?_
  dsimp only
  split
  · exact h
  · split
    · exact beginRemap_canonical h
    · split
      · exact endRemap_canonical h
      · exact h

/-! ### What the functions of `Sys2Proof.Machine.HostIo` leave -/

theorem featuresOk_canonical {vf dev} (h : MemoryCanonical s) : MemoryCanonical (s.featuresOk vf dev) := by
  unfold State.featuresOk
  split
  · exact modDevice_canonical h
  · exact h

theorem driverOk_canonical {vf dev} (h : MemoryCanonical s) : MemoryCanonical (s.driverOk vf dev) := by
  unfold State.driverOk
  split
  · exact modDevice_canonical h
  · exact h

theorem execFeaturesOk_canonical (h : MemoryCanonical s) : NextCanonical (execFeaturesOk s) :=
  event_canonical (featuresOk_canonical h)

theorem execDriverOk_canonical (h : MemoryCanonical s) : NextCanonical (execDriverOk s) := event_canonical (driverOk_canonical h)

theorem closeConns_canonical {p} (h : MemoryCanonical s) : MemoryCanonical (s.closeConns p) := h

theorem vsockEnd_canonical {vf guest port bs} (h : MemoryCanonical s) : MemoryCanonical (s.vsockEnd vf guest port bs) := by
  unfold State.vsockEnd
  split
  · exact closeConns_canonical h
  · exact h

theorem vsockFrom_canonical {vf bs} (h : MemoryCanonical s) : MemoryCanonical (s.vsockFrom vf bs) := by
  unfold State.vsockFrom
  dsimp only
  split
  · exact h
  · split
    · split <;> exact h
    · exact vsockEnd_canonical h

theorem modVq_canonical {id f} (h : MemoryCanonical s) : MemoryCanonical (s.modVq id f) := h

theorem dmaTurn_canonical {p vf} (h : MemoryCanonical s) (e : s.dmaTurn p vf = some t) : MemoryCanonical t := by
  obtain ⟨_, -, rfl⟩ := Option.map_eq_some_iff.mp e
  exact h

theorem markDirty_canonical {vf first n} (h : MemoryCanonical s) : MemoryCanonical (s.markDirty vf first n) := h

theorem endChain_canonical {v q r rest off} (h : MemoryCanonical s) : MemoryCanonical (s.endChain v q r rest off) := by
  unfold State.endChain
  extract_lets _ s1 _ s2
  have h1 : MemoryCanonical s1 := modVq_canonical h
  have h2 : MemoryCanonical s2 := modVq_canonical h
  split
  · exact vsockFrom_canonical (markDirty_canonical (s := { s1 with hostOut := _ }) h1)
  · refine agentPush_canonical ?_
    split
    · exact vsockFrom_canonical h2
    · exact h2

theorem serveVq_canonical {id off} (h : MemoryCanonical s) : MemoryCanonical (s.serveVq id off) := by
  unfold State.serveVq
  split
  · exact h
  · split
    · extract_lets
      split
      · exact h
      · split
        · exact h
        · next e1 =>
          have h1 := dmaTurn_canonical h e1
          split
          · next s2 e2 =>
            have h2 : MemoryCanonical s2 := by
              split at e2
              · cases e2; exact h1
              · exact gWrites_canonical h1 e2
            split
            · exact modVq_canonical h2
            · exact endChain_canonical h2
          · next e2 =>
            split at e2
            · cases e2
            · exact missed_canonical (gWrites_canonical h1 e2)
          · exact h1
    · exact h

theorem takeBuffer_canonical {r} (h : MemoryCanonical s) : MemoryCanonical (s.takeBuffer r) :=
  serveVq_canonical (modVq_canonical h)

theorem execNotify_canonical {r} (h : MemoryCanonical s) : NextCanonical (execNotify r s) := by
  unfold execNotify
  refine event_canonical ?_
  split
  · exact takeBuffer_canonical (noteNotify_canonical h)
  · exact h

theorem available_canonical {r last} (h : MemoryCanonical s) : MemoryCanonical (s.available r last) := by
  unfold State.available
  split
  · exact takeBuffer_canonical (modVq_canonical h)
  · exact h

theorem execAgentPushRetry_canonical (h : MemoryCanonical s) : NextCanonical (execAgentPushRetry s) := by
  unfold execAgentPushRetry
  refine event_canonical ?_
  split
  · split
    · exact h
    · exact arriveItem_canonical h
  · split
    · exact serveVq_canonical h
    · exact h

theorem takeCompletion_canonical {i} (h : MemoryCanonical s) : MemoryCanonical (s.takeCompletion i) := h

theorem answerChain_canonical {q i v c} (h : MemoryCanonical s) : MemoryCanonical (s.answerChain q i v c) := by
  unfold State.answerChain
  extract_lets
  split
  · exact h
  · next s e1 =>
    have h1 := dmaTurn_canonical h e1
    split
    · next s1 e2 =>
      have h2 := gReads_canonical h1 e2
      extract_lets _ s2 s3 s4
      have h3 : MemoryCanonical s2 := markDirty_canonical (s := { s1 with hostOut := _ }) h2
      have h4 : MemoryCanonical s3 := by
        unfold s3
        split
        · exact vsockEnd_canonical h3
        · exact h3
      split
      · exact modVq_canonical h4
      · have h5 : MemoryCanonical s4 := modVq_canonical (takeCompletion_canonical h4)
        exact h5
    · next e2 => exact queueRecord_canonical (modVq_canonical (takeCompletion_canonical (gReads_canonical h1 e2)))
    · exact missed_canonical h1
    · exact h1

theorem completeVq_canonical {q i} (h : MemoryCanonical s) : MemoryCanonical (s.completeVq q i) := by
  unfold State.completeVq
  split
  · exact queueRecord_canonical (takeCompletion_canonical h)
  · split
    · exact takeCompletion_canonical h
    · split
      · exact queueRecord_canonical (takeCompletion_canonical h)
      · exact answerChain_canonical h

theorem execVirtqueueCompletion_canonical (h : MemoryCanonical s) : NextCanonical (execVirtqueueCompletion s) := by
  unfold execVirtqueueCompletion
  refine event_canonical ?_
  split
  · exact h
  · split
    · exact h
    · split
      · exact h
      · split
        · exact completeVq_canonical h
        · exact consumed_canonical h

theorem resetQueues_canonical {vf dev} (h : MemoryCanonical s) : MemoryCanonical (s.resetQueues vf dev) := h

theorem execFlr_canonical (h : MemoryCanonical s) : NextCanonical (execFlr s) := by
  unfold execFlr
  refine event_canonical ?_
  extract_lets _ one s1
  have hone t dev (ht : MemoryCanonical t) : MemoryCanonical (one t dev) := modDevice_canonical (resetQueues_canonical ht)
  have h1 : MemoryCanonical s1 := foldl_canonical hone h
  clear_value s1
  split
  · exact h
  · exact closeConns_canonical h1

theorem execFlrComplete_canonical (h : MemoryCanonical s) : NextCanonical (execFlrComplete s) := by
  unfold execFlrComplete
  refine event_canonical (foldl_canonical (fun _ _ h1 => ?_) h)
  split
  · exact modDevice_canonical h1
  · exact h1

theorem resetDevice_canonical {vf dev} (h : MemoryCanonical s) : MemoryCanonical (s.resetDevice vf dev) := by
  unfold State.resetDevice
  extract_lets s1
  have h1 : MemoryCanonical s1 := modDevice_canonical (resetQueues_canonical h)
  clear_value s1
  split
  · exact h
  · exact closeConns_canonical h1

theorem execDeviceReset_canonical (h : MemoryCanonical s) : NextCanonical (execDeviceReset s) :=
  event_canonical (resetDevice_canonical h)

theorem writeStatus_canonical {vf dev v} (h : MemoryCanonical s) : MemoryCanonical (s.writeStatus vf dev v) := by
  unfold State.writeStatus
  extract_lets s1 s2
  have h1 : MemoryCanonical s1 := modDevice_canonical h
  have h2 : MemoryCanonical s2 := by
    unfold s2
    split
    · exact featuresOk_canonical h1
    · exact h1
  split
  · exact resetDevice_canonical h
  · split
    · exact driverOk_canonical h2
    · exact h2

theorem barWrite_canonical {vf dev off bs} (h : MemoryCanonical s) : MemoryCanonical (s.barWrite vf dev off bs) := by
  unfold State.barWrite
  dsimp only
  split
  · exact h
  · split
    · exact modDevice_canonical h
    · exact modDevice_canonical h
    · split
      · exact h
      · exact modDevice_canonical h
    · exact modDevice_canonical h
    · exact writeStatus_canonical h
    · exact modDevice_canonical h
    · split
      · exact h
      · exact modDevice_canonical h

/-! ### What the functions of `Sys2Proof.Machine.Power` leave -/

theorem setTiles_canonical {c} (h : MemoryCanonical s) : MemoryCanonical (s.setTiles c) :=
  foldl_canonical (fun _ _ => modTile_canonical) h

theorem configure_canonical {cs} (h : MemoryCanonical s) : MemoryCanonical (s.configure cs) :=
  foldl_canonical (fun _ _ => setTiles_canonical) h

theorem execIoDieFailover_canonical (h : MemoryCanonical s) : NextCanonical (execIoDieFailover s) := event_canonical h

theorem execDroop_canonical (h : MemoryCanonical s) : NextCanonical (execDroop s) := event_canonical h

theorem execDroopRecovery_canonical (h : MemoryCanonical s) : NextCanonical (execDroopRecovery s) := event_canonical h

theorem execPowerCap_canonical (h : MemoryCanonical s) : NextCanonical (execPowerCap s) := event_canonical h

theorem execThermalLimit_canonical (h : MemoryCanonical s) : NextCanonical (execThermalLimit s) := by
  unfold execThermalLimit
  refine event_canonical ?_
  split
  · exact h
  · split <;> exact h

/-! ### What the functions of `Sys2Proof.Machine.Bind` leave -/

theorem loadBytes_canonical {key fuel pa bs} (h : MemoryCanonical s) : MemoryCanonical (s.loadBytes key fuel pa bs) := by
  induction fuel generalizing s pa bs with
  | zero => exact h
  | succ fuel ih =>
    unfold State.loadBytes
    split
    · exact h
    · exact ih (sliceWrite_canonical h rfl)

theorem writeMaps_canonical {r} (h : MemoryCanonical s) : MemoryCanonical (s.writeMaps r) :=
  foldl_canonical (fun _ _ => loadBytes_canonical) h

theorem refit_canonical {q cb} (h : MemoryCanonical s) : MemoryCanonical (s.refit q cb) :=
  foldl_canonical (fun _ _ => modTile_canonical) (foldl_canonical (fun _ _ => modTile_canonical) h)

theorem rebindQueue_canonical {q cb prods seeds} (h : MemoryCanonical s) : MemoryCanonical (s.rebindQueue q cb prods seeds) := by
  unfold State.rebindQueue
  split
  · next e =>
    have h1 := compareQcb_canonical h e
    dsimp only
    split
    · exact modQueue_canonical (refit_canonical h1)
    · exact wakeMembers_canonical (writeQueueState_canonical (loadBytes_canonical (modQueue_canonical (refit_canonical h1))))

theorem bindQueue_canonical {p r rings q i} (h : MemoryCanonical s) : MemoryCanonical (s.bindQueue p r rings q i) := by
  unfold State.bindQueue
  extract_lets
  split
  · exact rebindQueue_canonical h
  · split
    next s0 e0 =>
    have h1 := sliceRead_canonical h e0
    exact writeQueueState_canonical (loadBytes_canonical (s := { s0 with queues := _ }) h1)

theorem bindTile_canonical {r p m image l} (h : MemoryCanonical s) : MemoryCanonical (s.bindTile r p m image l) :=
  modTile_canonical h

theorem bindMarker_canonical {l ep} (h : MemoryCanonical s) : MemoryCanonical (s.bindMarker l ep) :=
  modTile_canonical (releaseItem_canonical h)

theorem bindWave_canonical {r} (h : MemoryCanonical s) : MemoryCanonical (s.bindWave r) := by
  unfold State.bindWave
  refine foldl_canonical (fun _ _ h1 => ?_) (foldl_canonical (fun _ _ => bindMarker_canonical) h)
  split
  · exact launchItems_canonical h1
  · exact h1

theorem writeLines_canonical {plan} (h : MemoryCanonical s) : MemoryCanonical (s.writeLines plan) :=
  foldl_canonical (fun _ _ => loadBytes_canonical) h

theorem doBind_canonical {p r rings plan} (h : MemoryCanonical s) : MemoryCanonical (s.doBind p r rings plan) := by
  unfold State.doBind
  extract_lets s2 s3 s4 _ s5
  have h1 : MemoryCanonical s2 := writeLines_canonical (writeMaps_canonical h)
  have h2 : MemoryCanonical s3 := foldl_canonical (fun _ _ => bindQueue_canonical) h1
  have h3 : MemoryCanonical s4 := foldl_canonical (fun _ _ => foldl_canonical fun _ _ => bindTile_canonical) h2
  have h4 : MemoryCanonical s5 := bindWave_canonical h3
  exact h4

theorem bindEnd_canonical {c r} (h : MemoryCanonical s) : (s.bindEnd c r).Canonical := by
  unfold State.bindEnd
  dsimp only
  split
  · trivial
  · split
    · trivial
    · trivial
    · trivial
    · split
      · trivial
      · exact doBind_canonical h

/-! ### What the functions of `Sys2Proof.Machine.Boot` leave -/

theorem failTile_canonical {l} (h : MemoryCanonical s) : MemoryCanonical (s.failTile l) := by
  unfold State.failTile
  split
  · exact h
  · split
    · exact h
    · exact moveToSpare_canonical h

theorem bindService_canonical {r} (h : MemoryCanonical s) : MemoryCanonical (s.bindService r) := by
  unfold State.bindService
  split
  · exact h
  · next c _ =>
    have hb := bindEnd_canonical (c := c) (r := r) h
    split
    · next e1 => rw [e1] at hb; exact hb
    · exact h

theorem bringUp_canonical {b accepted} (h : MemoryCanonical s) : MemoryCanonical (s.bringUp b accepted) := by
  unfold State.bringUp
  extract_lets _ _ s1 s2
  have h1 : MemoryCanonical s1 := h
  have h2 : MemoryCanonical s2 := foldl_canonical (fun _ _ => failTile_canonical) h1
  split
  · exact foldl_canonical (fun _ _ => bindService_canonical) (configure_canonical h2)
  · exact h2

theorem afterReset_canonical (s : State) : MemoryCanonical s.afterReset := ⟨rfl, rfl⟩

theorem execPackageReset_canonical {b} : NextCanonical (execPackageReset b s) := by
  unfold execPackageReset
  refine event_canonical ?_
  extract_lets s0
  have h1 : MemoryCanonical s0 := afterReset_canonical s
  split
  · split
    · exact h1
    · split
      · exact h1
      · exact bringUp_canonical h1
  · exact h1

/-! ### What the functions of `Sys2Proof.Machine.Branch` leave -/

theorem execJmp_canonical {off} (h : MemoryCanonical s) : NextCanonical (execJmp off s) := run_canonical h (branchTo_canonical h)

theorem execJmpr_canonical {a i} (h : MemoryCanonical s) : NextCanonical (execJmpr a i s) :=
  run_canonical h (branchTo_canonical h)

theorem startLoop_canonical {lvl count len} (h : MemoryCanonical s) : Yields MemoryCanonical (s.startLoop lvl count len) := by
  unfold State.startLoop
  split
  · exact branchTo_canonical (onSt_canonical h)
  · exact onSt_canonical h

theorem execLoop_canonical {lvl a len} (h : MemoryCanonical s) : NextCanonical (execLoop lvl a len s) := by
  unfold execLoop
  refine run_canonical h ?_
  split
  · exact h
  · exact startLoop_canonical h

theorem execLoopi_canonical {lvl cnt len} (h : MemoryCanonical s) : NextCanonical (execLoopi lvl cnt len s) := by
  unfold execLoopi
  refine run_canonical h ?_
  split
  · exact h
  · exact startLoop_canonical h

/-! ### What the functions of `Sys2Proof.Machine.Futures` leave -/

theorem xlateBoth_canonical {va n} (h : MemoryCanonical s) : Yields (fun r => MemoryCanonical r.2.2) (s.xlateBoth va n) := by
  unfold State.xlateBoth
  exact (xlate_canonical h).bind fun _ => xlate_canonical

theorem execFutRes_canonical {d a b} (h : MemoryCanonical s) : NextCanonical (execFutRes d a b s) := by
  unfold execFutRes
  refine run_canonical h ?_
  refine (checkAt_canonical h).check fun _ => ?_
  refine (xlateBoth_canonical h).bind fun _ h1 => ?_
  refine (check_canonical h1).check fun _ => ?_
  exact (release_canonical h1).check fun _ => launch_canonical (localFence_canonical h1)

theorem execFutReg_canonical {d a b} (h : MemoryCanonical s) : NextCanonical (execFutReg d a b s) := by
  unfold execFutReg
  refine run_canonical h ?_
  refine (checkAt_canonical h).check fun _ => ?_
  refine (checkAt_canonical h).check fun _ => ?_
  refine (xlateBoth_canonical h).bind fun _ h1 => ?_
  exact (xlateBoth_canonical h1).bind fun _ h2 => launch_canonical h2

theorem execFutRst_canonical {d a} (h : MemoryCanonical s) : NextCanonical (execFutRst d a s) := by
  unfold execFutRst
  refine run_canonical h ?_
  refine (checkAt_canonical h).check fun _ => ?_
  exact (xlateBoth_canonical h).bind fun _ h1 => launch_canonical h1

theorem execFutOn_canonical {a b c} (h : MemoryCanonical s) : NextCanonical (execFutOn a b c s) := by
  unfold execFutOn
  refine run_canonical h ?_
  refine (checkAt_canonical h).check fun _ => ?_
  refine (xlateBoth_canonical h).bind fun _ h1 => ?_
  refine (check_canonical h1).check fun _ => ?_
  exact (check_canonical h1).check fun _ => fireTriggers_canonical (onTile_canonical h1)

theorem execJoinDecrement_canonical (h : MemoryCanonical s) : NextCanonical (execJoinDecrement s) := by
  unfold execJoinDecrement event
  split
  · exact h
  · split
    · exact h
    · extract_lets _ _ _ gone
      have hg {s} (hs : MemoryCanonical s) : MemoryCanonical (gone s) := hs
      split
      · exact hg h
      · split
        · exact h
        · next e1 =>
          split
          next e2 =>
          have h1 := sliceRead_canonical (hg (idRoom_canonical h e1)) e2
          split
          · exact h1
          · extract_lets _ _ _ s2 _ _ _ s3
            have h2 : MemoryCanonical s2 := h1
            split
            · exact postFault_canonical h2
            · have h3 : MemoryCanonical s3 := writeBack_canonical h2
              split
              · exact h3
              · split
                · exact agentPush_canonical h3
                · exact queueRecord_canonical h3

/-! ### What the functions of `Sys2Proof.Machine.Links` leave -/

theorem sendFlits_canonical {l fs} (h : MemoryCanonical s) : MemoryCanonical (s.sendFlits l fs) := by
  unfold State.sendFlits
  split <;> exact h

theorem transmit_canonical {l} (h : MemoryCanonical s) : MemoryCanonical (s.transmit l) := by
  unfold State.transmit
  dsimp only
  split
  · exact h
  · split
    · exact h
    · exact sendFlits_canonical (modLink_canonical h)

theorem acceptFlit_canonical {l f} (h : MemoryCanonical s) : MemoryCanonical (s.acceptFlit l f) := h

theorem execFlit_canonical {l f} (h : MemoryCanonical s) : NextCanonical (execFlit l f s) := by
  unfold execFlit
  refine event_canonical ?_
  dsimp only
  split
  · exact h
  · split
    · exact acceptFlit_canonical h
    · exact h

theorem replay_canonical {l fs} (h : MemoryCanonical s) : MemoryCanonical (s.replay l fs) :=
  sendFlits_canonical (modLink_canonical h)

theorem execNak_canonical (h : MemoryCanonical s) : NextCanonical (execNak s) := by
  unfold execNak
  refine event_canonical ?_
  dsimp only
  split
  · exact h
  · exact replay_canonical h

theorem execReplayTimeout_canonical (h : MemoryCanonical s) : NextCanonical (execReplayTimeout s) := by
  unfold execReplayTimeout
  refine event_canonical ?_
  dsimp only
  split
  · exact h
  · exact replay_canonical h

theorem execLinkRetrain_canonical (h : MemoryCanonical s) : NextCanonical (execLinkRetrain s) := by
  unfold execLinkRetrain
  refine event_canonical ?_
  dsimp only
  split
  · exact h
  · exact modLink_canonical h

theorem execLinkRetrainComplete_canonical (h : MemoryCanonical s) : NextCanonical (execLinkRetrainComplete s) := by
  unfold execLinkRetrainComplete
  refine event_canonical ?_
  dsimp only
  split
  · exact h
  · exact sendFlits_canonical (modLink_canonical h)

theorem unreach_canonical (h : MemoryCanonical s) : MemoryCanonical s.unreach := h

theorem moveBeats_canonical {b} (h : MemoryCanonical s) : MemoryCanonical (s.moveBeats b) := by
  unfold State.moveBeats
  split
  · exact h
  · exact modLink_canonical h

theorem execLinkDown_canonical (h : MemoryCanonical s) : NextCanonical (execLinkDown s) := by
  unfold execLinkDown
  refine event_canonical ?_
  extract_lets _ _ s0 s1
  have h1 : MemoryCanonical s0 := modLink_canonical h
  have h2 : MemoryCanonical s1 := h1
  split
  · exact h
  · exact unreach_canonical (foldl_canonical (fun _ _ => moveBeats_canonical) h2)

theorem execTimeExchange_canonical (h : MemoryCanonical s) : NextCanonical (execTimeExchange s) := by
  unfold execTimeExchange
  refine event_canonical ?_
  extract_lets _ _ _ s1
  have h1 : MemoryCanonical s1 := modLink_canonical h
  clear_value s1
  split
  · exact h
  · split
    · exact h1
    · split <;> exact h1

theorem execSyncTimeout_canonical (h : MemoryCanonical s) : NextCanonical (execSyncTimeout s) := by
  unfold execSyncTimeout
  refine event_canonical ?_
  split <;> exact h

theorem elapse_canonical {cycles ns} (h : MemoryCanonical s) : MemoryCanonical (s.elapse cycles ns) := h

/-! ### What the functions of `Sys2Proof.Machine.Scalar` leave -/

theorem execSel_canonical {c d a b} (h : MemoryCanonical s) : NextCanonical (execSel c d a b s) := by
  unfold execSel
  refine run_canonical h ?_
  split
  · exact h
  · exact setReg_canonical h

theorem execCmov_canonical {c d a b} (h : MemoryCanonical s) : NextCanonical (execCmov c d a b s) := by
  unfold execCmov
  refine run_canonical h ?_
  split
  · exact h
  · split
    · exact setReg_canonical h
    · exact h

/-! ### What the functions of `Sys2Proof.Machine.Service` leave -/

theorem newJob_canonical {r op stage} (h : MemoryCanonical s) : MemoryCanonical (s.newJob r op stage) := h

theorem reply_canonical {r op status body} (h : MemoryCanonical s) : MemoryCanonical (s.reply r op status body) := h

theorem sendReply_canonical {vf conn} (h : MemoryCanonical s) : MemoryCanonical (s.sendReply vf conn) := by
  unfold State.sendReply
  split
  · exact h
  · split <;> exact h

theorem service_canonical {r op} {f : PaddockCfg → State → SvcEnd} (h : MemoryCanonical s)
    (hf : ∀ c t, MemoryCanonical t → (f c t).Canonical) : NextCanonical (service r op f s) := by
  unfold service event
  split
  · next c _ =>
    have hres := hf c s h
    split
    · exact h
    · split
      · exact reply_canonical h
      · split
        · exact reply_canonical h
        · split
          · next e1 => rw [e1] at hres; exact reply_canonical hres
          · next e1 => rw [e1] at hres; exact newJob_canonical hres
  · exact h

theorem unknownService_canonical {r op} (h : MemoryCanonical s) : NextCanonical (unknownService r op s) := by
  unfold unknownService
  split
  · exact h
  · exact service_canonical h fun _ _ h1 => h1

theorem tryBind_canonical {c r} (h : MemoryCanonical s) : (s.tryBind c r).Canonical := by
  have hb := bindEnd_canonical (c := c) (r := r) h
  unfold State.tryBind
  split
  · exact h
  · exact h
  · exact h
  · next e1 => rw [e1] at hb; exact hb

theorem execBind_canonical {r} (h : MemoryCanonical s) : NextCanonical (execBind r s) :=
  service_canonical h fun _ _ => tryBind_canonical

theorem unbindLater_canonical {l c} (h : MemoryCanonical s) : MemoryCanonical (s.unbindLater l c) := by
  unfold State.unbindLater
  split
  · exact modTile_canonical h
  · split
    · exact h
    · exact unbind_canonical h

theorem dropHandles_canonical (h : MemoryCanonical s) : MemoryCanonical s.dropHandles := h

theorem execUnbind_canonical {r} (h : MemoryCanonical s) : NextCanonical (execUnbind r s) := by
  unfold execUnbind
  refine service_canonical h fun _ _ h1 => ?_
  split
  · exact dropHandles_canonical (foldl_canonical (fun _ _ => unbindLater_canonical) h1)
  · exact h1

theorem injectAll_canonical {qcb ps} (h : MemoryCanonical s) : MemoryCanonical (s.injectAll qcb ps) := by
  induction ps generalizing s with
  | nil => exact h
  | cons p ps ih =>
    unfold State.injectAll
    split
    · exact h
    · exact ih (getD_canonical (fun _ e => agentPushNow_canonical h e) h)

theorem execInject_canonical {r} (h : MemoryCanonical s) : NextCanonical (execInject r s) := by
  unfold execInject
  refine service_canonical h fun _ _ h1 => ?_
  split
  · exact h1
  · split
    · exact h1
    · split
      · exact h1
      · split
        · exact h1
        · split
          · exact h1
          · exact injectAll_canonical h1

theorem execStatus_canonical {r} (h : MemoryCanonical s) : NextCanonical (execStatus r s) := by
  unfold execStatus
  refine service_canonical h fun _ _ h1 => ?_
  split <;> exact h1

theorem trySummary_canonical {c w} (h : MemoryCanonical s) : (s.trySummary c w).Canonical := by
  unfold State.trySummary
  dsimp only
  split <;> exact h

theorem execSummary_canonical {r} (h : MemoryCanonical s) : NextCanonical (execSummary r s) :=
  service_canonical h fun _ _ h1 => trySummary_canonical h1

theorem restoreChannels_canonical (h : MemoryCanonical s) : MemoryCanonical s.restoreChannels :=
  foldl_canonical (fun _ _ h1 => memEventAt_canonical (modChannel_canonical h1)) h

theorem reconfigure_canonical {new} (h : MemoryCanonical s) : MemoryCanonical (s.reconfigure new) :=
  restoreChannels_canonical (configure_canonical (foldl_canonical (fun _ _ => modTile_canonical) h))

theorem tryReconfig_canonical {recs} (h : MemoryCanonical s) : (s.tryReconfig recs).Canonical := by
  unfold State.tryReconfig
  split
  · exact h
  · split
    · exact h
    · exact reconfigure_canonical h

theorem execReconfig_canonical {r recs} (h : MemoryCanonical s) : NextCanonical (execReconfig r recs s) := by
  refine service_canonical h fun _ _ h1 => ?_
  split
  · exact h1
  · split
    · exact h1
    · exact tryReconfig_canonical h1

theorem tryExport_canonical {c sel arg} (h : MemoryCanonical s) : (s.tryExport c sel arg).Canonical := by
  unfold State.tryExport
  split
  · exact h
  · split
    · exact h
    · split
      · next e1 => exact exportBytes_canonical h e1
      · exact h

theorem execExportRequest_canonical {r arg records} (h : MemoryCanonical s) :
    NextCanonical (execExportRequest r arg records s) := by
  refine service_canonical h fun _ _ h1 => ?_
  split
  · exact h1
  · exact tryExport_canonical h1

theorem execImportRequest_canonical {r arg records} (h : MemoryCanonical s) :
    NextCanonical (execImportRequest r arg records s) := by
  unfold execImportRequest
  refine service_canonical h fun _ _ h1 => ?_
  split
  · exact h1
  · split
    · exact h1
    · split
      · next e1 => exact importBytes_canonical h1 e1
      · exact h1

theorem execAttestRequest_canonical {r nonce} (h : MemoryCanonical s) : NextCanonical (execAttestRequest r nonce s) := by
  unfold execAttestRequest
  refine service_canonical h fun _ _ h1 => ?_
  split <;> exact h1

theorem workOn_canonical {c w} (h : MemoryCanonical s) : (s.workOn c w).Canonical := by
  unfold State.workOn
  split
  · exact tryBind_canonical h
  · exact trySummary_canonical h
  · exact tryReconfig_canonical h
  · exact tryExport_canonical h

theorem answerJob_canonical {k j handles status body} (h : MemoryCanonical s) :
    MemoryCanonical (s.answerJob k j handles status body) := by
  unfold State.answerJob
  split <;> exact h

theorem serviceWork_canonical {k} (h : MemoryCanonical s) : MemoryCanonical (s.serviceWork k) := by
  unfold State.serviceWork
  split
  · exact h
  · split
    · exact h
    · exact answerJob_canonical h
    · next w c _ _ =>
      have hw := workOn_canonical (c := c) (w := w) h
      split
      · next e1 => rw [e1] at hw; exact answerJob_canonical hw
      · next e1 => rw [e1] at hw; exact hw

/-! ### What the functions of `Sys2Proof.Machine.Flags` leave -/

theorem setSysReg_canonical {r v} (h : MemoryCanonical s) : MemoryCanonical (s.setSysReg r v) := by
  unfold State.setSysReg
  split
  · exact onSt_canonical h
  · exact onSt_canonical h
  · exact onSt_canonical h
  · exact onSt_canonical h
  · exact onCx_canonical h
  · exact onCx_canonical h
  · exact onCx_canonical h
  · exact onCx_canonical h
  · exact onCx_canonical h
  · exact h

/-! ### What the functions of `Sys2Proof.Machine.System` leave -/

theorem unitWord_canonical {i join} (h : MemoryCanonical s) : NextCanonical (unitWord i s join) := by
  unfold unitWord
  split
  · exact takeTrap_canonical h
  · exact onSt_canonical h

theorem hintWord_canonical {i} (h : MemoryCanonical s) : NextCanonical (hintWord i s) := unitWord_canonical h

theorem execUnassignedEncoding_canonical {w} (h : MemoryCanonical s) : NextCanonical (execUnassignedEncoding w s) :=
  run_canonical h h

theorem hintAction_canonical (h : MemoryCanonical s) : MemoryCanonical s.hintAction := by
  unfold State.hintAction
  split
  · exact h
  · dsimp only
    split
    · split
      · next e1 => exact prefetchLines_canonical (translate_canonical (onSt_canonical h) e1)
      · next e1 => exact askWalk_canonical (translate_canonical (onSt_canonical h) e1)
      · exact onSt_canonical h
    · exact postRange_canonical (onSt_canonical h)
    · exact onSt_canonical h

theorem execSrd_canonical {d r} (h : MemoryCanonical s) : NextCanonical (execSrd d r s) := by
  unfold execSrd
  refine run_canonical h ?_
  split
  · exact h
  · dsimp only
    refine setReg_canonical ?_
    split
    · exact onCx_canonical h
    · exact h

theorem execSwr_canonical {r a} (h : MemoryCanonical s) : NextCanonical (execSwr r a s) := by
  unfold execSwr
  refine run_canonical h ?_
  split
  · exact h
  · split
    · exact h
    · exact setSysReg_canonical h

theorem execSwrLoopReg_canonical {r a} (h : MemoryCanonical s) : NextCanonical (execSwrLoopReg r a s) := by
  unfold execSwrLoopReg
  refine run_canonical h ?_
  split
  · exact h
  · dsimp only
    exact onSt_canonical h

theorem execSwrPhilox_canonical {r a} (h : MemoryCanonical s) : NextCanonical (execSwrPhilox r a s) := by
  unfold execSwrPhilox
  refine run_canonical h ?_
  split
  · exact h
  · split
    · exact h
    · exact onTile_canonical h

theorem setBank_canonical {n v} (h : MemoryCanonical s) : Yields MemoryCanonical (s.setBank n v) := by
  unfold State.setBank
  dsimp only
  split
  · exact h
  · split
    · exact h
    · exact onTile_canonical h

theorem execSwrBfmt_canonical {n a} (h : MemoryCanonical s) : NextCanonical (execSwrBfmt n a s) := by
  unfold execSwrBfmt
  refine run_canonical h ?_
  split
  · exact h
  · exact setBank_canonical h

theorem execBfmtSet_canonical {n a} (h : MemoryCanonical s) : NextCanonical (execBfmtSet n a s) :=
  run_canonical h (setBank_canonical h)

theorem execBfmtGet_canonical {d n} (h : MemoryCanonical s) : NextCanonical (execBfmtGet d n s) :=
  run_canonical h (setReg_canonical h)

theorem execTbrd_canonical {d} (h : MemoryCanonical s) : NextCanonical (execTbrd d s) := run_canonical h (setReg_canonical h)

theorem execTbrdSt_canonical {d} (h : MemoryCanonical s) : NextCanonical (execTbrdSt d s) := run_canonical h (setReg_canonical h)

theorem execWaitt_canonical {a} (h : MemoryCanonical s) : NextCanonical (execWaitt a s) := by
  unfold execWaitt
  refine run_canonical h ?_
  split <;> exact h

theorem execTrap_canonical {n} (h : MemoryCanonical s) : NextCanonical (execTrap n s) := by
  unfold execTrap
  refine run_canonical h ?_
  split
  · exact h
  · split
    · exact exitMonitor_canonical (setReg_canonical (enterMonitor_canonical h))
    · exact h

theorem execBrk_canonical {n} (h : MemoryCanonical s) : NextCanonical (execBrk n s) := run_canonical h h

theorem execEret_canonical (h : MemoryCanonical s) : NextCanonical (execEret s) := by
  unfold execEret
  refine run_canonical h ?_
  split
  · exact h
  · exact exitMonitor_canonical h

theorem execHalt_canonical (h : MemoryCanonical s) : NextCanonical (execHalt s) := by
  unfold execHalt
  refine run_canonical h ?_
  split
  · exact h
  · exact onTile_canonical h

theorem execWfi_canonical (h : MemoryCanonical s) : NextCanonical (execWfi s) := run_canonical h h

theorem endWait_canonical {k} (h : MemoryCanonical s) : NextCanonical (endWait k s) := by
  unfold endWait
  refine event_canonical ?_
  split
  · exact onTile_canonical (dropAskers_canonical h)
  · exact h

theorem execTimeWaitEnd_canonical (h : MemoryCanonical s) : NextCanonical (execTimeWaitEnd s) := by
  unfold execTimeWaitEnd
  refine event_canonical ?_
  split
  · split
    · exact onTile_canonical h
    · exact h
  · exact h

theorem execBudgetExpiry_canonical (h : MemoryCanonical s) : NextCanonical (execBudgetExpiry s) := by
  unfold execBudgetExpiry
  refine event_canonical ?_
  dsimp only
  split
  · exact h
  · exact onTile_canonical (dropAskers_canonical h)

theorem iflPages_canonical {va n fuel} (h : MemoryCanonical s) :
    Yields (fun r => MemoryCanonical r.2) (s.iflPages va n fuel) := by
  induction fuel generalizing s va n with
  | zero => exact h
  | succ fuel ih =>
    unfold State.iflPages
    split
    · exact h
    · exact (xlate_canonical h).bind fun _ h1 => (ih h1).bind fun _ h2 => h2

theorem dropCodeAt_canonical {rs g} (h : MemoryCanonical s) : MemoryCanonical (s.dropCodeAt rs g) := by
  unfold State.dropCodeAt
  split
  · exact modTile_canonical h
  · exact h

theorem dropIfl_canonical (h : MemoryCanonical s) : MemoryCanonical s.dropIfl := h

theorem startIfl_canonical {ts rs} (h : MemoryCanonical s) : Yields MemoryCanonical (s.startIfl ts rs) := by
  unfold State.startIfl
  dsimp only
  split <;> exact foldl_canonical (fun _ _ => dropCodeAt_canonical) (dropIfl_canonical h)

theorem execIfl_canonical {a b n} (h : MemoryCanonical s) : NextCanonical (execIfl a b n s) := by
  unfold execIfl
  refine run_canonical h ?_
  split
  · split
    · exact dropIfl_canonical h
    · exact h
  · dsimp only
    refine (check_canonical h).check fun _ => ?_
    refine (check_canonical h).check fun _ => ?_
    refine (checkAt_canonical h).check fun _ => ?_
    refine (check_canonical h).check fun _ => ?_
    refine (check_canonical h).check fun _ => ?_
    exact (iflPages_canonical h).bind fun _ h1 => startIfl_canonical h1

theorem passPoint_canonical {k} (h : MemoryCanonical s) : MemoryCanonical (s.passPoint k) := by
  unfold State.passPoint
  split
  · exact h
  · dsimp only
    exact foldl_canonical (fun _ _ => dropCodeAt_canonical) h

theorem execTlbinv_canonical {a b} (h : MemoryCanonical s) : NextCanonical (execTlbinv a b s) := by
  unfold execTlbinv
  refine run_canonical h ?_
  refine (check_canonical h).check fun _ => ?_
  refine (checkAt_canonical h).check fun _ => ?_
  refine (check_canonical h).check fun _ => ?_
  split <;> exact invalidate_canonical h

theorem setLost_canonical {p n} (h : MemoryCanonical s) : MemoryCanonical (s.setLost p n) := h

theorem execFaultRecordPlaced_canonical (h : MemoryCanonical s) : NextCanonical (execFaultRecordPlaced s) := by
  unfold execFaultRecordPlaced event
  split
  · exact h
  · extract_lets _ rest
    have h1 : MemoryCanonical rest := h
    split
    · exact h
    · split
      · next e1 =>
        obtain ⟨q, -, e2⟩ := Option.bind_eq_some_iff.mp e1
        have h2 := agentPushNow_canonical h1 e2
        split
        · exact setLost_canonical h2
        · exact h2
      · split
        · exact setLost_canonical h1
        · exact h

/-! ### What the functions of `Sys2Proof.Machine.Dispatch` leave -/

theorem exec_canonical {i} (h : MemoryCanonical s) : NextCanonical (exec i s) := by
  unfold exec
  cases i with
  | add | sub | mul | mulhI | mulhN | divI | divN | remI | remN | and | or | xor | andn | shl | shrN | shrI | rotr | sltI | sltN
  | seq | minI | maxI | minN | maxN | addsI | subsI | addsc1 | addsc2 | addsc3 => exact scalarOp_canonical h
  | clz | ctz | pop | sextI8 | sextI16 | sextI32 | zextN8 | zextN16 | zextN32 | bswap => exact scalarUn_canonical h
  | addi | andi | ori | xori | slti | sltni | addhi => exact scalarImm_canonical h
  | shli | shriN | shriI => exact scalarShift_canonical h
  | ldN => exact scalarLoad_canonical h
  | ldI => exact execLdI_canonical h
  | st => exact execSt_canonical h
  | stK => exact execStK_canonical h
  | vld => exact execVld_canonical h
  | vldM => exact execVldM_canonical h
  | vldG32 | vldG64 => exact gather_canonical h
  | vldCvtF32 | vldCvtF64 => exact decodedLoad_canonical h
  | vst => exact execVst_canonical h
  | vstM => exact execVstM_canonical h
  | vstS32 | vstS64 => exact scatter_canonical h
  | mrqRd => exact execMrqRd_canonical h
  | mrqWr => exact execMrqWr_canonical h
  | mrqWrm => exact execMrqWrm_canonical h
  | mrqWait => exact execMrqWait_canonical h
  | mrqPoll => exact execMrqPoll_canonical h
  | beq | bne | blt | bge | bltn | bgen => exact condBranch_canonical h
  | jmp => exact execJmp_canonical h
  | jmpr => exact execJmpr_canonical h
  | loop => exact execLoop_canonical h
  | loopi => exact execLoopi_canonical h
  | sel => exact execSel_canonical h
  | cmov => exact execCmov_canonical h
  | vaddFp | vsubFp | vmulFp | vfma | vfms | vdiv | vsqrt | vminFp | vmaxFp | vabsFp | vnegFp | vrcp | vrsq =>
    exact fpOp_canonical h
  | vaddInt | vsubInt | vadds | vsubs | vmulInt | vmulh | vminInt | vmaxInt | vand | vor | vxor | vshl | vshr | vabsInt =>
    exact intOp_canonical h
  | vcmpEq | vcmpNe | vcmpLt | vcmpLe | vcmpUn => exact compareOp_canonical h
  | vcvt => exact execVcvt_canonical h
  | vlog2 => exact execVlog2_canonical h
  | vexp2 => exact execVexp2_canonical h
  | vrand | vrandF32 => exact randomOp_canonical h
  | vsum => exact execVsum_canonical h
  | vmaxi | vmini => exact extremeOp_canonical h
  | vperm | vrot | vbcast32 | vbcast64 | vlane | vmov32 | vmov64 => exact moveOp_canonical h
  | vins32 => exact execVins32_canonical h
  | vext32 => exact execVext32_canonical h
  | vsel32 | vsel64 => exact selectOp_canonical h
  | vins64 => exact execVins64_canonical h
  | vext64 => exact execVext64_canonical h
  | kand | kor | kxor | kandn => exact maskOp_canonical h
  | kset => exact execKset_canonical h
  | kget | kpop | kffs => exact maskNum_canonical h
  | mma | mmaZ | mmaT | mmaTZ => exact mmaOp_canonical h
  | accZero => exact execAccZero_canonical h
  | accLd => exact execAccLd_canonical h
  | accSt => exact execAccSt_canonical h
  | accCvt => exact execAccCvt_canonical h
  | sqQuant => exact execSqQuant_canonical h
  | sqDeq => exact execSqDeq_canonical h
  | sqAlign => exact execSqAlign_canonical h
  | sqScale => exact execSqScale_canonical h
  | bfmtSet => exact execBfmtSet_canonical h
  | bfmtGet => exact execBfmtGet_canonical h
  | cp => exact execCp_canonical h
  | cpZ => exact execCpZ_canonical h
  | cpPf => exact execCpPf_canonical h
  | cp2 => exact execCp2_canonical h
  | cpSq | cpSqt => exact squareCopy_canonical h
  | cpFill => exact execCpFill_canonical h
  | cpWait => exact execCpWait_canonical h
  | cpWaitq => exact execCpWaitq_canonical h
  | cpRdc => exact execCpRdc_canonical h
  | amoAdd | amoAnd | amoOr | amoXor | amoSwap | amoMin | amoMax | amoMinn | amoMaxn | amoCas | amoFadd =>
    exact globalAtomic_canonical h
  | lamoAdd | lamoAnd | lamoOr | lamoXor | lamoSwap | lamoMin | lamoMax | lamoMinn | lamoMaxn | lamoCas | lamoFadd =>
    exact localAtomic_canonical h
  | futRes => exact execFutRes_canonical h
  | futReg => exact execFutReg_canonical h
  | futOn => exact execFutOn_canonical h
  | futRst => exact execFutRst_canonical h
  | barArr => exact execBarArr_canonical h
  | barWait => exact execBarWait_canonical h
  | barPoll => exact execBarPoll_canonical h
  | barJoin => exact execBarJoin_canonical h
  | barLeave => exact execBarLeave_canonical h
  | barCfg => exact execBarCfg_canonical h
  | fence => exact execFence_canonical h
  | qpush | qpushAt | qmark | qmarkF => exact pushForm_canonical h
  | qpop => exact execQpop_canonical h
  | qpopm => exact execQpopm_canonical h
  | qpeek => exact execQpeek_canonical h
  | qstat => exact execQstat_canonical h
  | amSend => exact execAmSend_canonical h
  | amReply => exact execAmReply_canonical h
  | amStat => exact execAmStat_canonical h
  | shTag => exact execShTag_canonical h
  | shChk => exact execShChk_canonical h
  | shRed => exact execShRed_canonical h
  | shAck => exact execShAck_canonical h
  | shRel => exact execShRel_canonical h
  | trap => exact execTrap_canonical h
  | brk => exact execBrk_canonical h
  | srd => exact execSrd_canonical h
  | swr => exact execSwr_canonical h
  | swrBfmt => exact execSwrBfmt_canonical h
  | swrLoopReg => exact execSwrLoopReg_canonical h
  | swrPhilox => exact execSwrPhilox_canonical h
  | ifl => exact execIfl_canonical h
  | tlbinv => exact execTlbinv_canonical h
  | tbrd => exact execTbrd_canonical h
  | tbrdSt => exact execTbrdSt_canonical h
  | waitt => exact execWaitt_canonical h
  | hintBr | hintPf | hintPg | hintBank | hintNop => exact hintWord_canonical h
  | ximm => exact unitWord_canonical h
  | flit => exact execFlit_canonical h
  | notify => exact execNotify_canonical h
  | bind => exact execBind_canonical h
  | unbind => exact execUnbind_canonical h
  | inject => exact execInject_canonical h
  | status => exact execStatus_canonical h
  | summary => exact execSummary_canonical h
  | reconfig => exact execReconfig_canonical h
  | exportRequest => exact execExportRequest_canonical h
  | importRequest => exact execImportRequest_canonical h
  | attestRequest => exact execAttestRequest_canonical h
  | packageReset => exact execPackageReset_canonical
  | unassignedEncoding => exact execUnassignedEncoding_canonical h
  | commit | yield => exact commitForm_canonical h
  | abort => exact execAbort_canonical h
  | amEnd => exact execAmEnd_canonical h
  | eret => exact execEret_canonical h
  | wfi => exact execWfi_canonical h
  | halt => exact execHalt_canonical h
  | info => exact execInfo_canonical h
  | ctxPark => exact execCtxPark_canonical h
  | ctxResume => exact execCtxResume_canonical h
  | ctxKill => exact execCtxKill_canonical h
  | quarantine => exact execQuarantine_canonical h
  | regionSet => exact execRegionSet_canonical h
  | keyLoad => exact execKeyLoad_canonical h
  | keyClear => exact execKeyClear_canonical h
  | routeSet => exact execRouteSet_canonical h
  | routeClear => exact execRouteClear_canonical h
  | vqBind => exact execVqBind_canonical h
  | exportCall => exact execExportCall_canonical h
  | importCall => exact execImportCall_canonical h
  | attest => exact execAttest_canonical h
  | mrqReplyArrival => exact execMrqReplyArrival_canonical h
  | thresherStep => exact execThresherStep_canonical h
  | thresherStop => exact execThresherStop_canonical h
  | thresherCommandComplete => exact execThresherCommandComplete_canonical h
  | tailFault => exact execTailFault_canonical h
  | wainCommandStart => exact execWainCommandStart_canonical h
  | wainTransfer => exact execWainTransfer_canonical h
  | wainCommandComplete => exact execWainCommandComplete_canonical h
  | atomicAtHomeSlice => exact execAtomicAtHomeSlice_canonical h
  | globalAtomicReply => exact execGlobalAtomicReply_canonical h
  | asyncAtomicFault => exact execAsyncAtomicFault_canonical h
  | atomicReplay => exact execAtomicReplay_canonical h
  | atomicGiveUp => exact execAtomicGiveUp_canonical h
  | joinDecrement => exact execJoinDecrement_canonical h
  | barrierTimeout => exact execBarrierTimeout_canonical h
  | shRedDeparture => exact execShRedDeparture_canonical h
  | memoryWaitEnd | engineWaitEnd | queueWaitEnd => exact endWait_canonical h
  | timeWaitEnd => exact execTimeWaitEnd_canonical h
  | faultRecordPlaced => exact execFaultRecordPlaced_canonical h
  | budgetExpiry => exact execBudgetExpiry_canonical h
  | remap => exact execRemap_canonical h
  | rd => exact execRd_canonical h
  | wr => exact execWr_canonical h
  | wrm => exact execWrm_canonical h
  | sqrd => exact execSqrd_canonical h
  | sqwr => exact execSqwr_canonical h
  | atomwb => exact execAtomwb_canonical h
  | walk => exact execWalk_canonical h
  | pdelta => exact execPdelta_canonical h
  | memoryEventForward => exact execMemoryEventForward_canonical h
  | scrub => exact execScrub_canonical h
  | channelStateChange => exact execChannelStateChange_canonical h
  | homeSliceRead => exact execHomeSliceRead_canonical h
  | homeSliceWrite => exact execHomeSliceWrite_canonical h
  | baseDieReply => exact execBaseDieReply_canonical h
  | pageEventOpen => exact execPageEventOpen_canonical h
  | pageEventTimeout => exact execPageEventTimeout_canonical h
  | pageResume => exact execPageResume_canonical h
  | agentPushRetry => exact execAgentPushRetry_canonical h
  | switchArrival => exact execSwitchArrival_canonical h
  | reductionEmit => exact execReductionEmit_canonical h
  | redtimeout => exact execRedtimeout_canonical h
  | messageArrival => exact execMessageArrival_canonical h
  | handlerStart => exact execHandlerStart_canonical h
  | acceptance => exact execAcceptance_canonical h
  | refusal => exact execRefusal_canonical h
  | messageResend => exact execMessageResend_canonical h
  | reject => exact execReject_canonical h
  | remoteStore => exact execRemoteStore_canonical h
  | remoteLoad => exact execRemoteLoad_canonical h
  | loadReply => exact execLoadReply_canonical h
  | remoteAtomic => exact execRemoteAtomic_canonical h
  | atomicReply => exact execAtomicReply_canonical h
  | sheafResend => exact execSheafResend_canonical h
  | ackDelivery => exact execAckDelivery_canonical h
  | nak => exact execNak_canonical h
  | replayTimeout => exact execReplayTimeout_canonical h
  | linkRetrain => exact execLinkRetrain_canonical h
  | linkDown => exact execLinkDown_canonical h
  | timeExchange => exact execTimeExchange_canonical h
  | syncTimeout => exact execSyncTimeout_canonical h
  | itemArrival => exact execItemArrival_canonical h
  | bindMarkerArrival => exact execBindMarkerArrival_canonical h
  | nbtReached => exact execNbtReached_canonical h
  | creditReturn => exact execCreditReturn_canonical h
  | schedulerBoundary => exact execSchedulerBoundary_canonical h
  | fallowSteps => exact execFallowSteps_canonical h
  | virtqueueCompletion => exact execVirtqueueCompletion_canonical h
  | flr => exact execFlr_canonical h
  | flrComplete => exact execFlrComplete_canonical h
  | deviceReset => exact execDeviceReset_canonical h
  | featuresOk => exact execFeaturesOk_canonical h
  | ioDieFailover => exact execIoDieFailover_canonical h
  | droop => exact execDroop_canonical h
  | powerCap => exact execPowerCap_canonical h
  | thermalLimit => exact execThermalLimit_canonical h
  | itemRefusal => exact execItemRefusal_canonical h
  | linkRetrainComplete => exact execLinkRetrainComplete_canonical h
  | droopRecovery => exact execDroopRecovery_canonical h
  | parityAck => exact execParityAck_canonical h
  | driverOk => exact execDriverOk_canonical h
  | atomicEntryExpiry => exact execAtomicEntryExpiry_canonical h

/-! ### What the functions of `Sys2Proof.Machine.Fetch` leave -/

theorem fetchPhys_canonical {pa key} (h : MemoryCanonical s) : (s.fetchPhys pa key).Canonical := by
  unfold State.fetchPhys
  split
  · split <;> exact h
  · split
    · exact h
    · split
      · next e1 =>
        have h1 := sliceRead_canonical h e1
        split
        · exact h1
        · dsimp only
          exact onTile_canonical h1

theorem fetch_canonical (h : MemoryCanonical s) : s.fetch.Canonical := by
  unfold State.fetch
  dsimp only
  split
  · exact h
  · split
    · next e => exact fetchPhys_canonical (translate_canonical h e)
    · next e => exact translate_canonical h e
    · next e => exact waitPage_canonical (translate_canonical h e)
    · next e => exact askWalk_canonical (translate_canonical h e)

theorem issueWord_canonical {w} (h : MemoryCanonical s) : NextCanonical (s.issueWord w) := by
  have hh {b : Bool} : MemoryCanonical (if b = true then s.hintAction else s) := by
    split
    · exact hintAction_canonical h
    · exact h
  unfold State.issueWord
  exact exec_canonical hh

theorem issue_canonical {st} (h : MemoryCanonical s) : NextCanonical (s.issue st) := by
  unfold State.issue
  have h1 {f} : MemoryCanonical (s.onTile f) := onTile_canonical h
  extract_lets s0
  have hf : s0.fetch.Canonical := fetch_canonical h1
  split
  · exact raiseAsync_canonical h1
  · split
    · next e1 => rw [e1] at hf; exact issueWord_canonical hf
    · next e1 => rw [e1] at hf; exact takeTrap_canonical hf
    · next e1 => rw [e1] at hf; exact onSt_canonical hf
    · next e1 => rw [e1] at hf; exact onSt_canonical hf

theorem happen_canonical {l e inp} (h : MemoryCanonical s) : NextCanonical (s.happen l e inp) := by
  unfold State.happen
  split
  · trivial
  · split
    · trivial
    · exact exec_canonical (s := { s.switchTo l with input := inp }) (switchTo_canonical h)

theorem turnOf_canonical {l st} (h : MemoryCanonical s) : NextCanonical (s.turnOf l st) := by
  unfold State.turnOf
  split
  · trivial
  · dsimp only
    split
    · exact issue_canonical (switchTo_canonical h)
    · exact switchTo_canonical h

theorem onLtn_canonical {l f} (h : MemoryCanonical s) : NextCanonical (s.onLtn l f) := by
  unfold State.onLtn
  split
  · trivial
  · exact modTile_canonical h

theorem upsetGranule_canonical {g soft} (h : MemoryCanonical s) : MemoryCanonical (s.upsetGranule g soft) := by
  unfold State.upsetGranule
  split
  · exact h
  · split
    · split <;> exact h
    · split <;> exact h

theorem upsetParity_canonical {g soft} (h : MemoryCanonical s) : MemoryCanonical (s.upsetParity g soft) := by
  unfold State.upsetParity
  split
  · exact h
  · split <;> exact h

theorem turn_canonical {a} (h : MemoryCanonical s) : NextCanonical (s.turn a) := by
  unfold State.turn
  split
  · exact turnOf_canonical h
  · exact happen_canonical h
  · exact giveUpDue_canonical (elapse_canonical h)
  · exact h
  · exact onLtn_canonical h
  · exact onLtn_canonical h
  · exact h
  · exact upsetGranule_canonical h
  · exact upsetParity_canonical h
  · exact onLtn_canonical h
  · exact onLtn_canonical h
  · exact onLtn_canonical h
  · split <;> exact h
  · split
    · exact transmit_canonical h
    · exact h
  · exact sendReply_canonical h
  · exact unknownService_canonical h
  · exact serviceWork_canonical h
  · exact barWrite_canonical h
  · exact available_canonical h
  · exact passPoint_canonical h
  · exact onLtn_canonical h
  · exact acceptedAbroad_canonical h
  · exact applyBar_canonical h
  · exact resendBar_canonical h

/-! ### What the functions of `Sys2Proof.Machine.Step` leave -/

theorem step_canonical (h : MemoryCanonical s) : NextCanonical (step s) := by
  unfold step
  split
  · exact turn_canonical h
  · split
    · exact issue_canonical h
    · exact h

end

/-! ### The obligation -/

/-- Settles O59: what a turn leaves is in canonical form, whatever the turn, word by word and event by event. -/
theorem stepKeepsMemoryCanonical : Obligations.StepKeepsMemoryCanonical := by
  intro s s' h e
  have hs := step_canonical h
  rw [e] at hs
  exact hs

end Sys2Proof.Machine
end

section

/-! 02 R31-R34: the encoder and the decoder agree. The word of a well-formed instruction decodes to it; a word that decodes is the word
of its instruction. -/

namespace Sys2Proof.Laws

/-! ### From an instruction to its word and back -/

/-- Every instruction round-trips: one that has a word by the lemma about that word, an event because it has none. -/
theorem roundTrip (i : Instr) : RoundTrip.Statement i := by
  cases i with
  | add d a b => exact RoundTrip.add d a b
  | sub d a b => exact RoundTrip.sub d a b
  | mul d a b => exact RoundTrip.mul d a b
  | mulhI d a b => exact RoundTrip.mulhI d a b
  | mulhN d a b => exact RoundTrip.mulhN d a b
  | divI d a b => exact RoundTrip.divI d a b
  | divN d a b => exact RoundTrip.divN d a b
  | remI d a b => exact RoundTrip.remI d a b
  | remN d a b => exact RoundTrip.remN d a b
  | and d a b => exact RoundTrip.and d a b
  | or d a b => exact RoundTrip.or d a b
  | xor d a b => exact RoundTrip.xor d a b
  | andn d a b => exact RoundTrip.andn d a b
  | shl d a b => exact RoundTrip.shl d a b
  | shrN d a b => exact RoundTrip.shrN d a b
  | shrI d a b => exact RoundTrip.shrI d a b
  | rotr d a b => exact RoundTrip.rotr d a b
  | sltI d a b => exact RoundTrip.sltI d a b
  | sltN d a b => exact RoundTrip.sltN d a b
  | seq d a b => exact RoundTrip.seq d a b
  | minI d a b => exact RoundTrip.minI d a b
  | maxI d a b => exact RoundTrip.maxI d a b
  | minN d a b => exact RoundTrip.minN d a b
  | maxN d a b => exact RoundTrip.maxN d a b
  | addsI d a b => exact RoundTrip.addsI d a b
  | subsI d a b => exact RoundTrip.subsI d a b
  | clz d a => exact RoundTrip.clz d a
  | ctz d a => exact RoundTrip.ctz d a
  | pop d a => exact RoundTrip.pop d a
  | sextI8 d a => exact RoundTrip.sextI8 d a
  | sextI16 d a => exact RoundTrip.sextI16 d a
  | sextI32 d a => exact RoundTrip.sextI32 d a
  | zextN8 d a => exact RoundTrip.zextN8 d a
  | zextN16 d a => exact RoundTrip.zextN16 d a
  | zextN32 d a => exact RoundTrip.zextN32 d a
  | bswap d a => exact RoundTrip.bswap d a
  | addsc1 d a b => exact RoundTrip.addsc1 d a b
  | addsc2 d a b => exact RoundTrip.addsc2 d a b
  | addsc3 d a b => exact RoundTrip.addsc3 d a b
  | addi d a i => exact RoundTrip.addi d a i
  | andi d a i => exact RoundTrip.andi d a i
  | ori d a i => exact RoundTrip.ori d a i
  | xori d a i => exact RoundTrip.xori d a i
  | slti d a i => exact RoundTrip.slti d a i
  | sltni d a i => exact RoundTrip.sltni d a i
  | shli d a i => exact RoundTrip.shli d a i
  | shriN d a i => exact RoundTrip.shriN d a i
  | shriI d a i => exact RoundTrip.shriI d a i
  | addhi d a i => exact RoundTrip.addhi d a i
  | ldN sz d base off => exact RoundTrip.ldN sz d base off
  | ldI sz d base off => exact RoundTrip.ldI sz d base off
  | st sz d base off => exact RoundTrip.st sz d base off
  | stK sz d base off => exact RoundTrip.stK sz d base off
  | vld d base off => exact RoundTrip.vld d base off
  | vldM d base off m => exact RoundTrip.vldM d base off m
  | vldG32 d base idx m sc => exact RoundTrip.vldG32 d base idx m sc
  | vldG64 d base idx m sc => exact RoundTrip.vldG64 d base idx m sc
  | vldCvtF32 d base off => exact RoundTrip.vldCvtF32 d base off
  | vldCvtF64 d base off => exact RoundTrip.vldCvtF64 d base off
  | vst d base off => exact RoundTrip.vst d base off
  | vstM d base off m => exact RoundTrip.vstM d base off m
  | vstS32 d base idx m sc => exact RoundTrip.vstS32 d base idx m sc
  | vstS64 d base idx m sc => exact RoundTrip.vstS64 d base idx m sc
  | mrqRd sz t a d off => exact RoundTrip.mrqRd sz t a d off
  | mrqWr sz t a d off => exact RoundTrip.mrqWr sz t a d off
  | mrqWrm t a d mask => exact RoundTrip.mrqWrm t a d mask
  | mrqWait d t => exact RoundTrip.mrqWait d t
  | mrqPoll d t => exact RoundTrip.mrqPoll d t
  | beq a b off => exact RoundTrip.beq a b off
  | bne a b off => exact RoundTrip.bne a b off
  | blt a b off => exact RoundTrip.blt a b off
  | bge a b off => exact RoundTrip.bge a b off
  | bltn a b off => exact RoundTrip.bltn a b off
  | bgen a b off => exact RoundTrip.bgen a b off
  | jmp off => exact RoundTrip.jmp off
  | jmpr a i => exact RoundTrip.jmpr a i
  | loop lvl a len => exact RoundTrip.loop lvl a len
  | loopi lvl cnt len => exact RoundTrip.loopi lvl cnt len
  | sel c d a b => exact RoundTrip.sel c d a b
  | cmov c d a b => exact RoundTrip.cmov c d a b
  | vaddFp ty d a b k => exact RoundTrip.vaddFp ty d a b k
  | vsubFp ty d a b k => exact RoundTrip.vsubFp ty d a b k
  | vmulFp ty d a b k => exact RoundTrip.vmulFp ty d a b k
  | vfma ty d a b k => exact RoundTrip.vfma ty d a b k
  | vfms ty d a b k => exact RoundTrip.vfms ty d a b k
  | vdiv ty d a b k => exact RoundTrip.vdiv ty d a b k
  | vsqrt ty d a k => exact RoundTrip.vsqrt ty d a k
  | vminFp ty d a b k => exact RoundTrip.vminFp ty d a b k
  | vmaxFp ty d a b k => exact RoundTrip.vmaxFp ty d a b k
  | vabsFp ty d a k => exact RoundTrip.vabsFp ty d a k
  | vnegFp ty d a k => exact RoundTrip.vnegFp ty d a k
  | vrcp ty d a k => exact RoundTrip.vrcp ty d a k
  | vrsq ty d a k => exact RoundTrip.vrsq ty d a k
  | vaddInt es sg d a b k => exact RoundTrip.vaddInt es sg d a b k
  | vsubInt es sg d a b k => exact RoundTrip.vsubInt es sg d a b k
  | vadds es sg d a b k => exact RoundTrip.vadds es sg d a b k
  | vsubs es sg d a b k => exact RoundTrip.vsubs es sg d a b k
  | vmulInt es sg d a b k => exact RoundTrip.vmulInt es sg d a b k
  | vmulh es sg d a b k => exact RoundTrip.vmulh es sg d a b k
  | vminInt es sg d a b k => exact RoundTrip.vminInt es sg d a b k
  | vmaxInt es sg d a b k => exact RoundTrip.vmaxInt es sg d a b k
  | vand es sg d a b k => exact RoundTrip.vand es sg d a b k
  | vor es sg d a b k => exact RoundTrip.vor es sg d a b k
  | vxor es sg d a b k => exact RoundTrip.vxor es sg d a b k
  | vshl es sg d a b k => exact RoundTrip.vshl es sg d a b k
  | vshr es sg d a b k => exact RoundTrip.vshr es sg d a b k
  | vabsInt es d a k => exact RoundTrip.vabsInt es d a k
  | vcmpEq ty d a b k => exact RoundTrip.vcmpEq ty d a b k
  | vcmpNe ty d a b k => exact RoundTrip.vcmpNe ty d a b k
  | vcmpLt ty d a b k => exact RoundTrip.vcmpLt ty d a b k
  | vcmpLe ty d a b k => exact RoundTrip.vcmpLe ty d a b k
  | vcmpUn ty d a b k => exact RoundTrip.vcmpUn ty d a b k
  | vcvt g f d a => exact RoundTrip.vcvt g f d a
  | vlog2 d a k => exact RoundTrip.vlog2 d a k
  | vexp2 d a k => exact RoundTrip.vexp2 d a k
  | vrand d k => exact RoundTrip.vrand d k
  | vrandF32 d k => exact RoundTrip.vrandF32 d k
  | vsum ty d a k => exact RoundTrip.vsum ty d a k
  | vmaxi ty d a b k => exact RoundTrip.vmaxi ty d a b k
  | vmini ty d a b k => exact RoundTrip.vmini ty d a b k
  | vperm d a b k => exact RoundTrip.vperm d a b k
  | vrot d a b k => exact RoundTrip.vrot d a b k
  | vbcast32 d a k => exact RoundTrip.vbcast32 d a k
  | vbcast64 d a k => exact RoundTrip.vbcast64 d a k
  | vins32 d a n => exact RoundTrip.vins32 d a n
  | vext32 d a n => exact RoundTrip.vext32 d a n
  | vlane d k => exact RoundTrip.vlane d k
  | vsel32 d a b k => exact RoundTrip.vsel32 d a b k
  | vmov32 d a k => exact RoundTrip.vmov32 d a k
  | vins64 d a n => exact RoundTrip.vins64 d a n
  | vext64 d a n => exact RoundTrip.vext64 d a n
  | vsel64 d a b k => exact RoundTrip.vsel64 d a b k
  | vmov64 d a k => exact RoundTrip.vmov64 d a k
  | kand d a b => exact RoundTrip.kand d a b
  | kor d a b => exact RoundTrip.kor d a b
  | kxor d a b => exact RoundTrip.kxor d a b
  | kandn d a b => exact RoundTrip.kandn d a b
  | kset d a => exact RoundTrip.kset d a
  | kget d a => exact RoundTrip.kget d a
  | kpop d a => exact RoundTrip.kpop d a
  | kffs d a => exact RoundTrip.kffs d a
  | mma acc a b n c => exact RoundTrip.mma acc a b n c
  | mmaZ acc a b n c => exact RoundTrip.mmaZ acc a b n c
  | mmaT acc a b n c => exact RoundTrip.mmaT acc a b n c
  | mmaTZ acc a b n c => exact RoundTrip.mmaTZ acc a b n c
  | accZero acc n c => exact RoundTrip.accZero acc n c
  | accLd acc d c => exact RoundTrip.accLd acc d c
  | accSt d acc c => exact RoundTrip.accSt d acc c
  | accCvt f d acc c => exact RoundTrip.accCvt f d acc c
  | sqQuant f d acc a b c => exact RoundTrip.sqQuant f d acc a b c
  | sqDeq f acc d b c => exact RoundTrip.sqDeq f acc d b c
  | sqAlign d a b c => exact RoundTrip.sqAlign d a b c
  | sqScale d a b c => exact RoundTrip.sqScale d a b c
  | bfmtSet n a => exact RoundTrip.bfmtSet n a
  | bfmtGet d n => exact RoundTrip.bfmtGet d n
  | cp dl sl c d a b => exact RoundTrip.cp dl sl c d a b
  | cpZ dl c d b => exact RoundTrip.cpZ dl c d b
  | cpPf c a b => exact RoundTrip.cpPf c a b
  | cp2 dl sl c d a b => exact RoundTrip.cp2 dl sl c d a b
  | cpSq dl sl c d a b => exact RoundTrip.cpSq dl sl c d a b
  | cpSqt dl sl c d a b => exact RoundTrip.cpSqt dl sl c d a b
  | cpFill c d a b => exact RoundTrip.cpFill c d a b
  | cpWait c a => exact RoundTrip.cpWait c a
  | cpWaitq d c a => exact RoundTrip.cpWaitq d c a
  | cpRdc d c sel => exact RoundTrip.cpRdc d c sel
  | amoAdd w aq rl sc d a b => exact RoundTrip.amoAdd w aq rl sc d a b
  | amoAnd w aq rl sc d a b => exact RoundTrip.amoAnd w aq rl sc d a b
  | amoOr w aq rl sc d a b => exact RoundTrip.amoOr w aq rl sc d a b
  | amoXor w aq rl sc d a b => exact RoundTrip.amoXor w aq rl sc d a b
  | amoSwap w aq rl sc d a b => exact RoundTrip.amoSwap w aq rl sc d a b
  | amoMin w aq rl sc d a b => exact RoundTrip.amoMin w aq rl sc d a b
  | amoMax w aq rl sc d a b => exact RoundTrip.amoMax w aq rl sc d a b
  | amoMinn w aq rl sc d a b => exact RoundTrip.amoMinn w aq rl sc d a b
  | amoMaxn w aq rl sc d a b => exact RoundTrip.amoMaxn w aq rl sc d a b
  | amoCas w aq rl sc d a b => exact RoundTrip.amoCas w aq rl sc d a b
  | amoFadd w aq rl sc d a b => exact RoundTrip.amoFadd w aq rl sc d a b
  | lamoAdd w aq rl sc d a b => exact RoundTrip.lamoAdd w aq rl sc d a b
  | lamoAnd w aq rl sc d a b => exact RoundTrip.lamoAnd w aq rl sc d a b
  | lamoOr w aq rl sc d a b => exact RoundTrip.lamoOr w aq rl sc d a b
  | lamoXor w aq rl sc d a b => exact RoundTrip.lamoXor w aq rl sc d a b
  | lamoSwap w aq rl sc d a b => exact RoundTrip.lamoSwap w aq rl sc d a b
  | lamoMin w aq rl sc d a b => exact RoundTrip.lamoMin w aq rl sc d a b
  | lamoMax w aq rl sc d a b => exact RoundTrip.lamoMax w aq rl sc d a b
  | lamoMinn w aq rl sc d a b => exact RoundTrip.lamoMinn w aq rl sc d a b
  | lamoMaxn w aq rl sc d a b => exact RoundTrip.lamoMaxn w aq rl sc d a b
  | lamoCas w aq rl sc d a b => exact RoundTrip.lamoCas w aq rl sc d a b
  | lamoFadd w aq rl sc d a b => exact RoundTrip.lamoFadd w aq rl sc d a b
  | futRes d a b => exact RoundTrip.futRes d a b
  | futReg d a b => exact RoundTrip.futReg d a b
  | futOn a b c => exact RoundTrip.futOn a b c
  | futRst d a => exact RoundTrip.futRst d a
  | barArr d a => exact RoundTrip.barArr d a
  | barWait d a b => exact RoundTrip.barWait d a b
  | barPoll d a b => exact RoundTrip.barPoll d a b
  | barJoin a => exact RoundTrip.barJoin a
  | barLeave a => exact RoundTrip.barLeave a
  | barCfg a b => exact RoundTrip.barCfg a b
  | fence sc p q => exact RoundTrip.fence sc p q
  | qpush q a => exact RoundTrip.qpush q a
  | qpushAt q a b => exact RoundTrip.qpushAt q a b
  | qmark q => exact RoundTrip.qmark q
  | qmarkF q => exact RoundTrip.qmarkF q
  | qpop d q => exact RoundTrip.qpop d q
  | qpopm d q b => exact RoundTrip.qpopm d q b
  | qpeek d q => exact RoundTrip.qpeek d q
  | qstat d q sel => exact RoundTrip.qstat d q sel
  | amSend d a b => exact RoundTrip.amSend d a b
  | amReply a b => exact RoundTrip.amReply a b
  | amStat d sel => exact RoundTrip.amStat d sel
  | shTag d a b => exact RoundTrip.shTag d a b
  | shChk d a b => exact RoundTrip.shChk d a b
  | shRed a b => exact RoundTrip.shRed a b
  | shAck a b => exact RoundTrip.shAck a b
  | shRel d a b => exact RoundTrip.shRel d a b
  | trap n => exact RoundTrip.trap n
  | brk n => exact RoundTrip.brk n
  | srd d r => exact RoundTrip.srd d r
  | swr r a => exact RoundTrip.swr r a
  | swrBfmt n a => exact RoundTrip.swrBfmt n a
  | swrLoopReg r a => exact RoundTrip.swrLoopReg r a
  | swrPhilox r a => exact RoundTrip.swrPhilox r a
  | ifl a b n => exact RoundTrip.ifl a b n
  | tlbinv a b => exact RoundTrip.tlbinv a b
  | tbrd d => exact RoundTrip.tbrd d
  | tbrdSt d => exact RoundTrip.tbrdSt d
  | waitt a => exact RoundTrip.waitt a
  | hintBr lk => exact RoundTrip.hintBr lk
  | hintPf a off => exact RoundTrip.hintPf a off
  | hintPg a n => exact RoundTrip.hintPg a n
  | hintBank n => exact RoundTrip.hintBank n
  | ximm e => exact RoundTrip.ximm e
  | commit => exact RoundTrip.commit
  | abort => exact RoundTrip.abort
  | yield => exact RoundTrip.yield
  | amEnd => exact RoundTrip.amEnd
  | eret => exact RoundTrip.eret
  | wfi => exact RoundTrip.wfi
  | halt => exact RoundTrip.halt
  | info => exact RoundTrip.info
  | ctxPark => exact RoundTrip.ctxPark
  | ctxResume => exact RoundTrip.ctxResume
  | ctxKill => exact RoundTrip.ctxKill
  | quarantine => exact RoundTrip.quarantine
  | regionSet => exact RoundTrip.regionSet
  | keyLoad => exact RoundTrip.keyLoad
  | keyClear => exact RoundTrip.keyClear
  | routeSet => exact RoundTrip.routeSet
  | routeClear => exact RoundTrip.routeClear
  | vqBind => exact RoundTrip.vqBind
  | exportCall => exact RoundTrip.exportCall
  | importCall => exact RoundTrip.importCall
  | attest => exact RoundTrip.attest
  | hintNop => exact RoundTrip.hintNop
  | _ => intro w _ h; cases h

/-- Settles O1: every constructor round-trips. -/
theorem decodeOfEncode : Obligations.DecodeOfEncode := roundTrip

/-! ### From a word to its instruction and back: a word is built of its fields (02 R31, R32) -/

/-- A number is its upper part and its lower part. -/
theorem append_low {m n : Nat} {x : BitVec (m + n)} {u : BitVec m} (h : x.extractLsb' n m = u) : u ++ x.extractLsb' 0 n = x := by
  rw [← h, BitVec.extractLsb'_append_extractLsb'_eq_extractLsb' (Nat.zero_add n).symm, BitVec.extractLsb'_eq_self]

/-- Two fields that lie side by side are one. -/
theorem sBits_append {l : BitVec 11} {i j m n : Nat} (h : j = i + m) : sBits l j n ++ sBits l i m = sBits l i (n + m) :=
  BitVec.extractLsb'_append_extractLsb'_eq_extractLsb' h

section
variable {w : IWord} {m : BitVec 6} (h : (fMaj w).toNat = m.toNat)
include h

theorem wReg_fields : wReg m (fD w) (fA w) (fB w) (fLo w) = w := by
  obtain rfl := BitVec.eq_of_toNat_eq h
  simp (disch := decide) only [wReg, fMaj, fD, fA, fB, fLo, BitVec.extractLsb'_append_extractLsb'_eq_extractLsb']
  exact BitVec.extractLsb'_eq_self

theorem wImm_fields : wImm m (fD w) (fA w) (fImm16 w) = w := by
  obtain rfl := BitVec.eq_of_toNat_eq h
  simp (disch := decide) only [wImm, fMaj, fD, fA, fImm16, BitVec.extractLsb'_append_extractLsb'_eq_extractLsb']
  exact BitVec.extractLsb'_eq_self

theorem wMem_fields : wMem m (fD w) (fA w) (fMemImm w) (fSf w) = w := by
  obtain rfl := BitVec.eq_of_toNat_eq h
  simp (disch := decide) only [wMem, fMaj, fD, fA, fMemImm, fSf, BitVec.extractLsb'_append_extractLsb'_eq_extractLsb']
  exact BitVec.extractLsb'_eq_self

theorem wJmp_fields : wJmp m (fOff26 w) = w := by
  obtain rfl := BitVec.eq_of_toNat_eq h
  simp (disch := decide) only [wJmp, fMaj, fOff26, BitVec.extractLsb'_append_extractLsb'_eq_extractLsb']
  exact BitVec.extractLsb'_eq_self

theorem wTrap_fields (hd : fD w = 0#5) : wTrap m (fTrapN w) (fLo w) = w := by
  obtain rfl := BitVec.eq_of_toNat_eq h
  rw [wTrap, ← hd]
  simp (disch := decide) only [fMaj, fD, fTrapN, fLo, BitVec.extractLsb'_append_extractLsb'_eq_extractLsb']
  exact BitVec.extractLsb'_eq_self

end

theorem wLoopi_fields {w : IWord} (h : (fMaj w).toNat = 0x14) (h25 : fBit25 w = 1#1) : wLoopi (fBit24 w) (fCnt13 w) (fLo w) = w := by
  rw [wLoopi, ← h25, ← BitVec.eq_of_toNat_eq (x := fMaj w) (y := 0x14#6) h]
  simp (disch := decide) only [fMaj, fBit25, fBit24, fCnt13, fLo, BitVec.extractLsb'_append_extractLsb'_eq_extractLsb']
  exact BitVec.extractLsb'_eq_self

/-! ### What a decoder answers -/

/-- An instruction that a decoder answers for a word is well-formed, and the word is its word. -/
def Faithful (x : Except Reject Instr) (w : IWord) : Prop := ∀ i, x = .ok i → encode i = some w ∧ wellFormed i = true

theorem Faithful.ok {i : Instr} {w : IWord} (he : encode i = some w) (hw : wellFormed i = true) : Faithful (.ok i) w := by
  rintro _ ⟨⟩
  exact ⟨he, hw⟩

theorem Faithful.error {r : Reject} {w : IWord} : Faithful (.error r) w := by
  rintro _ ⟨⟩

theorem Faithful.of_eq {x : Except Reject Instr} {v w : IWord} (h : Faithful x v) (e : v = w) : Faithful x w := e ▸ h

/-- What a condition lets through may use the condition. -/
theorem Faithful.need {c : Bool} {r : Reject} {x : Except Reject Instr} {w : IWord} (h : c = true → Faithful x w) :
    Faithful (need c r x) w := by
  unfold Sys2Proof.need
  split
  · next hc => exact h hc
  · exact .error

/-- A field that must be 0 is 0 in what follows. -/
theorem Faithful.zero {n : Nat} {z : BitVec n} {r : Reject} {x : Except Reject Instr} {w : IWord} (h : z = 0 → Faithful x w) :
    Faithful (Sys2Proof.need (z == 0) r x) w :=
  .need fun hc => h (eq_of_beq hc)

/-- A field with a given number is the literal of that number. -/
theorem eq_literal {n k : Nat} {x : BitVec n} (h : x.toNat = k) : x = BitVec.ofNat n k := (BitVec.toNat_eq_nat.1 h).2

/-! ### A packed field is built of its parts -/

theorem exists_r3 {x : BitVec 5} (h : is3 x = true) : ∃ y, x = r3 y := by
  revert x
  decide

theorem exists_r4 {x : BitVec 5} (h : is4 x = true) : ∃ y, x = r4 y := by
  revert x
  decide

theorem exists_sfLd {sf : BitVec 5} (h : sf.toNat < 8) : ∃ x sz, sf = sfLd x sz := by
  revert sf
  decide

theorem exists_dLoop {d : BitVec 5} (h : d.extractLsb' 0 3 = 0) : ∃ op lvl, d = dLoop op lvl := by
  revert d
  decide

/-- A byte is its two halves. -/
theorem exists_halves (f : BitVec 8) : ∃ g h : BitVec 4, f = g ++ h :=
  ⟨_, _, (append_low (m := 4) (n := 4) rfl).symm⟩

theorem exists_sysImm (i : BitVec 16) : ∃ hi r, i = sysImm hi r :=
  ⟨_, _, (append_low (m := 4) (n := 12) rfl).symm⟩

theorem exists_loK (l : BitVec 11) : ∃ k f, l = loK k f :=
  ⟨sBits l 8 3, sBits l 0 8, by
    simp (disch := decide) only [loK, sBits_append]
    exact BitVec.extractLsb'_eq_self.symm⟩

theorem exists_loM (l : BitVec 11) : ∃ op sz i, l = loM op sz i :=
  ⟨sBits l 8 3, sBits l 6 2, sBits l 0 6, by
    simp (disch := decide) only [loM, sBits_append]
    exact BitVec.extractLsb'_eq_self.symm⟩

theorem exists_loSel {l : BitVec 11} (h : sBits l 4 7 = 0#7) : ∃ op c, l = loSel op c :=
  ⟨sBits l 3 1, sBits l 0 3, by
    rw [loSel, ← h]
    simp (disch := decide) only [sBits_append]
    exact BitVec.extractLsb'_eq_self.symm⟩

theorem exists_loVf {l : BitVec 11} (h : sBits l 5 2 = 0#2) : ∃ k ty op, l = loVf k ty op :=
  ⟨sBits l 8 3, sBits l 7 1, sBits l 0 5, by
    rw [loVf, ← h]
    simp (disch := decide) only [sBits_append]
    exact BitVec.extractLsb'_eq_self.symm⟩

theorem exists_loVi (l : BitVec 11) : ∃ k es sg op, l = loVi k es sg op :=
  ⟨sBits l 8 3, sBits l 6 2, sBits l 5 1, sBits l 0 5, by
    simp (disch := decide) only [loVi, sBits_append]
    exact BitVec.extractLsb'_eq_self.symm⟩

theorem exists_loVc {l : BitVec 11} (h : sBits l 3 2 = 0#2) : ∃ k ty c, l = loVc k ty c :=
  ⟨sBits l 8 3, sBits l 5 3, sBits l 0 3, by
    rw [loVc, ← h]
    simp (disch := decide) only [sBits_append]
    exact BitVec.extractLsb'_eq_self.symm⟩

theorem exists_loVs (l : BitVec 11) : ∃ k ty op, l = loVs k ty op :=
  ⟨sBits l 8 3, sBits l 5 3, sBits l 0 5, by
    simp (disch := decide) only [loVs, sBits_append]
    exact BitVec.extractLsb'_eq_self.symm⟩

theorem exists_loT (l : BitVec 11) : ∃ acc c z op, l = loT acc c z op :=
  ⟨sBits l 7 4, sBits l 5 2, sBits l 4 1, sBits l 0 4, by
    simp (disch := decide) only [loT, sBits_append]
    exact BitVec.extractLsb'_eq_self.symm⟩

theorem exists_loCp {l : BitVec 11} (h : sBits l 0 4 = 0#4) : ∃ c op dl sl, l = loCp c op dl sl :=
  ⟨sBits l 9 2, sBits l 6 3, sBits l 5 1, sBits l 4 1, by
    rw [loCp, ← h]
    simp (disch := decide) only [sBits_append]
    exact BitVec.extractLsb'_eq_self.symm⟩

theorem exists_loCc {l : BitVec 11} (h : sBits l 2 4 = 0#4) : ∃ c op sel, l = loCc c op sel :=
  ⟨sBits l 9 2, sBits l 6 3, sBits l 0 2, by
    rw [loCc, ← h]
    simp (disch := decide) only [sBits_append]
    exact BitVec.extractLsb'_eq_self.symm⟩

theorem exists_loA {l : BitVec 11} (h : sBits l 0 1 = 0#1) : ∃ op w aq rl sc, l = loA op w aq rl sc :=
  ⟨sBits l 7 4, sBits l 6 1, sBits l 5 1, sBits l 4 1, sBits l 1 3, by
    rw [loA, ← h]
    simp (disch := decide) only [sBits_append]
    exact BitVec.extractLsb'_eq_self.symm⟩

theorem exists_loF {l : BitVec 11} (h7 : sBits l 7 1 = 0#1) (h0 : sBits l 0 5 = 0#5) : ∃ op c, l = loF op c :=
  ⟨sBits l 8 3, sBits l 5 2, by
    rw [loF, ← h7, ← h0]
    simp (disch := decide) only [sBits_append]
    exact BitVec.extractLsb'_eq_self.symm⟩

theorem exists_loQ (l : BitVec 11) : ∃ q op sel, l = loQ q op sel :=
  ⟨sBits l 7 4, sBits l 4 3, sBits l 0 4, by
    simp (disch := decide) only [loQ, sBits_append]
    exact BitVec.extractLsb'_eq_self.symm⟩

theorem exists_immM (l : BitVec 11) : ∃ off m, l = immM off m :=
  ⟨sBits l 3 8, sBits l 0 3, by
    simp (disch := decide) only [immM, sBits_append]
    exact BitVec.extractLsb'_eq_self.symm⟩

theorem exists_immG (l : BitVec 11) : ∃ idx m sc, l = immG idx m sc :=
  ⟨sBits l 6 5, sBits l 3 3, sBits l 0 3, by
    simp (disch := decide) only [immG, sBits_append]
    exact BitVec.extractLsb'_eq_self.symm⟩

/-! ### The decoders, major by major -/

/-- Major 0x01 (14 R300). -/
theorem decScalar_faithful {d a b : BitVec 5} {l : BitVec 11} : Faithful (decScalar d a b l) (wReg 0x01 d a b l) := by
  obtain ⟨k, f, rfl⟩ := exists_loK l
  unfold decScalar
  simp only [sK_loK, sF_loK]
  refine .zero ?_
  rintro rfl
  split
  case h_40 => exact .error
  case h_27 h | h_28 h | h_29 h | h_30 h | h_31 h | h_32 h | h_33 h | h_34 h | h_35 h | h_36 h =>
    obtain rfl := eq_literal h
    exact .zero (by rintro rfl; exact .ok rfl rfl)
  all_goals
    next h =>
      obtain rfl := eq_literal h
      exact .ok rfl rfl

/-- Major 0x0C, loads of a scalar (06 R140). -/
theorem decLdSt_load_faithful {d a : BitVec 5} {i : BitVec 11} {sf : BitVec 5} : Faithful (decLdSt false d a i sf) (wMem 0x0C d a i sf) := by
  unfold decLdSt
  refine .need fun hsf => ?_
  obtain ⟨x, sz, rfl⟩ := exists_sfLd (of_decide_eq_true hsf)
  simp only [sfLd_sz, sfLd_x]
  obtain rfl | rfl := x.eq_zero_or_eq_one
  · exact .ok rfl rfl
  · exact .need fun hsz => .ok rfl hsz

/-- Major 0x0D, stores of a scalar (06 R140). -/
theorem decLdSt_store_faithful {d a : BitVec 5} {i : BitVec 11} {sf : BitVec 5} : Faithful (decLdSt true d a i sf) (wMem 0x0D d a i sf) := by
  unfold decLdSt
  refine .need fun hsf => ?_
  obtain ⟨x, sz, rfl⟩ := exists_sfLd (of_decide_eq_true hsf)
  simp only [sfLd_sz, sfLd_x]
  obtain rfl | rfl := x.eq_zero_or_eq_one
  · exact .ok rfl rfl
  · exact .ok rfl rfl

/-- Major 0x0E (06 R144). -/
theorem decVld_faithful {d a : BitVec 5} {i : BitVec 11} {sf : BitVec 5} : Faithful (decVld d a i sf) (wMem 0x0E d a i sf) := by
  unfold decVld
  split
  case h_7 => exact .error
  all_goals
    rename_i h
    obtain rfl := eq_literal h
  case h_2 =>
    obtain ⟨off, m, rfl⟩ := exists_immM i
    exact .ok (by simp [encode]) rfl
  case h_3 | h_4 =>
    obtain ⟨idx, m, sc, rfl⟩ := exists_immG i
    exact .ok (by simp [encode]) rfl
  all_goals exact .ok rfl rfl

/-- Major 0x0F (06 R144). -/
theorem decVst_faithful {d a : BitVec 5} {i : BitVec 11} {sf : BitVec 5} : Faithful (decVst d a i sf) (wMem 0x0F d a i sf) := by
  unfold decVst
  split
  case h_5 => exact .error
  all_goals
    rename_i h
    obtain rfl := eq_literal h
  case h_2 =>
    obtain ⟨off, m, rfl⟩ := exists_immM i
    exact .ok (by simp [encode]) rfl
  case h_3 | h_4 =>
    obtain ⟨idx, m, sc, rfl⟩ := exists_immG i
    exact .ok (by simp [encode]) rfl
  case h_1 => exact .ok rfl rfl

/-- Major 0x10 (03 R85). -/
theorem decMrq_faithful {d a t : BitVec 5} {l : BitVec 11} : Faithful (decMrq d a t l) (wReg 0x10 d a t l) := by
  unfold decMrq
  refine .need fun ht => ?_
  obtain ⟨t, rfl⟩ := exists_r3 ht
  rw [low3_r3]
  split
  case h_6 => exact .error
  case h_1 h =>
    obtain ⟨op, sz, i, rfl⟩ := exists_loM l
    rw [sK_loM] at h
    obtain rfl := eq_literal h
    simp only [sBits_loM_6, sBits_loM_0]
    exact .need fun hd => .ok rfl hd
  case h_2 h =>
    obtain ⟨op, sz, i, rfl⟩ := exists_loM l
    rw [sK_loM] at h
    obtain rfl := eq_literal h
    simp only [sBits_loM_6, sBits_loM_0]
    exact .ok rfl rfl
  all_goals
    rename_i h
    obtain ⟨k, f, rfl⟩ := exists_loK l
    rw [sK_loK] at h
    obtain rfl := eq_literal h
    rw [sF_loK]
    refine .need fun hf => ?_
  case h_3 => exact .ok rfl hf
  all_goals
    obtain ⟨rfl, rfl⟩ : a = 0 ∧ f = 0 := by simpa using hf
    exact .ok rfl rfl

/-- Major 0x11 (02 R32). -/
theorem decBranch_faithful {c a b : BitVec 5} {off : BitVec 11} : Faithful (decBranch c a b off) (wReg 0x11 c a b off) := by
  unfold decBranch
  split
  case h_7 => exact .error
  all_goals
    next h =>
      obtain rfl := eq_literal h
      exact .ok rfl rfl

/-- Major 0x15 (14 R303). -/
theorem decSel_faithful {d a b : BitVec 5} {l : BitVec 11} : Faithful (decSel d a b l) (wReg 0x15 d a b l) := by
  unfold decSel
  refine .zero fun hz => .need fun hc => ?_
  obtain ⟨op, c, rfl⟩ := exists_loSel hz
  simp only [sBits_loSel_3, sBits_loSel_0] at hc ⊢
  obtain rfl | rfl := op.eq_zero_or_eq_one
  · exact .ok rfl hc
  · exact .ok rfl hc

/-- Major 0x18 (08 R182). -/
theorem decVf_faithful {d a b : BitVec 5} {l : BitVec 11} : Faithful (decVf d a b l) (wReg 0x18 d a b l) := by
  unfold decVf
  refine .zero fun hz => ?_
  obtain ⟨k, ty, op, rfl⟩ := exists_loVf hz
  simp only [sBits_loVf_7, sBits_loVf_0, sK_loVf]
  split
  case h_14 => exact .error
  case h_7 h | h_10 h | h_11 h | h_12 h | h_13 h =>
    obtain rfl := eq_literal h
    exact .zero (by rintro rfl; exact .ok rfl rfl)
  all_goals
    next h =>
      obtain rfl := eq_literal h
      exact .ok rfl rfl

/-- Major 0x19 (08 R184). -/
theorem decVi_faithful {d a b : BitVec 5} {l : BitVec 11} : Faithful (decVi d a b l) (wReg 0x19 d a b l) := by
  obtain ⟨k, es, sg, op, rfl⟩ := exists_loVi l
  unfold decVi
  simp only [sBits_loVi_6, sBits_loVi_5, sBits_loVi_0, sK_loVi]
  split
  case h_15 => exact .error
  case h_14 h =>
    obtain rfl := eq_literal h
    refine .zero ?_
    rintro rfl
    refine .need fun hsg => ?_
    obtain rfl := eq_of_beq hsg
    exact .ok rfl rfl
  all_goals
    next h =>
      obtain rfl := eq_literal h
      exact .ok rfl rfl

/-- Major 0x1A (08 R185). -/
theorem decVc_faithful {d a b : BitVec 5} {l : BitVec 11} : Faithful (decVc d a b l) (wReg 0x1A d a b l) := by
  unfold decVc
  refine .zero fun hz => .need fun hd => .need fun hty => ?_
  obtain ⟨k, ty, c, rfl⟩ := exists_loVc hz
  obtain ⟨h3, h0⟩ : is3 d = true ∧ d ≠ 0 := by simpa using hd
  obtain ⟨d, rfl⟩ := exists_r3 h3
  simp only [sBits_loVc_5, sBits_loVc_0, sK_loVc, low3_r3] at hty ⊢
  have hd0 : d ≠ 0 := by simpa using h0
  split
  case h_6 => exact .error
  case h_5 h =>
    obtain rfl := eq_literal h
    exact .need fun hun => .ok rfl (Bool.and_eq_true_iff.2 ⟨decide_eq_true hd0, hun⟩)
  all_goals
    next h =>
      obtain rfl := eq_literal h
      exact .ok rfl (Bool.and_eq_true_iff.2 ⟨decide_eq_true hd0, hty⟩)

/-- Major 0x1B (08 R186). -/
theorem decVcvt_faithful {d a b : BitVec 5} {l : BitVec 11} : Faithful (decVcvt d a b l) (wReg 0x1B d a b l) := by
  obtain ⟨k, f, rfl⟩ := exists_loK l
  obtain ⟨g, f, rfl⟩ := exists_halves f
  unfold decVcvt
  simp only [sK_loK, sBits_loK_4, sBits_loK_low]
  refine .need fun hz => .need fun hf => ?_
  obtain ⟨rfl, rfl⟩ : b = 0 ∧ k = 0 := by simpa using hz
  exact .ok rfl hf

/-- Major 0x1C (08 R187). -/
theorem decVe_faithful {d a b : BitVec 5} {l : BitVec 11} : Faithful (decVe d a b l) (wReg 0x1C d a b l) := by
  obtain ⟨k, f, rfl⟩ := exists_loK l
  unfold decVe
  simp only [sK_loK, sF_loK]
  refine .zero ?_
  rintro rfl
  split
  case h_5 => exact .error
  case h_3 h | h_4 h =>
    obtain rfl := eq_literal h
    exact .zero (by rintro rfl; exact .ok rfl rfl)
  all_goals
    next h =>
      obtain rfl := eq_literal h
      exact .ok rfl rfl

/-- Major 0x1D (08 R191). -/
theorem decVs_faithful {d a b : BitVec 5} {l : BitVec 11} : Faithful (decVs d a b l) (wReg 0x1D d a b l) := by
  obtain ⟨k, ty, op, rfl⟩ := exists_loVs l
  unfold decVs
  simp only [sBits_loVs_5, sBits_loVs_0, sK_loVs]
  refine .need fun hty => ?_
  split
  case h_4 => exact .error
  case h_1 h =>
    obtain rfl := eq_literal h
    exact .zero (by rintro rfl; exact .ok rfl hty)
  all_goals
    next h =>
      obtain rfl := eq_literal h
      exact .need fun hd => .ok rfl (Bool.and_eq_true_iff.2 ⟨hd, hty⟩)

/-- Major 0x1E (08 R194). -/
theorem decVp_faithful {d a b : BitVec 5} {l : BitVec 11} : Faithful (decVp d a b l) (wReg 0x1E d a b l) := by
  obtain ⟨k, f, rfl⟩ := exists_loK l
  unfold decVp
  simp only [sK_loK, sF_loK]
  split
  case h_14 => exact .error
  all_goals
    rename_i h
    obtain rfl := eq_literal h
  case h_3 | h_4 | h_5 | h_6 | h_9 | h_13 => exact .zero (by rintro rfl; exact .ok rfl rfl)
  case h_7 =>
    refine .need fun hz => ?_
    obtain ⟨rfl, rfl⟩ : a = 0 ∧ b = 0 := by simpa using hz
    exact .ok rfl rfl
  case h_10 | h_11 =>
    refine .zero ?_
    rintro rfl
    refine .need fun hb => ?_
    obtain ⟨n, rfl⟩ := exists_r4 hb
    exact .ok (by simp [encode]) rfl
  all_goals exact .ok rfl rfl

/-- Major 0x1F (08 R195). -/
theorem decMask_faithful {d a b : BitVec 5} {l : BitVec 11} : Faithful (decMask d a b l) (wReg 0x1F d a b l) := by
  obtain ⟨k, f, rfl⟩ := exists_loK l
  unfold decMask
  simp only [sK_loK, sF_loK]
  refine .zero ?_
  rintro rfl
  split
  case h_9 => exact .error
  all_goals
    rename_i h
    obtain rfl := eq_literal h
  case h_1 | h_2 | h_3 | h_4 =>
    refine .need fun hr => ?_
    obtain ⟨⟨hd, ha⟩, hb⟩ : (is3 d = true ∧ is3 a = true) ∧ is3 b = true := by simpa using hr
    obtain ⟨d, rfl⟩ := exists_r3 hd
    obtain ⟨a, rfl⟩ := exists_r3 ha
    obtain ⟨b, rfl⟩ := exists_r3 hb
    exact .ok (by simp [encode]) rfl
  case h_5 =>
    refine .zero ?_
    rintro rfl
    refine .need fun hd => ?_
    obtain ⟨d, rfl⟩ := exists_r3 hd
    exact .ok (by simp [encode]) rfl
  all_goals
    refine .zero ?_
    rintro rfl
    refine .need fun ha => ?_
    obtain ⟨a, rfl⟩ := exists_r3 ha
    exact .ok (by simp [encode]) rfl

/-- Major 0x20 (09 R207). -/
theorem decMma_faithful {a b n : BitVec 5} {l : BitVec 11} : Faithful (decMma a b n l) (wReg 0x20 a b n l) := by
  obtain ⟨acc, c, z, op, rfl⟩ := exists_loT l
  unfold decMma
  simp only [sBits_loT_0, sBits_loT_4, sBits_loT_5, sBits_loT_7]
  split
  case h_5 => exact .error
  all_goals
    next hop hz =>
      obtain rfl := eq_literal hop
      obtain rfl := eq_literal hz
      exact .ok rfl rfl

/-- Major 0x21 (09 R212, R213). -/
theorem decAcc_faithful {d a b : BitVec 5} {l : BitVec 11} : Faithful (decAcc d a b l) (wReg 0x21 d a b l) := by
  obtain ⟨acc, c, z, op, rfl⟩ := exists_loT l
  unfold decAcc
  simp only [sBits_loT_0, sBits_loT_4, sBits_loT_5, sBits_loT_7]
  split
  case h_5 => exact .error
  all_goals
    rename_i h
    obtain rfl := eq_literal h
    refine .need fun hz => ?_
  case h_1 =>
    obtain ⟨⟨⟨rfl, rfl⟩, rfl⟩, -⟩ : ((d = 0 ∧ a = 0) ∧ z = 0) ∧ is4 b = true := by simpa using hz
    exact .need fun hn => .ok rfl hn
  case h_4 =>
    obtain ⟨rfl, rfl⟩ : a = 0 ∧ b = 0 := by simpa using hz
    exact .need fun hp => .ok rfl hp
  all_goals
    obtain ⟨⟨rfl, rfl⟩, rfl⟩ : (a = 0 ∧ b = 0) ∧ z = 0 := by simpa using hz
    exact .ok rfl rfl

/-- Major 0x22 (09 R214). -/
theorem decSq_faithful {d a b : BitVec 5} {l : BitVec 11} : Faithful (decSq d a b l) (wReg 0x22 d a b l) := by
  obtain ⟨acc, c, z, op, rfl⟩ := exists_loT l
  unfold decSq
  simp only [sBits_loT_0, sBits_loT_4, sBits_loT_5, sBits_loT_7]
  split
  case h_5 => exact .error
  all_goals
    rename_i h
    obtain rfl := eq_literal h
  case h_1 => exact .need fun hp => .ok rfl hp
  case h_2 => exact .zero (by rintro rfl; exact .need fun hp => .ok rfl hp)
  all_goals
    refine .need fun hz => ?_
    obtain ⟨rfl, rfl⟩ : acc = 0 ∧ z = 0 := by simpa using hz
    exact .ok rfl rfl

/-- Major 0x23 (06 R148). -/
theorem decBfmt_faithful {d a b : BitVec 5} {l : BitVec 11} : Faithful (decBfmt d a b l) (wReg 0x23 d a b l) := by
  obtain ⟨k, f, rfl⟩ := exists_loK l
  unfold decBfmt
  simp only [sK_loK, sF_loK]
  refine .zero ?_
  rintro rfl
  refine .need fun hb => ?_
  obtain ⟨n, rfl⟩ := exists_r4 hb
  rw [low4_r4]
  split
  case h_3 => exact .error
  all_goals
    next h =>
      obtain rfl := eq_literal h
      exact .zero (by rintro rfl; exact .ok rfl rfl)

/-- Majors 0x28 to 0x2A (05 R113). -/
theorem decCopy_faithful {m : Nat} {d a b : BitVec 5} {l : BitVec 11} :
    Faithful (decCopy m d a b l) (wReg (BitVec.ofNat 6 m) d a b l) := by
  unfold decCopy
  refine .zero fun hz => ?_
  obtain ⟨c, op, dl, sl, rfl⟩ := exists_loCp hz
  simp only [sBits_loCp_4, sBits_loCp_5, sBits_loCp_6, sBits_loCp_9]
  split
  case h_8 => exact .error
  all_goals
    rename_i h
    obtain rfl := eq_literal h
  case h_2 =>
    refine .need fun hs => ?_
    obtain ⟨rfl, rfl⟩ : a = 0 ∧ sl = 0 := by simpa using hs
    exact .ok rfl rfl
  case h_3 =>
    refine .need fun hs => ?_
    obtain ⟨⟨rfl, rfl⟩, rfl⟩ : (d = 0 ∧ dl = 0) ∧ sl = 0 := by simpa using hs
    exact .ok rfl rfl
  case h_4 => exact .need fun hb => .ok rfl hb
  case h_7 =>
    refine .need fun hs => ?_
    obtain ⟨rfl, rfl⟩ : dl = 0 ∧ sl = 0 := by simpa using hs
    exact .ok rfl rfl
  all_goals exact .ok rfl rfl

/-- Major 0x2B (05 R127). -/
theorem decCtr_faithful {d a b : BitVec 5} {l : BitVec 11} : Faithful (decCtr d a b l) (wReg 0x2B d a b l) := by
  unfold decCtr
  refine .need fun hz => ?_
  obtain ⟨rfl, hl⟩ : b = 0 ∧ sBits l 2 4 = 0 := by simpa using hz
  obtain ⟨c, op, sel, rfl⟩ := exists_loCc hl
  simp only [sBits_loCc_0, sBits_loCc_6, sBits_loCc_9]
  split
  case h_4 => exact .error
  all_goals
    rename_i h
    obtain rfl := eq_literal h
  case h_1 =>
    refine .need fun hs => ?_
    obtain ⟨rfl, rfl⟩ : d = 0 ∧ sel = 0 := by simpa using hs
    exact .ok rfl rfl
  all_goals exact .zero (by rintro rfl; exact .ok rfl rfl)

/-- Major 0x2C (13 R282). -/
theorem decAmo_faithful {d a b : BitVec 5} {l : BitVec 11} : Faithful (decAmo d a b l) (wReg 0x2C d a b l) := by
  unfold decAmo
  refine .zero fun hz => ?_
  obtain ⟨op, w, aq, rl, sc, rfl⟩ := exists_loA hz
  simp only [sBits_loA_1, sBits_loA_4, sBits_loA_5, sBits_loA_6, sBits_loA_7]
  refine .need fun hsc => ?_
  split
  case h_12 => exact .error
  all_goals
    next h =>
      obtain rfl := eq_literal h
      exact .ok rfl hsc

/-- Major 0x2D (13 R282). -/
theorem decLamo_faithful {d a b : BitVec 5} {l : BitVec 11} : Faithful (decLamo d a b l) (wReg 0x2D d a b l) := by
  unfold decLamo
  refine .zero fun hz => ?_
  obtain ⟨op, w, aq, rl, sc, rfl⟩ := exists_loA hz
  simp only [sBits_loA_1, sBits_loA_4, sBits_loA_5, sBits_loA_6, sBits_loA_7]
  refine .need fun hsc => ?_
  split
  case h_12 => exact .error
  all_goals
    next h =>
      obtain rfl := eq_literal h
      exact .ok rfl hsc

/-- Major 0x2E (13 R290). -/
theorem decFut_faithful {d a b : BitVec 5} {l : BitVec 11} : Faithful (decFut d a b l) (wReg 0x2E d a b l) := by
  unfold decFut
  refine .need fun hz => ?_
  obtain ⟨h7, h0⟩ : sBits l 7 1 = 0 ∧ sBits l 0 5 = 0 := by simpa using hz
  obtain ⟨op, c, rfl⟩ := exists_loF h7 h0
  simp only [sBits_loF_5, sBits_loF_8]
  split
  case h_5 => exact .error
  all_goals
    rename_i h
    obtain rfl := eq_literal h
  case h_4 =>
    refine .need fun hs => ?_
    obtain ⟨rfl, rfl⟩ : b = 0 ∧ c = 0 := by simpa using hs
    exact .ok rfl rfl
  all_goals exact .zero (by rintro rfl; exact .ok rfl rfl)

/-- Major 0x2F (13 R294). -/
theorem decBar_faithful {d a b : BitVec 5} {l : BitVec 11} : Faithful (decBar d a b l) (wReg 0x2F d a b l) := by
  obtain ⟨k, f, rfl⟩ := exists_loK l
  unfold decBar
  simp only [sK_loK, sF_loK]
  refine .zero ?_
  rintro rfl
  split
  case h_7 => exact .error
  all_goals
    rename_i h
    obtain rfl := eq_literal h
  case h_1 | h_6 => exact .zero (by rintro rfl; exact .ok rfl rfl)
  case h_4 | h_5 =>
    refine .need fun hs => ?_
    obtain ⟨rfl, rfl⟩ : d = 0 ∧ b = 0 := by simpa using hs
    exact .ok rfl rfl
  all_goals exact .ok rfl rfl

/-- Major 0x30 (12 R271). -/
theorem decFence_faithful {d a b : BitVec 5} {l : BitVec 11} : Faithful (decFence d a b l) (wReg 0x30 d a b l) := by
  obtain ⟨sc, f, rfl⟩ := exists_loK l
  obtain ⟨p, q, rfl⟩ := exists_halves f
  unfold decFence
  simp only [sK_loK, sBits_loK_4, sBits_loK_low]
  refine .need fun hz => .need fun hsc => ?_
  obtain ⟨⟨rfl, rfl⟩, rfl⟩ : (d = 0 ∧ a = 0) ∧ b = 0 := by simpa using hz
  exact .ok rfl hsc

/-- Major 0x31 (15 R343). -/
theorem decPush_faithful {d a b : BitVec 5} {l : BitVec 11} : Faithful (decPush d a b l) (wReg 0x31 d a b l) := by
  obtain ⟨q, op, sel, rfl⟩ := exists_loQ l
  unfold decPush
  simp only [sBits_loQ_0, sBits_loQ_4, sBits_loQ_7]
  refine .need fun hz => ?_
  obtain ⟨rfl, rfl⟩ : d = 0 ∧ sel = 0 := by simpa using hz
  split
  case h_5 => exact .error
  all_goals
    rename_i h
    obtain rfl := eq_literal h
  case h_1 => exact .zero (by rintro rfl; exact .ok rfl rfl)
  case h_2 => exact .ok rfl rfl
  all_goals
    refine .need fun hs => ?_
    obtain ⟨rfl, rfl⟩ : a = 0 ∧ b = 0 := by simpa using hs
    exact .ok rfl rfl

/-- Major 0x32 (15 R343). -/
theorem decPop_faithful {d a b : BitVec 5} {l : BitVec 11} : Faithful (decPop d a b l) (wReg 0x32 d a b l) := by
  obtain ⟨q, op, sel, rfl⟩ := exists_loQ l
  unfold decPop
  simp only [sBits_loQ_0, sBits_loQ_4, sBits_loQ_7]
  refine .zero ?_
  rintro rfl
  split
  case h_5 => exact .error
  all_goals
    rename_i h
    obtain rfl := eq_literal h
  case h_2 => exact .zero (by rintro rfl; exact .need fun hd => .ok rfl hd)
  case h_4 => exact .zero (by rintro rfl; exact .need fun hsel => .ok rfl hsel)
  all_goals
    refine .need fun hs => ?_
    obtain ⟨rfl, rfl⟩ : b = 0 ∧ sel = 0 := by simpa using hs
    exact .need fun hd => .ok rfl hd

/-- Major 0x33 (15 R347). -/
theorem decEnd_faithful {d a b : BitVec 5} {l : BitVec 11} : Faithful (decEnd d a b l) (wReg 0x33 d a b l) := by
  obtain ⟨q, op, sel, rfl⟩ := exists_loQ l
  unfold decEnd
  simp only [sBits_loQ_0, sBits_loQ_4, sBits_loQ_7]
  refine .need fun hz => ?_
  obtain ⟨⟨⟨⟨rfl, rfl⟩, rfl⟩, rfl⟩, rfl⟩ : (((d = 0 ∧ a = 0) ∧ b = 0) ∧ q = 0) ∧ sel = 0 := by simpa using hz
  split
  case h_4 => exact .error
  all_goals
    next h =>
      obtain rfl := eq_literal h
      exact .ok rfl rfl

/-- Major 0x34 (11 R255). -/
theorem decAm_faithful {d a b : BitVec 5} {l : BitVec 11} : Faithful (decAm d a b l) (wReg 0x34 d a b l) := by
  obtain ⟨k, f, rfl⟩ := exists_loK l
  unfold decAm
  simp only [sK_loK, sF_loK]
  split
  case h_5 => exact .error
  all_goals
    rename_i h
    obtain rfl := eq_literal h
  case h_1 => exact .zero (by rintro rfl; exact .ok rfl rfl)
  case h_2 =>
    refine .need fun hs => ?_
    obtain ⟨rfl, rfl⟩ : d = 0 ∧ f = 0 := by simpa using hs
    exact .ok rfl rfl
  case h_3 =>
    refine .need fun hs => ?_
    obtain ⟨⟨⟨rfl, rfl⟩, rfl⟩, rfl⟩ : ((d = 0 ∧ a = 0) ∧ b = 0) ∧ f = 0 := by simpa using hs
    exact .ok rfl rfl
  case h_4 =>
    refine .need fun hs => .need fun hsel => ?_
    obtain ⟨rfl, rfl⟩ : a = 0 ∧ b = 0 := by simpa using hs
    exact .ok rfl hsel

/-- Major 0x35 (10 R238). -/
theorem decSh_faithful {d a b : BitVec 5} {l : BitVec 11} : Faithful (decSh d a b l) (wReg 0x35 d a b l) := by
  obtain ⟨k, f, rfl⟩ := exists_loK l
  unfold decSh
  simp only [sK_loK, sF_loK]
  refine .zero ?_
  rintro rfl
  split
  case h_6 => exact .error
  all_goals
    rename_i h
    obtain rfl := eq_literal h
  case h_3 | h_4 => exact .zero (by rintro rfl; exact .ok rfl rfl)
  all_goals exact .ok rfl rfl

/-- A number that names no monitor call is a trap of its own, another the call it names (16 R365, R366, 17 R376). -/
theorem decTrap_faithful (n : BitVec 10) : Faithful (.ok (decTrap n)) (wTrap 0x38 n (loK 0 0)) := by
  unfold decTrap
  split
  case h_15 =>
    refine .ok rfl ?_
    simp_all [wellFormed, monitorCallNumbers, ← BitVec.toNat_inj]
  all_goals
    next h =>
      obtain rfl := eq_literal h
      exact .ok rfl rfl

/-- Major 0x38 (16 R365). -/
theorem decSys_faithful {w : IWord} (hm : (fMaj w).toNat = 0x38) : Faithful (decSys w) w := by
  unfold decSys
  refine .need fun hz => ?_
  obtain ⟨hd, hk⟩ : fD w = 0 ∧ sK (fLo w) = 0 := by simpa using hz
  rw [← wTrap_fields (m := 0x38) hm hd]
  generalize fTrapN w = n, fLo w = l at hk ⊢
  obtain ⟨k, f, rfl⟩ := exists_loK l
  rw [sK_loK] at hk
  subst hk
  simp only [fLo_wTrap, fTrapN_wTrap, sF_loK]
  split
  case h_6 => exact .error
  all_goals
    rename_i h
    obtain rfl := eq_literal h
  case h_1 => exact decTrap_faithful n
  case h_5 => exact .ok rfl rfl
  all_goals exact .zero (by rintro rfl; exact .ok rfl rfl)

/-- The number of a bank format's register. -/
theorem bfmtReg_eq {r : BitVec 12} (h : isBfmtReg r = true) : 0x10#8 ++ r.extractLsb' 0 4 = r := by
  obtain ⟨lo, hi⟩ : 0x100 ≤ r.toNat ∧ r.toNat ≤ 0x10F := by simpa [isBfmtReg] using h
  refine append_low (m := 8) (n := 4) (BitVec.eq_of_toNat_eq ?_)
  simp only [BitVec.extractLsb'_toNat, Nat.shiftRight_eq_div_pow, BitVec.toNat_ofNat]
  omega

/-- The write of an assigned register (16 R368). -/
theorem decSwr_faithful {r : BitVec 12} (h : sysRegAssigned r = true) (a : SReg) :
    Faithful (.ok (decSwr r a)) (wImm 0x39 0 a (sysImm 1 r)) := by
  unfold decSwr
  split
  · next hb => exact .ok (by simp [encode, bfmtReg_eq hb]) rfl
  · split
    · next hl => exact .ok rfl hl
    · split
      · next hp => exact .ok rfl hp
      · next hb hl hp => exact .ok rfl (by simp [wellFormed, h, hb, hl, hp])

/-- Major 0x39 (16 R368). -/
theorem decSr_faithful {d a : BitVec 5} {i : BitVec 16} : Faithful (decSr d a i) (wImm 0x39 d a i) := by
  obtain ⟨hi, r, rfl⟩ := exists_sysImm i
  unfold decSr
  simp only [sysImm_hi, sysImm_r]
  split
  case h_3 => exact .error
  all_goals
    rename_i h
    obtain rfl := eq_literal h
    refine .zero ?_
    rintro rfl
    refine .need fun hr => ?_
  case h_1 => exact .ok rfl hr
  case h_2 => exact decSwr_faithful hr a

/-- Major 0x3A (16 R369). -/
theorem decInv_faithful {n a b : BitVec 5} {l : BitVec 11} : Faithful (decInv n a b l) (wReg 0x3A n a b l) := by
  obtain ⟨k, f, rfl⟩ := exists_loK l
  unfold decInv
  simp only [sK_loK, sF_loK]
  refine .zero ?_
  rintro rfl
  split
  case h_3 => exact .error
  all_goals
    rename_i h
    obtain rfl := eq_literal h
  case h_1 => exact .ok rfl rfl
  case h_2 => exact .zero (by rintro rfl; exact .ok rfl rfl)

/-- Major 0x3B (11 R266). -/
theorem decTime_faithful {d a b : BitVec 5} {l : BitVec 11} : Faithful (decTime d a b l) (wReg 0x3B d a b l) := by
  obtain ⟨k, f, rfl⟩ := exists_loK l
  unfold decTime
  simp only [sK_loK, sF_loK]
  refine .need fun hz => ?_
  obtain ⟨rfl, rfl⟩ : b = 0 ∧ k = 0 := by simpa using hz
  split
  case h_4 => exact .error
  all_goals
    next h =>
      obtain rfl := eq_literal h
      exact .zero (by rintro rfl; exact .ok rfl rfl)

/-- Major 0x3E (02 R46). -/
theorem decHint_faithful {hop a : BitVec 5} {i : BitVec 16} : Faithful (decHint hop a i) (wImm 0x3E hop a i) := by
  unfold decHint
  split
  case h_6 => exact .error
  all_goals
    rename_i h
    obtain rfl := eq_literal h
  case h_1 =>
    refine .need fun hz => ?_
    obtain ⟨rfl, rfl⟩ : a = 0 ∧ i = 0 := by simpa using hz
    exact .ok rfl rfl
  case h_2 =>
    refine .need fun hz => .need fun hlk => ?_
    obtain ⟨rfl, hi⟩ : a = 0 ∧ i.extractLsb' 2 14 = 0 := by simpa using hz
    exact .ok (congrArg (fun i => some (wImm 0x3E 1 0 i)) (append_low hi)) hlk
  case h_5 =>
    refine .need fun hz => ?_
    obtain ⟨rfl, hi⟩ : a = 0 ∧ i.extractLsb' 4 12 = 0 := by simpa using hz
    exact .ok (congrArg (fun i => some (wImm 0x3E 4 0 i)) (append_low hi)) rfl
  all_goals exact .ok rfl rfl

/-- Major 0x14 (14 R308). -/
theorem decLoop_faithful {w : IWord} (hm : (fMaj w).toNat = 0x14) : Faithful (decLoop w) w := by
  unfold decLoop
  refine .need fun hlen => ?_
  split
  · next h25 =>
    refine .need fun hz => ?_
    obtain ⟨hd, hb⟩ : (fD w).extractLsb' 0 3 = 0 ∧ fB w = 0 := by simpa using hz
    obtain ⟨op, lvl, hd⟩ := exists_dLoop hd
    have hw := wReg_fields (m := 0x14) hm
    rw [hd, hb] at hw
    rw [← hw] at h25 hlen ⊢
    rw [fBit25_dLoop] at h25
    subst h25
    simp only [fBit24_dLoop, fA_wReg, fLo_wReg] at hlen ⊢
    exact .ok rfl hlen
  · next h25 =>
    have h25 : fBit25 w = 1#1 := (fBit25 w).eq_zero_or_eq_one.resolve_left h25
    exact .ok (congrArg some (wLoopi_fields hm h25)) hlen

/-! ### The word's decoder -/

/-- What a word decodes to is well-formed and has the word as its word, whatever its major. -/
theorem decodeWord_faithful (w : IWord) : Faithful (decodeWord w) w := by
  unfold decodeWord
  split
  case h_1 | h_55 => exact .error
  case h_2 h => exact decScalar_faithful.of_eq (wReg_fields h)
  case h_3 h => exact .ok (congrArg some (wImm_fields (m := 2) h)) rfl
  case h_4 h => exact .ok (congrArg some (wImm_fields (m := 3) h)) rfl
  case h_5 h => exact .ok (congrArg some (wImm_fields (m := 4) h)) rfl
  case h_6 h => exact .ok (congrArg some (wImm_fields (m := 5) h)) rfl
  case h_7 h => exact .ok (congrArg some (wImm_fields (m := 6) h)) rfl
  case h_8 h => exact .ok (congrArg some (wImm_fields (m := 7) h)) rfl
  case h_9 h => exact .need fun hi => .ok (congrArg some (wImm_fields (m := 8) h)) hi
  case h_10 h => exact .need fun hi => .ok (congrArg some (wImm_fields (m := 9) h)) hi
  case h_11 h => exact .need fun hi => .ok (congrArg some (wImm_fields (m := 10) h)) hi
  case h_12 h => exact .ok (congrArg some (wImm_fields (m := 11) h)) rfl
  case h_13 h => exact decLdSt_load_faithful.of_eq (wMem_fields h)
  case h_14 h => exact decLdSt_store_faithful.of_eq (wMem_fields h)
  case h_15 h => exact decVld_faithful.of_eq (wMem_fields h)
  case h_16 h => exact decVst_faithful.of_eq (wMem_fields h)
  case h_17 h => exact decMrq_faithful.of_eq (wReg_fields h)
  case h_18 h => exact decBranch_faithful.of_eq (wReg_fields h)
  case h_19 h => exact .ok (congrArg some (wJmp_fields (m := 0x12) h)) rfl
  case h_20 h =>
    refine .zero fun hd => .ok ?_ rfl
    rw [encode, ← hd, wImm_fields h]
  case h_21 h => exact decLoop_faithful h
  case h_22 h => exact decSel_faithful.of_eq (wReg_fields h)
  case h_23 h => exact decVf_faithful.of_eq (wReg_fields h)
  case h_24 h => exact decVi_faithful.of_eq (wReg_fields h)
  case h_25 h => exact decVc_faithful.of_eq (wReg_fields h)
  case h_26 h => exact decVcvt_faithful.of_eq (wReg_fields h)
  case h_27 h => exact decVe_faithful.of_eq (wReg_fields h)
  case h_28 h => exact decVs_faithful.of_eq (wReg_fields h)
  case h_29 h => exact decVp_faithful.of_eq (wReg_fields h)
  case h_30 h => exact decMask_faithful.of_eq (wReg_fields h)
  case h_31 h => exact decMma_faithful.of_eq (wReg_fields h)
  case h_32 h => exact decAcc_faithful.of_eq (wReg_fields h)
  case h_33 h => exact decSq_faithful.of_eq (wReg_fields h)
  case h_34 h => exact decBfmt_faithful.of_eq (wReg_fields h)
  case h_35 h => exact decCopy_faithful.of_eq (wReg_fields h)
  case h_36 h => exact decCopy_faithful.of_eq (wReg_fields h)
  case h_37 h => exact decCopy_faithful.of_eq (wReg_fields h)
  case h_38 h => exact decCtr_faithful.of_eq (wReg_fields h)
  case h_39 h => exact decAmo_faithful.of_eq (wReg_fields h)
  case h_40 h => exact decLamo_faithful.of_eq (wReg_fields h)
  case h_41 h => exact decFut_faithful.of_eq (wReg_fields h)
  case h_42 h => exact decBar_faithful.of_eq (wReg_fields h)
  case h_43 h => exact decFence_faithful.of_eq (wReg_fields h)
  case h_44 h => exact decPush_faithful.of_eq (wReg_fields h)
  case h_45 h => exact decPop_faithful.of_eq (wReg_fields h)
  case h_46 h => exact decEnd_faithful.of_eq (wReg_fields h)
  case h_47 h => exact decAm_faithful.of_eq (wReg_fields h)
  case h_48 h => exact decSh_faithful.of_eq (wReg_fields h)
  case h_49 h => exact decSys_faithful h
  case h_50 h => exact decSr_faithful.of_eq (wImm_fields h)
  case h_51 h => exact decInv_faithful.of_eq (wReg_fields h)
  case h_52 h => exact decTime_faithful.of_eq (wReg_fields h)
  case h_53 h => exact decHint_faithful.of_eq (wImm_fields h)
  case h_54 h => exact .ok (congrArg some (wJmp_fields (m := 0x3F) h)) rfl

/-- Settles O2: the decoder of every major answers only well-formed instructions whose word is the one it has read. -/
theorem encodeOfDecode : Obligations.EncodeOfDecode := fun i w h => decodeWord_faithful w i h

/-! ### Words that the spec writes out -/

/-- Settles O3: each word is the word of its instruction, so it decodes to it; major 0 stands for nothing. -/
theorem decodeSpecWords : Obligations.DecodeSpecWords := by
  have dec {i w} : wellFormed i = true → encode i = some w → decodeWord w = .ok i := decodeOfEncode i w
  exact ⟨dec rfl rfl, dec rfl rfl, dec rfl rfl, dec rfl rfl, dec rfl rfl, dec rfl rfl, dec rfl rfl, dec rfl rfl, dec rfl rfl,
    dec rfl rfl, dec rfl rfl, dec rfl rfl, dec rfl rfl, dec rfl rfl, dec rfl rfl, dec rfl rfl, dec rfl rfl, dec rfl rfl, rfl⟩

end Sys2Proof.Laws
end

section

/-! 02 R30, R41, 14 R314, R315, 16 R350, R352: what a fetch reads, and which instruction a step executes. -/

namespace Sys2Proof.Machine

/-! ### The word a step executes (02 R34, R41, 16 R352) -/

/-- A word that decodes stands for its instruction, another for an unassigned encoding. -/
theorem instrOf_eq {w : IWord} {i : Instr}
    (h : decodeWord w = .ok i ∨ (∃ r, decodeWord w = .error r) ∧ i = .unassignedEncoding w) : instrOf w = i := by
  unfold instrOf
  obtain h | ⟨⟨r, h⟩, rfl⟩ := h <;> rw [h]

/-- With no turn given, a strand that is to issue and has no asynchronous cause issues the word it fetches. -/
theorem step_of_fetch {s s' : State} {st : StrandId} {w : IWord} (ha : s.agenda = []) (hn : s.nextStrand = some st)
    (hf : (s.tile.strand st).asyncFaults = []) (hw : (s.issuing st).fetch = .word w s') : step s = s'.issueWord w := by
  have hf' : ((s.issuing st).tile.strand st).asyncFaults = [] := by cases st <;> exact hf
  unfold step
  rw [ha, hn]
  unfold State.issue
  simp only [hf', hw, ne_eq, not_true_eq_false, if_false]

/-- Without a hint a unit has no hint action. -/
theorem hintAction_of_none {s : State} (h : s.st.hint = none) : s.hintAction = s := by
  unfold State.hintAction
  rw [h]

/-- The word of an instruction that ends its unit and issues takes the unit's hint action first. -/
theorem issueWord_of_ends {s : State} {w : IWord} (hh : isHint (instrOf w) = false) (hx : ∀ e, instrOf w ≠ .ximm e)
    (hu : ∀ v, instrOf w ≠ .unassignedEncoding v) (hg : gate (instrOf w) s = none) (hb : s.st.budgetDue = false)
    (hs : s.stopsFirst (instrOf w) = false) : s.issueWord w = exec (instrOf w) s.hintAction := by
  unfold State.issueWord
  dsimp only
  split
  · next e he => exact absurd he (hx e)
  · next v hv => exact absurd hv (hu v)
  · cases hint : s.st.hint with
    | none => simp [hintAction_of_none hint]
    | some h => simp [hh, hg, hb, hs]

/-- A word that does not end its unit, one that something stops before it issues, and one with no hint before it take no hint action. -/
theorem issueWord_of_not_ends {s : State} {w : IWord}
    (h : isHint (instrOf w) = true ∨ (∃ e, instrOf w = .ximm e) ∨ (∃ v, instrOf w = .unassignedEncoding v) ∨ gate (instrOf w) s ≠ none ∨
      s.st.budgetDue = true ∨ s.stopsFirst (instrOf w) = true ∨ s.st.hint = none) : s.issueWord w = exec (instrOf w) s := by
  unfold State.issueWord
  dsimp only
  obtain h | ⟨e, h⟩ | ⟨v, h⟩ | h | h | h | h := h
  · simp [h]
  · simp [h]
  · simp [h]
  · simp [h]
  · simp [h]
  · simp [h]
  · simp [h]

/-- Settles O4: the step issues the word it fetches, and the word's issue says whether its unit's hint action comes first. -/
theorem stepRunsDecodedWord : Obligations.StepRunsDecodedWord := by
  intro s s' st w i ha hn hf hw hi
  rw [step_of_fetch ha hn hf hw]
  obtain rfl := instrOf_eq hi
  exact ⟨issueWord_of_ends, issueWord_of_not_ends, hintAction_of_none⟩

/-! ### What a fetch reads (02 R30, 14 R314, R315, 16 R350) -/

/-- Outside the code region a fetch is PROT (02 R30). -/
theorem fetch_outside {s : State} (h : s.st.pc.toNat < s.cx.cbase.toNat ∨ s.cx.clim.toNat ≤ s.st.pc.toNat) :
    s.fetch = .trap { cause := .prot, addr := s.st.pc } s := by
  unfold State.fetch
  exact if_pos h

section
variable {s s' : State} {pa : Nat} {key : BitVec 13} (lo : s.cx.cbase.toNat ≤ s.st.pc.toNat) (hi : s.st.pc.toNat < s.cx.clim.toNat)
include lo hi

/-- Inside the code region a translation that fails gives its cause. -/
theorem fetch_of_fault {c : Cause} (h : s.translate s.tile.ltn s.xc s.tile.paddock s.st.pc 4 2 false = (.fault c, s')) :
    s.fetch = .trap { cause := c, addr := s.st.pc } s' := by
  unfold State.fetch
  simp only [Nat.not_lt.2 lo, Nat.not_le.2 hi, or_self, if_false, h]

/-- Inside the code region a page that has to be walked makes the strand ask for the walk. -/
theorem fetch_of_walk (h : s.translate s.tile.ltn s.xc s.tile.paddock s.st.pc 4 2 false = (.walk, s')) :
    s.fetch = .busy (s'.askWalk s.tile.paddock { tile := s.tile.ltn, agent := .fetch s.cur, access := 2, xc := s.xc, va := s.st.pc }) := by
  unfold State.fetch
  simp only [Nat.not_lt.2 lo, Nat.not_le.2 hi, or_self, if_false, h]

/-- Inside the code region an address that translates is read. -/
theorem fetch_of_ok (h : s.translate s.tile.ltn s.xc s.tile.paddock s.st.pc 4 2 false = (.ok pa key, s')) :
    s.fetch = s'.fetchPhys pa key := by
  unfold State.fetch
  simp only [Nat.not_lt.2 lo, Nat.not_le.2 hi, or_self, if_false, h]

end

/-- To ask for a walk leaves memory and the tile as they are. -/
theorem askWalk_frame (s : State) (p : BitVec 5) (a : WalkAsker) : (s.askWalk p a).mem = s.mem ∧ (s.askWalk p a).tile = s.tile := by
  unfold State.askWalk
  dsimp only
  split
  · exact ⟨rfl, rfl⟩
  · split <;> exact ⟨rfl, rfl⟩

/-- The caches of leaves are no part of memory. -/
theorem OnlyCaches.mem {s t : State} (h : OnlyCaches s t) : t.mem = s.mem := by
  unfold OnlyCaches at h
  rw [h]

/-- A translation leaves memory as it is. -/
theorem translate_mem {s s' : State} {tile x p va n kind w r} (h : s.translate tile x p va n kind w = (r, s')) : s'.mem = s.mem := by
  have hc := (translate_only s tile x p va n kind w).mem
  rwa [h] at hc

/-- Where no channel has failed and no granule has an error, a granule read from DRAM meets nothing (03 R69, R71). -/
theorem meetEcc_of_sound {s : State} (hb : s.eccBad = []) (hs : s.eccSoft = []) (hc : s.channels = []) (source : Nat) (scrub : Bool) (g : Nat) :
    s.meetEcc source scrub g = (false, s) := by
  simp [State.meetEcc, State.chanState, hb, hs, hc]

theorem meetEccs_of_sound {s : State} (hb : s.eccBad = []) (hs : s.eccSoft = []) (hc : s.channels = []) (source : Nat) (scrub : Bool)
    (gs : List Nat) : s.meetEccs source scrub gs = (false, s) := by
  unfold State.meetEccs
  induction gs with
  | nil => rfl
  | cons g gs ih => simpa [meetEcc_of_sound hb hs hc] using ih

/-- Where nothing is poisoned and no channel is lost, the data of every range can be supplied (03 R69, R72). -/
theorem rangeBad_of_sound {s : State} (hc : s.channels = []) (hp : s.poison = []) (pa n : Nat) : s.rangeBad pa n = false := by
  simp [State.rangeBad, State.granuleBad, State.chanState, hc, hp]

/-- A range under the key it was last written under reads as memory holds it (03 R75). -/
theorem plainBytes_of_fresh {s : State} {k : BitVec 13} {pa n : Nat} (h : s.rangeStale k pa n = false) :
    s.plainBytes k pa n = s.mem.readBytes pa n := by
  rw [Memory.readBytes_eq]
  refine List.map_congr_left fun i hi => if_neg ?_
  have hg : (pa + i) / 32 ∈ granulesOf pa n := by
    rw [List.mem_range] at hi
    simp only [granulesOf, Nat.ne_of_gt (Nat.zero_lt_of_lt hi), if_false, List.mem_map, List.mem_range]
    exact ⟨(pa + i) / 32 - pa / 32, by omega, by omega⟩
  exact List.any_eq_false.1 h _ hg

/-- The home slice reads sound memory from DRAM: the bytes that memory holds, and the memory and the tile as they were (03 R78, 05
R109). -/
theorem sliceRead_of_sound {s : State} {a : Asker} {pa n : Nat} (hr : s.reqs = []) (hl : s.lineHit pa a.key = none) (ha : s.askCheck a pa = .ok)
    (hb : s.eccBad = []) (hs : s.eccSoft = []) (hc : s.channels = []) (hp : s.poison = []) (hf : s.rangeStale a.key pa n = false) :
    ∃ t, s.sliceRead a pa n = (.ok, s.mem.readBytes pa n, t) ∧ t.mem = s.mem ∧ t.tile = s.tile := by
  have base : s.baseRead a pa n = (.ok, s.mem.readBytes pa n, s) := by
    simp [State.baseRead, ha, meetEccs_of_sound hb hs hc, rangeBad_of_sound hc hp, hf, plainBytes_of_fresh hf]
  refine ⟨s.fillWhole a.source a.key pa, ?_, ?_, ?_⟩
  · simp [State.sliceRead, hl, base, Status.good, State.overlay, hr]
  · simp [State.fillWhole, meetEccs_of_sound hb hs hc, State.fillLine]
  · simp [State.fillWhole, meetEccs_of_sound hb hs hc, State.fillLine]

/-- Four bytes as a little-endian number are the word of those bytes (02 R29). -/
theorem ofNat_ofLe_four (b0 b1 b2 b3 : Byte) : BitVec.ofNat 32 (ofLe [b0, b1, b2, b3]) = wordOfBytes b0 b1 b2 b3 := by
  have append {n : Nat} (x : BitVec n) (b : Byte) : (x ++ b).toNat = b.toNat + 256 * x.toNat := by
    rw [BitVec.toNat_append, ← Nat.shiftLeft_add_eq_or_of_lt b.isLt, Nat.shiftLeft_eq]
    omega
  refine BitVec.eq_of_toNat_eq ?_
  simp only [wordOfBytes, append, ofLe, BitVec.toNat_ofNat]
  omega

section
variable {s : State} {pa : Nat} {key : BitVec 13}

/-- A word that the instruction cache holds is read from there. -/
theorem fetchPhys_of_cached {w : IWord} (h : s.tile.icache.find? (fun p => p.1 == pa) = some (pa, w)) (hb : s.tile.codeBad.contains pa = false) :
    s.fetchPhys pa key = .word w s := by
  simp only [State.fetchPhys, h, hb, Bool.false_eq_true, if_false]

/-- A word of the instruction cache with an uncorrectable error is UNCORR from a local source (16 R350). -/
theorem fetchPhys_of_bad {w : IWord} (h : s.tile.icache.find? (fun p => p.1 == pa) = some (pa, w)) (hb : s.tile.codeBad.contains pa = true) :
    s.fetchPhys pa key = .trap { cause := .uncorr, addr := s.st.pc, localSrc := true } s := by
  simp only [State.fetchPhys, h, hb, if_true]

/-- A word that the instruction cache does not hold waits for a request to its line and for the tile's older requests to the slice
(log 16). -/
theorem fetchPhys_of_waits (h : s.tile.icache.find? (fun p => p.1 == pa) = none)
    (hw : s.lineBusy pa = true ∨ s.olderWaits (s.gid s.tile.ltn) (sliceOf pa) s.reqSerial = true) : s.fetchPhys pa key = .busy s := by
  obtain hw | hw := hw <;> simp [State.fetchPhys, h, hw]

/-- With no request in flight nothing stands before a read at a home slice. -/
theorem not_waits_of_quiet (hr : s.reqs = []) (ha : s.atomics = []) (source slice serial : Nat) :
    s.lineBusy pa = false ∧ s.olderWaits source slice serial = false := by
  simp [State.lineBusy, State.olderWaits, hr, ha]

/-- A word that the instruction cache does not hold is read through its home slice and cached. -/
theorem fetchPhys_of_read {t : State} {bs : List Byte} (h : s.tile.icache.find? (fun p => p.1 == pa) = none)
    (hw : s.lineBusy pa = false ∧ s.olderWaits (s.gid s.tile.ltn) (sliceOf pa) s.reqSerial = false)
    (hs : s.sliceRead (s.askerOf s.tile.ltn s.tile.paddock (s.st.lvl == 2) key) pa 4 = (.ok, bs, t)) :
    s.fetchPhys pa key =
      .word (BitVec.ofNat 32 (ofLe bs)) (t.onTile fun t => { t with icache := t.icache ++ [(pa, BitVec.ofNat 32 (ofLe bs))] }) := by
  simp only [State.fetchPhys, h, hw, hs, Bool.or_self, Bool.false_eq_true, if_false, Status.cause]

end

/-- Settles O5: the code region, the translation, the instruction cache, what the word waits for, and the read of sound memory. -/
theorem fetchReadsWord : Obligations.FetchReadsWord := by
  refine fun s s' pa key => ⟨fetch_outside, fun lo hi => ⟨fun c h => fetch_of_fault lo hi h, fun h => ?_⟩, fun lo hi h => ?_⟩
  · have frame := askWalk_frame s' s.tile.paddock { tile := s.tile.ltn, agent := .fetch s.cur, access := 2, xc := s.xc, va := s.st.pc }
    exact ⟨_, fetch_of_walk lo hi h, frame.1.trans (translate_mem h), frame.2⟩
  · rw [fetch_of_ok lo hi h]
    refine ⟨fun w => fetchPhys_of_cached, fun w => fetchPhys_of_bad, fetchPhys_of_waits,
      fun miss hr ha hl ask hb hs hc hp fresh => ?_⟩
    obtain ⟨t, read, mem, tile⟩ := sliceRead_of_sound hr hl ask hb hs hc hp fresh
    have word : BitVec.ofNat 32 (ofLe (s'.mem.readBytes pa 4)) =
        wordOfBytes (s'.mem.read pa) (s'.mem.read (pa + 1)) (s'.mem.read (pa + 2)) (s'.mem.read (pa + 3)) := ofNat_ofLe_four ..
    rw [← word]
    refine ⟨_, fetchPhys_of_read miss (not_waits_of_quiet hr ha ..) read, mem, ?_⟩
    simp [State.onTile, tile]

end Sys2Proof.Machine
end

section
/-! 03 R85-R87: tagged requests to main memory, from their issue to the wait that consumes their reply. -/
namespace Sys2Proof.Machine

/-! ### Lists by place -/

theorem dropAt_eq_eraseIdx {α : Type} (n : Nat) (l : List α) : dropAt n l = l.eraseIdx n := by
  induction l generalizing n with
  | nil => cases n <;> rfl
  | cons x l ih => cases n with
    | zero => rfl
    | succ n => simp [dropAt, ih]

theorem modAt_eq_modify {α : Type} (f : α → α) (n : Nat) (l : List α) : modAt f n l = l.modify n f := by
  induction l generalizing n with
  | nil => cases n <;> rfl
  | cons x l ih => cases n with
    | zero => rfl
    | succ n => simp [modAt, ih]

theorem length_dropAt {α : Type} {n : Nat} {l : List α} {x : α} (h : l[n]? = some x) : (dropAt n l).length + 1 = l.length := by
  obtain ⟨hn, -⟩ := List.getElem?_eq_some_iff.1 h
  rw [dropAt_eq_eraseIdx, List.length_eraseIdx_of_lt hn]
  omega

/-! ### Tags and waking -/

theorem setTag_tag (s : State) (i r : TReg) (x : Tag) : (s.setTag i x).tile.tag r = if r = i then x else s.tile.tag r := by
  have h : (i.toNat = r.toNat) ↔ r = i := by rw [← BitVec.toNat_inj, eq_comm]
  simp only [State.setTag, Tile.tag, onTile_tile, Vector.getElem_set, h]

theorem tag_congr {t u : Tile} (h : t.tags = u.tags) (i : TReg) : t.tag i = u.tag i := by rw [Tile.tag, Tile.tag, h]

/-- An event leaves a strand as it is, or ends its `wfi` (16 R367). -/
theorem wake_strand (t : Tile) (i : StrandId) : t.wake.strand i = t.strand i ∨ t.wake.strand i = (t.strand i).retire := by
  cases i
  all_goals
    simp only [Tile.wake, Tile.wakeSince, Tile.strand, if_true]
    split
    · exact .inr rfl
    · exact .inl rfl

theorem wake_reg (s : State) (r : SReg) : (s.onTile Tile.wake).reg r = s.reg r := by
  refine reg_eq_of_regs ?_ r
  show (s.tile.wake.strand s.cur).regs = _
  obtain h | h := wake_strand s.tile s.cur
  · rw [h]; rfl
  · rw [h, retire_regs]; rfl

/-! ### What a state that keeps its tile keeps -/

theorem sameVectors_of_tile {s u : State} (hv : u.tile.v = s.tile.v) (hk : u.tile.k = s.tile.k) : SameVectors s u :=
  ⟨fun r => by simp only [State.vreg, hv], fun r => by simp only [State.kreg, hk]⟩

theorem sameBytes_of_eq {s u : State} (hm : u.mem = s.mem) (hs : u.tile.spad = s.tile.spad) (ha : u.tile.acc = s.tile.acc) :
    SameBytes s u :=
  ⟨fun _ => by rw [hm], fun _ => by rw [hs], fun _ => by rw [ha]⟩

/-! ### Waiting and polling (03 R87) -/

/-- A word whose body writes one scalar register and does nothing else. -/
theorem scalarResult_of_setReg {i : Instr} {s : State} {d : SReg} {v : DW} {body : State → Exec} (h : Issues i s)
    (hb : body s = .ok (s.setReg d v)) : ScalarResult (run i s body) s d v := by
  refine ⟨_, run_ok h hb, fun r => ?_, sameVectors_of_tile (by simp) (by simp), ?_, ?_, sameBytes_of_eq ?_ ?_ ?_⟩
  · rw [reg_eq_of_regs (State.retire_st_regs _), setReg_reg]
    rfl
  all_goals simp [SameContexts, SameSpecial, SameControl]

theorem consumeTag_good {s : State} {t : TReg} (h : (s.tile.tag t).status = .ok) :
    s.consumeTag t = .ok (s.setTag t { s.tile.tag t with phase := .idle }) := by
  simp [State.consumeTag, h, Status.cause]

theorem consumeTag_failed {s : State} {t : TReg} {c : Cause} (h : (s.tile.tag t).status.cause = some c) :
    s.consumeTag t = .error (.trap (raise c) (s.setTag t { s.tile.tag t with phase := .idle })) := by
  simp [State.consumeTag, h, State.trap]

section
variable {s : State} {d : SReg} {t : TReg}

theorem mrqWait_idle (h : Issues (.mrqWait d t) s) (hp : (s.tile.tag t).phase = .idle) : ScalarResult (exec (.mrqWait d t) s) s d 0 := by
  rw [exec_mrqWait, execMrqWait]
  exact scalarResult_of_setReg h (by simp only [hp])

theorem mrqWait_busy (h : Issues (.mrqWait d t) s) (hp : (s.tile.tag t).phase = .busy) :
    exec (.mrqWait d t) s = .next (s.onSt fun x => { x with wait := some (.retry .memory) }) := by
  rw [exec_mrqWait, execMrqWait]
  exact run_wait h (by simp only [hp, State.stall])

theorem mrqWait_done (h : Issues (.mrqWait d t) s) (hp : (s.tile.tag t).phase = .done) (hs : (s.tile.tag t).status = .ok) :
    exec (.mrqWait d t) s = .next ((s.setTag t { s.tile.tag t with phase := .idle }).setReg d (s.tile.tag t).data).retire := by
  rw [exec_mrqWait, execMrqWait]
  exact run_ok h (by simp only [hp, consumeTag_good hs]; rfl)

theorem mrqWait_failed (h : Issues (.mrqWait d t) s) {c : Cause} (hp : (s.tile.tag t).phase = .done)
    (hs : (s.tile.tag t).status.cause = some c) :
    exec (.mrqWait d t) s = .next ((s.setTag t { s.tile.tag t with phase := .idle }).takeTrap (raise c)) := by
  rw [exec_mrqWait, execMrqWait]
  exact run_trap h (by simp only [hp, consumeTag_failed hs]; rfl)

end

/-! ### The arrival of a reply (03 R86) -/

section
variable {s : State} {q : MemReq} {t : TReg}

/-- A reply that arrives at its tile leaves the list of requests and reaches its tag. -/
theorem mrqReplyArrival_eq (hq : s.reqs[s.input.k]? = some q) (hh : q.handle = .tag t) (hp : q.phase = .toTile)
    (hs : q.source = s.gid s.tile.ltn) :
    exec .mrqReplyArrival s = .next (({ s with reqs := dropAt s.input.k s.reqs } : State).tagReply t q) := by
  simp [execMrqReplyArrival, event, hq, hh, hp, hs]

/-- The state of a tag whose reply has arrived (03 R86). -/
def MemReq.doneTag (q : MemReq) : Tag :=
  { phase := .done, status := if q.status.good then .ok else q.status,
    data := if q.kind = .rd ∧ q.len = 8 ∧ q.status.good then BitVec.ofNat 64 (ofLe q.data) else 0, dest := none }

/-- A reply puts its data at the tag's destination, if it names one, makes the tag DONE and wakes the tile. -/
theorem tagReply_eq (s : State) (t : TReg) (q : MemReq) : ∃ w : State, s.tagReply t q = (w.setTag t q.doneTag).onTile Tile.wake ∧
    w.reqs = s.reqs ∧ w.mem = s.mem ∧ w.st = s.st ∧ w.tile.tags = s.tile.tags ∧ ((s.tile.tag t).dest = none → w = s) ∧
    ∀ l, (s.tile.tag t).dest = some l → q.status.good = true → w = s.engineStore l q.data := by
  cases hd : (s.tile.tag t).dest with
  | none => exact ⟨s, by simp only [State.tagReply, hd]; rfl, rfl, rfl, rfl, rfl, fun _ => rfl, by simp⟩
  | some l =>
    by_cases hg : q.status.good = true
    · exact ⟨s.engineStore l q.data, by simp only [State.tagReply, MemReq.doneTag, hd, hg]; rfl, rfl, rfl, engineStore_st .., rfl,
        by simp, by simp⟩
    · exact ⟨(s.engineStore l ((List.range q.len).map (Config.freeByte s.free))).takeFree,
        by simp only [State.tagReply, MemReq.doneTag, hd, hg]; rfl, rfl, rfl, engineStore_st .., rfl, by simp, by simp [hg]⟩

end

/-- Settles O23: the wait by the tag's state, the poll, and the reply that arrives. -/
theorem requestReplies : Obligations.RequestReplies := by
  refine fun s d t k q => ⟨fun h => ⟨mrqWait_idle h, mrqWait_busy h, fun hp hs => ?_, fun c hp hc => ?_⟩, fun h => ?_,
    fun hk hq hh hp hs wf => ?_⟩
  · have tag (r : TReg) : ((s.setTag t { s.tile.tag t with phase := .idle }).setReg d (s.tile.tag t).data).retire.tile.tag r =
        if r = t then { s.tile.tag t with phase := .idle } else s.tile.tag r := (tag_congr (by simp) r).trans (setTag_tag s t r _)
    refine ⟨_, mrqWait_done h hp hs, fun r => ?_, ?_, fun r hr => ?_, sameVectors_of_tile ?_ ?_, ?_, sameBytes_of_eq ?_ ?_ ?_⟩
    · rw [reg_eq_of_regs (State.retire_st_regs _), setReg_reg]
      rfl
    · rw [tag, if_pos rfl]
    · rw [tag, if_neg hr]
    all_goals simp [State.setTag, SameContexts]
  · refine mrqWait_failed h hp ?_
    obtain ⟨hs, rfl⟩ | ⟨hs | hs, rfl⟩ := hc <;> rw [hs] <;> rfl
  · rw [exec_mrqPoll, execMrqPoll]
    refine scalarResult_of_setReg h ?_
    cases (s.tile.tag t).phase <;> rfl
  · subst hk
    obtain ⟨w, hw, reqs, mem, st, tags, none, some⟩ := tagReply_eq { s with reqs := dropAt s.input.k s.reqs } t q
    have tag (r : TReg) : ((w.setTag t q.doneTag).onTile Tile.wake).tile.tag r = if r = t then q.doneTag else s.tile.tag r :=
      (setTag_tag w t r _).trans (if_congr Iff.rfl rfl (tag_congr tags r))
    refine ⟨_, (mrqReplyArrival_eq hq hh hp hs).trans (congrArg _ hw), ?_, ?_, ?_, fun r hr => ?_, fun rd len ok => ?_, fun other => ?_,
      fun hd => ?_, fun l hd ok => ?_, fun r => ?_, mem⟩
    · rw [← length_dropAt hq]
      exact congrArg (·.length + 1) reqs
    · rw [tag, if_pos rfl]; rfl
    · rw [tag, if_pos rfl]
      cases hq' : q.status <;> simp [MemReq.doneTag, hq', Status.good]
    · rw [tag, if_neg hr]
    · rw [tag, if_pos rfl]
      simp [MemReq.doneTag, rd, len, ok, Status.good]
    · rw [tag, if_pos rfl]
      exact if_neg fun h => other.elim (· h.1) (· h.2.1)
    · rw [none hd]
      exact sameBytes_of_eq rfl rfl rfl
    · have spad : ((w.setTag t q.doneTag).onTile Tile.wake).tile.spad = s.tile.spad.writeBytes l q.data := by
        rw [some l hd (by rw [ok]; rfl)]
        rfl
      rw [spad]
      refine ⟨fun j hj => ?_, fun a ha => ?_⟩
      · rw [Memory.read_writeBytes _ _ _ wf, if_pos (by omega), Nat.add_sub_cancel_left]
      · rw [Memory.read_writeBytes _ _ _ wf, if_neg (by omega)]
    · rw [wake_reg]
      exact reg_eq_of_regs (congrArg Strand.regs st) r

/-! ### The issue of a request (03 R85, R86) -/

/-- The caches of leaves are no part of what a request and its packet are made of. -/
theorem OnlyCaches.request {s u : State} (h : OnlyCaches s u) (key : BitVec 13) :
    u.asker key = s.asker key ∧ u.seen = s.seen ∧ u.tile.spadBad = s.tile.spadBad ∧ u.reqs = s.reqs ∧ u.reqSerial = s.reqSerial := by
  unfold OnlyCaches at h
  rw [h]
  exact ⟨rfl, rfl, rfl, rfl, rfl⟩

/-- Nor of what a program sees of its tile. -/
theorem OnlyCaches.program {s u : State} (h : OnlyCaches s u) :
    u.tile.tags = s.tile.tags ∧ u.st.regs = s.st.regs ∧ u.tile.v = s.tile.v ∧ u.tile.k = s.tile.k ∧ u.tile.ctxs = s.tile.ctxs ∧
    u.tile.spad = s.tile.spad ∧ u.tile.acc = s.tile.acc := by
  unfold OnlyCaches at h
  rw [h]
  exact ⟨rfl, rfl, rfl, rfl, rfl, rfl, rfl⟩

/-- An address that translates has no cause to raise and nothing to wait for. -/
theorem xlate_of_ok {s s1 : State} {ag : Agent} {va : DW} {n kind pa : Nat} {key : BitVec 13}
    (h : s.translate s.tile.ltn s.xc s.tile.paddock va n kind false = (.ok pa key, s1)) : s.xlate ag va n kind = .ok (pa, key, s1) := by
  simp only [State.xlate, h]

/-- The bytes that a request carries: none for a read, those at a local source, or those of a register. -/
def State.requestData (s : State) (rd : Bool) (n : Nat) (loc : Option DW) (data : DW) : List Byte :=
  match rd, loc with
  | true, _ => []
  | false, some l => s.seen.readBytes l.toNat n
  | false, none => leBytes n data.toNat

/-- The packet of a request, and the tag that waits for its reply. -/
def State.requestPacket (s : State) (kind : ReqKind) (t : TReg) (pa n : Nat) (key : BitVec 13) (mask : BitVec 64) (bytes : List Byte) :
    MemReq := { MemReq.blank kind (.tag t) (s.asker key) pa n with strand := s.cur, bmask := mask, data := bytes }

def busyTag (rd : Bool) (loc : Option DW) : Tag :=
  { phase := .busy, status := .ok, data := 0, dest := if rd then loc.map BitVec.toNat else none }

section
variable {s s1 : State} {kind : ReqKind} {t : TReg} {va : DW} {n pa : Nat} {mask : BitVec 64} {loc : Option DW} {data : DW}
  {key : BitVec 13}

theorem issueReq_misaligned (ha : va.toNat % n ≠ 0) :
    s.issueReq kind t va n mask loc data = .error (.trap { cause := .align, addr := va } s) := by
  simp [State.issueReq, State.checkAt, State.trapAt, ha, bind, Except.bind]

variable (ha : va.toNat % n = 0) (hl : ∀ l, loc = some l → LocalOk s l n (kind == .rd))
  (ht : s.translate s.tile.ltn s.xc s.tile.paddock va n (if kind == .rd then 0 else 1) false = (.ok pa key, s1))
include ha hl ht

theorem issueReq_busy (hp : (s.tile.tag t).phase = .busy) :
    s.issueReq kind t va n mask loc data = .error (.wait (.retry .memory) s1) := by
  unfold State.issueReq
  cases loc with
  | none => simp only [State.checkAt, ha, xlate_of_ok ht, hp]; rfl
  | some l => simp only [State.checkAt, ha, localCheck_ok (hl l rfl), xlate_of_ok ht, hp]; rfl

theorem issueReq_idle (hp : (s.tile.tag t).phase = .idle) (hr : ∀ l, loc = some l → (kind == .rd) = false → Readable s l.toNat n) :
    s.issueReq kind t va n mask loc data =
      .ok ((s1.addReq (s.requestPacket kind t pa n key mask (s.requestData (kind == .rd) n loc data))).setTag t
        (busyTag (kind == .rd) loc)) := by
  have hc := translate_only s s.tile.ltn s.xc s.tile.paddock va n (if kind == .rd then 0 else 1) false
  rw [ht] at hc
  obtain ⟨asker, seen, bad, -⟩ := hc.request key
  unfold State.issueReq
  cases loc with
  | none =>
    simp only [State.checkAt, ha, xlate_of_ok ht, hp]
    cases kind == .rd <;> (simp only [State.requestPacket, ← asker]; rfl)
  | some l =>
    simp only [State.checkAt, ha, localCheck_ok (hl l rfl), xlate_of_ok ht, hp]
    cases hk : kind == .rd with
    | false =>
      have load : s1.loadLocal l.toNat n = .ok (s.seen.readBytes l.toNat n) := by
        dsimp only at seen bad
        simp only [State.loadLocal, bad, wordsBad_no (hr l rfl hk), seen]; rfl
      simp only [State.requestPacket, ← asker, bind, Except.bind, reduceCtorEq, if_false, load]
      rfl
    | true => simp only [State.requestPacket, ← asker]; rfl

end

/-- Bit j of an expanded mask is bit j / 8 of the mask (03 R86). -/
theorem expandMask_getLsbD (m : BitVec 8) {j : Nat} (h : j < 64) : (expandMask m).getLsbD j = m.getLsbD (j / 8) := by
  have byte := bitsOf_packList 8 (j / 8) ((List.range 8).map fun i => if m.getLsbD i then 255 else 0)
  have bit (x : Nat) : x.testBit j = (bitsOf x (8 * (j / 8)) 8).testBit (j % 8) := by
    rw [bitsOf, Nat.testBit_mod_two_pow, Nat.testBit_div_two_pow, Nat.mod_add_div]
    simp [Nat.mod_lt]
  rw [expandMask, BitVec.getLsbD_ofNat, bit, byte, decide_eq_true h, Bool.true_and, List.getD_eq_getElem?_getD, List.getElem?_map,
    List.getElem?_range (show j / 8 < 8 by omega)]
  have ones : ∀ k < 8, Nat.testBit 255 k = true := by decide
  cases hm : m.getLsbD (j / 8)
  · simp [hm]
  · simp [hm, ones (j % 8) (Nat.mod_lt _ (by decide))]

theorem getD_leBytes (n v : Nat) {j : Nat} (h : j < n) : (leBytes n v).getD j 0 = BitVec.ofNat 8 (v / 2 ^ (8 * j)) := by
  induction n generalizing v j with
  | zero => omega
  | succ n ih =>
    cases j with
    | zero => simp [leBytes]
    | succ j =>
      rw [leBytes, List.getD_cons_succ, ih _ (by omega), Nat.div_div_eq_div_mul, Nat.mul_succ, Nat.pow_add, Nat.mul_comm]

/-- The bytes of a register, least significant first. -/
theorem getD_leBytes_reg (v : DW) {j : Nat} (h : j < 8) : (leBytes 8 v.toNat).getD j 0 = v.extractLsb' (8 * j) 8 := by
  rw [getD_leBytes _ _ h, BitVec.extractLsb', Nat.shiftRight_eq_div_pow]

/-- A word is the issue of one request: its kind, its local end at `l` or none, its byte mask and the register that it carries. -/
structure IssuesRequest (i : Instr) (s : State) (kind : ReqKind) (t : TReg) (l va : DW) (n : Nat) (rd near : Bool) (mask : BitVec 8)
    (bm : BitVec 64) (data : DW) : Prop where
  exec_eq : exec i s = .next (finish s (s.issueReq kind t va n bm (if near then some l else none) data))
  kind_rd : (kind == .rd) = rd
  mask_eq : kind = .wrm → bm = expandMask mask
  data_eq : near = false → rd = false → n = 8 ∧ data = l

section
variable {s : State} {sz : BitVec 2} {t : TReg} {a d : SReg} {off : BitVec 6} {m : DW}

theorem near_iff (l : DW) : (if decide (sz ≠ 0) = true then some l else none) = if sz = 0 then none else some l := by
  by_cases h : sz = 0 <;> simp [h]

theorem mrqRd_request (h : Issues (.mrqRd sz t a d off) s) (hm : SignedImm s off m) (mask : BitVec 8) :
    IssuesRequest (.mrqRd sz t a d off) s .rd t (s.reg d) (s.reg a + m * BitVec.ofNat 64 (8 * 2 ^ sz.toNat)) (8 * 2 ^ sz.toNat) true
      (decide (sz ≠ 0)) mask (BitVec.allOnes 64) 0 where
  exec_eq := by
    rw [exec_mrqRd, execMrqRd, h.run]
    simp only [memAddr_eq hm, near_iff]
  kind_rd := rfl
  mask_eq := by simp
  data_eq := by simp

theorem mrqWr_request (h : Issues (.mrqWr sz t a d off) s) (hm : SignedImm s off m) (mask : BitVec 8) :
    IssuesRequest (.mrqWr sz t a d off) s .wr t (s.reg d) (s.reg a + m * BitVec.ofNat 64 (8 * 2 ^ sz.toNat)) (8 * 2 ^ sz.toNat) false
      (decide (sz ≠ 0)) mask (BitVec.allOnes 64) (s.reg d) where
  exec_eq := by
    rw [exec_mrqWr, execMrqWr, h.run]
    simp only [memAddr_eq hm, near_iff]
  kind_rd := rfl
  mask_eq := by simp
  data_eq near _ := by
    obtain rfl : sz = 0 := by simpa using near
    exact ⟨rfl, rfl⟩

theorem mrqWrm_request {mask : BitVec 8} (h : Issues (.mrqWrm t a d mask) s) (hm : mask ≠ 0) :
    IssuesRequest (.mrqWrm t a d mask) s .wrm t (s.reg d) (s.reg a) 64 false true mask (expandMask mask) 0 where
  exec_eq := by
    rw [exec_mrqWrm, execMrqWrm, h.run, if_neg hm]
    rfl
  kind_rd := rfl
  mask_eq _ := rfl
  data_eq := by simp

/-- An empty mask is ILL (03 R85). -/
theorem mrqWrm_empty (h : Issues (.mrqWrm t a d 0) s) : exec (.mrqWrm t a d 0) s = .next (s.takeTrap (raise .ill)) := by
  rw [exec_mrqWrm, execMrqWrm]
  exact run_trap h rfl

end

/-- Settles O22: each form is one request, and a request is misaligned, waits for its tag, or is sent. -/
theorem requestIssue : Obligations.RequestIssue := by
  intro s s1 i kind sz t a d off mask m va n rd near pa key form h
  obtain ⟨bm, data, q⟩ : ∃ bm data, IssuesRequest i s kind t (s.reg d) va n rd near mask bm data := by
    obtain ⟨rfl, rfl, rfl, rfl, rfl, hm, rfl⟩ | ⟨rfl, rfl, rfl, rfl, rfl, hm, rfl⟩ | ⟨rfl, hm, rfl, rfl, rfl, rfl, rfl⟩ := form
    · exact ⟨_, _, mrqRd_request h hm mask⟩
    · exact ⟨_, _, mrqWr_request h hm mask⟩
    · exact ⟨_, _, mrqWrm_request h hm⟩
  obtain ⟨exec_eq, rfl, mask_eq, data_eq⟩ := q
  refine ⟨fun ha => by rw [exec_eq, issueReq_misaligned ha, finish_trap], fun ha hl ht => ?_, mrqWrm_empty⟩
  have at_local : ∀ l, (if near then some (s.reg d) else none) = some l → near = true ∧ l = s.reg d := by
    cases near <;> simp [eq_comm]
  have check : ∀ l, (if near then some (s.reg d) else none) = some l → LocalOk s l n (kind == .rd) := by
    intro l e
    obtain ⟨hn, rfl⟩ := at_local l e
    exact hl hn
  refine ⟨fun hp => by rw [exec_eq, issueReq_busy ha check ht hp, finish_wait h.budget], fun hp hr => ?_⟩
  rw [issueReq_idle ha check ht hp fun l e hk => by obtain ⟨hn, rfl⟩ := at_local l e; exact hr hk hn, finish_ok h.budget] at exec_eq
  have hc := translate_only s s.tile.ltn s.xc s.tile.paddock va n (if kind == .rd then 0 else 1) false
  rw [ht] at hc
  dsimp only at hc
  obtain ⟨-, -, -, reqs, serial⟩ := hc.request key
  refine ⟨_, _, exec_eq, congrArg (· ++ _) reqs, serial, rfl, rfl, rfl, rfl, ?_, rfl, rfl, rfl, rfl, rfl, fun hk j hj => ?_,
    fun j hj hk => ?_, ?_⟩
  · by_cases hv : s.st.lvl = 2 <;> simp [State.requestPacket, MemReq.blank, State.asker, State.askerOf, hv]
  · exact (congrArg (BitVec.getLsbD · j) (mask_eq hk)).trans (expandMask_getLsbD mask hj)
  · show (s.requestData _ _ _ _).getD j 0 = _
    rw [hk]
    cases near with
    | true => simp [State.requestData, Memory.readBytes_eq, hj]
    | false =>
      obtain ⟨rfl, rfl⟩ := data_eq rfl hk
      exact getD_leBytes_reg _ hj
  obtain ⟨tags, regs, v, k, ctxs, spad, acc⟩ := hc.program
  have tag (r : TReg) (x : Tag) (q : MemReq) : (((s1.addReq q).setTag t x).retire).tile.tag r = if r = t then x else s.tile.tag r :=
    (tag_congr (State.retire_tile_tags _) r).trans ((setTag_tag _ t r x).trans (if_congr Iff.rfl rfl (tag_congr tags r)))
  refine ⟨?_, ?_, fun r hr => ?_, fun r => ?_, sameVectors_of_tile ?_ ?_, ?_, sameBytes_of_eq hc.mem ?_ ?_⟩
  · rw [tag, if_pos rfl]; rfl
  · rw [tag, if_pos rfl]
    cases near <;> simp [busyTag]
  · rw [tag, if_neg hr]
  · refine reg_eq_of_regs ?_ r
    rw [State.retire_st_regs]
    exact regs
  · exact (State.retire_tile_v _).trans v
  · exact (State.retire_tile_k _).trans k
  · exact (State.retire_tile_ctxs _).trans ctxs
  · exact (State.retire_tile_spad _).trans spad
  · exact (State.retire_tile_acc _).trans acc

end Sys2Proof.Machine
end

section
/-! 03 R65, R68, R72, R76, R80-R83: what a base die does with the oldest request at its granules, and what its parity die does with the
delta of a write. -/
namespace Sys2Proof.Machine

/-! ### Granules and bytes -/

theorem mem_granulesOf {pa n g : Nat} : g ∈ granulesOf pa n ↔ 0 < n ∧ pa / 32 ≤ g ∧ g ≤ (pa + n - 1) / 32 := by
  unfold granulesOf
  split
  · next h => simp [h]
  · simp only [List.mem_map, List.mem_range]
    constructor
    · rintro ⟨i, hi, rfl⟩
      omega
    · rintro ⟨hn, lo, hi⟩
      exact ⟨g - pa / 32, by omega, by omega⟩

/-- A range within another one is under the key it was last written under, where that one is. -/
theorem rangeStale_sub {s : State} {k : BitVec 13} {pa n a m : Nat} (h : s.rangeStale k pa n = false) (lo : pa ≤ a) (hi : a + m ≤ pa + n) :
    s.rangeStale k a m = false := by
  simp only [State.rangeStale, List.any_eq_false, mem_granulesOf] at h ⊢
  exact fun g hg => h g (by omega)

/-- Reading after a write of the enabled ones of several bytes. -/
theorem Memory.read_writeWhere {m : Memory} (a b : Nat) (en : Nat → Bool) (i : Nat) (bs : List Byte) (h : m.wf = true) :
    (m.writeWhere a en i bs).read b =
      if a + i ≤ b ∧ b < a + i + bs.length ∧ en (b - a) = true then bs.getD (b - a - i) 0 else m.read b := by
  induction bs generalizing m i with
  | nil => rw [if_neg (by simp only [List.length_nil]; omega)]; rfl
  | cons x r ih =>
    have hw : (if en i then m.write (a + i) x else m).wf = true := by
      split
      · exact Memory.wf_write _ _ h
      · exact h
    have first : (if en i then m.write (a + i) x else m).read b = if b = a + i ∧ en i = true then x else m.read b := by
      by_cases e : en i = true <;> simp [e, Memory.read_write _ _ _ h]
    rw [Memory.writeWhere, ih (i + 1) hw, first, List.length_cons]
    by_cases hb : b = a + i
    · subst hb
      rw [if_neg (by omega), Nat.add_sub_cancel_left, Nat.sub_self, List.getD_cons_zero]
      exact if_congr ⟨fun h => ⟨by omega, by omega, h.2⟩, fun h => ⟨rfl, h.2.2⟩⟩ rfl rfl
    · by_cases e : a + (i + 1) ≤ b ∧ b < a + (i + 1) + r.length ∧ en (b - a) = true
      · obtain ⟨lo, hi, he⟩ := e
        rw [if_pos ⟨lo, hi, he⟩, if_pos ⟨by omega, by omega, he⟩, show b - a - i = (b - a - (i + 1)) + 1 by omega, List.getD_cons_succ]
      · rw [if_neg e, if_neg fun h => hb h.1, if_neg]
        rintro ⟨lo, hi, he⟩
        exact e ⟨by omega, by omega, he⟩

theorem OnlyStore.reqs_eq {s t : State} (h : OnlyStore s t) : t.reqs = s.reqs := by
  unfold OnlyStore at h
  rw [h]

theorem modReq_getElem? {s : State} {k : Nat} {r : MemReq} (f : MemReq → MemReq) (h : s.reqs[k]? = some r) :
    (s.modReq k f).reqs[k]? = some (f r) := by
  simp [State.modReq, modAt_eq_modify, h]

/-! ### The checks (03 R65, R76) -/

section
variable {s : State} {a : Asker} {pa : Nat} {st : Status}

theorem askCheck_cases (s : State) (a : Asker) (pa : Nat) :
    s.askCheck a pa = .ok ∨ s.askCheck a pa = .ownErr ∨ s.askCheck a pa = .keyErr := by
  unfold State.askCheck
  split
  · exact .inr (.inl rfl)
  · split
    · exact .inr (.inr rfl)
    · exact .inl rfl

theorem baseRead_refused (n : Nat) (h : s.askCheck a pa = st) (hs : st ≠ .ok) :
    ∃ v, s.baseRead a pa n = (st, [], v) ∧ v.reqs = s.reqs ∧ v.mem = s.mem := by
  unfold State.baseRead
  obtain e | e | e := askCheck_cases s a pa <;> rw [e] at h ⊢ <;> subst h
  · exact absurd rfl hs
  · exact ⟨_, rfl, rfl, rfl⟩
  · exact ⟨_, rfl, rfl, rfl⟩

theorem baseWrite_refused (bs : List Byte) (en : Nat → Bool) (h : s.askCheck a pa = st) (hs : st ≠ .ok) :
    ∃ v, s.baseWrite a pa bs en = (st, [], v) ∧ v.reqs = s.reqs ∧ v.mem = s.mem := by
  unfold State.baseWrite
  obtain e | e | e := askCheck_cases s a pa <;> rw [e] at h ⊢ <;> subst h
  · exact absurd rfl hs
  · exact ⟨_, rfl, rfl, rfl⟩
  · exact ⟨_, rfl, rfl, rfl⟩

end

/-! ### Sound memory (03 R72, R77, R81) -/

/-- No granule has an error and no channel has failed. -/
structure State.NoErrors (s : State) : Prop where
  bad : s.eccBad = []
  soft : s.eccSoft = []
  channels : s.channels = []

section
variable {s : State} {a : Asker} {pa n : Nat}

theorem baseRead_poisoned (h : s.NoErrors) (ask : s.askCheck a pa = .ok) (hp : ∃ g ∈ granulesOf pa n, g ∈ s.poison) :
    s.baseRead a pa n = (.poison, [], s) := by
  have hb : s.rangeBad pa n = true := by
    obtain ⟨g, hg, hp⟩ := hp
    exact List.any_eq_true.2 ⟨g, hg, by simp [State.granuleBad, hp]⟩
  simp [State.baseRead, ask, meetEccs_of_sound h.bad h.soft h.channels, hb]

theorem baseRead_sound (h : s.NoErrors) (ask : s.askCheck a pa = .ok) (hp : s.poison = []) (hf : s.rangeStale a.key pa n = false) :
    s.baseRead a pa n = (.ok, (List.range n).map fun i => s.mem.read (pa + i), s) := by
  simp [State.baseRead, ask, meetEccs_of_sound h.bad h.soft h.channels, rangeBad_of_sound h.channels hp, hf, plainBytes_of_fresh hf,
    Memory.readBytes_eq]

theorem granuleBad_of_sound (h : s.NoErrors) (hp : s.poison = []) (g : Nat) : s.granuleBad g = false := by
  simp [State.granuleBad, State.chanState, h.channels, hp]

theorem baseWrite_sound (bs : List Byte) (en : Nat → Bool) (h : s.NoErrors) (ask : s.askCheck a pa = .ok) (hp : s.poison = []) :
    ∃ d, s.baseWrite a pa bs en = (.ok, d, s.putPlain a.key pa bs en) := by
  refine ⟨deltaBytes s (s.putPlain a.key pa bs en) (writtenGranules pa bs.length en), ?_⟩
  simp [State.baseWrite, ask, meetEccs_of_sound h.bad h.soft h.channels, granuleBad_of_sound h hp]

/-- Where nothing is stale, bytes are written where they are enabled and nowhere else. -/
theorem putPlain_mem {k : BitVec 13} {bs : List Byte} {en : Nat → Bool} (hf : s.rangeStale k pa bs.length = false) :
    (s.putPlain k pa bs en).mem = s.mem.writeWhere pa en 0 bs := by
  refine congrArg (fun t : State => t.mem.writeWhere pa en 0 bs) (List.foldlRecOn _ _ (motive := fun t => t = s) rfl fun t ht g hg => ?_)
  have hg' : s.granuleStale k g = false := by simpa using List.any_eq_false.1 hf g (List.mem_of_mem_filter hg)
  subst ht
  simp [hg']

end

/-! ### One request at its base die (03 R80-R83) -/

/-- A base die's square write: the record with the version it found plus 1 (03 R83). -/
def State.serveSquareWrite (s : State) (k : Nat) (r : MemReq) : State :=
  match s.askCheck r.asker r.pa with
  | .ok => (s.nextVersion r).1.serveWrite k
      { r with data := r.data.take 4 ++ leBytes 2 (s.nextVersion r).2.toNat ++ r.data.drop 6, version := (s.nextVersion r).2 }
  | _ => s.serveWrite k r

/-- What a base die does with a request whose turn it is, by the two properties of its kind: it reads, it is a square kind. -/
def State.serve (s : State) (rd sq : Bool) (k : Nat) (r : MemReq) : State :=
  match rd, sq with
  | true, false => s.serveRead k r
  | true, true => s.squareKind k r State.serveRead
  | false, false => s.serveWrite k r
  | false, true => s.squareKind k r State.serveSquareWrite

section
variable {s : State} {k : Nat} {r : MemReq}

/-- An event of a base die takes a request of its kind, once it is the oldest at its granules. -/
theorem baseEvent_eq {kind : ReqKind} {f : State → Nat → MemReq → State} (hk : s.input.k = k) (hr : s.reqs[k]? = some r)
    (hkind : r.kind = kind) : baseEvent kind f s = .next (if s.baseMay k r then f s k r else s) := by
  subst hk
  simp [baseEvent, event, hr, hkind]

theorem squareKind_placed (f : State → Nat → MemReq → State) (h : squarePlaceOk r.pa r.len = true) : s.squareKind k r f = f s k r := if_pos h

theorem serveRead_refused {st : Status} (hr : s.reqs[k]? = some r) (h : s.askCheck r.asker r.pa = st) (hs : st ≠ .ok) :
    ∃ q, (s.serveRead k r).reqs[k]? = some q ∧ q.phase = .fromBase ∧ q.status = st ∧ (s.serveRead k r).mem = s.mem := by
  obtain ⟨v, e, reqs, mem⟩ := baseRead_refused r.len h hs
  simp only [State.serveRead, e]
  exact ⟨_, modReq_getElem? _ (by rw [reqs, hr]), rfl, rfl, mem⟩

theorem serveWrite_refused {st : Status} (hr : s.reqs[k]? = some r) (h : s.askCheck r.asker r.pa = st) (hs : st ≠ .ok) :
    ∃ q, (s.serveWrite k r).reqs[k]? = some q ∧ q.phase = .fromBase ∧ q.status = st ∧ (s.serveWrite k r).mem = s.mem := by
  obtain ⟨v, e, reqs, mem⟩ := baseWrite_refused r.data r.enabled h hs
  have hs' : ¬ (st = .ok ∨ st = .poison) := by
    obtain c | c | c := askCheck_cases s r.asker r.pa <;> rw [c] at h <;> subst h <;> simp_all
  simp only [State.serveWrite, e, if_neg hs']
  exact ⟨_, modReq_getElem? _ (by rw [reqs, hr]), rfl, rfl, mem⟩

theorem serveSquareWrite_refused {st : Status} (h : s.askCheck r.asker r.pa = st) (hs : st ≠ .ok) :
    s.serveSquareWrite k r = s.serveWrite k r := by
  unfold State.serveSquareWrite
  split
  · next e => exact absurd (h.symm.trans e) hs
  · rfl

/-- A request that fails a check is answered with its status, and memory stays as it is (03 R65, R76, R82). -/
theorem serve_refused {rd sq : Bool} {st : Status} (hr : s.reqs[k]? = some r)
    (h : (sq = true ∧ squarePlaceOk r.pa r.len = false ∧ st = .ownErr) ∨
      ((sq = true → squarePlaceOk r.pa r.len = true) ∧ s.askCheck r.asker r.pa = st ∧ st ≠ .ok)) :
    ∃ q, (s.serve rd sq k r).reqs[k]? = some q ∧ q.phase = .fromBase ∧ q.status = st ∧ (s.serve rd sq k r).mem = s.mem := by
  obtain ⟨rfl, place, rfl⟩ | ⟨place, ask, hs⟩ := h
  · have refused (f : State → Nat → MemReq → State) : s.squareKind k r f =
      s.modReq k fun x => { x with phase := .fromBase, status := .ownErr } := by
      simp [State.squareKind, place]
    cases rd <;> simp only [State.serve, refused] <;> exact ⟨_, modReq_getElem? _ hr, rfl, rfl, rfl⟩
  · match rd, sq with
    | true, false => exact serveRead_refused hr ask hs
    | true, true =>
      simp only [State.serve, squareKind_placed _ (place rfl)]
      exact serveRead_refused hr ask hs
    | false, false => exact serveWrite_refused hr ask hs
    | false, true =>
      simp only [State.serve, squareKind_placed _ (place rfl), serveSquareWrite_refused ask hs]
      exact serveWrite_refused hr ask hs

/-- A read that passes its checks is served alike whether it is a square read or not. -/
theorem serve_read {sq : Bool} (place : sq = true → squarePlaceOk r.pa r.len = true) : s.serve true sq k r = s.serveRead k r := by
  cases sq
  · rfl
  · exact squareKind_placed _ (place rfl)

theorem serveRead_poisoned (hr : s.reqs[k]? = some r) (h : s.NoErrors) (ask : s.askCheck r.asker r.pa = .ok)
    (hp : ∃ g ∈ granulesOf r.pa r.len, g ∈ s.poison) :
    ∃ q, (s.serveRead k r).reqs[k]? = some q ∧ q.phase = .fromBase ∧ q.status = .poison ∧ q.data = [] ∧ (s.serveRead k r).mem = s.mem := by
  simp only [State.serveRead, baseRead_poisoned h ask hp]
  exact ⟨_, modReq_getElem? _ hr, rfl, rfl, rfl, rfl⟩

theorem serveRead_sound (hr : s.reqs[k]? = some r) (h : s.NoErrors) (ask : s.askCheck r.asker r.pa = .ok) (hp : s.poison = [])
    (hf : s.rangeStale r.key r.pa r.len = false) :
    ∃ q, (s.serveRead k r).reqs[k]? = some q ∧ q.phase = .fromBase ∧ q.status = .ok ∧
      q.data = ((List.range r.len).map fun i => s.mem.read (r.pa + i)) ∧ (s.serveRead k r).mem = s.mem := by
  simp only [State.serveRead, baseRead_sound h ask hp hf]
  exact ⟨_, modReq_getElem? _ hr, rfl, rfl, rfl, rfl⟩

/-- A write that passes its checks stores its enabled bytes, sends its delta to the parity die and waits for it (03 R68, R81). -/
theorem serveWrite_sound {x : MemReq} (hx : s.reqs[k]? = some x) (h : s.NoErrors) (ask : s.askCheck r.asker r.pa = .ok) (hp : s.poison = [])
    (hf : s.rangeStale r.key r.pa r.data.length = false) :
    ∃ q p, (s.serveWrite k r).reqs[k]? = some q ∧ q.phase = .parity ∧ q.status = .ok ∧ (s.serveWrite k r).reqs.getLast? = some p ∧
      p.kind = .pdelta ∧ p.handle = .delta r.serial ∧ (s.serveWrite k r).mem = s.mem.writeWhere r.pa r.enabled 0 r.data := by
  obtain ⟨d, e⟩ := baseWrite_sound r.data r.enabled h ask hp
  have hx' := hx
  rw [← (putPlain_only s r.key r.pa r.data r.enabled).reqs_eq] at hx'
  simp only [State.serveWrite, e, true_or, if_true]
  have place := modReq_getElem? (fun x => { x with phase := .parity, status := .ok, data := r.data, version := r.version }) hx'
  exact ⟨_, _, (List.getElem?_append_left (List.getElem?_eq_some_iff.1 place).1).trans place, rfl, rfl, List.getLast?_concat, rfl, rfl,
    putPlain_mem hf⟩

/-- The version that a square write stores over sound memory (03 R83). -/
theorem nextVersion_sound (h : s.NoErrors) (hp : s.poison = []) (hf : s.rangeStale r.key r.pa r.len = false) (n : 64 ≤ r.len) :
    s.nextVersion r = (s, BitVec.ofNat 16 (s.mem.readLe (r.pa + 4) 2 + 1)) := by
  simp [State.nextVersion, meetEccs_of_sound h.bad h.soft h.channels, granuleBad_of_sound h hp, Memory.readLe,
    plainBytes_of_fresh (rangeStale_sub hf (show r.pa ≤ r.pa + 4 by omega) (show r.pa + 4 + 2 ≤ r.pa + r.len by omega))]

/-- The record of a square write with its version in bytes 4 and 5. -/
def recordWithVersion (bs : List Byte) (v : BitVec 16) : List Byte := bs.take 4 ++ leBytes 2 v.toNat ++ bs.drop 6

theorem length_recordWithVersion {bs : List Byte} (v : BitVec 16) (n : 6 ≤ bs.length) : (recordWithVersion bs v).length = bs.length := by
  simp only [recordWithVersion, List.length_append, List.length_take, leBytes_length, List.length_drop]
  omega

theorem getD_recordWithVersion {bs : List Byte} (v : BitVec 16) (n : 6 ≤ bs.length) (i : Nat) :
    (recordWithVersion bs v).getD i 0 = if i = 4 ∨ i = 5 then (leBytes 2 v.toNat).getD (i - 4) 0 else bs.getD i 0 := by
  have four : min 4 bs.length = 4 := by omega
  simp only [recordWithVersion, List.getD_eq_getElem?_getD, List.getElem?_append, List.length_append, List.length_take, leBytes_length, four]
  obtain lo | mid | hi : i < 4 ∨ (i = 4 ∨ i = 5) ∨ 6 ≤ i := by omega
  · rw [if_pos (by omega), if_pos lo, if_neg (by omega), List.getElem?_take_of_lt lo]
  · rw [if_pos (by omega), if_neg (by omega), if_pos mid]
  · rw [if_neg (by omega), if_neg (by omega), List.getElem?_drop, show 6 + (i - (4 + 2)) = i by omega]

/-- A square write that passes its checks is the write of its record with the next version. -/
theorem serve_squareWrite (place : squarePlaceOk r.pa r.len = true) (h : s.NoErrors) (ask : s.askCheck r.asker r.pa = .ok) (hp : s.poison = [])
    (hf : s.rangeStale r.key r.pa r.len = false) (n : 64 ≤ r.len) :
    ∃ v, v = BitVec.ofNat 16 (s.mem.readLe (r.pa + 4) 2 + 1) ∧
      s.serve false true k r = s.serveWrite k { r with data := recordWithVersion r.data v, version := v } := by
  refine ⟨_, rfl, ?_⟩
  simp only [State.serve, squareKind_placed _ place, State.serveSquareWrite, ask, nextVersion_sound h hp hf n]
  rfl

/-- Two bytes that hold a 16-bit number. -/
theorem readLe_two {m : Memory} {a v : Nat} (h : ∀ i, i < 2 → m.read (a + i) = (leBytes 2 v).getD i 0) : m.readLe a 2 = v % 2 ^ 16 := by
  have bytes : m.readBytes a 2 = leBytes 2 v := by
    rw [Memory.readBytes_eq]
    refine List.ext_getElem (by simp [leBytes_length]) fun i hi hj => ?_
    rw [leBytes_length] at hj
    simp [h i hj, leBytes_length, hj]
  rw [Memory.readLe, bytes, ofLe_leBytes, show 256 ^ 2 = 2 ^ 16 by decide]

/-- The bytes of a write that enables them, and the bytes around it. -/
theorem read_written {m : Memory} (wf : m.wf = true) (len : r.data.length = r.len) :
    (∀ i, i < r.len → (m.writeWhere r.pa r.enabled 0 r.data).read (r.pa + i) = if r.enabled i then r.data.getD i 0 else m.read (r.pa + i)) ∧
    ∀ a, a < r.pa ∨ r.pa + r.len ≤ a → (m.writeWhere r.pa r.enabled 0 r.data).read a = m.read a := by
  refine ⟨fun i hi => ?_, fun a ha => ?_⟩
  · rw [Memory.read_writeWhere _ _ _ _ _ wf, Nat.add_sub_cancel_left]
    exact if_congr ⟨fun h => h.2.2, fun h => ⟨by omega, by omega, h⟩⟩ rfl rfl
  · rw [Memory.read_writeWhere _ _ _ _ _ wf, if_neg]
    rintro ⟨lo, hi, -⟩
    omega

/-- A record written with a version: its other bytes, the version, and the bytes around it (03 R83). -/
theorem read_writtenRecord {m : Memory} {x : MemReq} (wf : m.wf = true) (v : BitVec 16) (len : r.data.length = r.len) (n : 64 ≤ r.len)
    (hx : x = { r with data := recordWithVersion r.data v, version := v }) (hkind : r.kind ≠ .wrm) :
    (∀ i, i < r.len → i ≠ 4 → i ≠ 5 → (m.writeWhere x.pa x.enabled 0 x.data).read (r.pa + i) = r.data.getD i 0) ∧
    (m.writeWhere x.pa x.enabled 0 x.data).readLe (r.pa + 4) 2 = v.toNat ∧
    ∀ a, a < r.pa ∨ r.pa + r.len ≤ a → (m.writeWhere x.pa x.enabled 0 x.data).read a = m.read a := by
  have enabled (i : Nat) : x.enabled i = true := by
    subst hx
    simp [MemReq.enabled, hkind]
  obtain ⟨inside, outside⟩ := read_written (r := x) wf (by subst hx; exact (length_recordWithVersion v (by omega)).trans len)
  simp only [enabled, if_true] at inside
  subst hx
  simp only [getD_recordWithVersion v (show 6 ≤ r.data.length by omega)] at inside
  refine ⟨fun i hi h4 h5 => (inside i hi).trans (if_neg (by omega)), ?_, outside⟩
  refine (readLe_two (v := v.toNat) fun i hi => ?_).trans (Nat.mod_eq_of_lt v.isLt)
  rw [Nat.add_assoc, inside (4 + i) (by omega), if_pos (by omega), Nat.add_sub_cancel_left]

end

theorem execSqwr_eq (s : State) : execSqwr s = baseEvent .sqwr (fun s k r => s.squareKind k r State.serveSquareWrite) s := rfl

/-- The seven requests of base dies: the event of a kind serves the oldest request of its kind, as the kind's two properties say. -/
theorem exec_baseRequest {s : State} {k : Nat} {r : MemReq} {e : Instr} {rd sq : Bool} (hk : s.input.k = k) (hr : s.reqs[k]? = some r)
    (form : (e = .rd ∧ r.kind = .rd ∧ rd = true ∧ sq = false) ∨ (e = .walk ∧ r.kind = .walk ∧ rd = true ∧ sq = false) ∨
      (e = .sqrd ∧ r.kind = .sqrd ∧ rd = true ∧ sq = true) ∨ (e = .wr ∧ r.kind = .wr ∧ rd = false ∧ sq = false) ∨
      (e = .wrm ∧ r.kind = .wrm ∧ rd = false ∧ sq = false) ∨ (e = .atomwb ∧ r.kind = .atomwb ∧ rd = false ∧ sq = false) ∨
      (e = .sqwr ∧ r.kind = .sqwr ∧ rd = false ∧ sq = true)) :
    exec e s = .next (if s.baseMay k r then s.serve rd sq k r else s) ∧ (sq = true → r.kind ≠ .wrm) := by
  obtain ⟨rfl, h, rfl, rfl⟩ | ⟨rfl, h, rfl, rfl⟩ | ⟨rfl, h, rfl, rfl⟩ | ⟨rfl, h, rfl, rfl⟩ | ⟨rfl, h, rfl, rfl⟩ | ⟨rfl, h, rfl, rfl⟩ |
    ⟨rfl, h, rfl, rfl⟩ := form
  all_goals refine ⟨?_, by simp [h]⟩
  · exact baseEvent_eq (f := State.serveRead) hk hr h
  · exact baseEvent_eq (f := State.serveRead) hk hr h
  · exact baseEvent_eq (f := fun s k r => s.squareKind k r State.serveRead) hk hr h
  · exact baseEvent_eq (f := State.serveWrite) hk hr h
  · exact baseEvent_eq (f := State.serveWrite) hk hr h
  · exact baseEvent_eq (f := State.serveWrite) hk hr h
  · rw [exec_sqwr, execSqwr_eq]
    exact baseEvent_eq hk hr h

/-! ### Parity deltas (03 R68) -/

/-- Every parity granule can be read, and no channel has failed. -/
structure State.ParitySoundAll (s : State) : Prop where
  channels : s.channels = []
  bad : s.parityBad = []
  soft : s.paritySoft = []

theorem parityAddr_mainMap (a : Nat) : ∃ b, parityAddr (mainMap a) = b * 4096 + a % 4096 ∧ ∀ c, c / 4096 = a / 4096 →
    parityAddr (mainMap c) = b * 4096 + c % 4096 := by
  refine ⟨a / 4096 / 5898240 * 2 ^ 19 + a / 4096 % 5898240 / 15, ?_, fun c hc => ?_⟩
  · simp only [parityAddr, mainMap]; omega
  · simp only [parityAddr, mainMap, hc]; omega

/-- Bytes of different offsets in their 4 KiB granules have their parity at different places. -/
theorem parityAddr_ne {a b : Nat} (h : a % 4096 ≠ b % 4096) : parityAddr (mainMap a) ≠ parityAddr (mainMap b) := by
  obtain ⟨x, hx, -⟩ := parityAddr_mainMap a
  obtain ⟨y, hy, -⟩ := parityAddr_mainMap b
  omega

/-- The parity granule of a data granule holds the parity of its bytes in their order. -/
theorem parityOf_mul_add (g : Nat) {i : Nat} (h : i < 32) : parityOf g * 32 + i = parityAddr (mainMap (g * 32 + i)) := by
  obtain ⟨b, hb, near⟩ := parityAddr_mainMap (g * 32)
  have hi := near (g * 32 + i) (by omega)
  rw [parityOf, hb, hi]
  omega

theorem length_xorBytes (a b : List Byte) : (xorBytes a b).length = min a.length b.length := List.length_zipWith

section
variable {s : State}

theorem takeDelta_sound (h : s.ParitySoundAll) (source g : Nat) (d : List Byte) :
    s.takeDelta source g d =
      { s with parity := s.parity.writeBytes (parityOf g * 32) (xorBytes (s.parity.readBytes (parityOf g * 32) 32) d) } := by
  simp [State.takeDelta, State.meetParity, State.chanState, h.channels, h.bad, h.soft]

/-- A granule's delta is exclusive-ored into its parity granule and into nothing else. -/
theorem read_takeDelta (h : s.ParitySoundAll) (hw : s.parity.wf = true) (source g : Nat) {d : List Byte} (hd : d.length = 32) :
    (∀ i, i < 32 → (s.takeDelta source g d).parity.read (parityAddr (mainMap (g * 32 + i))) =
      s.parity.read (parityAddr (mainMap (g * 32 + i))) ^^^ d.getD i 0) ∧
    ∀ a, (∀ i, i < 32 → a ≠ parityAddr (mainMap (g * 32 + i))) → (s.takeDelta source g d).parity.read a = s.parity.read a := by
  have len : (xorBytes (s.parity.readBytes (parityOf g * 32) 32) d).length = 32 := by
    simp [length_xorBytes, Memory.readBytes_eq, hd]
  rw [takeDelta_sound h]
  refine ⟨fun i hi => ?_, fun a ha => ?_⟩
  · rw [← parityOf_mul_add g hi]
    dsimp only
    rw [Memory.read_writeBytes _ _ _ hw, len, if_pos (by omega), Nat.add_sub_cancel_left]
    simp [xorBytes, Memory.readBytes_eq, hi, hd]
  · dsimp only
    rw [Memory.read_writeBytes _ _ _ hw, len, if_neg]
    rintro ⟨lo, hi⟩
    refine ha (a - parityOf g * 32) (by omega) ?_
    rw [← parityOf_mul_add g (by omega)]
    omega

end

/-- The deltas of up to 128 granules from an address on are each exclusive-ored into the parity of their own bytes; nothing else of the
parity changes. -/
theorem read_applyDelta (source : Nat) (n : Nat) : ∀ (s : State) (pa : Nat) (d : List Byte), s.ParitySoundAll → s.parity.wf = true →
    pa % 32 = 0 → d.length = 32 * n → n ≤ 128 →
    (s.applyDelta source pa n d).mem = s.mem ∧ (s.applyDelta source pa n d).reqs = s.reqs ∧
    (∀ i, i < d.length → (s.applyDelta source pa n d).parity.read (parityAddr (mainMap (pa + i))) =
      s.parity.read (parityAddr (mainMap (pa + i))) ^^^ d.getD i 0) ∧
    ∀ a, (∀ i, i < d.length → a ≠ parityAddr (mainMap (pa + i))) → (s.applyDelta source pa n d).parity.read a = s.parity.read a := by
  induction n with
  | zero => exact fun s pa d _ _ _ hd _ => ⟨rfl, rfl, fun i hi => by omega, fun a _ => rfl⟩
  | succ n ih =>
    intro s pa d h hw ha hd hn
    have e := takeDelta_sound h source (pa / 32) (d.take 32)
    have take : (d.take 32).length = 32 := by rw [List.length_take]; omega
    obtain ⟨inside, outside⟩ := read_takeDelta h hw source (pa / 32) take
    rw [show pa / 32 * 32 = pa by omega] at inside outside
    have wf : (s.takeDelta source (pa / 32) (d.take 32)).parity.wf = true := by
      rw [e]; exact Memory.wf_writeBytes _ _ hw
    have sound : (s.takeDelta source (pa / 32) (d.take 32)).ParitySoundAll := by
      rw [e]; exact ⟨h.channels, h.bad, h.soft⟩
    obtain ⟨mem, reqs, rest, frame⟩ := ih (s.takeDelta source (pa / 32) (d.take 32)) (pa + 32) (d.drop 32) sound wf (by omega)
      (by rw [List.length_drop]; omega) (by omega)
    rw [State.applyDelta]
    refine ⟨by rw [mem, e], by rw [reqs, e], fun i hi => ?_, fun a hne => ?_⟩
    · by_cases hi' : i < 32
      · rw [frame, inside i hi', List.getD_eq_getElem?_getD, List.getElem?_take_of_lt hi', ← List.getD_eq_getElem?_getD]
        intro j hj
        rw [List.length_drop] at hj
        exact parityAddr_ne (by omega)
      · have here := rest (i - 32) (by rw [List.length_drop]; omega)
        rw [show pa + 32 + (i - 32) = pa + i by omega] at here
        rw [here, outside _ fun j hj => parityAddr_ne (by omega), List.getD_eq_getElem?_getD, List.getElem?_drop,
          show 32 + (i - 32) = i by omega, ← List.getD_eq_getElem?_getD]
    · rw [frame a, outside a fun i hi => hne i (by omega)]
      intro i hi
      rw [List.length_drop] at hi
      rw [show pa + 32 + i = pa + (32 + i) by omega]
      exact hne (32 + i) (by omega)

section
variable {s : State} {k : Nat} {r : MemReq}

theorem exec_pdelta_of_turn (hk : s.input.k = k) (hr : s.reqs[k]? = some r) (hkind : r.kind = .pdelta) (hp : r.phase = .toBase) :
    exec .pdelta s = .next ((if s.ownerOk r.asker r.pa then s.applyDelta r.source r.pa (r.data.length / 32) r.data
      else s.memEvent 6 r.pa r.source false).modReq k fun x =>
        { x with phase := .fromBase, status := if s.ownerOk r.asker r.pa then .ok else .ownErr }) := by
  subst hk
  simp [execPdelta, event, hr, hkind, hp]

/-- The delta of a paddock that does not own the channel is answered with OWNERR and changes nothing (03 R65). -/
theorem pdelta_refused (hk : s.input.k = k) (hr : s.reqs[k]? = some r) (hkind : r.kind = .pdelta) (hp : r.phase = .toBase)
    (ho : s.ownerOk r.asker r.pa = false) : ∃ (u : State) (q : MemReq), exec .pdelta s = .next u ∧ u.reqs[k]? = some q ∧ q.phase = .fromBase ∧
      q.status = .ownErr ∧ u.mem = s.mem ∧ u.parity = s.parity := by
  refine ⟨_, _, exec_pdelta_of_turn hk hr hkind hp, modReq_getElem? _ (r := r) ?_, rfl, ?_, ?_, ?_⟩ <;> rw [ho]
  · exact hr
  · rfl
  · rfl
  · rfl

/-- The writes that an acknowledgement releases (03 R68). -/
def MemReq.acknowledged (n : Nat) (st : Status) (q : MemReq) : MemReq :=
  if q.serial = n ∧ q.phase = .parity then { q with phase := .fromBase, status := if st = .ownErr then .ownErr else q.status } else q

theorem exec_parityAck_of_turn {n : Nat} (hk : s.input.k = k) (hr : s.reqs[k]? = some r) (hkind : r.kind = .pdelta) (hp : r.phase = .fromBase)
    (hh : r.handle = .delta n) :
    exec .parityAck s = .next { s with reqs := (dropAt k s.reqs).map (MemReq.acknowledged n r.status) } := by
  subst hk
  simp only [exec_parityAck, execParityAck, event, hr, hkind, hp, hh]
  rfl

theorem acknowledged_phase (n : Nat) (st : Status) (q : MemReq) (h : (q.acknowledged n st).serial = n) : (q.acknowledged n st).phase ≠ .parity := by
  unfold MemReq.acknowledged at h ⊢
  split
  · simp
  · next hq => rw [if_neg hq] at h; exact fun e => hq ⟨h, e⟩

end

/-- Settles O25: each request refused, read or written as its kind says; the delta at the parity die; and its acknowledgement. -/
theorem baseDieRequests : Obligations.BaseDieRequests := by
  intro s k r e rd sq hk hr wf
  refine ⟨fun form => ?_, fun hkind hp => ⟨pdelta_refused hk hr hkind hp, fun ho hc hb hs hw ha hd hn => ?_⟩, fun n hkind hp hh => ?_⟩
  · obtain ⟨run, whole⟩ := exec_baseRequest hk hr form
    refine ⟨fun hm => by rw [run, hm]; rfl, fun hm => ?_⟩
    rw [hm, if_pos rfl] at run
    refine ⟨fun st h => ?_, fun place ask bad soft channels => ?_⟩
    · obtain ⟨q, refused⟩ := serve_refused hr h
      exact ⟨_, q, run, refused⟩
    · have sound : s.NoErrors := ⟨bad, soft, channels⟩
      refine ⟨?_, fun hp hf => ⟨?_, ?_⟩⟩
      · rintro rfl poisoned
        obtain ⟨q, read⟩ := serveRead_poisoned hr sound ask poisoned
        rw [← serve_read place] at read
        exact ⟨_, q, run, read⟩
      · rintro rfl
        obtain ⟨q, read⟩ := serveRead_sound hr sound ask hp hf
        rw [← serve_read place] at read
        exact ⟨_, q, run, read⟩
      · rintro rfl len squareLen
        cases sq with
        | false =>
          obtain ⟨q, p, slot, phase, status, last, kind, handle, mem⟩ := serveWrite_sound hr sound ask hp (by rw [len]; exact hf)
          obtain ⟨inside, outside⟩ := read_written wf len
          rw [← mem] at inside outside
          exact ⟨_, q, p, run, slot, phase, status, last, kind, handle, fun _ => inside, by simp, outside⟩
        | true =>
          obtain ⟨v, hv, served⟩ := serve_squareWrite (place rfl) sound ask hp hf (squareLen rfl)
          rw [served] at run
          have len' : (recordWithVersion r.data v).length = r.len := (length_recordWithVersion v (by have := squareLen rfl; omega)).trans len
          obtain ⟨q, p, slot, phase, status, last, kind, handle, mem⟩ :=
            serveWrite_sound (r := { r with data := recordWithVersion r.data v, version := v }) hr sound ask hp (by dsimp only; rw [len']; exact hf)
          obtain ⟨inside, version, outside⟩ := read_writtenRecord wf v len (squareLen rfl) rfl (whole rfl)
          rw [← mem] at inside version outside
          refine ⟨_, q, p, run, slot, phase, status, last, kind, handle, by simp, fun _ => ⟨inside, ?_⟩, outside⟩
          rw [version, hv, BitVec.toNat_ofNat]
  · have run := exec_pdelta_of_turn hk hr hkind hp
    rw [ho] at run
    obtain ⟨mem, reqs, inside, outside⟩ := read_applyDelta r.source (r.data.length / 32) s r.pa r.data ⟨hc, hb, hs⟩ hw ha (by omega) (by omega)
    exact ⟨_, _, run, modReq_getElem? _ (reqs ▸ hr), rfl, rfl, mem, inside, outside⟩
  · refine ⟨_, exec_parityAck_of_turn hk hr hkind hp hh, ?_, fun q hq hn => ?_, rfl, fun q hq hn hp => ?_⟩
    · rw [← length_dropAt hr]
      exact congrArg (· + 1) (List.length_map _)
    · obtain ⟨x, -, rfl⟩ := List.mem_map.1 hq
      exact acknowledged_phase n r.status x hn
    · exact List.mem_map.2 ⟨q, hq, if_pos ⟨hn, hp⟩⟩

end Sys2Proof.Machine
end

section
/-! 03 R69-R74: scrubs, channel failures, and the records of memory events. -/
namespace Sys2Proof.Machine

/-! ### Lists with one element replaced -/

section
variable {α : Type} {p q : α → Bool} {f : Option α → α}

/-- The element that is replaced or added is the one that the test then finds. -/
theorem find?_upsert (h0 : p (f none) = true) (h1 : ∀ x, p x = true → p (f (some x)) = true) (l : List α) :
    (upsert p f l).find? p = some (f (l.find? p)) := by
  induction l with
  | nil => simp [upsert, h0]
  | cons x l ih =>
    by_cases hx : p x = true
    · simp [upsert, hx, h1 x hx]
    · simp [upsert, hx, ih]

/-- A test that neither the element replaced nor its replacement passes finds what it found. -/
theorem find?_upsert_of_not (h0 : q (f none) = false) (h1 : ∀ x, p x = true → q x = false ∧ q (f (some x)) = false) (l : List α) :
    (upsert p f l).find? q = l.find? q := by
  induction l with
  | nil => simp [upsert, h0]
  | cons x l ih =>
    by_cases hx : p x = true
    · simp [upsert, hx, h1 x hx]
    · simp [upsert, hx, List.find?_cons, ih]

end

/-! ### Channel states (03 R69, R70) -/

/-- What a change of channel states changes: the states, and the events that tell of them. -/
def OnlyChannels (s u : State) : Prop := ∃ cs es, u = { s with channels := cs, memEvents := s.memEvents ++ es }

theorem OnlyChannels.refl (s : State) : OnlyChannels s s := ⟨s.channels, [], by rw [List.append_nil]⟩

theorem OnlyChannels.trans {s t u : State} (h : OnlyChannels s t) (k : OnlyChannels t u) : OnlyChannels s u := by
  obtain ⟨cs, es, rfl⟩ := h
  obtain ⟨ds, fs, rfl⟩ := k
  exact ⟨ds, es ++ fs, by rw [List.append_assoc]⟩

theorem setChannel_event (s : State) (k j : Nat) (x : ChanState) : ∃ v : MemEvent, (s.setChannel k j x).memEvents = s.memEvents ++ [v] ∧
    v.kind = (if x = .lost then 5 else 4) := by
  refine ⟨_, rfl, ?_⟩
  cases x <;> rfl

theorem setChannel_channels (s : State) (k j : Nat) (x : ChanState) : OnlyChannels s (s.setChannel k j x) := ⟨_, _, rfl⟩

theorem modChannel_find? {s : State} {k j : Nat} {f : Channel → Channel} (hf : ∀ c, (f c).stack = c.stack ∧ (f c).ch = c.ch) :
    (s.modChannel k j f).channels.find? (fun c => c.stack == k && c.ch == j) =
      some (f ((s.channels.find? fun c => c.stack == k && c.ch == j).getD (Channel.fresh k j))) := by
  refine find?_upsert ?_ (fun x hx => ?_) _
  · simp [hf, Channel.fresh]
  · simpa [hf] using hx

theorem chanState_setChannel (s : State) (k j : Nat) (x : ChanState) (st ch : Nat) :
    (s.setChannel k j x).chanState st ch = if st = k ∧ ch = j then x else s.chanState st ch := by
  have channels : (s.setChannel k j x).channels = (s.modChannel k j fun c => { c with state := x }).channels := rfl
  unfold State.chanState
  rw [channels]
  split
  · next h =>
    obtain ⟨rfl, rfl⟩ := h
    rw [modChannel_find? (f := fun c => { c with state := x }) fun c => ⟨rfl, rfl⟩]
    rfl
  · next h =>
    refine congrArg (fun o : Option Channel => (o.map Channel.state).getD .healthy) (find?_upsert_of_not ?_ (fun c hc => ?_) _)
    · simp only [Option.getD_none, Channel.fresh, Bool.and_eq_false_iff, beq_eq_false_iff_ne]
      tauto
    · simp only [Bool.and_eq_true, beq_iff_eq] at hc
      obtain ⟨rfl, rfl⟩ := hc
      simp only [Option.getD_some, and_self, Bool.and_eq_false_iff, beq_eq_false_iff_ne]
      tauto

/-- The stacks of a list become LOST at a channel index, each with its event; none that is LOST returns, and the other indices stay. -/
theorem loseChannels (j : Nat) (l : List Channel) : ∀ s u : State, u = l.foldl (fun s c => s.setChannel c.stack j .lost) s →
    ∃ es : List MemEvent, u.mem = s.mem ∧ u.memEvents = s.memEvents ++ es ∧ (∀ x ∈ es, x.kind = 5) ∧
    (∀ st ch, ch ≠ j → u.chanState st ch = s.chanState st ch) ∧ (∀ st, s.chanState st j = .lost → u.chanState st j = .lost) ∧
    ∀ c ∈ l, u.chanState c.stack j = .lost := by
  induction l with
  | nil =>
    rintro s u rfl
    exact ⟨[], rfl, (List.append_nil _).symm, by simp, fun _ _ _ => rfl, fun _ h => h, by simp⟩
  | cons c l ih =>
    intro s u hu
    obtain ⟨v, event, kind⟩ := setChannel_event s c.stack j .lost
    obtain ⟨es, mem, events, kinds, others, lost, all⟩ := ih (s.setChannel c.stack j .lost) u hu
    have first : u.chanState c.stack j = .lost := lost _ (by rw [chanState_setChannel, if_pos ⟨rfl, rfl⟩])
    refine ⟨v :: es, mem, by rw [events, event, List.append_assoc]; rfl, ?_, fun st ch h => ?_, fun st h => lost st ?_, ?_⟩
    · exact List.forall_mem_cons.2 ⟨kind, kinds⟩
    · rw [others st ch h, chanState_setChannel, if_neg fun e => h e.2]
    · rw [chanState_setChannel, h, ite_self]
    · exact List.forall_mem_cons.2 ⟨first, all⟩

section
variable {s : State} {k j : Nat}

/-- The first stack that fails at a channel index makes its channel DEGRADED. -/
theorem failChannel_first (h : s.chanState k j = .healthy) (ho : s.otherFailed k j = false) :
    s.failChannel k j = s.setChannel k j .degraded := by
  simp [State.failChannel, h, ho]

/-- A second one makes its channel LOST, and those that were DEGRADED. -/
theorem failChannel_second (h : s.chanState k j = .healthy) (ho : s.otherFailed k j = true) :
    s.failChannel k j = (s.channels.filter fun c => c.ch == j && c.state == .degraded).foldl (fun s c => s.setChannel c.stack j .lost)
      (s.setChannel k j .lost) := by
  simp [State.failChannel, h, ho]

/-- A channel that is DEGRADED is listed so. -/
theorem mem_channels_of_chanState {st : Nat} (h : s.chanState st j = .degraded) :
    ∃ c ∈ s.channels.filter (fun c => c.ch == j && c.state == .degraded), c.stack = st := by
  unfold State.chanState at h
  cases hf : s.channels.find? fun c => c.stack == st && c.ch == j with
  | none => rw [hf] at h; cases h
  | some c =>
    rw [hf] at h
    have hc := List.find?_some hf
    rw [Bool.and_eq_true, beq_iff_eq, beq_iff_eq] at hc
    exact ⟨c, List.mem_filter.2 ⟨List.mem_of_find?_eq_some hf, by simpa [hc.2] using h⟩, hc.1⟩

theorem failChannel_channels (s : State) (k j : Nat) : OnlyChannels s (s.failChannel k j) := by
  unfold State.failChannel
  split
  · exact .refl s
  · split
    · exact List.foldlRecOn _ _ (motive := OnlyChannels s) (setChannel_channels s k j .lost) fun t ht c _ =>
        ht.trans (setChannel_channels t _ _ _)
    · exact setChannel_channels s k j .degraded

theorem noteRebuild_channels (s : State) (k j : Nat) : OnlyChannels s (s.noteRebuild k j) := by
  have note (f : Channel → Channel) : OnlyChannels s (s.modChannel k j f) := ⟨_, [], by rw [List.append_nil]; rfl⟩
  unfold State.noteRebuild
  dsimp only
  split
  · exact (note _).trans (failChannel_channels _ k j)
  · exact note _

/-- Fewer than sixteen rebuild events on every channel give no event of a channel's own (03 R70). -/
theorem noteRebuild_quiet (h : ∀ c ∈ s.channels, c.rebuilds.length < 15) : (s.noteRebuild k j).memEvents = s.memEvents := by
  unfold State.noteRebuild
  dsimp only
  rw [modChannel_find? (f := fun c => { c with rebuilds := c.rebuilds.filter (fun t => decide (s.tb.toNat < t + hourNs)) ++ [s.tb.toNat] })
    fun c => ⟨rfl, rfl⟩, if_neg]
  · rfl
  · have few : ((s.channels.find? fun c => c.stack == k && c.ch == j).getD (Channel.fresh k j)).rebuilds.length < 15 := by
      cases hf : s.channels.find? fun c => c.stack == k && c.ch == j with
      | none => simp [Channel.fresh]
      | some c => exact h c (List.mem_of_find?_eq_some hf)
    have filtered := List.length_filter_le (fun t => decide (s.tb.toNat < t + hourNs))
      ((s.channels.find? fun c => c.stack == k && c.ch == j).getD (Channel.fresh k j)).rebuilds
    simp only [Option.map_some, Option.getD_some, List.length_append, List.length_singleton]
    omega

theorem exec_channelStateChange_of_place (hk : s.input.k = k) (hj : s.input.j = j) (k16 : k < 16) (j32 : j < 32) :
    exec .channelStateChange s = .next (s.failChannel k j) := by
  subst hk hj
  simp [execChannelStateChange, event, Nat.not_le.2 k16, Nat.not_le.2 j32]

/-- A place that does not exist, and a channel that has failed already, change nothing. -/
theorem exec_channelStateChange_none (hk : s.input.k = k) (hj : s.input.j = j) (h : 16 ≤ k ∨ 32 ≤ j ∨ s.chanState k j ≠ .healthy) :
    exec .channelStateChange s = .next s := by
  subst hk hj
  rw [exec_channelStateChange, execChannelStateChange, event]
  split
  · rfl
  · next place => rw [State.failChannel, if_pos (by tauto)]

/-- A stack that fails at a channel index, by whether another has failed there. -/
theorem failChannel_cases (h : s.chanState k j = .healthy) : ∃ (v : MemEvent) (l : List MemEvent),
    (s.failChannel k j).mem = s.mem ∧ (∀ st ch, ch ≠ j → (s.failChannel k j).chanState st ch = s.chanState st ch) ∧
    (s.failChannel k j).memEvents = s.memEvents ++ v :: l ∧
    (s.otherFailed k j = false → (s.failChannel k j).chanState k j = .degraded ∧ v.kind = 4 ∧ l = []) ∧
    (s.otherFailed k j = true → (s.failChannel k j).chanState k j = .lost ∧ v.kind = 5 ∧ (∀ x ∈ l, x.kind = 5) ∧
      ∀ st, s.chanState st j = .degraded → (s.failChannel k j).chanState st j = .lost) := by
  cases ho : s.otherFailed k j with
  | false =>
    obtain ⟨v, event, kind⟩ := setChannel_event s k j .degraded
    rw [failChannel_first h ho]
    refine ⟨v, [], rfl, fun st ch hc => ?_, event, fun _ => ⟨?_, kind, rfl⟩, by simp⟩
    · rw [chanState_setChannel, if_neg fun e => hc e.2]
    · rw [chanState_setChannel, if_pos ⟨rfl, rfl⟩]
  | true =>
    obtain ⟨v, event, kind⟩ := setChannel_event s k j .lost
    obtain ⟨es, mem, events, kinds, others, lost, all⟩ := loseChannels j _ _ _ (failChannel_second h ho)
    refine ⟨v, es, mem, fun st ch hc => ?_, by rw [events, event, List.append_assoc]; rfl, by simp, fun _ => ⟨lost k ?_, kind, kinds, fun st hd => ?_⟩⟩
    · rw [others st ch hc, chanState_setChannel, if_neg fun e => hc e.2]
    · rw [chanState_setChannel, if_pos ⟨rfl, rfl⟩]
    · obtain ⟨c, hc, rfl⟩ := mem_channels_of_chanState hd
      exact all c hc

end

/-! ### Scrubs (03 R71-R73) -/

section
variable {s : State} {k : Nat}

theorem exec_scrub_of_granule (hk : s.input.k = k) (hj : s.input.j ≠ 1) :
    exec .scrub s = .next (if s.reqs.any fun r => r.taken && (granulesOf r.pa r.len).contains k then s else (s.meetEcc 0 true k).2) := by
  subst hk
  simp [execScrub, event, hj]

variable (h : s.chanState (mainMap (k * 32)).stack (mainMap (k * 32)).ch = .healthy)
include h

/-- An error that the code can correct. -/
theorem meetEcc_soft (hb : k ∉ s.eccBad) (hs : k ∈ s.eccSoft) (source : Nat) (scrub : Bool) :
    (s.meetEcc source scrub k).2 = ({ s with eccSoft := s.eccSoft.filter (· != k) } : State).memEvent 1 (k * 32) source scrub := by
  simp [State.meetEcc, h, hb, hs]

/-- An uncorrectable error in a granule whose 15 survivors can be read. -/
theorem meetEcc_rebuilt (hb : k ∈ s.eccBad) (hc : s.canRebuild k = true) (source : Nat) (scrub : Bool) :
    (s.meetEcc source scrub k).2 = ((({ s.rebuild k with eccBad := s.eccBad.filter (· != k) } : State).memEvent 2 (k * 32) source scrub).noteRebuild
      (mainMap (k * 32)).stack (mainMap (k * 32)).ch) := by
  simp [State.meetEcc, h, hb, hc]

/-- An uncorrectable error in a granule of which a survivor cannot be read. -/
theorem meetEcc_poisoned (hb : k ∈ s.eccBad) (hc : s.canRebuild k = false) (source : Nat) (scrub : Bool) :
    (s.meetEcc source scrub k).2 = s.poisonGranule source scrub k := by
  simp [State.meetEcc, h, hb, hc]

end

theorem rebuild_memory (s : State) (g : Nat) : ∃ m, s.rebuild g = { s with mem := m } := by
  unfold State.rebuild
  split
  · exact ⟨s.mem, rfl⟩
  · split
    · exact ⟨s.mem, rfl⟩
    · exact ⟨_, rfl⟩

theorem mem_insertNat (a : Nat) (l : List Nat) : a ∈ insertNat a l := by
  induction l with
  | nil => simp [insertNat]
  | cons x l ih =>
    unfold insertNat
    split
    · simp
    · split
      · next e => simp [e]
      · exact List.mem_cons_of_mem x ih

/-- What a repair leaves: the memory that rebuild gives, no error in the granule, its event, and those of a channel that degrades by it. -/
theorem rebuilt_frame (s : State) (g source st ch : Nat) : ∃ (v : MemEvent) (l : List MemEvent) (u : State),
    u = (({ s.rebuild g with eccBad := s.eccBad.filter (· != g) } : State).memEvent 2 (g * 32) source true).noteRebuild st ch ∧
    u.mem = (s.rebuild g).mem ∧ g ∉ u.eccBad ∧ u.memEvents = s.memEvents ++ v :: l ∧ v.kind = 2 ∧ v.scrub = true ∧ u.poison = s.poison ∧
    ((∀ c ∈ s.channels, c.rebuilds.length < 15) → l = []) := by
  obtain ⟨m, hm⟩ := rebuild_memory s g
  rw [hm]
  generalize ht : (({ ({ s with mem := m } : State) with eccBad := s.eccBad.filter (· != g) } : State).memEvent 2 (g * 32) source true) = t
  have event : ∃ v : MemEvent, t.memEvents = s.memEvents ++ [v] ∧ v.kind = 2 ∧ v.scrub = true := by
    subst ht; exact ⟨_, rfl, rfl, rfl⟩
  have frame : t.mem = m ∧ t.eccBad = s.eccBad.filter (· != g) ∧ t.poison = s.poison ∧ t.channels = s.channels := by
    subst ht; exact ⟨rfl, rfl, rfl, rfl⟩
  obtain ⟨v, event, kind, scrub⟩ := event
  obtain ⟨mem, bad, poison, channels⟩ := frame
  obtain ⟨cs, es, hu⟩ := noteRebuild_channels t st ch
  refine ⟨v, es, _, rfl, ?_, ?_, ?_, kind, scrub, ?_, fun few => ?_⟩
  · rw [hu]; exact mem
  · rw [hu]; simp [bad]
  · rw [hu]; simp [event]
  · rw [hu]; exact poison
  · have quiet := noteRebuild_quiet (s := t) (k := st) (j := ch) (by rw [channels]; exact few)
    rw [hu] at quiet
    simpa using quiet

/-! ### Records of memory events (03 R74) -/

/-- The record of an event goes to the fault queue of the paddock that owns its channel, where one does. -/
def State.recordEvent (s : State) (e : MemEvent) (n : Nat) : State :=
  match s.chanOwner.find? fun x => x.1 == e.ch with
  | none => s
  | some p => s.post p.2 .fault (e.bytes n) none

theorem recordEvent_frame (s : State) (e : MemEvent) (n : Nat) : (s.recordEvent e n).mem = s.mem ∧ (s.recordEvent e n).memEvents = s.memEvents ∧
    (s.recordEvent e n).corrSent = s.corrSent := by
  unfold State.recordEvent
  split <;> exact ⟨rfl, rfl, rfl⟩

theorem recordEvent_records {s : State} {e : MemEvent} {p : BitVec 5} (h : (s.chanOwner.find? fun x => x.1 == e.ch) = some (e.ch, p)) (n : Nat) :
    (s.recordEvent e n).records = s.records ++ [{ paddock := p, queue := .fault, bytes := e.bytes n, holds := none }] := by
  rw [State.recordEvent, h]
  rfl

/-- Another correctable event of the channel of an event. -/
def MemEvent.folds (e x : MemEvent) : Bool := x.kind == 1 && x.stack == e.stack && x.ch == e.ch

/-- The state without an event, and that without the correctable events of its channel, of which a record goes out now. -/
def State.takeEvent (s : State) (k : Nat) : State := { s with memEvents := dropAt k s.memEvents }
def State.foldEvents (s : State) (k : Nat) (e : MemEvent) : State :=
  { s with memEvents := (dropAt k s.memEvents).filter fun x => !(e.folds x),
           corrSent := upsert (fun x => x.1 == e.stack && x.2.1 == e.ch) (fun _ => (e.stack, e.ch, s.tb.toNat)) s.corrSent }

section
variable {s : State} {k : Nat} {e : MemEvent}

theorem forward_other (hk : s.input.k = k) (he : s.memEvents[k]? = some e) (kind : e.kind ≠ 1) :
    exec .memoryEventForward s = .next ((s.takeEvent k).recordEvent e e.count) := by
  subst hk
  simp only [exec_memoryEventForward, execMemoryEventForward, event, he, kind, decide_false, Bool.false_and, Bool.false_eq_true, if_false]
  rfl

theorem forward_soon (hk : s.input.k = k) (he : s.memEvents[k]? = some e) (kind : e.kind = 1) {x : Nat} (hx : s.corrAt e = some x)
    (soon : s.tb.toNat < x + 10 ^ 9) : exec .memoryEventForward s = .next s := by
  subst hk
  simp only [exec_memoryEventForward, execMemoryEventForward, event, he, kind, hx, decide_true, Bool.true_and, decide_eq_true soon, if_true]

theorem forward_folded (hk : s.input.k = k) (he : s.memEvents[k]? = some e) (kind : e.kind = 1)
    (late : ∀ x, s.corrAt e = some x → x + 10 ^ 9 ≤ s.tb.toNat) :
    exec .memoryEventForward s =
      .next ((s.foldEvents k e).recordEvent e (e.count + ((dropAt k s.memEvents).filter e.folds).length)) := by
  subst hk
  simp only [exec_memoryEventForward, execMemoryEventForward, event, he, kind, decide_true, Bool.true_and, if_true]
  cases hx : s.corrAt e with
  | none => simp only [Bool.false_eq_true, if_false]; rfl
  | some x => simp only [decide_eq_false (Nat.not_lt.2 (late x hx)), Bool.false_eq_true, if_false]; rfl

theorem corrAt_foldEvents : (s.foldEvents k e).corrAt e = some s.tb.toNat := by
  have found := find?_upsert (p := fun x : Nat × Nat × Nat => x.1 == e.stack && x.2.1 == e.ch) (f := fun _ => (e.stack, e.ch, s.tb.toNat))
    (by simp) (by simp) s.corrSent
  exact congrArg (Option.map fun x => x.2.2) found

theorem length_foldEvents (he : s.memEvents[k]? = some e) :
    ((dropAt k s.memEvents).filter e.folds).length + (s.foldEvents k e).memEvents.length + 1 = s.memEvents.length := by
  rw [← length_dropAt he, List.length_eq_length_filter_add (l := dropAt k s.memEvents) e.folds]
  rfl

end

/-- Settles O26: the scrub by the state of its granule, the failure of a stack, and the record of an event. -/
theorem memoryUpkeep : Obligations.MemoryUpkeep := by
  intro s k j e p hk hj
  refine ⟨fun j1 free healthy => ?_, fun j1 taken => ?_, fun k16 j32 healthy => ?_, fun out => ?_, fun he => ⟨fun kind => ?_, ?_, fun kind late => ?_⟩⟩
  · have run : exec .scrub s = .next (s.meetEcc 0 true k).2 := by
      rw [exec_scrub_of_granule hk (by omega), if_neg]
      simpa using free
    refine ⟨fun hb hs => ?_, fun hb hc => ?_, fun hb hc => ?_⟩
    · rw [meetEcc_soft healthy hb hs] at run
      exact ⟨_, _, run, rfl, by simp [State.memEvent, State.memEventAt], rfl, rfl, rfl, rfl⟩
    · rw [meetEcc_rebuilt healthy hb hc] at run
      obtain ⟨v, l, u, hu, mem, rest⟩ := rebuilt_frame s k 0 (mainMap (k * 32)).stack (mainMap (k * 32)).ch
      refine ⟨u, v, l, hu ▸ run, mem, fun same => ?_, rest⟩
      rw [mem, State.rebuild, if_pos same]
    · rw [meetEcc_poisoned healthy hb hc] at run
      exact ⟨_, _, run, rfl, by simp [State.poisonGranule, State.memEvent, State.memEventAt], mem_insertNat k s.poison, rfl, rfl, rfl⟩
  · rw [exec_scrub_of_granule hk (by omega), if_pos]
    simpa using taken
  · obtain ⟨v, l, rest⟩ := failChannel_cases healthy
    exact ⟨_, v, l, exec_channelStateChange_of_place hk hj k16 j32, rest⟩
  · exact exec_channelStateChange_none hk hj out
  · obtain ⟨mem, events, -⟩ := recordEvent_frame (s.takeEvent k) e e.count
    exact ⟨_, forward_other hk he kind, mem, events, fun owner => recordEvent_records (s := s.takeEvent k) owner e.count⟩
  · rintro kind ⟨x, hx, soon⟩
    exact forward_soon hk he kind hx soon
  · obtain ⟨mem, events, sent⟩ := recordEvent_frame (s.foldEvents k e) e (e.count + ((dropAt k s.memEvents).filter e.folds).length)
    refine ⟨_, _, forward_folded hk he kind late, mem, ?_, events, ?_, fun owner => recordEvent_records (s := s.foldEvents k e) owner _⟩
    · rw [← corrAt_foldEvents (s := s) (k := k) (e := e), State.corrAt, sent]
      rfl
    · rw [events]
      exact length_foldEvents he

end Sys2Proof.Machine
end

section
/-! 16 R366, 17 R375: how a granted monitor call acts within the monitor, and how it returns or waits. -/
namespace Sys2Proof.Machine

/-! ### A call and its return (16 R366, 17 R375) -/

theorem callTurn_eq {s g : State} (h : s.callTurn = some g) : ∃ arbs, g = { s with callArbs := arbs } := by
  unfold State.callTurn at h
  split at h
  · exact ⟨s.callArbs, (Option.some.inj h).symm⟩
  · dsimp only at h
    split at h
    · exact ⟨_, (Option.some.inj h).symm⟩
    · cases h

/-- The caller as its call found it, in a state within the call: the issuing strand names the call, and its registers, the vector registers
and the masks are as before. -/
structure InCall (s t : State) : Prop where
  regs : t.st.regs = s.st.regs
  cause : t.st.cause = 0x0E
  epc : t.st.epc = s.st.unit
  fval : t.st.fval = s.st.pc
  callerLvl : t.st.callerLvl = some s.st.lvl
  v : t.tile.v = s.tile.v
  k : t.tile.k = s.tile.k

/-- How a call returns: its status in s5, the caller's level, the next word. -/
def State.callReturn (t : State) (v : Nat) : State := (t.setReg 5 (BitVec.ofNat 64 v)).exitMonitor

/-- A call that returns from a state within it. -/
theorem callResult_of_return {o : Host.Outcome State Fault Refusal} {s t : State} {v : Nat} {p : State → Prop} (h : InCall s t)
    (ho : o = .next (t.callReturn v)) (hp : p (t.callReturn v)) : CallResult o s v p := by
  refine ⟨_, ho, fun r => ?_, ?_, ?_, ?_, ?_, ?_, sameVectors_of_tile ?_ ?_, hp⟩
  · have regs : (t.callReturn v).reg r = (t.setReg 5 (BitVec.ofNat 64 v)).reg r :=
      reg_eq_of_regs (by simp [State.callReturn, State.exitMonitor, Strand.startUnit]) r
    rw [regs, setReg_reg, reg_eq_of_regs h.regs]
    simp
  all_goals simp [State.callReturn, State.exitMonitor, Strand.startUnit, h.cause, h.epc, h.fval, h.callerLvl, h.v, h.k]

/-! What lies outside the caller's strand is as it was before the return. -/

@[simp] theorem callReturn_mem (t : State) (v : Nat) : (t.callReturn v).mem = t.mem := rfl
@[simp] theorem callReturn_others (t : State) (v : Nat) : (t.callReturn v).others = t.others := rfl
@[simp] theorem callReturn_keySlots (t : State) (v : Nat) : (t.callReturn v).keySlots = t.keySlots := rfl
@[simp] theorem callReturn_lines (t : State) (v : Nat) : (t.callReturn v).lines = t.lines := rfl
@[simp] theorem callReturn_routes (t : State) (v : Nat) : (t.callReturn v).routes = t.routes := rfl
@[simp] theorem callReturn_tile_ltn (t : State) (v : Nat) : (t.callReturn v).tile.ltn = t.tile.ltn := by
  simp [State.callReturn, State.exitMonitor]
@[simp] theorem callReturn_tile_spad (t : State) (v : Nat) : (t.callReturn v).tile.spad = t.tile.spad := by
  simp [State.callReturn, State.exitMonitor]
@[simp] theorem callReturn_tile_acc (t : State) (v : Nat) : (t.callReturn v).tile.acc = t.tile.acc := by
  simp [State.callReturn, State.exitMonitor]
@[simp] theorem callReturn_tile_regions0 (t : State) (v : Nat) : (t.callReturn v).tile.regions0 = t.tile.regions0 := by
  simp [State.callReturn, State.exitMonitor]

/-- A monitor call of a strand at L1 that its IO die has granted, and whose translation has not failed (17 R375). -/
structure Granted (i : Instr) (s g : State) : Prop where
  issues : Issues i s
  level : s.st.lvl = 1
  turn : s.callTurn = some g
  translated : s.st.sample ≠ some 2

section
variable {i : Instr} {n : Nat} {f : State → MonRes} {s g : State} (h : Granted i s g)
include h

theorem Granted.translated_grant : g.st.sample ≠ some 2 := by
  obtain ⟨arbs, rfl⟩ := callTurn_eq h.turn
  exact h.translated

theorem Granted.inCall : InCall s g.enterMonitor := by
  obtain ⟨arbs, rfl⟩ := callTurn_eq h.turn
  have st (x : Strand → Strand) : (({ s with callArbs := arbs } : State).onSt x).st = x s.st := onSt_st _ x
  constructor <;> simp only [State.enterMonitor, st, onSt_tile_v, onSt_tile_k]
  rfl

/-- A granted call is what it comes to within the monitor. -/
theorem monitorCall_ended {v : Nat} {t : State} (hf : f g.enterMonitor = .done v t) : monitorCall i n f s = .next (t.callReturn v) := by
  refine run_ended h.issues ?_
  rw [if_neg (by rw [h.level]; decide), if_pos h.level, h.turn]
  dsimp only
  rw [if_neg h.translated_grant, hf]
  rfl

/-- A granted call that cannot end yet makes its strand wait in the monitor, and changes nothing else. -/
theorem monitorCall_wait {p : State → Prop} (hf : f g.enterMonitor = .wait)
    (hp : ∀ u : State, u.keySlots = s.keySlots → u.lines = s.lines → u.routes = s.routes → p u) :
    ∃ u : State, monitorCall i n f s = .next u ∧ u.st.wait = some .monitor ∧ p u := by
  have frame : g.keySlots = s.keySlots ∧ g.lines = s.lines ∧ g.routes = s.routes := by
    obtain ⟨arbs, rfl⟩ := callTurn_eq h.turn
    exact ⟨rfl, rfl, rfl⟩
  obtain ⟨slots, lines, routes⟩ := frame
  refine ⟨_, run_wait h.issues (w := .monitor) (s' := g.onSt fun x => { x with sample := some 1 }) ?_, by simp only [onSt_st],
    hp _ slots lines routes⟩
  rw [if_neg (by rw [h.level]; decide), if_pos h.level, h.turn]
  dsimp only
  rw [if_neg h.translated_grant, hf]

theorem monitorCall_result {v : Nat} {t : State} {p : State → Prop} (hf : f g.enterMonitor = .done v t) (ht : InCall s t)
    (hp : p (t.callReturn v)) : CallResult (monitorCall i n f s) s v p :=
  callResult_of_return ht (monitorCall_ended h hf) hp

end

theorem InCall.of_same {s t u : State} (h : InCall s t) (hst : u.st = t.st) (hv : u.tile.v = t.tile.v) (hk : u.tile.k = t.tile.k) :
    InCall s u where
  regs := hst ▸ h.regs
  cause := hst ▸ h.cause
  epc := hst ▸ h.epc
  fval := hst ▸ h.fval
  callerLvl := hst ▸ h.callerLvl
  v := hv.trans h.v
  k := hk.trans h.k

/-! ### The state in which a granted call acts -/

/-- The state that a granted call finds: the caller's strand is in the monitor, and the rest of the package is as it was. -/
structure Entered (s t : State) : Prop where
  inCall : InCall s t
  package : ∃ tile arbs, t = { s with tile := tile, callArbs := arbs }
  ltn : t.tile.ltn = s.tile.ltn
  paddock : t.tile.paddock = s.tile.paddock
  spad : t.tile.spad = s.tile.spad
  acc : t.tile.acc = s.tile.acc
  spadBad : t.tile.spadBad = s.tile.spadBad
  images : t.tile.images = s.tile.images
  regions0 : t.tile.regions0 = s.tile.regions0

theorem Granted.entered {i : Instr} {s g : State} (h : Granted i s g) : Entered s g.enterMonitor := by
  have inCall := h.inCall
  obtain ⟨arbs, rfl⟩ := callTurn_eq h.turn
  exact ⟨inCall, ⟨_, arbs, rfl⟩, by simp [State.enterMonitor], by simp [State.enterMonitor], by simp [State.enterMonitor],
    by simp [State.enterMonitor], by simp [State.enterMonitor], by simp [State.enterMonitor], by simp [State.enterMonitor]⟩

namespace Entered
variable {s t : State} (h : Entered s t)
include h

theorem reg (r : SReg) : t.reg r = s.reg r := reg_eq_of_regs h.inCall.regs r
theorem arg (r : SReg) : t.arg r = (s.reg r).toNat := congrArg BitVec.toNat (h.reg r)
theorem caller : t.caller = s.tile.paddock := h.paddock
theorem mem : t.mem = s.mem := by obtain ⟨_, _, e⟩ := h.package; rw [e]
theorem others : t.others = s.others := by obtain ⟨_, _, e⟩ := h.package; rw [e]
theorem keySlots : t.keySlots = s.keySlots := by obtain ⟨_, _, e⟩ := h.package; rw [e]
theorem lines : t.lines = s.lines := by obtain ⟨_, _, e⟩ := h.package; rw [e]
theorem routes : t.routes = s.routes := by obtain ⟨_, _, e⟩ := h.package; rw [e]
theorem virtqueues : t.virtqueues = s.virtqueues := by obtain ⟨_, _, e⟩ := h.package; rw [e]
theorem roots : t.roots = s.roots := by obtain ⟨_, _, e⟩ := h.package; rw [e]
theorem pcfg (p : BitVec 5) : t.pcfg p = s.pcfg p := by obtain ⟨_, _, e⟩ := h.package; rw [e]; rfl
theorem callTile (l : Nat) : t.callTile l = s.inPaddock s.tile.paddock l := by
  rw [State.callTile, h.caller, State.inPaddock, h.pcfg]; rfl
theorem keyOk (p : BitVec 5) (k : BitVec 13) : t.keyOk p k = s.keyOk p k := by rw [State.keyOk, h.pcfg]; rfl
theorem keyPending (k : BitVec 13) : t.keyPending k = s.keyPending k := by obtain ⟨_, _, e⟩ := h.package; rw [e]; rfl
theorem routeConflict (e : RouteEntry) : t.routeConflict e = s.routeConflict e := by rw [State.routeConflict, h.routes]; rfl
theorem routeHolds (e : RouteEntry) : t.routeHolds e = s.routeHolds e := by obtain ⟨_, _, e⟩ := h.package; rw [e]; rfl
theorem ownsVf (p : BitVec 5) (vf : Nat) : t.ownsVf p vf = s.ownsVf p vf := by rw [State.ownsVf, h.pcfg]; rfl
theorem hostQueue (p : BitVec 5) (q : Nat) : t.hostQueue p q = s.hostQueue p q := by obtain ⟨_, _, e⟩ := h.package; rw [e]; rfl
theorem device (vf dev : Nat) : t.device vf dev = s.device vf dev := by obtain ⟨_, _, e⟩ := h.package; rw [e]; rfl
theorem exportBusy (sel a : Nat) : t.exportBusy sel a = s.exportBusy sel a := by obtain ⟨_, _, e⟩ := h.package; rw [e]; rfl

/-- A return from the call with nothing done leaves every byte as it was. -/
theorem sameBytes (v : Nat) : SameBytes s (t.callReturn v) := sameBytes_of_eq (by simp [h.mem]) (by simp [h.spad]) (by simp [h.acc])

end Entered

end Sys2Proof.Machine
end

section
/-! 16 R358, R361, 17 R372, R376: what INFO and REGION_SET do. -/
namespace Sys2Proof.Machine

section
variable {s g : State}

/-! ### INFO (17 R372, R376) -/

theorem info_record (h : Granted .info s g) {c : PaddockCfg} (hc : s.pcfg s.tile.paddock = some c) (aligned : (s.reg 6).toNat % 64 = 0)
    (inSpad : (s.reg 6).toNat + 64 ≤ 2 ^ 20) (wf : s.tile.spad.wf = true) :
    CallResult (exec .info s) s 0 fun u => u.mem = s.mem ∧
      (∀ j, j < 64 → u.tile.spad.read ((s.reg 6).toNat + j) = (cfgBytes c).getD j 0) ∧
      ∀ a, a < (s.reg 6).toNat ∨ (s.reg 6).toNat + 64 ≤ a → u.tile.spad.read a = s.tile.spad.read a := by
  have e := h.entered
  have length : (cfgBytes c).length = 64 := leBytes_length 64 _
  rw [exec_info, execInfo]
  refine monitorCall_result h (t := g.enterMonitor.storeLocal (s.reg 6).toNat (cfgBytes c)) ?_
    (e.inCall.of_same (storeLocal_st ..) (storeLocal_tile_v ..) (storeLocal_tile_k ..)) ⟨e.mem, fun j hj => ?_, fun a ha => ?_⟩
  · simp only [e.caller, e.pcfg, hc, e.arg]
    rw [if_pos ⟨aligned, inSpad⟩]
  · rw [callReturn_tile_spad, storeLocal_spad, e.spad, Memory.read_writeBytes _ _ _ wf, if_pos (by omega), Nat.add_sub_cancel_left]
  · rw [callReturn_tile_spad, storeLocal_spad, e.spad, Memory.read_writeBytes _ _ _ wf, if_neg (by omega)]

theorem info_refused (h : Granted .info s g) {c : PaddockCfg} (hc : s.pcfg s.tile.paddock = some c)
    (bad : (s.reg 6).toNat % 64 ≠ 0 ∨ 2 ^ 20 < (s.reg 6).toNat + 64) : CallResult (exec .info s) s 3 fun u => SameBytes s u := by
  have e := h.entered
  rw [exec_info, execInfo]
  refine monitorCall_result h (t := g.enterMonitor) ?_ e.inCall (e.sameBytes 3)
  simp only [e.caller, e.pcfg, hc, e.arg]
  rw [if_neg fun ok => bad.elim (absurd ok.1) (absurd ok.2 ∘ Nat.not_le.mpr)]

/-! ### REGION_SET (16 R358, R363) -/

theorem find?_insertTile (l : Nat) (t : Tile) (ts : List (Nat × Tile)) :
    (insertTile l t ts).find? (fun p => p.1 == l) = some (l, t) := by
  induction ts with
  | nil => simp [insertTile]
  | cons p r ih =>
    obtain ⟨k, u⟩ := p
    rw [insertTile]
    split
    · simp
    · split
      · simp
      · simp [show k ≠ l by omega, ih]

theorem getTile_modTile {s : State} {l : Nat} {f : Tile → Tile} (ltn : ∀ t, (f t).ltn = t.ltn) :
    (s.modTile l f).getTile l = f (s.getTile l) := by
  by_cases hl : s.tile.ltn = l
  · have own : s.getTile l = s.tile := if_pos hl
    rw [State.modTile, State.putTile, if_pos hl, own]
    exact if_pos ((ltn s.tile).trans hl)
  · rw [State.modTile, State.putTile, if_neg hl, State.getTile, if_neg hl]
    simp only [find?_insertTile]

theorem callReturn_getTile_regions0 (t : State) (v l : Nat) : ((t.callReturn v).getTile l).regions0 = (t.getTile l).regions0 := by
  rw [State.getTile, State.getTile, callReturn_tile_ltn, callReturn_others]
  split
  · exact callReturn_tile_regions0 t v
  · rfl

theorem Entered.getTile_images {s t : State} (h : Entered s t) (l : Nat) : (t.getTile l).images = (s.getTile l).images := by
  rw [State.getTile, State.getTile, h.ltn, h.others]
  split
  · exact h.images
  · rfl

theorem Entered.getTile_regions0 {s t : State} (h : Entered s t) (l : Nat) : (t.getTile l).regions0 = (s.getTile l).regions0 := by
  rw [State.getTile, State.getTile, h.ltn, h.others]
  split
  · exact h.regions0
  · rfl

/-- A tile that a call wakes, one of its L0 regions written. -/
def Tile.wakeRegion (i : Nat) (d : DW) (t : Tile) : Tile := { t.wake with regions0 := t.regions0.setIfInBounds i d }

/-- A call that wakes a tile and writes a region of it is still within the call: the caller's strand is as it was, or its `wfi` has ended. -/
theorem InCall.wakeRegion {s t : State} (h : InCall s t) (l i : Nat) (d : DW) : InCall s (t.modTile l (Tile.wakeRegion i d)) := by
  by_cases hl : t.tile.ltn = l
  · have tile : (t.modTile l (Tile.wakeRegion i d)).tile = Tile.wakeRegion i d t.tile := by
      rw [State.modTile, State.putTile, if_pos hl, State.getTile, if_pos hl]
    have st : (t.modTile l (Tile.wakeRegion i d)).st = t.st ∨ (t.modTile l (Tile.wakeRegion i d)).st = t.st.retire := by
      rw [State.st, State.cur, tile]
      exact wake_strand t.tile t.cur
    have v : (t.modTile l (Tile.wakeRegion i d)).tile.v = t.tile.v := by rw [tile]; rfl
    have k : (t.modTile l (Tile.wakeRegion i d)).tile.k = t.tile.k := by rw [tile]; rfl
    obtain st | st := st
    · exact h.of_same st v k
    · exact ⟨by rw [st, retire_regs, h.regs], by rw [st, retire_cause, h.cause], by rw [st, retire_epc, h.epc],
        by rw [st, retire_fval, h.fval], by rw [st, retire_callerLvl, h.callerLvl], v.trans h.v, k.trans h.k⟩
  · rw [State.modTile, State.putTile, if_neg hl]
    exact h.of_same rfl rfl rfl

theorem regionSet_outside (h : Granted .regionSet s g) (outside : s.inPaddock s.tile.paddock (s.reg 6).toNat = false) :
    CallResult (exec .regionSet s) s 1 fun u => u.tile.regions0 = s.tile.regions0 := by
  have e := h.entered
  rw [exec_regionSet, execRegionSet]
  refine monitorCall_result h (t := g.enterMonitor) ?_ e.inCall ((callReturn_tile_regions0 ..).trans e.regions0)
  simp only [e.arg, e.callTile, outside]
  rfl

/-- The regions that the images of a tile hold, as a test of the model. -/
theorem any_region_eq (ms : List BoundImage) (i : Nat) :
    (ms.any fun m => m.region == some i) = true ↔ ∃ m ∈ ms, m.region = some i := by
  simp only [List.any_eq_true, beq_iff_eq]

theorem regionSet_refused (h : Granted .regionSet s g) (inside : s.inPaddock s.tile.paddock (s.reg 6).toNat = true)
    (bad : regionInvalid (s.reg 8) = true ∨ ∃ m ∈ (s.getTile (s.reg 6).toNat).images, m.region = some ((s.reg 7).toNat % 16)) :
    CallResult (exec .regionSet s) s 3 fun u => u.tile.regions0 = s.tile.regions0 := by
  have e := h.entered
  rw [exec_regionSet, execRegionSet]
  refine monitorCall_result h (t := g.enterMonitor) ?_ e.inCall ((callReturn_tile_regions0 ..).trans e.regions0)
  simp only [e.arg, e.reg, e.callTile, inside, e.getTile_images]
  rw [if_neg (by decide), if_pos (by rw [Bool.or_eq_true, any_region_eq]; exact bad)]

theorem regionSet_written (h : Granted .regionSet s g) (inside : s.inPaddock s.tile.paddock (s.reg 6).toNat = true)
    (valid : regionInvalid (s.reg 8) = false)
    (free : ∀ m ∈ (s.getTile (s.reg 6).toNat).images, m.region ≠ some ((s.reg 7).toNat % 16)) :
    CallResult (exec .regionSet s) s 0 fun u => (u.getTile (s.reg 6).toNat).regions0 =
      (s.getTile (s.reg 6).toNat).regions0.setIfInBounds ((s.reg 7).toNat % 16) (s.reg 8) := by
  have e := h.entered
  rw [exec_regionSet, execRegionSet]
  refine monitorCall_result h
    (t := g.enterMonitor.modTile (s.reg 6).toNat (Tile.wakeRegion ((s.reg 7).toNat % 16) (s.reg 8))) ?_ (e.inCall.wakeRegion ..) ?_
  · simp only [e.arg, e.reg, e.callTile, inside, e.getTile_images, valid, Bool.false_or]
    rw [if_neg (by decide), if_neg fun held => ?_]
    · rfl
    · obtain ⟨m, hm, hr⟩ := (any_region_eq _ _).mp held
      exact free m hm hr
  · rw [callReturn_getTile_regions0, getTile_modTile (f := Tile.wakeRegion _ _) fun _ => rfl, Tile.wakeRegion, e.getTile_regions0]

end

end Sys2Proof.Machine
end

section
/-! 03 R75-R77, 10 R229, 17 R376, R380: what the calls about key slots, routes and virtqueues do. -/
namespace Sys2Proof.Machine

/-! ### Key slots (03 R75-R77, 17 R376) -/

/-- The state with a slot filled or emptied and the lines of its key purged. -/
def State.rekey (s : State) (k : BitVec 13) (m : Option KeyMaterial) : State := (s.purgeKey k).setKey k m

theorem rekey_keySlot (s : State) (k : BitVec 13) (m : Option KeyMaterial) :
    (s.rekey k m).keySlot k = some { id := k, contents := m } :=
  find?_upsert (by simp) (by simp) _

theorem rekey_keySlot_ne (s : State) {k j : BitVec 13} (m : Option KeyMaterial) (h : j ≠ k) : (s.rekey k m).keySlot j = s.keySlot j := by
  have new : (k == j) = false := beq_false_of_ne h.symm
  exact find?_upsert_of_not (p := fun x : KeySlot => x.id == k) (f := fun _ => { id := k, contents := m }) new
    (fun x hx => ⟨by rwa [beq_iff_eq.mp hx], new⟩) _

section
variable {i : Instr} {s g : State} {k : BitVec 13}

/-- A call that ends with a slot filled or emptied. -/
theorem callResult_rekey {n : Nat} {f : State → MonRes} (h : Granted i s g) (m : Option KeyMaterial)
    (hf : f g.enterMonitor = .done 0 (g.enterMonitor.rekey k m)) : CallResult (monitorCall i n f s) s 0 fun u =>
      (u.keySlot k).bind KeySlot.contents = m ∧ u.lines = s.lines.filter (fun l => l.key != k) ∧
      (∀ j, j ≠ k → u.keySlot j = s.keySlot j) ∧ SameBytes s u := by
  have e := h.entered
  refine monitorCall_result h hf (e.inCall.of_same rfl rfl rfl) ⟨?_, ?_, fun j hj => ?_, sameBytes_of_eq ?_ ?_ ?_⟩
  · rw [State.keySlot, callReturn_keySlots, ← State.keySlot, rekey_keySlot]; rfl
  · rw [callReturn_lines, ← e.lines]; rfl
  · rw [State.keySlot, callReturn_keySlots, ← State.keySlot, rekey_keySlot_ne _ _ hj, State.keySlot, e.keySlots]; rfl
  · exact e.mem
  · exact (callReturn_tile_spad ..).trans e.spad
  · exact (callReturn_tile_acc ..).trans e.acc

/-- A slot number that is none of the caller's, as the calls test it. -/
theorem keyOutside_iff (p : BitVec 5) (n : Nat) :
    (2 ^ 13 ≤ n ∨ (!s.keyOk p (BitVec.ofNat 13 n)) = true) ↔ ∀ k : BitVec 13, n = k.toNat → s.keyOk p k = false := by
  constructor
  · rintro (big | bad) k rfl
    · exact absurd k.isLt (Nat.not_lt.mpr big)
    · rwa [BitVec.ofNat_toNat, BitVec.setWidth_eq, Bool.not_eq_true'] at bad
  · intro bad
    by_cases small : n < 2 ^ 13
    · exact .inr (by rw [bad _ (BitVec.toNat_ofNat n 13 ▸ (Nat.mod_eq_of_lt small).symm)]; rfl)
    · exact .inl (Nat.not_lt.mp small)

theorem not_keyOutside {p : BitVec 5} {n : Nat} (hn : n = k.toNat) (ok : s.keyOk p k = true) :
    ¬ (2 ^ 13 ≤ n ∨ (!s.keyOk p (BitVec.ofNat 13 n)) = true) := fun bad => by
  rw [(keyOutside_iff p n).mp bad k hn] at ok
  cases ok

theorem key_outside (hi : i = .keyLoad ∨ i = .keyClear) (h : Granted i s g)
    (bad : ∀ k : BitVec 13, (s.reg 6).toNat = k.toNat → s.keyOk s.tile.paddock k = false) :
    CallResult (exec i s) s 1 fun u => u.keySlots = s.keySlots ∧ u.lines = s.lines := by
  have e := h.entered
  have frame : (g.enterMonitor.callReturn 1).keySlots = s.keySlots ∧ (g.enterMonitor.callReturn 1).lines = s.lines :=
    ⟨e.keySlots, e.lines⟩
  obtain big := (keyOutside_iff s.tile.paddock _).mpr bad
  obtain rfl | rfl := hi
  · rw [exec_keyLoad, execKeyLoad]
    refine monitorCall_result h (t := g.enterMonitor) ?_ e.inCall frame
    simp only [e.arg, e.caller, e.keyOk]
    rw [if_pos (big.imp_right .inl)]
  · rw [exec_keyClear, execKeyClear]
    refine monitorCall_result h (t := g.enterMonitor) ?_ e.inCall frame
    simp only [e.arg, e.caller, e.keyOk]
    rw [if_pos big]

theorem keyClear_pending (h : Granted .keyClear s g) (hn : (s.reg 6).toNat = k.toNat) (ok : s.keyOk s.tile.paddock k = true)
    (pending : s.keyPending k = true) : ∃ u : State, exec .keyClear s = .next u ∧ u.st.wait = some .monitor ∧
      u.keySlots = s.keySlots ∧ u.lines = s.lines := by
  have e := h.entered
  rw [exec_keyClear, execKeyClear]
  refine monitorCall_wait h ?_ fun u slots lines _ => ⟨slots, lines⟩
  simp only [e.arg, e.caller, e.keyOk]
  rw [if_neg (not_keyOutside hn ok), hn, BitVec.ofNat_toNat, BitVec.setWidth_eq, e.keyPending, if_pos pending]

theorem keyClear_empties (h : Granted .keyClear s g) (hn : (s.reg 6).toNat = k.toNat) (ok : s.keyOk s.tile.paddock k = true)
    (idle : s.keyPending k = false) : CallResult (exec .keyClear s) s 0 fun u => (u.keySlot k).bind KeySlot.contents = none ∧
      u.lines = s.lines.filter (fun l => l.key != k) ∧ (∀ j, j ≠ k → u.keySlot j = s.keySlot j) ∧ SameBytes s u := by
  have e := h.entered
  rw [exec_keyClear, execKeyClear]
  refine callResult_rekey h none ?_
  simp only [e.arg, e.caller, e.keyOk]
  rw [if_neg (not_keyOutside hn ok), hn, BitVec.ofNat_toNat, BitVec.setWidth_eq, e.keyPending, if_neg (by rw [idle]; decide)]
  rfl

theorem wordsBad_nil (a n : Nat) : wordsBad [] a n = false := by simp [wordsBad]

theorem Entered.readSpad {s t : State} (h : Entered s t) (a n : Nat) : t.tile.readSpad a n = s.tile.readSpad a n := by
  rw [Tile.readSpad, Tile.readSpad, h.spad]

section
variable (h : Granted .keyLoad s g) (hn : (s.reg 6).toNat = k.toNat) (ok : s.keyOk s.tile.paddock k = true)
  (inSpad : (s.reg 7).toNat + 72 ≤ 2 ^ 20) (sound : s.tile.spadBad = [])

include hn ok inSpad in
theorem keyLoad_accepted : ¬ (2 ^ 13 ≤ (s.reg 6).toNat ∨ (!s.keyOk s.tile.paddock (BitVec.ofNat 13 (s.reg 6).toNat)) = true ∨
    Config.spadSize < (s.reg 7).toNat + 72) := by
  rw [← or_assoc, not_or]
  exact ⟨not_keyOutside hn ok, Nat.not_lt.mpr inSpad⟩

include h hn ok inSpad sound

theorem keyLoad_notUnwrapped (hkey : aesUnwrap (Config.wrapKey s.roots s.tile.paddock) (s.tile.readSpad (s.reg 7).toNat 72) = none) :
    CallResult (exec .keyLoad s) s 4 fun u => u.keySlots = s.keySlots := by
  have e := h.entered
  rw [exec_keyLoad, execKeyLoad]
  refine monitorCall_result h (t := g.enterMonitor) ?_ e.inCall e.keySlots
  simp only [e.arg, e.caller, e.keyOk, e.roots, e.spadBad, sound, wordsBad_nil, e.readSpad, hkey]
  rw [if_neg (keyLoad_accepted hn ok inSpad), if_neg (by decide)]

theorem keyLoad_fills {b : List Byte} (idle : s.keyPending k = false)
    (hkey : aesUnwrap (Config.wrapKey s.roots s.tile.paddock) (s.tile.readSpad (s.reg 7).toNat 72) = some b) :
    CallResult (exec .keyLoad s) s 0 fun u => (u.keySlot k).bind KeySlot.contents = some (.loaded b) ∧
      u.lines = s.lines.filter (fun l => l.key != k) ∧ (∀ j, j ≠ k → u.keySlot j = s.keySlot j) ∧ SameBytes s u := by
  have e := h.entered
  rw [exec_keyLoad, execKeyLoad]
  refine callResult_rekey h (some (.loaded b)) ?_
  simp only [e.arg, e.caller, e.keyOk, e.roots, e.spadBad, sound, wordsBad_nil, e.readSpad, hkey]
  rw [if_neg (keyLoad_accepted hn ok inSpad), if_neg (by decide), hn, BitVec.ofNat_toNat, BitVec.setWidth_eq, e.keyPending,
    if_neg (by rw [idle]; decide)]
  rfl

end

end

/-! ### Routes (10 R229, 17 R376) -/

section
variable {s g : State} {r : RouteEntry}

/-- A call that takes an entry out of the route table, and may add one behind the others. -/
theorem callResult_routes {i : Instr} {n switch idx : Nat} {f : State → MonRes} (h : Granted i s g) (rs : List RouteEntry)
    (hf : f g.enterMonitor = .done 0 { g.enterMonitor with routes := (g.enterMonitor.dropRoute switch idx).routes ++ rs }) :
    CallResult (monitorCall i n f s) s 0 fun u =>
      u.routes = (s.routes.filter fun x => !(x.switch == switch && x.idx == idx)) ++ rs ∧ SameBytes s u := by
  have e := h.entered
  refine monitorCall_result h hf (e.inCall.of_same rfl rfl rfl) ⟨?_, sameBytes_of_eq ?_ ?_ ?_⟩
  · rw [callReturn_routes, ← e.routes]; rfl
  · exact e.mem
  · exact (callReturn_tile_spad ..).trans e.spad
  · exact (callReturn_tile_acc ..).trans e.acc

theorem routeSet_outside (h : Granted .routeSet s g) (bad : s.inPaddock s.tile.paddock (s.reg 6).toNat = false ∨
    (s.reg 8).toNat / 2 ^ 16 % 2 ^ 5 ≠ s.tile.paddock.toNat) : CallResult (exec .routeSet s) s 1 fun u => u.routes = s.routes := by
  have e := h.entered
  rw [exec_routeSet, execRouteSet]
  refine monitorCall_result h (t := g.enterMonitor) ?_ e.inCall e.routes
  simp only [e.arg, e.caller, e.callTile]
  rw [if_pos (by rw [Bool.or_eq_true, Bool.not_eq_true', bne_iff_ne]; exact bad)]

section
variable (h : Granted .routeSet s g) (inside : s.inPaddock s.tile.paddock (s.reg 6).toNat = true)
  (own : (s.reg 8).toNat / 2 ^ 16 % 2 ^ 5 = s.tile.paddock.toNat) (index : (s.reg 7).toNat < 256)
  (formed : routeMalformed (s.reg 8).toNat = false)
include h inside own index formed

/-- ROUTE_SET of a well-formed entry of the caller's paddock, past its checks. -/
theorem routeSet_checked : ((!(g.enterMonitor.callTile (g.enterMonitor.arg 6)) ||
      bitsOf (g.enterMonitor.arg 8) 16 5 != g.enterMonitor.caller.toNat) = false) ∧
    (decide (255 < g.enterMonitor.arg 7) || routeMalformed (g.enterMonitor.arg 8)) = false := by
  have e := h.entered
  simp only [e.arg, e.caller, e.callTile, inside, formed]
  exact ⟨by simpa [bitsOf] using own, by simpa using Nat.le_of_lt_succ index⟩

theorem routeSet_removes (invalid : routeOf (s.reg 6).toNat (s.reg 7).toNat (s.reg 8).toNat = none) :
    CallResult (exec .routeSet s) s 0 fun u =>
      u.routes = (s.routes.filter fun x => !(x.switch == (s.reg 6).toNat && x.idx == (s.reg 7).toNat)) ∧ SameBytes s u := by
  have e := h.entered
  obtain ⟨tile, entry⟩ := routeSet_checked h inside own index formed
  rw [exec_routeSet, execRouteSet, ← List.append_nil (List.filter _ _)]
  refine callResult_routes h [] ?_
  rw [tile, entry]
  simp only [e.arg, invalid, List.append_nil]
  rfl

theorem routeSet_conflict (valid : routeOf (s.reg 6).toNat (s.reg 7).toNat (s.reg 8).toNat = some r)
    (conflict : s.routeConflict r = true) : CallResult (exec .routeSet s) s 3 fun u => u.routes = s.routes := by
  have e := h.entered
  obtain ⟨tile, entry⟩ := routeSet_checked h inside own index formed
  rw [exec_routeSet, execRouteSet]
  refine monitorCall_result h (t := g.enterMonitor) ?_ e.inCall e.routes
  rw [tile, entry]
  simp only [e.arg, valid, e.routeConflict, conflict]
  rfl

theorem routeSet_writes (valid : routeOf (s.reg 6).toNat (s.reg 7).toNat (s.reg 8).toNat = some r)
    (free : s.routeConflict r = false) : CallResult (exec .routeSet s) s 0 fun u =>
      u.routes = (s.routes.filter fun x => !(x.switch == (s.reg 6).toNat && x.idx == (s.reg 7).toNat)) ++ [r] ∧ SameBytes s u := by
  have e := h.entered
  obtain ⟨tile, entry⟩ := routeSet_checked h inside own index formed
  rw [exec_routeSet, execRouteSet]
  refine callResult_routes h [r] ?_
  rw [tile, entry]
  simp only [e.arg, valid, e.routeConflict, free]
  rfl

end

section
variable (h : Granted .routeClear s g) (inside : s.inPaddock s.tile.paddock (s.reg 6).toNat = true)
  (found : (s.routes.find? fun x => x.switch == (s.reg 6).toNat && x.idx == (s.reg 7).toNat) = some r)
include h inside found

theorem routeClear_foreign (foreign : r.paddock ≠ s.tile.paddock) :
    CallResult (exec .routeClear s) s 1 fun u => u.routes = s.routes := by
  have e := h.entered
  rw [exec_routeClear, execRouteClear]
  refine monitorCall_result h (t := g.enterMonitor) ?_ e.inCall e.routes
  simp only [e.arg, e.caller, e.callTile, inside, e.routes, found]
  rw [if_neg (by decide), if_pos foreign]

theorem routeClear_waits (own : r.paddock = s.tile.paddock) (held : s.routeHolds r = true) :
    ∃ u : State, exec .routeClear s = .next u ∧ u.st.wait = some .monitor ∧ u.routes = s.routes := by
  have e := h.entered
  rw [exec_routeClear, execRouteClear]
  refine monitorCall_wait h ?_ fun u _ _ routes => routes
  simp only [e.arg, e.caller, e.callTile, inside, e.routes, found, e.routeHolds]
  rw [if_neg (by decide), if_neg (not_not.mpr own), if_pos held]

theorem routeClear_removes (own : r.paddock = s.tile.paddock) (free : s.routeHolds r = false) :
    CallResult (exec .routeClear s) s 0 fun u =>
      u.routes = (s.routes.filter fun x => !(x.switch == (s.reg 6).toNat && x.idx == (s.reg 7).toNat)) ∧ SameBytes s u := by
  have e := h.entered
  rw [exec_routeClear, execRouteClear, ← List.append_nil (List.filter _ _)]
  refine callResult_routes h [] ?_
  simp only [e.arg, e.caller, e.callTile, inside, e.routes, found, e.routeHolds, List.append_nil]
  rw [if_neg (by decide), if_neg (not_not.mpr own), if_neg (by rw [free]; decide)]
  rfl

end

end

end Sys2Proof.Machine
end

section
/-! 17 R376, R380, R386-R390: what VQ_BIND, EXPORT, IMPORT and ATTEST do. -/
namespace Sys2Proof.Machine

section
variable {s g s1 s2 : State}

/-! ### VQ_BIND (17 R376, R380) -/

/-- The virtqueue that a call names. -/
def State.vqArg (s : State) : VqId := { vf := s.arg 6, dev := s.arg 7 % 4, vq := bitsOf (s.arg 7) 2 6 }

/-- The virtqueue that a call names is none of a VF of the caller. -/
def State.vqMissing (s : State) : Bool :=
  !(s.ownsVf s.caller s.vqArg.vf) || decide (2 < s.vqArg.dev) || decide (255 < s.arg 7) || decide (vqCount s.vqArg.dev ≤ s.vqArg.vq)

theorem vqMissing_iff (s : State) : s.vqMissing = true ↔ s.ownsVf s.tile.paddock (s.reg 6).toNat = false ∨ 255 < (s.reg 7).toNat ∨
    2 < s.vqArg.dev ∨ vqCount s.vqArg.dev ≤ s.vqArg.vq := by
  simp only [State.vqMissing, Bool.or_eq_true, Bool.not_eq_true', decide_eq_true_eq, or_assoc]
  rw [or_left_comm (a := 255 < _)]
  rfl

theorem Entered.vqArg {s t : State} (h : Entered s t) : t.vqArg = s.vqArg := by
  rw [State.vqArg, h.arg, h.arg]; rfl

theorem Entered.vqMissing {s t : State} (h : Entered s t) : t.vqMissing = s.vqMissing := by
  rw [State.vqMissing, h.vqArg, h.caller, h.ownsVf, h.arg]; rfl

theorem mem_upsert {α : Type} {p : α → Bool} {v : α} (hv : p v = true) (l : List α) : v ∈ upsert p (fun _ => v) l :=
  List.mem_of_find?_eq_some (find?_upsert hv (fun _ _ => hv) l)

theorem vqBind_missing (h : Granted .vqBind s g) (missing : s.vqMissing = true) :
    CallResult (exec .vqBind s) s 1 fun u => u.virtqueues = s.virtqueues := by
  have e := h.entered
  rw [exec_vqBind, execVqBind]
  exact monitorCall_result h (t := g.enterMonitor) (if_pos (e.vqMissing.trans missing)) e.inCall e.virtqueues

section
variable (h : Granted .vqBind s g) (ex : s.vqMissing = false) (itemQ : s.hostQueue s.tile.paddock (s.reg 8).toNat = true)
  (compQ : s.hostQueue s.tile.paddock (s.reg 9).toNat = true)
include h ex itemQ compQ

/-- Past the checks of VQ_BIND on the virtqueue and its queues. -/
theorem vqBind_checked : ¬ g.enterMonitor.vqMissing = true ∧ ¬ (!(g.enterMonitor.hostQueue g.enterMonitor.caller (g.enterMonitor.arg 8) &&
    g.enterMonitor.hostQueue g.enterMonitor.caller (g.enterMonitor.arg 9))) = true := by
  have e := h.entered
  simp only [e.vqMissing, ex, e.caller, e.arg, e.hostQueue, itemQ, compQ]
  decide

theorem vqBind_driven (driven : (s.device s.vqArg.vf s.vqArg.dev).status.getLsbD 2 = true) :
    CallResult (exec .vqBind s) s 2 fun u => u.virtqueues = s.virtqueues := by
  have e := h.entered
  obtain ⟨found, queues⟩ := vqBind_checked h ex itemQ compQ
  rw [← e.vqArg, ← e.device] at driven
  rw [exec_vqBind, execVqBind]
  exact monitorCall_result h (t := g.enterMonitor) ((if_neg found).trans ((if_neg queues).trans (if_pos driven))) e.inCall e.virtqueues

theorem vqBind_binds (idle : (s.device s.vqArg.vf s.vqArg.dev).status.getLsbD 2 = false) :
    CallResult (exec .vqBind s) s 0 fun u => ∃ v ∈ u.virtqueues, v.id = s.vqArg ∧ v.itemQ = (s.reg 8).toNat ∧
      v.compQ = (s.reg 9).toNat ∧ v.pool = s.reg 10 ∧ v.poolBytes = (s.reg 11).toNat ∧ v.pending = [] ∧ v.outstanding = [] ∧
      v.lastAvail = 0 ∧ v.used = 0 := by
  have e := h.entered
  obtain ⟨found, queues⟩ := vqBind_checked h ex itemQ compQ
  rw [← e.vqArg, ← e.device, ← Bool.not_eq_true] at idle
  rw [exec_vqBind, execVqBind]
  refine monitorCall_result h ((if_neg found).trans ((if_neg queues).trans (if_neg idle))) (e.inCall.of_same rfl rfl rfl)
    ⟨_, mem_upsert (p := fun x : Virtqueue => x.id == g.enterMonitor.vqArg) (beq_self_eq_true _) _, ?_⟩
  exact ⟨e.vqArg, e.arg 8, e.arg 9, e.reg 10, e.arg 11, rfl, rfl, rfl, rfl⟩

end

/-! ### EXPORT, IMPORT and ATTEST (17 R386, R387, R390) -/

theorem exportCall_moves (h : Granted .exportCall s g) {bs : List Byte} {x : Unit}
    (ready : s.exportBusy (s.reg 6).toNat (s.reg 8).toNat = false)
    (exported : g.enterMonitor.exportBytes s.tile.paddock (s.reg 6).toNat (s.reg 8).toNat = (0, bs, s1))
    (written : s1.gWrites s1.callAgent (lineFuel bs.length) (s.reg 7) bs = (.ok x, s2)) :
    exec .exportCall s = .next (s2.callReturn 0) := by
  have e := h.entered
  rw [exec_exportCall, execExportCall]
  refine monitorCall_ended h ?_
  simp only [e.arg, e.reg, e.caller, e.exportBusy, ready, exported, written]
  rfl

theorem exportCall_refused (h : Granted .exportCall s g) {v : Nat} {bs : List Byte}
    (ready : s.exportBusy (s.reg 6).toNat (s.reg 8).toNat = false)
    (refused : g.enterMonitor.exportBytes s.tile.paddock (s.reg 6).toNat (s.reg 8).toNat = (v, bs, s1)) (hv : v ≠ 0) :
    CallResult (exec .exportCall s) s v fun u => SameBytes s u := by
  have e := h.entered
  obtain ⟨v, rfl⟩ := Nat.exists_eq_succ_of_ne_zero hv
  rw [exec_exportCall, execExportCall]
  refine monitorCall_result h (t := g.enterMonitor) ?_ e.inCall (e.sameBytes _)
  simp only [e.arg, e.caller, e.exportBusy, ready, refused]
  rfl

theorem importCall_moves (h : Granted .importCall s g) {bs : List Byte}
    (read : g.enterMonitor.importRead g.enterMonitor.callAgent (s.reg 6).toNat (s.reg 8).toNat (s.reg 7) = (.ok bs, s1))
    (imported : s1.importBytes s.tile.paddock (s.reg 6).toNat (s.reg 8).toNat bs = (0, s2)) :
    exec .importCall s = .next (s2.callReturn 0) := by
  have e := h.entered
  rw [exec_importCall, execImportCall]
  refine monitorCall_ended h ?_
  simp only [e.arg, e.reg, e.caller, read, Io.call, imported]

theorem importCall_refused (h : Granted .importCall s g) {v : Nat} {bs : List Byte}
    (read : g.enterMonitor.importRead g.enterMonitor.callAgent (s.reg 6).toNat (s.reg 8).toNat (s.reg 7) = (.ok bs, s1))
    (refused : s1.importBytes s.tile.paddock (s.reg 6).toNat (s.reg 8).toNat bs = (v, s2)) (hv : v ≠ 0) :
    CallResult (exec .importCall s) s v fun u => SameBytes s u := by
  have e := h.entered
  obtain ⟨v, rfl⟩ := Nat.exists_eq_succ_of_ne_zero hv
  rw [exec_importCall, execImportCall]
  refine monitorCall_result h (t := g.enterMonitor) ?_ e.inCall (e.sameBytes _)
  simp only [e.arg, e.reg, e.caller, read, Io.call, refused]

theorem attest_moves (h : Granted .attest s g) {bs : List Byte} {x : Unit}
    (read : g.enterMonitor.gReads g.enterMonitor.callAgent (lineFuel 48) (s.reg 6) 48 = (.ok bs, s1))
    (written : s1.gWrites s1.callAgent (lineFuel (s1.evidence s.tile.paddock bs).length) (s.reg 7) (s1.evidence s.tile.paddock bs) =
      (.ok x, s2)) : exec .attest s = .next (s2.callReturn 0) := by
  have e := h.entered
  rw [exec_attest, execAttest]
  refine monitorCall_ended h ?_
  simp only [e.reg, e.caller, read, Io.call, written]

end

/-- Settles O54: each call is one that has been granted and returns, or waits, from the state in which it acts within the monitor; what it
changes there is read off its own lemma. -/
theorem resourceCalls : Obligations.ResourceCalls := by
  unfold Obligations.ResourceCalls
  intro s g i k n issues level turn translated hn
  have h : Granted i s g := ⟨issues, level, turn, translated⟩
  subst hn
  refine ⟨?info, ?regionSet, ?keys, ?routes, ?vqBind, ?moves⟩
  case info =>
    rintro c rfl hc
    exact ⟨info_record h hc, info_refused h hc⟩
  case regionSet =>
    rintro rfl
    exact ⟨regionSet_outside h, fun inside => ⟨regionSet_refused h inside, regionSet_written h inside⟩⟩
  case keys =>
    refine fun hi => ⟨key_outside hi h, fun hn ok => ⟨?clear, ?load⟩⟩
    case clear =>
      rintro rfl
      exact ⟨keyClear_pending h hn ok, keyClear_empties h hn ok⟩
    case load =>
      rintro bs rfl inSpad sound rfl idle
      split
      · next hkey => exact keyLoad_notUnwrapped h hn ok inSpad sound hkey
      · next b hkey => exact keyLoad_fills h hn ok inSpad sound idle hkey
  case routes =>
    rintro e w rfl
    refine ⟨?set, ?clear⟩
    case set =>
      rintro rfl
      exact ⟨routeSet_outside h, routeSet_removes h, fun inside own index formed valid =>
        ⟨routeSet_conflict h inside own index formed valid, routeSet_writes h inside own index formed valid⟩⟩
    case clear =>
      rintro rfl inside found
      exact ⟨routeClear_foreign h inside found, routeClear_waits h inside found, routeClear_removes h inside found⟩
  case vqBind =>
    rintro id rfl hid
    have named : id = s.vqArg := hid
    subst named
    refine ⟨fun missing => vqBind_missing h ((vqMissing_iff s).mpr missing), fun owned small device index itemQ compQ => ?_⟩
    have ex : s.vqMissing = false := by
      rw [← Bool.not_eq_true, vqMissing_iff]
      rintro (foreign | big | noDevice | noQueue)
      · rw [owned] at foreign; cases foreign
      · omega
      · omega
      · omega
    exact ⟨vqBind_driven h ex itemQ compQ, vqBind_binds h ex itemQ compQ⟩
  case moves =>
    rintro t s1 s2 v bs ev x rfl
    refine ⟨?exportCall, ?importCall, ?attest⟩
    case exportCall =>
      rintro rfl ready
      exact ⟨exportCall_moves h ready, exportCall_refused h ready⟩
    case importCall =>
      rintro rfl read
      exact ⟨importCall_moves h read, importCall_refused h read⟩
    case attest =>
      rintro rfl read rfl
      exact attest_moves h read

end Sys2Proof.Machine
end

section
/-! 04 R99-R102: page events, from the walker that opens one to the resume or the timeout that closes it. -/
namespace Sys2Proof.Machine

/-! ### Event ids (04 R101) -/

/-- The id that the search ends at is on no open event of the die, or every candidate that it went through is on one. -/
theorem freeEventId_fresh_or_taken (s : State) (die n : Nat) (id : BitVec 16) :
    (∀ x ∈ s.pageEvents, x.die = die → x.id ≠ s.freeEventId die n id) ∨
      ∀ i < n, ∃ x ∈ s.pageEvents, x.id = id + BitVec.ofNat 16 i := by
  induction n generalizing id with
  | zero => exact .inr fun i hi => absurd hi (Nat.not_lt_zero i)
  | succ n ih =>
    by_cases used : (s.pageEvents.any fun e => e.die == die && e.id == id) = true
    · rw [State.freeEventId, if_pos used]
      refine (ih (id + 1)).imp_right fun taken i hi => ?_
      cases i with
      | zero =>
        obtain ⟨x, hx, same⟩ := List.any_eq_true.1 used
        simp only [Bool.and_eq_true, beq_iff_eq] at same
        exact ⟨x, hx, by simp [same.2]⟩
      | succ i =>
        obtain ⟨x, hx, hid⟩ := taken i (by omega)
        exact ⟨x, hx, by rw [hid, BitVec.add_assoc, Nat.add_comm i, BitVec.ofNat_add]; rfl⟩
    · rw [State.freeEventId, if_neg used]
      exact .inl fun x hx hd hid => used (List.any_eq_true.2 ⟨x, hx, by simp [hd, hid]⟩)

/-- With fewer open events than ids, one candidate more than there are open events is enough: candidates are different ids, and the open
events carry too few of them. -/
theorem freeEventId_fresh {s : State} (few : s.pageEvents.length < 2 ^ 16) (die : Nat) (id : BitVec 16) :
    ∀ x ∈ s.pageEvents, x.die = die → x.id ≠ s.freeEventId die (s.pageEvents.length + 1) id := by
  refine (freeEventId_fresh_or_taken s die _ id).resolve_right fun taken => ?_
  have distinct : ((List.range (s.pageEvents.length + 1)).map fun i => id + BitVec.ofNat 16 i).Nodup := by
    refine List.Nodup.map_on (fun i hi j hj same => ?_) List.nodup_range
    rw [List.mem_range] at hi hj
    have := congrArg BitVec.toNat (BitVec.add_right_inj id |>.1 same)
    simp only [BitVec.toNat_ofNat] at this
    omega
  have carried : ((List.range (s.pageEvents.length + 1)).map fun i => id + BitVec.ofNat 16 i) ⊆ s.pageEvents.map PageEvent.id := by
    intro y hy
    obtain ⟨i, hi, rfl⟩ := List.mem_map.1 hy
    obtain ⟨x, hx, hid⟩ := taken i (List.mem_range.1 hi)
    exact List.mem_map.2 ⟨x, hx, hid⟩
  have := (distinct.subperm carried).length_le
  simp only [List.length_map, List.length_range] at this
  omega

/-! ### Opening (04 R99-R101) -/

/-- The open event of the entry at which an agent waits. -/
def State.openEvent (s : State) (w : PageWait) : Option PageEvent :=
  s.pageEvents.find? fun x => x.die == dieOf w.tile && x.ptePa == w.ptePa && x.paddock == w.paddock

/-- The open events that the die of a waiting agent holds for its paddock. -/
def State.dieEvents (s : State) (w : PageWait) : List PageEvent :=
  s.pageEvents.filter fun x => x.die == dieOf w.tile && x.paddock == w.paddock

/-- The waiting agent at turn joins the event of an id. -/
def State.joinEvent (s : State) (id : BitVec 16) : State :=
  { s with pageWaits := modAt (fun x => { x with event := some id }) s.input.k s.pageWaits }

/-- The waiting agent at turn opens the event of an id, and its item is posted to the pager. -/
def State.addEvent (s : State) (w : PageWait) (id : BitVec 16) : State :=
  State.post
    { s.joinEvent id with
      pageEvents := s.pageEvents ++
        [{ die := dieOf w.tile, id := id, paddock := w.paddock, ptePa := w.ptePa, postedAt := s.tb.toNat }],
      nextEvent := id + 1 }
    w.paddock .pager (pageItem w id (s.gid w.tile) s.tb.toNat) none

theorem joinEvent_pageWaits {s : State} {w : PageWait} (waits : s.pageWaits[s.input.k]? = some w) (id : BitVec 16) :
    (s.joinEvent id).pageWaits[s.input.k]? = some { w with event := some id } := by
  rw [State.joinEvent, modAt_eq_modify, List.getElem?_modify_eq, waits]
  rfl

section
variable {s : State} {w : PageWait} (waits : s.pageWaits[s.input.k]? = some w) (unjoined : w.event = none)
include waits unjoined

theorem pageEventOpen_joins {e : PageEvent} (found : s.openEvent w = some e) :
    ∃ u : State, exec .pageEventOpen s = .next u ∧ u.pageEvents = s.pageEvents ∧
      u.pageWaits[s.input.k]? = some { w with event := some e.id } ∧ u.records = s.records := by
  rw [State.openEvent] at found
  refine ⟨s.joinEvent e.id, ?_, rfl, joinEvent_pageWaits waits e.id, rfl⟩
  simp only [exec_pageEventOpen, execPageEventOpen, waits, unjoined, found]
  rfl

theorem pageEventOpen_opens (alone : s.openEvent w = none) (room : (s.dieEvents w).length < s.eventQuota w.paddock)
    (few : s.pageEvents.length < 2 ^ 16) :
    ∃ (u : State) (id : BitVec 16), exec .pageEventOpen s = .next u ∧ (∀ x ∈ s.pageEvents, x.die = dieOf w.tile → x.id ≠ id) ∧
      u.pageWaits[s.input.k]? = some { w with event := some id } ∧
      u.pageEvents = s.pageEvents ++
        [{ die := dieOf w.tile, id := id, paddock := w.paddock, ptePa := w.ptePa, postedAt := s.tb.toNat }] ∧
      u.records = s.records ++
        [{ paddock := w.paddock, queue := .pager, bytes := pageItem w id (s.gid w.tile) s.tb.toNat, holds := none }] := by
  rw [State.openEvent] at alone
  rw [State.dieEvents, ← Nat.not_le] at room
  let id := s.freeEventId (dieOf w.tile) (s.pageEvents.length + 1) s.nextEvent
  refine ⟨s.addEvent w id, id, ?_, freeEventId_fresh few (dieOf w.tile) s.nextEvent, joinEvent_pageWaits waits id, rfl, rfl⟩
  simp only [exec_pageEventOpen, execPageEventOpen, waits, unjoined, alone, if_neg room]
  rfl

theorem pageEventOpen_full (alone : s.openEvent w = none) (full : s.eventQuota w.paddock ≤ (s.dieEvents w).length) :
    exec .pageEventOpen s = .next s := by
  rw [State.openEvent] at alone
  rw [State.dieEvents] at full
  simp only [exec_pageEventOpen, execPageEventOpen, waits, unjoined, alone, if_pos full]
  rfl

end

/-! ### Closing (04 R100, R102) -/

/-- An event closes and nobody waits any more. -/
def State.withoutEvent (s : State) (e : PageEvent) : State :=
  { s with pageEvents := s.pageEvents.filter (fun x => !(x.die == e.die && x.id == e.id)), pageWaits := [] }

theorem not_mem_withoutEvent (s : State) (e : PageEvent) : e ∉ (s.withoutEvent e).pageEvents := by
  simp [State.withoutEvent]

/-- An event that closes is acted on by the one agent that waits. -/
theorem closeEvent_alone {s : State} {w : PageWait} {e : PageEvent} (alone : s.pageWaits = [w]) (die : dieOf w.tile = e.die)
    (joined : w.event = some e.id) (status : Nat) : s.closeEvent e status = (s.withoutEvent e).resumeAgent w status := by
  simp [State.closeEvent, State.withoutEvent, alone, die, joined]

/-- A strand that waits executes its unit again (04 R102, 02 R41). -/
theorem retryAgent_strand {s : State} {tile : Nat} {ag : Agent} {st : StrandId}
    (strand : ag = .fetch st ∨ ag = .mrq st ∨ ag = .atomic st ∨ ag = .joined st) :
    s.retryAgent tile ag = s.modTile tile fun t => t.modStrand st fun x => x.startUnit x.unit := by
  obtain rfl | rfl | rfl | rfl := strand <;> rfl

/-! ### Timing out (04 R100) -/

section
variable {s : State} {e : PageEvent} (opened : s.pageEvents[s.input.k]? = some e)
include opened

theorem pageEventTimeout_early (early : s.tb.toNat < e.postedAt + 2 ^ 30) : exec .pageEventTimeout s = .next s := by
  simp only [exec_pageEventTimeout, execPageEventTimeout, opened, if_neg (Nat.not_le.2 early)]
  rfl

theorem pageEventTimeout_due (due : e.postedAt + 2 ^ 30 ≤ s.tb.toNat) : exec .pageEventTimeout s = .next (s.closeEvent e 1) := by
  simp only [exec_pageEventTimeout, execPageEventTimeout, opened, if_pos due]
  rfl

end

/-! ### Resuming (04 R102) -/

/-- Doubleword 0 of a resume: the id of an event, its die, and RETRY. -/
theorem resumeWord_fields {id : BitVec 16} {die : Nat} (hdie : die < 8) :
    let v := (BitVec.ofNat 64 (id.toNat + die * 2 ^ 16)).toNat
    bitsOf v 0 16 = id.toNat ∧ bitsOf v 16 16 = die ∧ bitsOf v 32 8 = 0 := by
  have hid := id.isLt
  simp only [bitsOf, BitVec.toNat_ofNat]
  omega

/-- The event that a resume names is found, where it is the only one of its die and id. -/
theorem find?_event {l : List PageEvent} {e : PageEvent} (mem : e ∈ l) (only : ∀ x ∈ l, x.die = e.die → x.id = e.id → x = e) :
    (l.find? fun x => x.die == e.die && x.id.toNat == e.id.toNat) = some e := by
  cases found : l.find? fun x => x.die == e.die && x.id.toNat == e.id.toNat with
  | none => simpa using List.find?_eq_none.1 found e mem
  | some x =>
    have same := List.find?_some found
    simp only [Bool.and_eq_true, beq_iff_eq, BitVec.toNat_inj] at same
    exact congrArg some (only x (List.mem_of_find?_eq_some found) same.1 same.2)

theorem pageResume_retries {s : State} {m : Msg} {e : PageEvent} (head : s.builtin 12 = some m) (mem : e ∈ s.pageEvents)
    (only : ∀ x ∈ s.pageEvents, x.die = e.die → x.id = e.id → x = e) (word : m.dw 0 = BitVec.ofNat 64 (e.id.toNat + e.die * 2 ^ 16))
    (hdie : e.die < 8) : exec .pageResume s = .next (s.freeSlot.closeEvent e 0) := by
  obtain ⟨hid, hd, hretry⟩ := resumeWord_fields (id := e.id) hdie
  have found : (s.freeSlot.pageEvents.find? fun x => x.die == e.die && x.id.toNat == e.id.toNat) = some e := find?_event mem only
  simp only [exec_pageResume, execPageResume, head, word, hid, hd, hretry, found]
  rfl

/-- Freeing a mailbox slot leaves the strands of every tile as they are. -/
theorem freeSlot_strand (s : State) (l : Nat) (st : StrandId) : (s.freeSlot.getTile l).strand st = (s.getTile l).strand st := by
  by_cases own : s.tile.ltn = l
  · rw [State.getTile, State.getTile, if_pos own, if_pos (c := s.freeSlot.tile.ltn = l) own]
    cases st <;> rfl
  · rw [State.getTile, State.getTile, if_neg own, if_neg (c := s.freeSlot.tile.ltn = l) own]
    rfl

theorem putTile_pageEvents (s : State) (l : Nat) (t : Tile) : (s.putTile l t).pageEvents = s.pageEvents := by
  unfold State.putTile; split <;> rfl

theorem putTile_pageWaits (s : State) (l : Nat) (t : Tile) : (s.putTile l t).pageWaits = s.pageWaits := by
  unfold State.putTile; split <;> rfl

theorem putTile_mem (s : State) (l : Nat) (t : Tile) : (s.putTile l t).mem = s.mem := by
  unfold State.putTile; split <;> rfl

/-- A change of one strand of a tile is what is then read there. -/
theorem getTile_modStrand (s : State) (l : Nat) (st : StrandId) (f : Strand → Strand) :
    ((s.modTile l fun t => t.modStrand st f).getTile l).strand st = f ((s.getTile l).strand st) := by
  rw [getTile_modTile (f := fun t => t.modStrand st f) fun t => setStrand_ltn t st _]
  exact setStrand_strand ..

/-- Settles O27: the agent that waits joins, opens or goes on waiting by what its die holds; the event closes by its age or by the resume
that names it, and the agent that waits on it acts. -/
theorem pageEvents : Obligations.PageEvents := by
  unfold Obligations.PageEvents
  rintro s k w e st m rfl
  refine ⟨?opening, ?timeout, ?resume⟩
  case opening =>
    exact fun waits unjoined => ⟨pageEventOpen_joins waits unjoined, fun alone =>
      ⟨pageEventOpen_opens waits unjoined alone, pageEventOpen_full waits unjoined alone⟩⟩
  case timeout =>
    refine fun opened => ⟨pageEventTimeout_early opened, fun due alone die joined agent => ?_⟩
    rw [pageEventTimeout_due opened due, closeEvent_alone alone die joined, State.resumeAgent, agent]
    rfl
  case resume =>
    intro head mem only word hdie alone die joined strand
    have closes : s.freeSlot.closeEvent e 0 =
        (s.freeSlot.withoutEvent e).modTile w.tile fun t => t.modStrand st fun x => x.startUnit x.unit :=
      (closeEvent_alone (s := s.freeSlot) alone die joined 0).trans (retryAgent_strand strand)
    have restarted : (((s.freeSlot.closeEvent e 0).getTile w.tile).strand st) =
        ((s.getTile w.tile).strand st).startUnit ((s.getTile w.tile).strand st).unit := by
      rw [closes, getTile_modStrand, ← freeSlot_strand s]
      rfl
    refine ⟨_, pageResume_retries head mem only word hdie, ?_, ?_, by rw [restarted]; rfl, by rw [restarted]; rfl, ?_⟩
    · rw [closes, State.modTile, putTile_pageEvents]
      exact not_mem_withoutEvent s.freeSlot e
    · rw [closes, State.modTile, putTile_pageWaits]
      rfl
    · rw [closes, State.modTile, putTile_mem]
      rfl

end Sys2Proof.Machine
end

section
/-! 05 R109, R110, 03 R78, R83, 10 R225-R227: the requests that a home slice takes, and the replies that pass back over it. -/
namespace Sys2Proof.Machine

section
variable {s : State} {k : Nat} {r : MemReq}

/-! ### A request changed in its place -/

theorem modReq_getElem?_ne {j : Nat} (f : MemReq → MemReq) (h : j ≠ k) : (s.modReq k f).reqs[j]? = s.reqs[j]? := by
  simp [State.modReq, modAt_eq_modify, Ne.symm h]

theorem modReq_length (f : MemReq → MemReq) : (s.modReq k f).reqs.length = s.reqs.length := by
  simp [State.modReq, modAt_eq_modify]

/-- A reply that something waits for, other than a walker, goes to its tile. -/
theorem leaveSlice_toTile (wanted : r.handle ≠ .none) (tile : ∀ n, r.handle ≠ .walker n) :
    s.leaveSlice k r = s.modReq k fun _ => { r with phase := .toTile } := by
  unfold State.leaveSlice
  split
  · next h => exact absurd h wanted
  · next n h => exact absurd h (tile n)
  · rfl

theorem leaveSlice_unwanted (h : r.handle = .none) : s.leaveSlice k r = { s with reqs := dropAt k s.reqs } := by
  unfold State.leaveSlice
  rw [h]

/-- A reply that goes to a tile, or that nothing waits for, takes memory and the line array as they are. -/
theorem leaveSlice_frame (tile : ∀ n, r.handle ≠ .walker n) : (s.leaveSlice k r).mem = s.mem ∧ (s.leaveSlice k r).lines = s.lines := by
  by_cases h : r.handle = .none
  · rw [leaveSlice_unwanted h]; exact ⟨rfl, rfl⟩
  · rw [leaveSlice_toTile h tile]; exact ⟨rfl, rfl⟩

/-! ### Reads at their home slice (03 R78, 05 R109) -/

theorem lineServes_quiet (quiet : ∀ q ∈ s.reqs, q.taken = true → q.kind = .sqwr → q.sameLine r = false) :
    s.lineServes r = s.lineHit r.pa r.key := by
  refine if_neg ?_
  simp only [List.any_eq_true, Bool.and_eq_true, beq_iff_eq, not_exists, not_and, Bool.not_eq_true]
  exact fun q hq h => quiet q hq h.1 h.2

theorem lineServes_none (h : s.lineHit r.pa r.key = none ∨ ∃ q ∈ s.reqs, q.taken = true ∧ q.kind = .sqwr ∧ q.sameLine r = true) :
    s.lineServes r = none := by
  unfold State.lineServes
  obtain h | ⟨q, hq, taken, kind, line⟩ := h
  · rw [h]; exact ite_self _
  · exact if_pos (List.any_eq_true.2 ⟨q, hq, by simp [taken, kind, line]⟩)

section
variable (hk : s.input.k = k) (hr : s.reqs[k]? = some r)
include hk hr

theorem homeSlice_waits (h : s.sliceMay r = false) : exec .homeSliceRead s = .next s ∧ exec .homeSliceWrite s = .next s := by
  subst hk
  simp [execHomeSliceRead, execHomeSliceWrite, event, hr, h]

theorem homeSliceRead_serves {l : GranLine} (may : s.sliceMay r = true) (kind : r.kind = .rd ∨ r.kind = .walk)
    (h : s.lineServes r = some l) :
    exec .homeSliceRead s = .next (s.leaveSlice k { r with data := s.overlay r.pa ((l.data.drop (r.pa % 64)).take r.len) }) := by
  subst hk
  obtain kind | kind := kind <;> simp [execHomeSliceRead, event, hr, may, kind, h]

theorem homeSliceRead_passes (may : s.sliceMay r = true) (h : r.kind = .sqrd ∨ ((r.kind = .rd ∨ r.kind = .walk) ∧ s.lineServes r = none)) :
    exec .homeSliceRead s = .next (s.takeReq k { r with phase := .toBase }) := by
  subst hk
  obtain kind | ⟨kind | kind, h⟩ := h
  · simp [execHomeSliceRead, event, hr, may, kind]
  · simp [execHomeSliceRead, event, hr, may, kind, h]
  · simp [execHomeSliceRead, event, hr, may, kind, h]

/-! ### Writes at their home slice (05 R110, 10 R225-R227) -/

theorem homeSliceWrite_square (may : s.sliceMay r = true) (kind : r.kind = .sqwr) :
    exec .homeSliceWrite s = .next (s.takeSquare k r) := by
  subst hk
  simp [execHomeSliceWrite, event, hr, may, kind, MemReq.writes]

theorem homeSliceWrite_passes (may : s.sliceMay r = true)
    (h : r.kind = .wr ∨ r.kind = .wrm ∨ r.kind = .atomwb ∨ (r.kind = .sqwr ∧ recTag r.data = 0)) :
    exec .homeSliceWrite s = .next (s.takeReq k { r with phase := .toBase }) := by
  obtain kind | kind | kind | ⟨kind, plain⟩ := h
  · subst hk; simp [execHomeSliceWrite, event, hr, may, kind, MemReq.writes]
  · subst hk; simp [execHomeSliceWrite, event, hr, may, kind, MemReq.writes]
  · subst hk; simp [execHomeSliceWrite, event, hr, may, kind, MemReq.writes]
  · rw [homeSliceWrite_square hk hr may kind]
    simp [State.takeSquare, plain]

end

/-- A sheaf that its check accepts goes on with HOP 0. -/
theorem takeSquare_sound (sheaf : recTag r.data ≠ 0) (good : tagBad (recTag r.data) = false)
    (residue : recResidue r.data = tagResidue (recTag r.data)) :
    s.takeSquare k r = s.takeReq k { r with phase := .toBase, data := recSetTag r.data (tagSetHop (recTag r.data) 0) } := by
  simp [State.takeSquare, sheaf, good, residue]

/-- A BAD sheaf, or one whose residue does not match, is refused; at most a record of the mismatch comes with it. -/
theorem takeSquare_refused (sheaf : recTag r.data ≠ 0) (bad : tagBad (recTag r.data) = true ∨ recResidue r.data ≠ tagResidue (recTag r.data)) :
    ∃ rs, s.takeSquare k r = ({ s with records := rs } : State).modReq k fun q => { q with phase := .toTile, refused := true } := by
  cases good : tagBad (recTag r.data) with
  | true => exact ⟨s.records, by simp [State.takeSquare, sheaf, good]⟩
  | false =>
    have broken : recResidue r.data ≠ tagResidue (recTag r.data) := by simpa [good] using bad
    refine ⟨(s.chargeHop r.paddock 1 0 (s.sliceHop r.pa) r.data (recResidue r.data) 0).records, ?_⟩
    simp [State.takeSquare, sheaf, good, broken]
    rfl

/-! ### Replies that pass back (05 R109, R110, 10 R225, R226) -/

/-- The line array after the reply of a read: filled where it is good, without the line where it failed. -/
def State.fillReply (s : State) (r : MemReq) : State :=
  if r.status.good then s.fillWhole r.source r.key r.pa else s.fillLine r.pa r.key false []

theorem fillReply_only (s : State) (r : MemReq) : OnlyDram s (s.fillReply r) := by
  unfold State.fillReply
  split
  · exact (meetEccs_only _ _ _ _).trans (fillLine_only _ _ _ _ _)
  · exact fillLine_only _ _ _ _ _

/-- The check of a square record that leaves its slice can change its data, and records a mismatch. -/
theorem checkSquareReply_frame {t : State} {q : MemReq} (h : s.checkSquareReply r = (t, q)) :
    t.reqs = s.reqs ∧ t.mem = s.mem ∧ ∃ bs, q = { r with data := bs } := by
  unfold State.checkSquareReply at h
  dsimp only at h
  split at h
  · cases h; exact ⟨rfl, rfl, r.data, rfl⟩
  · cases h; exact ⟨rfl, rfl, _, rfl⟩

section
variable (hk : s.input.k = k) (hr : s.reqs[k]? = some r)
include hk hr

theorem baseDieReply_waits (h : s.replyMay k r = false) : exec .baseDieReply s = .next s := by
  subst hk
  simp [execBaseDieReply, event, hr, h]

theorem baseDieReply_read (may : s.replyMay k r = true) (kind : r.kind = .rd ∨ r.kind = .walk) :
    exec .baseDieReply s = .next ((s.fillReply r).leaveSlice k r) := by
  subst hk
  obtain kind | kind := kind <;> simp [execBaseDieReply, event, hr, may, kind, State.fillReply]

theorem baseDieReply_square (may : s.replyMay k r = true) (kind : r.kind = .sqrd) :
    ∃ (t : State) (bs : List Byte), exec .baseDieReply s = .next (t.leaveSlice k { r with data := bs }) ∧ t.reqs = s.reqs ∧ t.mem = s.mem := by
  subst hk
  cases good : r.status.good with
  | true =>
    cases check : s.checkSquareReply r with
    | mk t q =>
      obtain ⟨reqs, mem, bs, rfl⟩ := checkSquareReply_frame check
      exact ⟨t, bs, by simp [execBaseDieReply, event, hr, may, kind, good, check], reqs, mem⟩
  | false =>
    have leaves : exec .baseDieReply s = .next (s.leaveSlice s.input.k r) := by simp [execBaseDieReply, event, hr, may, kind, good]
    exact ⟨s, r.data, leaves, rfl, rfl⟩

theorem baseDieReply_write (may : s.replyMay k r = true) (kind : r.kind = .wr ∨ r.kind = .wrm ∨ r.kind = .sqwr ∨ r.kind = .atomwb) :
    exec .baseDieReply s = .next ((if r.status.good then s.updateLines r.pa r.data r.enabled else s).leaveSlice k r) := by
  subst hk
  obtain kind | kind | kind | kind := kind <;> simp [execBaseDieReply, event, hr, may, kind]

/-- A reply whose turn it is leaves the slice: the reply of a read fills its line, another one updates the lines or leaves them; the check
of a square read can change its data and no more of it. -/
theorem baseDieReply_leaves (may : s.replyMay k r = true) (delta : r.kind ≠ .pdelta) :
    ∃ (t : State) (bs : List Byte), exec .baseDieReply s = .next (t.leaveSlice k { r with data := bs }) ∧ t.reqs = s.reqs ∧
      (r.kind ≠ .sqrd → bs = r.data) ∧ (r.kind ≠ .rd → r.kind ≠ .walk → t.mem = s.mem) ∧
      (r.kind = .rd ∨ r.kind = .walk → t = s.fillReply r) := by
  obtain read | square | write : (r.kind = .rd ∨ r.kind = .walk) ∨ r.kind = .sqrd ∨
      (r.kind = .wr ∨ r.kind = .wrm ∨ r.kind = .sqwr ∨ r.kind = .atomwb) := by
    cases e : r.kind <;> simp_all
  · refine ⟨_, r.data, baseDieReply_read hk hr may read, (fillReply_only s r).store.reqs_eq, fun _ => rfl, fun rd walk => ?_, fun _ => rfl⟩
    exact absurd read (not_or.2 ⟨rd, walk⟩)
  · obtain ⟨t, bs, run, reqs, mem⟩ := baseDieReply_square hk hr may square
    exact ⟨t, bs, run, reqs, fun h => absurd square h, fun _ _ => mem, by simp [square]⟩
  · refine ⟨_, r.data, baseDieReply_write hk hr may write, ?_, fun _ => rfl, fun _ _ => ?_, fun read => ?_⟩
    · split <;> rfl
    · split <;> rfl
    · obtain e | e := read <;> simp [e] at write

end

/-! ### The line array after the reply of a read (05 R109; 03 R69, R71, R72) -/

/-- Without uncorrected errors and failed channels a granule that is read stays as it is, but for an error that is corrected. -/
theorem meetEcc_mem {s : State} (bad : s.eccBad = []) (channels : s.channels = []) (source : Nat) (scrub : Bool) (g : Nat) :
    (s.meetEcc source scrub g).2.mem = s.mem ∧ (s.meetEcc source scrub g).2.eccBad = [] ∧ (s.meetEcc source scrub g).2.channels = [] := by
  have healthy : s.chanState (mainMap (g * 32)).stack (mainMap (g * 32)).ch = .healthy := by simp [State.chanState, channels]
  have sound : s.eccBad.contains g = false := by simp [bad]
  simp only [State.meetEcc, healthy, sound, Bool.false_eq_true, if_false]
  split <;> exact ⟨rfl, bad, channels⟩

theorem meetEccs_mem {s : State} (bad : s.eccBad = []) (channels : s.channels = []) (source : Nat) (scrub : Bool) (gs : List Nat) :
    (s.meetEccs source scrub gs).2.mem = s.mem := by
  unfold State.meetEccs
  refine (List.foldlRecOn gs _ (motive := fun a : Bool × State => a.2.mem = s.mem ∧ a.2.eccBad = [] ∧ a.2.channels = []) ⟨rfl, bad, channels⟩
    fun a ⟨mem, bad, channels⟩ g _ => ?_).1
  obtain ⟨mem', bad', channels'⟩ := meetEcc_mem bad channels source scrub g
  exact ⟨mem'.trans mem, bad', channels'⟩

theorem fillReply_mem (bad : s.eccBad = []) (channels : s.channels = []) : (s.fillReply r).mem = s.mem := by
  unfold State.fillReply
  split
  · exact meetEccs_mem bad channels r.source false (granulesOf (r.pa / 64 * 64) 64)
  · rfl

/-- The line that a good reply of sound memory fills holds what memory holds. -/
theorem fillReply_sound (ok : r.status = .ok) (sound : s.NoErrors) (poison : s.poison = [])
    (fresh : s.rangeStale r.key (r.pa / 64 * 64) 64 = false) :
    ∃ l ∈ (s.fillReply r).lines, l.pa = r.pa / 64 * 64 ∧ l.key = r.key ∧
      l.data = (List.range 64).map fun i => s.mem.read (r.pa / 64 * 64 + i) := by
  have whole : s.wholeLine r.key r.pa = (List.range 64).map fun i => s.mem.read (r.pa / 64 * 64 + i) := by
    simp [State.wholeLine, rangeBad_of_sound sound.channels poison, fresh, plainBytes_of_fresh fresh, Memory.readBytes_eq]
  refine ⟨{ pa := r.pa / 64 * 64, key := r.key, data := s.wholeLine r.key r.pa }, ?_, rfl, rfl, whole⟩
  simp [State.fillReply, ok, Status.good, State.fillWhole, meetEccs_of_sound sound.bad sound.soft sound.channels, State.fillLine, whole]

theorem dropFirst_subset {α : Type} (p : α → Bool) (l : List α) : dropFirst p l ⊆ l := by
  induction l with
  | nil => exact List.Subset.refl []
  | cons x xs ih =>
    rw [dropFirst]
    split
    · exact List.subset_cons_self x xs
    · exact List.cons_subset_cons x ih

/-- A read that failed leaves no line of its address. -/
theorem fillReply_failed (failed : r.status.good = false) (l : GranLine) (h : l ∈ (s.fillReply r).lines) : l.pa ≠ r.pa / 64 * 64 := by
  have kept : l ∈ s.lines.filter fun l => l.pa != r.pa / 64 * 64 := by
    simp only [State.fillReply, failed, Bool.false_eq_true, if_false, State.fillLine, Bool.false_and] at h
    split at h
    · exact h
    · exact dropFirst_subset _ _ h
  simpa using (List.mem_filter.1 kept).2

end

/-- Settles O24: the read, the write and the square write of a request whose turn it is, the one that waits, and the reply that passes
back. -/
theorem requestsAtHomeSlice : Obligations.RequestsAtHomeSlice := by
  intro s k r hk hr
  refine ⟨fun may => ⟨fun l kind wanted tile quiet hit => ?_, fun h => ?_, fun h => ?_,
      fun kind sheaf => ⟨fun good residue => ?_, fun bad => ?_⟩⟩,
    homeSlice_waits hk hr, fun may delta tile => ?_, baseDieReply_waits hk hr⟩
  · refine ⟨_, homeSliceRead_serves hk hr may kind ((lineServes_quiet quiet).trans hit), ?_⟩
    rw [leaveSlice_toTile (r := { r with data := s.overlay r.pa ((l.data.drop (r.pa % 64)).take r.len) }) wanted tile]
    exact ⟨modReq_length _, fun j hj => modReq_getElem?_ne _ hj, modReq_getElem? _ hr, rfl, rfl⟩
  · exact ⟨_, homeSliceRead_passes hk hr may (h.imp_right fun h => ⟨h.1, lineServes_none h.2⟩), rfl, rfl, rfl⟩
  · exact ⟨_, homeSliceWrite_passes hk hr may h, rfl, rfl, rfl⟩
  · refine ⟨_, homeSliceWrite_square hk hr may kind, ?_⟩
    rw [takeSquare_sound sheaf good residue]
    exact ⟨rfl, rfl, rfl, rfl⟩
  · obtain ⟨rs, refused⟩ := takeSquare_refused (s := s) (k := k) sheaf bad
    refine ⟨_, homeSliceWrite_square hk hr may kind, ?_⟩
    rw [refused]
    exact ⟨rfl, rfl, fun j hj => modReq_getElem?_ne _ hj, modReq_getElem? _ hr⟩
  · obtain ⟨t, bs, run, reqs, same, write, read⟩ := baseDieReply_leaves hk hr may delta
    obtain ⟨mem, lines⟩ := leaveSlice_frame (s := t) (k := k) (r := { r with data := bs }) tile
    refine ⟨_, run, fun bad channels => ?_, fun rd walk => mem.trans (write rd walk), fun kind ok bad soft channels poison fresh => ?_,
      fun unwanted => ?_, fun wanted => ?_, fun kind bad rebuilt l hl => ?_⟩
    · by_cases kind : r.kind = .rd ∨ r.kind = .walk
      · rw [mem, read kind]
        exact fillReply_mem bad channels
      · exact mem.trans (write (not_or.1 kind).1 (not_or.1 kind).2)
    · rw [lines, read kind]
      exact fillReply_sound ok ⟨bad, soft, channels⟩ poison fresh
    · rw [leaveSlice_unwanted (r := { r with data := bs }) unwanted, reqs]
    · rw [leaveSlice_toTile (r := { r with data := bs }) wanted tile]
      refine ⟨fun j hj => (modReq_getElem?_ne _ hj).trans (by rw [reqs]), _, modReq_getElem? _ (reqs ▸ hr), rfl, rfl, rfl, same⟩
    · rw [lines, read kind] at hl
      exact fillReply_failed (by cases e : r.status <;> simp_all [Status.good]) l hl

end Sys2Proof.Machine
end

section
/-! 05 R115: a piece of a copy that is not on, and a converting copy whose piece waits on a page event. -/
namespace Sys2Proof.Machine

/-- A piece of a copy that has not started, that is over, that the copy does not have or that waits on a page event makes no step
(05 R115, 04 R99). -/
theorem wainTransfer_idle {s : State} {k : Nat} {w : WainCmd} (hk : s.input.k = k) (hw : s.tile.wain[k]? = some w)
    (h : w.started = false ∨ w.done.contains s.input.j = true ∨ w.pieces ≤ s.input.j ∨ w.stages.contains (s.input.j, .paged) = true) :
    exec .wainTransfer s = .next s := by
  subst hk
  have idle : (!w.started || w.done.contains s.input.j || decide (w.pieces ≤ s.input.j) || w.stages.contains (s.input.j, .paged)) = true := by
    obtain h | h | h | h := h <;> simp only [h, decide_true, Bool.not_false, Bool.or_true, Bool.true_or]
  rw [exec_wainTransfer, execWainTransfer, hw]
  dsimp only
  rw [if_pos idle]
  rfl

/-- A started one-row copy of 32 bytes at 64 of the scratchpad, 16-bit elements made 32-bit ones at 128, whose one piece waits on a
page event. -/
def pagedConvert : WainCmd where
  form := .convert
  dl := true
  sl := true
  dst := 128
  src := 64
  rows := 1
  rowLen := 32
  dStride := 0
  sStride := 0
  cnt := 0
  fmtSrc := 8
  fmtDst := 7
  fmt := none
  key := 0
  ctr := 0
  num := 1
  owner := { strand := .main, run := 1 }
  xc := { ctx := 0, strand := .main, rootPa := 0, rootKey := 0, asid := 0, lvl := 1 }
  order := 0
  reads := [rowsRange .loc 64 0 1 32]
  writes := [rowsRange .loc 128 0 1 64]
  started := true
  pieces := 1
  moves := 1
  done := []
  unwritten := []
  stages := [(0, .paged)]
  flags := 0

/-- Tile 0 after reset with that command in flight. -/
def pagedConvertState : State := { State.reset with tile := { Tile.reset 0 with wain := [pagedConvert] } }

theorem pagedConvert_idle : exec .wainTransfer pagedConvertState = .next pagedConvertState :=
  wainTransfer_idle (w := pagedConvert) rfl rfl (.inr (.inr (.inr rfl)))

/-- Its source ends below its destination, so it leaves no byte out. -/
theorem pagedConvert_skips (a : Nat) (h : 128 ≤ a) : pagedConvert.skips 0 a = false := by
  have later : ¬a < 96 := by omega
  simp [WainCmd.skips, pagedConvert, rowsRange, later]

/-- Refutes O39: the clause of a converting copy does not ask that its piece waits on no page event; one that does makes no step, and so
it is not over after it. -/
theorem not_copyPieces : ¬ Obligations.CopyPieces := by
  intro h
  obtain ⟨-, convert, -⟩ := h pagedConvertState 0 0 pagedConvert rfl rfl rfl rfl (by decide) (by decide) rfl (by decide)
  obtain ⟨-, sound⟩ := convert 8 7 16 64 128 _ rfl rfl rfl rfl rfl rfl (by decide) (by decide) (by decide)
    (fun a lo _ => pagedConvert_skips a lo) fun _ => rfl
  obtain ⟨u, v, run, command, finished, -⟩ := sound rfl
  rw [pagedConvert_idle] at run
  cases run
  have same : v = pagedConvert := (Option.some.inj command).symm
  rw [same] at finished
  exact absurd finished (by decide)

end Sys2Proof.Machine
end

section
/-! 05 R113-R120, R123, R125: the issue of copies, and the numbers of engine commands. -/
namespace Sys2Proof.Machine

/-! ### Numbers of engine commands (05 R114, R125) -/

theorem modCtr_ctr (t : Tile) (c r : CReg) (f : Counter → Counter) : (t.modCtr c f).ctr r = if r = c then f (t.ctr c) else t.ctr r := by
  have h : (c.toNat = r.toNat) ↔ r = c := by rw [← BitVec.toNat_inj, eq_comm]
  simp only [Tile.modCtr, Tile.ctr, Vector.getElem_set, h]

theorem ctr_congr {t u : Tile} (h : t.ctrs = u.ctrs) (c : CReg) : t.ctr c = u.ctr c := by rw [Tile.ctr, Tile.ctr, h]

theorem getTile_self (s : State) : s.getTile s.tile.ltn = s.tile := if_pos rfl

theorem modTile_self (s : State) (f : Tile → Tile) : s.modTile s.tile.ltn f = s.onTile f := by
  rw [State.modTile, getTile_self]
  exact if_pos rfl

/-- A counter that has given its next number. -/
def Counter.numbered (k : Counter) : Counter := { k with issue := k.issue + 1 }

/-- The next number of a counter that has no number ahead completes: DONE takes it. -/
theorem Counter.complete_next {k : Counter} {n : Nat} (ahead : k.ahead = []) (h : n = k.done + 1) : k.complete n = { k with done := n } := by
  obtain ⟨issue, done, ahead', err⟩ := k
  subst h
  subst ahead
  simp [Counter.complete, insertNat, absorb]

theorem fireTriggers_none {s : State} {l n : Nat} (h : (s.getTile l).triggers = []) : s.fireTriggers l n = s := by
  cases n with
  | zero => rfl
  | succ n => simp [State.fireTriggers, Tile.readyTrigger, h]

/-- A tile with other strands. -/
def Tile.withStrands (t : Tile) (m x : Strand) : Tile := { t with main := m, handler := x }

/-- To wake a tile changes at most its two strands, and none that does not wait. -/
theorem wake_eq (t : Tile) : ∃ m x, t.wake = t.withStrands m x ∧ (t.main.wait = none → m = t.main) ∧
    (t.handler.wait = none → x = t.handler) :=
  ⟨_, _, rfl, fun h => by simp only [h], fun h => by simp only [h]⟩

/-- Where no trigger waits, a number that completes changes its counter and wakes the tile at most. -/
theorem completeNum_eq {s : State} (c : CReg) (n : Nat) (h : s.tile.triggers = []) :
    ∃ m x, s.completeNum s.tile.ltn c n = s.onTile (fun t => (t.modCtr c fun k => k.complete n).withStrands m x) ∧
      (s.tile.main.wait = none → m = s.tile.main) ∧ (s.tile.handler.wait = none → x = s.tile.handler) := by
  have fires (m x : Strand) : (s.onTile fun t => (t.modCtr c fun k => k.complete n).withStrands m x).fireTriggers s.tile.ltn 17 =
      s.onTile fun t => (t.modCtr c fun k => k.complete n).withStrands m x :=
    fireTriggers_none ((congrArg Tile.triggers (getTile_self (s.onTile fun t => (t.modCtr c fun k => k.complete n).withStrands m x))).trans h)
  unfold State.completeNum
  rw [modTile_self]
  obtain ⟨m, x, wake, main, handler⟩ := wake_eq (s.tile.modCtr c fun k => k.complete n)
  by_cases e : ((s.tile.modCtr c fun k => k.complete n).ctr c).done = (s.tile.ctr c).done
  · refine ⟨s.tile.main, s.tile.handler, Eq.trans (congrArg (State.fireTriggers · s.tile.ltn 17) ?_) (fires _ _), fun _ => rfl, fun _ => rfl⟩
    simp only [State.onTile, e, if_true]
    rfl
  · refine ⟨m, x, Eq.trans (congrArg (State.fireTriggers · s.tile.ltn 17) ?_) (fires _ _), main, handler⟩
    simp only [State.onTile, e, if_false, wake]

/-- The issuing strand is as before where it does not wait and what changed it changes only strands that wait. -/
theorem st_of_strands {s t : State} (last : t.tile.lastIssued = s.tile.lastIssued) (main : s.tile.main.wait = none → t.tile.main = s.tile.main)
    (handler : s.tile.handler.wait = none → t.tile.handler = s.tile.handler) (wait : s.st.wait = none) : t.st = s.st := by
  unfold State.st State.cur at wait ⊢
  rw [last]
  cases e : s.tile.lastIssued with
  | main => exact main (by rwa [e] at wait)
  | handler => exact handler (by rwa [e] at wait)

/-! ### The state after the issue of a copy -/

/-- The copy with its number, its place in issue order and its pieces. -/
def State.numbered (s : State) (c : CReg) (w : WainCmd) : WainCmd :=
  { w with ctr := c, num := (s.tile.ctr c).issue + 1, order := s.tile.orderNo, pieces := w.countPieces + w.overlaps.length, moves := w.countPieces }

/-- The counter gives a number, issue order gives a place, and commands join those in flight. -/
def State.numberCopy (s : State) (c : CReg) (ws : List WainCmd) : State :=
  s.onTile fun t => { t.modCtr c Counter.numbered with orderNo := t.orderNo + 1, wain := t.wain ++ ws }

section
variable {s : State} {c : CReg} {w : WainCmd}

theorem issueCopy_full (h : 64 ≤ s.tile.wain.length) : s.issueCopy c w = .error (.wait (.retry .engine) s) := if_pos h

theorem issueCopy_some (h : s.tile.wain.length < 64) (n : w.countPieces ≠ 0) :
    s.issueCopy c w = .ok (s.numberCopy c [s.numbered c w]) := by
  simp only [State.issueCopy, Nat.not_le.2 h, n, if_false]
  rfl

theorem issueCopy_none (h : s.tile.wain.length < 64) (n : w.countPieces = 0) :
    s.issueCopy c w = .ok ((s.numberCopy c []).completeNum s.tile.ltn c ((s.tile.ctr c).issue + 1)) := by
  simp only [State.issueCopy, Nat.not_le.2 h, n, if_false, if_true, State.numberCopy, List.append_nil]
  rfl

/-- A tile whose counters, order, commands in flight and strands are those of another. -/
def Tile.withCopies (t u : Tile) : Tile :=
  { t with ctrs := u.ctrs, orderNo := u.orderNo, wain := u.wain, main := u.main, handler := u.handler }

theorem completed_withCopies {t u : Tile} (h : u = t.withCopies u) (f : Counter → Counter) (m x : Strand) :
    (u.modCtr c f).withStrands m x = t.withCopies ((u.modCtr c f).withStrands m x) :=
  calc (u.modCtr c f).withStrands m x = ((t.withCopies u).modCtr c f).withStrands m x := by rw [← h]
    _ = t.withCopies ((u.modCtr c f).withStrands m x) := rfl

theorem numberCopy_withCopies (ws : List WainCmd) : (s.numberCopy c ws).tile = s.tile.withCopies (s.numberCopy c ws).tile := rfl

/-- What changes no more of its tile than counters, the order, the commands in flight and the strands leaves the rest alone. -/
theorem copy_frame {t : State} (h : t.tile = s.tile.withCopies t.tile) (mem : t.mem = s.mem) :
    SameVectors s t.retire ∧ SameContexts s t.retire ∧ SameTileControl s t.retire ∧ SameBytes s t.retire := by
  refine ⟨sameVectors_of_tile ?_ ?_, ?_, ⟨?_, ?_, ?_, ?_, ?_, ?_, ?_⟩, sameBytes_of_eq ((State.retire_mem t).trans mem) ?_ ?_⟩
  all_goals simp only [SameContexts, State.retire_tile_v, State.retire_tile_k, State.retire_tile_ctxs, State.retire_tile_bfmt,
    State.retire_tile_phKey, State.retire_tile_phCtrl, State.retire_tile_phCtrh, State.retire_tile_tags, State.retire_tile_regions0,
    State.retire_tile_regions1, State.retire_tile_spad, State.retire_tile_acc]
  all_goals rw [h]; rfl

theorem numberCopy_ctr (ws : List WainCmd) (r : CReg) :
    (s.numberCopy c ws).tile.ctr r = if r = c then (s.tile.ctr c).numbered else s.tile.ctr r :=
  modCtr_ctr s.tile c r Counter.numbered

theorem numberCopy_st (ws : List WainCmd) : (s.numberCopy c ws).st = s.st := by
  have strands (x : StrandId) : (s.numberCopy c ws).tile.strand x = s.tile.strand x := by cases x <;> rfl
  exact strands s.tile.lastIssued

/-- A copy with something to move is issued. -/
theorem copyIssued_numberCopy {o : Host.Outcome State Fault Refusal} {p : WainCmd → Prop}
    (h : o = .next (s.numberCopy c [s.numbered c w]).retire) (fresh : w.started = false ∧ w.done = []) (hp : p (s.numbered c w)) :
    CopyIssued o s c p := by
  have ctr (r : CReg) := (ctr_congr (State.retire_tile_ctrs (s.numberCopy c [s.numbered c w])) r).trans (numberCopy_ctr [s.numbered c w] r)
  refine ⟨_, s.numbered c w, h, ?_, hp, rfl, rfl, rfl, fresh.1, fresh.2, ?_, ?_, ?_, fun r hr => ?_, ?_, copy_frame rfl rfl⟩
  · exact State.retire_tile_wain _
  · exact State.retire_tile_orderNo _
  · rw [ctr, if_pos rfl]; rfl
  · rw [ctr, if_pos rfl]; rfl
  · rw [ctr, if_neg hr]
  · rw [State.retire, onSt_st, numberCopy_st]

/-- A copy with nothing to move completes where it issues. -/
theorem copyOfNothing_numberCopy {o : Host.Outcome State Fault Refusal}
    (h : o = .next ((s.numberCopy c []).completeNum s.tile.ltn c ((s.tile.ctr c).issue + 1)).retire) : CopyOfNothing o s c := by
  intro ahead settled triggers wait
  obtain ⟨m, x, complete, main, handler⟩ := completeNum_eq (s := s.numberCopy c []) c ((s.tile.ctr c).issue + 1) triggers
  replace h := h.trans (congrArg (fun u : State => Host.Outcome.next u.retire) complete)
  generalize hu : ((s.numberCopy c []).onTile fun t => (t.modCtr c fun k => k.complete ((s.tile.ctr c).issue + 1)).withStrands m x) = u at h
  have ctr (r : CReg) : u.retire.tile.ctr r =
      if r = c then ((s.numberCopy c []).tile.ctr c).complete ((s.tile.ctr c).issue + 1) else (s.numberCopy c []).tile.ctr r := by
    rw [ctr_congr (State.retire_tile_ctrs u) r, ← hu]
    exact modCtr_ctr (s.numberCopy c []).tile c r fun k => k.complete ((s.tile.ctr c).issue + 1)
  have next : ((s.numberCopy c []).tile.ctr c).complete ((s.tile.ctr c).issue + 1) =
      { (s.tile.ctr c).numbered with done := (s.tile.ctr c).issue + 1 } := by
    rw [numberCopy_ctr, if_pos rfl]
    exact Counter.complete_next ahead (congrArg (· + 1) settled.symm)
  have st : u.st = s.st := st_of_strands (by rw [← hu]; rfl) (by rw [← hu]; exact main) (by rw [← hu]; exact handler) wait
  refine ⟨_, h, ?_, ?_, ?_, fun r hr => ?_, ?_, fun r => ?_, copy_frame ?_ ?_⟩
  · rw [State.retire_tile_wain, ← hu]; exact List.append_nil _
  · rw [ctr, if_pos rfl, next]; rfl
  · rw [ctr, if_pos rfl, next]
  · rw [ctr, if_neg hr, numberCopy_ctr, if_neg hr]
  · rw [State.retire, onSt_st, st]
  · exact reg_eq_of_regs (by rw [State.retire_st_regs, st]) r
  · rw [← hu]; exact completed_withCopies (numberCopy_withCopies []) _ m x
  · rw [← hu]; rfl

/-- A word whose checks have passed takes its copy as the room among the 64 commands and the work to do let it. -/
theorem copyTaken_of_issueCopy {i : Instr} {work : Nat} {p : WainCmd → Prop} (h : Issues i s)
    (run : exec i s = .next (finish s (s.issueCopy c w))) (count : w.countPieces = 0 ↔ work = 0) (fresh : w.started = false ∧ w.done = [])
    (hp : 0 < work → p (s.numbered c w)) : CopyTaken (exec i s) s c work p := by
  refine ⟨fun full => ?_, fun room => ⟨fun some => ?_, fun none => ?_⟩⟩
  · rw [run, issueCopy_full full, finish_wait h.budget]
  · rw [issueCopy_some room (by omega), finish_ok h.budget] at run
    exact copyIssued_numberCopy run fresh (hp some)
  · rw [issueCopy_none room (count.2 none), finish_ok h.budget] at run
    exact copyOfNothing_numberCopy run

/-! ### Pieces (05 R115, R121) -/

/-- Where piece k of a row begins: at the row's start, then at each line boundary of either end. -/
def pieceStart (a b k : Nat) : Nat :=
  let lo := 64 - max (a % 64) (b % 64)
  let hi := 64 - min (a % 64) (b % 64)
  if k = 0 then 0 else if lo = hi then lo + 64 * (k - 1) else (if k % 2 = 1 then lo else hi) + 64 * ((k - 1) / 2)

theorem pieceSpan_eq (a b len q : Nat) : pieceSpan a b len q =
    if pieceStart a b q < len then some (pieceStart a b q, min len (pieceStart a b (q + 1)) - pieceStart a b q) else none := rfl

theorem pieceStart_lt (a b k : Nat) : pieceStart a b k < pieceStart a b (k + 1) := by
  have ordered : min (a % 64) (b % 64) ≤ max (a % 64) (b % 64) := min_le_max
  have below : max (a % 64) (b % 64) < 64 := max_lt (Nat.mod_lt a (by decide)) (Nat.mod_lt b (by decide))
  unfold pieceStart
  generalize max (a % 64) (b % 64) = hi at ordered below ⊢
  generalize min (a % 64) (b % 64) = lo at ordered ⊢
  simp only [Nat.succ_ne_zero, if_false, Nat.add_sub_cancel]
  split_ifs <;> omega

/-- A piece has a length, and lies in its row. -/
theorem pieceSpan_bounds {a b len q off n : Nat} (h : pieceSpan a b len q = some (off, n)) : 0 < n ∧ off + n ≤ len := by
  rw [pieceSpan_eq] at h
  obtain ⟨inside, span⟩ := Option.ite_none_right_eq_some.1 h
  obtain ⟨rfl, rfl⟩ := Prod.mk.inj (Option.some.inj span)
  have later := pieceStart_lt a b q
  omega

theorem rowPieces_pos (r : Nat) (h : w.rowLen ≠ 0) : 0 < w.rowPieces r := by
  have pos (a b : Nat) : 0 < pieceCount a b w.rowLen := by
    refine List.length_pos_of_mem (a := 0) (List.mem_filter.2 ⟨List.mem_range.2 (by omega), ?_⟩)
    simp [pieceSpan, Nat.pos_of_ne_zero h]
  unfold WainCmd.rowPieces
  split
  · exact Nat.one_pos
  · exact pos _ _

/-- A copy of rows has pieces where it has bytes. -/
theorem countPieces_rows (h : w.form = .plain ∨ w.form = .convert ∨ w.form = .zero ∨ w.form = .prefetch) :
    w.countPieces = 0 ↔ w.rows * w.rowLen = 0 := by
  have sum : w.rowLen ≠ 0 → ((List.range w.rows).foldl (fun n r => n + w.rowPieces r) 0 = 0 ↔ w.rows = 0) := by
    intro some
    cases w.rows with
    | zero => simp
    | succ n =>
      have := rowPieces_pos (w := w) n some
      rw [List.range_succ, List.foldl_append]
      simp only [List.foldl_cons, List.foldl_nil]
      omega
  have rows : w.countPieces = if w.rowLen = 0 then 0 else (List.range w.rows).foldl (fun n r => n + w.rowPieces r) 0 := by
    obtain h | h | h | h := h <;> simp only [WainCmd.countPieces, h]
  rw [rows]
  split
  · next e => simp [e]
  · next e => rw [sum e, Nat.mul_eq_zero, or_iff_left e]

theorem countPieces_records (h : w.form = .fill ∨ ∃ tr, w.form = .square tr) : w.countPieces = w.cnt := by
  obtain h | ⟨tr, h⟩ := h <;> simp only [WainCmd.countPieces, h]

/-! ### The checks of `cp` and `cp2` (05 R115, R116) -/

theorem checkAt_of {ok : Bool} (h : ok = true) (k : Cause) (a : DW) : s.checkAt ok k a = .ok () := if_pos h
theorem check_of {ok : Bool} (h : ok = true) (k : Cause) : s.check ok k = .ok () := if_pos h


/-- A check that passes lets the word go on. -/
theorem checkAt_then {α : Type} {ok : Bool} (h : ok = true) {k : Cause} {a : DW} {f : Unit → Except Stop α} :
    (s.checkAt ok k a >>= f) = f () := by
  rw [checkAt_of h]; rfl

theorem check_then {α : Type} {ok : Bool} (h : ok = true) {k : Cause} {f : Unit → Except Stop α} : (s.check ok k >>= f) = f () := by
  rw [check_of h]; rfl

theorem bankFmt_lt (b : BitVec 5) : bankFmt b < 16 := Nat.mod_lt _ (by decide)

/-- A plain copy of more than 2^24 bytes between global ends is PROT. -/
theorem plainCopy_tooLong {dst src : DW} {rows len : Nat} {ds ss : Int} (h : 2 ^ 24 < rows * len) :
    s.plainCopy c false false dst src rows len ds ss = s.trap .prot := by
  have long : decide (rows * len ≤ maxCopy) = false := decide_eq_false (by unfold maxCopy; omega)
  unfold State.plainCopy
  simp only [Bool.not_false, Bool.true_or, checkAt_of, long]
  rfl

theorem bankFmt_roundTrip (b : BitVec 5) : (BitVec.ofNat 4 (bankFmt b)).toNat = bankFmt b := Nat.mod_eq_of_lt (bankFmt_lt b)

theorem dstLen_eq {conv : Bool} (h : w.form = if conv then .convert else .plain) :
    w.dstLen = if conv then (convertedBytes w.fmtSrc.toNat w.fmtDst.toNat w.rowLen).1 else w.rowLen := by
  cases conv <;> simp only [WainCmd.dstLen, h] <;> rfl

/-- The command of a plain or converting copy, whose destination rows have `nd` bytes. -/
def State.plainCmd (s : State) (conv dl sl : Bool) (dst src : DW) (rows len nd : Nat) (ds ss : Int) : WainCmd :=
  { s.copyCmd (if conv then .convert else .plain) dl sl dst src rows len ds ss 0 with
    fmtSrc := BitVec.ofNat 4 (s.tile.operand src.toNat).fmt,
    fmtDst := BitVec.ofNat 4 (s.tile.operand dst.toNat).fmt,
    reads := if decide (rows * len ≠ 0) then [rowsRange (s.space sl) src ss rows len] else [],
    writes := if decide (rows * len ≠ 0) then [rowsRange (s.space dl) dst ds rows nd] else [] }

/-- A plain copy whose ends pass their checks goes on to its issue. -/
theorem plainCopy_issues {dl sl conv : Bool} {dst src : DW} {rows len nd : Nat} {ds ss : Int} {os od : Operand}
    (hs : os = s.tile.operand src.toNat) (hd : od = s.tile.operand dst.toNat) (hc : conv = (dl && sl && os.fmt != od.fmt))
    (hn : nd = if conv then (convertedBytes os.fmt od.fmt len).1 else len) (bytes : rows * len ≤ 2 ^ 24)
    (source : sl = true → localRowsIn src ss rows len = true ∧ localRowsOk s.tile s.st.lvl src ss rows len false = true)
    (dest : dl = true → localRowsIn dst ds rows nd = true ∧ localRowsOk s.tile s.st.lvl dst ds rows nd true = true)
    (elems : conv = true → src.toNat % elemBytes os.fmt = 0 ∧ len % elemBytes os.fmt = 0 ∧ ss % elemBytes os.fmt = 0 ∧
      dst.toNat % elemBytes od.fmt = 0 ∧ ds % elemBytes od.fmt = 0 ∧ os.plane = false ∧ od.plane = false ∧
      isSquareFmt os.fmt = false ∧ isSquareFmt od.fmt = false ∧ rowsInBank src ss rows len = true ∧ rowsInBank dst ds rows nd = true) :
    s.plainCopy c dl sl dst src rows len ds ss = s.issueCopy c (s.plainCmd conv dl sl dst src rows len nd ds ss) := by
  obtain ⟨sIn, sOk⟩ : (!sl || localRowsIn src ss rows len) = true ∧ (!sl || localRowsOk s.tile s.st.lvl src ss rows len false) = true := by
    cases sl with
    | false => exact ⟨rfl, rfl⟩
    | true => exact source rfl
  obtain ⟨dIn, dOk⟩ : (!dl || localRowsIn dst ds rows nd) = true ∧ (!dl || localRowsOk s.tile s.st.lvl dst ds rows nd true) = true := by
    cases dl with
    | false => exact ⟨rfl, rfl⟩
    | true => exact dest rfl
  obtain ⟨sAl, dAl, shape⟩ : (!conv || (decide (src.toNat % elemBytes os.fmt = 0) && decide (len % elemBytes os.fmt = 0) &&
        decide (ss % elemBytes os.fmt = 0))) = true ∧
      (!conv || (decide (dst.toNat % elemBytes od.fmt = 0) && decide (ds % elemBytes od.fmt = 0))) = true ∧
      (!conv || (!os.plane && !od.plane && !isSquareFmt os.fmt && !isSquareFmt od.fmt && rowsInBank src ss rows len &&
        rowsInBank dst ds rows nd)) = true := by
    cases conv with
    | false => exact ⟨rfl, rfl, rfl⟩
    | true =>
      obtain ⟨sBase, sLen, sStride, dBase, dStride, sRows, dRows, sSquare, dSquare, sBank, dBank⟩ := elems rfl
      simp [sBase, sLen, sStride, dBase, dStride, sRows, dRows, sSquare, dSquare, sBank, dBank]
  have few : decide (rows * len ≤ maxCopy) = true := decide_eq_true bytes
  have fs : bankFmt (s.tile.bank (bankOf src.toNat)) = os.fmt := congrArg Operand.fmt hs.symm
  have fd : bankFmt (s.tile.bank (bankOf dst.toNat)) = od.fmt := congrArg Operand.fmt hd.symm
  have ps : bankPlane (s.tile.bank (bankOf src.toNat)) = os.plane := congrArg Operand.plane hs.symm
  have pd : bankPlane (s.tile.bank (bankOf dst.toNat)) = od.plane := congrArg Operand.plane hd.symm
  have rs : (BitVec.ofNat 4 os.fmt).toNat = os.fmt := by rw [← fs]; exact bankFmt_roundTrip _
  have rd : (BitVec.ofNat 4 od.fmt).toNat = od.fmt := by rw [← fd]; exact bankFmt_roundTrip _
  unfold State.plainCopy
  dsimp only
  simp only [fs, fd, ps, pd, ← hc]
  rw [dstLen_eq rfl]
  dsimp only [State.copyCmd]
  simp only [rs, rd, ← hn]
  rw [checkAt_of sIn, checkAt_of dIn, check_of few, checkAt_of sOk, checkAt_of dOk, checkAt_of sAl, checkAt_of dAl, check_of shape, hs, hd]
  rfl

/-! ### The operands of `cp2`, and the commands (05 R113, R115) -/

theorem bitsOf_high (x : DW) : bitsOf x.toNat 32 32 = x.toNat / 2 ^ 32 := by
  have := x.isLt
  unfold bitsOf
  omega

theorem signed_bitsOf (x : DW) (lo : Nat) : signed 32 (bitsOf x.toNat lo 32) = (x.extractLsb' lo 32).toInt := by
  have word : (x.extractLsb' lo 32).toNat = bitsOf x.toNat lo 32 := by
    rw [BitVec.extractLsb'_toNat, Nat.shiftRight_eq_div_pow, bitsOf]
  have small : bitsOf x.toNat lo 32 < 2 ^ 32 := Nat.mod_lt _ (by decide)
  rw [BitVec.toInt_eq_toNat_cond, word, signed, Nat.mod_eq_of_lt small]
  split_ifs <;> omega

section
variable {i : Instr} {dl sl : BitVec 1} {d a b : SReg}

theorem cp_body (h : Issues (.cp dl sl c d a b) s) : exec (.cp dl sl c d a b) s =
    .next (finish s (s.plainCopy c (dl == 1) (sl == 1) (s.reg d) (s.reg a) 1 (s.reg b).toNat 0 0)) := by
  rw [exec_cp, execCp, h.run]

theorem cp2_body (h : Issues (.cp2 dl sl c d a b) s) (pair : b ≠ 31) : exec (.cp2 dl sl c d a b) s =
    .next (finish s (s.plainCopy c (dl == 1) (sl == 1) (s.reg d) (s.reg a) ((s.reg b).toNat / 2 ^ 32) ((s.reg b).toNat % 2 ^ 32)
      ((s.reg (b + 1)).extractLsb' 32 32).toInt ((s.reg (b + 1)).extractLsb' 0 32).toInt)) := by
  rw [exec_cp2, execCp2, h.run]
  dsimp only
  rw [if_neg pair, bitsOf_high, signed_bitsOf, signed_bitsOf, bitsOf, Nat.pow_zero, Nat.div_one]

/-- Which copy a `cp` or a `cp2` is. -/
theorem plainCopy_body {dst src : DW} {rows len : Nat} {ds ss : Int} (h : Issues i s) (hd : dst = s.reg d) (hs : src = s.reg a)
    (form : (i = .cp dl sl c d a b ∧ rows = 1 ∧ len = (s.reg b).toNat ∧ ds = 0 ∧ ss = 0) ∨
      (i = .cp2 dl sl c d a b ∧ b ≠ 31 ∧ rows = (s.reg b).toNat / 2 ^ 32 ∧ len = (s.reg b).toNat % 2 ^ 32 ∧
        ds = ((s.reg (b + 1)).extractLsb' 32 32).toInt ∧ ss = ((s.reg (b + 1)).extractLsb' 0 32).toInt)) :
    exec i s = .next (finish s (s.plainCopy c (dl == 1) (sl == 1) dst src rows len ds ss)) := by
  subst hd hs
  obtain ⟨rfl, rfl, rfl, rfl, rfl⟩ | ⟨rfl, pair, rfl, rfl, rfl, rfl⟩ := form
  · exact cp_body h
  · exact cp2_body h pair

theorem plainCmd_taken {conv dl sl : Bool} {dst src : DW} {rows len nd : Nat} {ds ss : Int} {os od : Operand} (h : Issues i s)
    (hs : os = s.tile.operand src.toNat) (hd : od = s.tile.operand dst.toNat)
    (run : exec i s = .next (finish s (s.issueCopy c (s.plainCmd conv dl sl dst src rows len nd ds ss)))) :
    CopyTaken (exec i s) s c (rows * len) fun w => w.form = (if conv then .convert else .plain) ∧ w.dl = dl ∧
      w.sl = sl ∧ w.dst = dst ∧ w.src = src ∧ w.rows = rows ∧ w.rowLen = len ∧ w.dStride = ds ∧ w.sStride = ss ∧
      w.fmtSrc.toNat = os.fmt ∧ w.fmtDst.toNat = od.fmt ∧ w.reads = [rowsRange (s.space sl) src ss rows len] ∧
      w.writes = [rowsRange (s.space dl) dst ds rows nd] := by
  subst hs hd
  have form : (s.plainCmd conv dl sl dst src rows len nd ds ss).form = .plain ∨
      (s.plainCmd conv dl sl dst src rows len nd ds ss).form = .convert := by
    cases conv
    · exact .inl rfl
    · exact .inr rfl
  refine copyTaken_of_issueCopy h run (countPieces_rows (form.imp_right .inl)) ⟨rfl, rfl⟩ fun some => ?_
  have nonzero : decide (rows * len ≠ 0) = true := decide_eq_true (Nat.pos_iff_ne_zero.1 some)
  exact ⟨rfl, rfl, rfl, rfl, rfl, rfl, rfl, rfl, rfl, bankFmt_roundTrip _, bankFmt_roundTrip _, if_pos nonzero, if_pos nonzero⟩

/-- A single row lies in the scratchpad where its bytes do. -/
theorem localRowsIn_one {x : DW} {n : Nat} (h : 0 < n → x.toNat + n ≤ 2 ^ 20) : localRowsIn x 0 1 n = true := by
  obtain rfl | some := Nat.eq_zero_or_pos n
  · rfl
  · have inside : x.toNat + n ≤ Config.spadSize := h some
    simp only [localRowsIn, Bool.or_eq_true, Bool.and_eq_true, decide_eq_true_eq, zero_mul, add_zero]
    exact .inr ⟨⟨inside, Int.natCast_nonneg _⟩, by exact_mod_cast inside⟩

theorem localRowsOk_one {t : Tile} {lvl : BitVec 2} {x : DW} {n : Nat} {wr : Bool} (h : 0 < n → t.regionOk lvl x.toNat n wr = true) :
    localRowsOk t lvl x 0 1 n wr = true := by
  obtain rfl | some := Nat.eq_zero_or_pos n
  · rfl
  · simp [localRowsOk, rowAddr, h some]

/-- The command of a `cp.z`. -/
def State.zeroCmd (s : State) (near : Bool) (dst : DW) (n : Nat) : WainCmd :=
  { s.copyCmd .zero near false dst 0 1 n 0 0 0 with writes := if n = 0 then [] else [rowsRange (s.space near) dst 0 1 n] }

/-- `cp.z`: a zeroing copy whose end passes its checks. -/
theorem cpZ_taken (h : Issues (.cpZ dl c d b) s) (few : (s.reg b).toNat ≤ 2 ^ 24)
    (dest : dl = 1 → 0 < (s.reg b).toNat →
      (s.reg d).toNat + (s.reg b).toNat ≤ 2 ^ 20 ∧ s.tile.regionOk s.st.lvl (s.reg d).toNat (s.reg b).toNat true = true) :
    CopyTaken (exec (.cpZ dl c d b) s) s c (s.reg b).toNat fun w =>
      w.form = .zero ∧ w.dl = (dl == 1) ∧ w.dst = s.reg d ∧ w.rows = 1 ∧ w.rowLen = (s.reg b).toNat := by
  have ends : (dl == 0 || localRowsIn (s.reg d) 0 1 (s.reg b).toNat) = true ∧
      (dl == 0 || localRowsOk s.tile s.st.lvl (s.reg d) 0 1 (s.reg b).toNat true) = true := by
    obtain near | near : dl = 0 ∨ dl = 1 := by bv_omega
    · simp [near]
    · simp only [Bool.or_eq_true]
      exact ⟨.inr (localRowsIn_one fun some => (dest near some).1), .inr (localRowsOk_one fun some => (dest near some).2)⟩
  have most : (s.reg b).toNat ≤ maxCopy := few
  have run : exec (.cpZ dl c d b) s = .next (finish s (s.issueCopy c (s.zeroCmd (dl == 1) (s.reg d) (s.reg b).toNat))) := by
    rw [exec_cpZ, execCpZ, h.run]
    dsimp only
    rw [checkAt_of ends.1, check_of (decide_eq_true most), checkAt_of ends.2]
    rfl
  refine copyTaken_of_issueCopy h run ?_ ⟨rfl, rfl⟩ fun _ => ⟨rfl, rfl, rfl, rfl, rfl⟩
  exact (countPieces_rows (.inr (.inr (.inl rfl)))).trans (iff_of_eq (congrArg (· = 0) (Nat.one_mul _)))

/-- `cp.pf`: a prefetch of at most 2^24 bytes. -/
theorem cpPf_taken (h : Issues (.cpPf c a b) s) (few : (s.reg b).toNat ≤ 2 ^ 24) :
    CopyTaken (exec (.cpPf c a b) s) s c (s.reg b).toNat fun w =>
      w.form = .prefetch ∧ w.src = s.reg a ∧ w.rows = 1 ∧ w.rowLen = (s.reg b).toNat := by
  have run : exec (.cpPf c a b) s = .next (finish s (s.issueCopy c (s.copyCmd .prefetch false false 0 (s.reg a) 1 (s.reg b).toNat 0 0 0))) := by
    rw [exec_cpPf, execCpPf, h.run, if_neg (show ¬maxCopy < (s.reg b).toNat from Nat.not_lt.2 few)]
  refine copyTaken_of_issueCopy h run ?_ ⟨rfl, rfl⟩ fun _ => ⟨rfl, rfl, rfl, rfl⟩
  exact (countPieces_rows (.inr (.inr (.inr rfl)))).trans (iff_of_eq (congrArg (· = 0) (Nat.one_mul _)))

theorem cpPf_tooLong (h : Issues (.cpPf c a b) s) (long : 2 ^ 24 < (s.reg b).toNat) :
    exec (.cpPf c a b) s = .next (s.takeTrap (raise .prot)) := by
  rw [exec_cpPf, execCpPf]
  exact run_trap h (if_pos long)

/-! ### `cp.fill` (05 R113, R123) -/

theorem cpFill_priv (h : Issues (.cpFill c d a b) s) (lvl : s.st.lvl = 0) :
    exec (.cpFill c d a b) s = .next (s.takeTrap (raise .priv)) := by
  rw [exec_cpFill, execCpFill]
  refine run_trap h ?_
  have l0 : s.atL0 = true := by simp [State.atL0, lvl]
  simp only [l0]
  rfl

/-- The command of a `cp.fill`. -/
def State.fillCmd (s : State) (dst src : DW) (n : Nat) (key : BitVec 13) : WainCmd :=
  { s.copyCmd .fill false false dst src 0 0 0 0 n with
    key := key,
    reads := if n = 0 then [] else [{ space := .virt s.xc.asid, lo := src.toNat, hi := src.toNat + n * maxUnit }],
    writes := if n = 0 then [] else [{ space := .phys, lo := dst.toNat, hi := dst.toNat + n * 65536 }] }

theorem cpFill_taken {n : Nat} {key : BitVec 13} (h : Issues (.cpFill c d a b) s) (lvl : s.st.lvl ≠ 0)
    (ctl : (s.reg b).toNat = n + key.toNat * 2 ^ 16) (few : n < 2 ^ 16) (dest : (s.reg d).toNat % 65536 = 0)
    (source : (s.reg a).toNat % 64 = 0) (mine : s.keyOk s.tile.paddock key = true) :
    CopyTaken (exec (.cpFill c d a b) s) s c n fun w => w.form = .fill ∧ w.dst = s.reg d ∧ w.src = s.reg a ∧ w.cnt = n ∧ w.key = key := by
  have units : bitsOf (n + key.toNat * 2 ^ 16) 0 16 = n := by unfold bitsOf; omega
  have keyed : bitsOf (n + key.toNat * 2 ^ 16) 16 13 = key.toNat := by have := key.isLt; unfold bitsOf; omega
  have inside : n + key.toNat * 2 ^ 16 < 2 ^ 29 := by have := key.isLt; omega
  have l1 : (!s.atL0) = true := by simpa [State.atL0] using lvl
  have run : exec (.cpFill c d a b) s = .next (finish s (s.issueCopy c (s.fillCmd (s.reg d) (s.reg a) n key))) := by
    rw [exec_cpFill, execCpFill, h.run]
    dsimp only
    rw [ctl, units, keyed, BitVec.ofNat_toNat, BitVec.setWidth_eq, check_of l1, checkAt_of (beq_iff_eq.2 dest), check_of mine,
      check_of (decide_eq_true inside), checkAt_of (beq_iff_eq.2 source)]
    rfl
  refine copyTaken_of_issueCopy h run ?_ ⟨rfl, rfl⟩ fun _ => ⟨rfl, rfl, rfl, rfl, rfl⟩
  rw [countPieces_records (.inl rfl)]
  rfl

/-! ### `cp.sq` and `cp.sqt` (05 R120, R122) -/

/-- The command of a square copy. -/
def State.squareCmd (s : State) (tr dl sl : Bool) (dst src : DW) (cnt : Nat) (fmt : Option Nat) : WainCmd :=
  { s.copyCmd (.square tr) dl sl dst src 0 0 0 0 cnt with
    fmt := fmt.map (BitVec.ofNat 4),
    reads := if cnt = 0 then [] else squareRanges s.tile sl s.xc.asid fmt src cnt,
    writes := if cnt = 0 then [] else squareRanges s.tile dl s.xc.asid fmt dst cnt }

/-- One end of a square copy passes its checks: a global one lies on a line and its records in pages, a local one on a slot, in its bank,
in the scratchpad and in regions that permit it. -/
abbrev SquareEnd (s : State) (near : BitVec 1) (o : Operand) (x : DW) (cnt : Nat) (fmt : Option Nat) (wr : Bool) : Prop :=
  (near = 0 → x.toNat % 64 = 0 ∧ ∀ f, fmt = some f → f = 15 ∨ x.toNat % 4096 + recordBytes f ≤ 4096) ∧
  (near = 1 → (o.plane = true → x.toNat % 65536 % slotBytes o.fmt = 0) ∧
    (0 < cnt → (o.plane = true → o.slot 0 + cnt ≤ slotCount o.fmt) ∧
      x.toNat + (if o.plane then slotBytes o.fmt else recordBytes o.fmt) * cnt ≤ 2 ^ 20 ∧
      o.regionsOk s.tile s.st.lvl cnt wr = true))

theorem squareEnd_align {near : BitVec 1} {o : Operand} {x : DW} {cnt : Nat} {fmt : Option Nat} {wr paged : Bool} (base : o.base = x.toNat)
    (h : SquareEnd s near o x cnt fmt wr)
    (pages : (∀ f, fmt = some f → f = 15 ∨ x.toNat % 4096 + recordBytes f ≤ 4096) → paged = true) :
    (if (near == 1) = true then !o.plane || decide (o.base % 65536 % slotBytes o.fmt = 0)
      else decide (x.toNat % 64 = 0) && paged) = true := by
  obtain ⟨far, slots⟩ := h
  obtain rfl | rfl : near = 0 ∨ near = 1 := by bv_omega
  · obtain ⟨line, page⟩ := far rfl
    simp [line, pages page]
  · rw [base, if_pos (beq_self_eq_true _)]
    cases plane : o.plane with
    | false => rfl
    | true => simp [(slots rfl).1 plane]

theorem squareEnd_inside {near : BitVec 1} {o : Operand} {x : DW} {cnt : Nat} {fmt : Option Nat} {wr : Bool}
    (h : SquareEnd s near o x cnt fmt wr) :
    (!(near == 1) || (cnt == 0 || ((!o.plane || decide (o.slot 0 + cnt ≤ slotCount o.fmt)) && (
      decide (x.toNat + (if o.plane then slotBytes o.fmt else recordBytes o.fmt) * cnt ≤ Config.spadSize) &&
      o.regionsOk s.tile s.st.lvl cnt wr)))) = true := by
  obtain rfl | rfl : near = 0 ∨ near = 1 := by bv_omega
  · rfl
  · obtain rfl | some := Nat.eq_zero_or_pos cnt
    · rfl
    · obtain ⟨slots, inside, regions⟩ := (h.2 rfl).2 some
      rw [show Config.spadSize = 2 ^ 20 from rfl, decide_eq_true inside, regions]
      cases plane : o.plane with
      | false => simp
      | true => simp [slots plane]

/-- A format that a square copy takes passes its checks: it is a square one, and E2M1's needs its feature. -/
theorem squareFmt_checks {near : BitVec 1} {f : Nat} {feat : Bool} (h : near = 1 → f = 13 ∨ f = 15 ∨ f = 14 ∧ feat = true) :
    (!(near == 1) || isSquareFmt f) = true ∧ ((near == 1 && f == 14) = true → feat = true) := by
  obtain rfl | rfl : near = 0 ∨ near = 1 := by bv_omega
  · exact ⟨rfl, nofun⟩
  · obtain rfl | rfl | ⟨rfl, on⟩ := h rfl
    · exact ⟨rfl, nofun⟩
    · exact ⟨rfl, nofun⟩
    · exact ⟨rfl, fun _ => on⟩

/-- A square copy whose formats and ends pass their checks. -/
theorem squareCopy_taken {tr : Bool} {cnt : Nat} {fmt : Option Nat} {os od : Operand} (h : Issues i s)
    (hs : os = s.tile.operand (s.reg a).toNat) (hd : od = s.tile.operand (s.reg d).toNat)
    (run : exec i s = squareCopy i tr dl sl c d a b s) (hcnt : cnt = (s.reg b).toNat) (few : cnt ≤ 4096)
    (hfmt : fmt = if sl = 1 then some os.fmt else if dl = 1 then some od.fmt else none)
    (format : ∀ x, fmt = some x → x = 13 ∨ x = 15 ∨ x = 14 ∧ s.tile.feat.getLsbD 2 = true) (same : sl = 1 → dl = 1 → od.fmt = os.fmt)
    (source : SquareEnd s sl os (s.reg a) cnt fmt false) (dest : SquareEnd s dl od (s.reg d) cnt fmt true) :
    CopyTaken (exec i s) s c cnt fun w => w.form = .square tr ∧ w.dl = (dl == 1) ∧ w.sl = (sl == 1) ∧ w.dst = s.reg d ∧ w.src = s.reg a ∧
      w.cnt = cnt ∧ w.fmt = fmt.map (BitVec.ofNat 4) := by
  have fs : sl = 1 → os.fmt = 13 ∨ os.fmt = 15 ∨ os.fmt = 14 ∧ s.tile.feat.getLsbD 2 = true := fun near => format _ (by rw [hfmt, if_pos near])
  have fd : dl = 1 → od.fmt = 13 ∨ od.fmt = 15 ∨ od.fmt = 14 ∧ s.tile.feat.getLsbD 2 = true := fun near => by
    by_cases other : sl = 1
    · rw [same other near]; exact fs other
    · exact format _ (by rw [hfmt, if_neg other, if_pos near])
  obtain ⟨sSquare, sFeature⟩ := squareFmt_checks fs
  obtain ⟨dSquare, dFeature⟩ := squareFmt_checks fd
  have feature : (!((dl == 1 && od.fmt == 14) || (sl == 1 && os.fmt == 14)) || s.tile.feat.getLsbD 2) = true := by
    rw [Bool.or_eq_true, Bool.not_eq_true', ← Bool.not_eq_true, Bool.or_eq_true, ← imp_iff_not_or]
    exact Or.rec dFeature sFeature
  have both : (!(dl == 1 && sl == 1) || od.fmt == os.fmt) = true := by
    rw [Bool.or_eq_true, Bool.not_eq_true', ← Bool.not_eq_true, ← imp_iff_not_or, Bool.and_eq_true, beq_iff_eq, beq_iff_eq, beq_iff_eq]
    exact fun near => same near.2 near.1
  have fmt' : (if (sl == 1) = true then some os.fmt else if (dl == 1) = true then some od.fmt else none) = fmt := by
    rw [hfmt]; simp
  have body : exec i s = .next (finish s (s.issueCopy c (s.squareCmd tr (dl == 1) (sl == 1) (s.reg d) (s.reg a) cnt fmt))) := by
    rw [run, squareCopy, h.run]
    dsimp only
    rw [← hs, ← hd, ← hcnt, fmt']
    refine congrArg (fun e => Host.Outcome.next (finish s e)) ?_
    refine (check_then feature).trans ((check_then (decide_eq_true few)).trans ((check_then sSquare).trans ((check_then dSquare).trans
      ((check_then both).trans ((checkAt_then ?_).trans ((checkAt_then ?_).trans ((checkAt_then (squareEnd_inside source)).trans
        ((checkAt_then (squareEnd_inside dest)).trans ?_))))))))
    · refine squareEnd_align (by rw [hs]; rfl) source fun page => ?_
      split
      · simp [page _ rfl]
      · rfl
    · refine squareEnd_align (by rw [hd]; rfl) dest fun page => ?_
      split
      · simp [page _ rfl]
      · rfl
    · rfl
  refine copyTaken_of_issueCopy h body ?_ ⟨rfl, rfl⟩ fun _ => ⟨rfl, rfl, rfl, rfl, rfl, rfl, rfl⟩
  rw [countPieces_records (.inr ⟨tr, rfl⟩)]
  rfl

end

end

/-- Settles O37: the checks of a plain copy, of `cp.z`, `cp.pf`, the square copies and `cp.fill`, each before the common issue. -/
theorem copyIssue : Obligations.CopyIssue := by
  intro s i dl sl c d a b dst src fs fd conv od os h hdst hsrc hos hod hfs hfd hconv
  subst hfs hfd
  refine ⟨fun rows len nd ds ss form hnd => ⟨fun long far near => ?_, fun few source dest elems => ?_⟩, ?_, ?_,
    fun tr cnt fmt form hcnt few hfmt format same ends => ?_, ?_⟩
  · rw [plainCopy_body h hdst hsrc form, far, near]
    exact congrArg (fun e => Host.Outcome.next (finish s e)) (plainCopy_tooLong long)
  · have run := plainCopy_body h hdst hsrc form
    rw [plainCopy_issues hos hod hconv hnd few (fun near => source (beq_iff_eq.1 near)) (fun near => dest (beq_iff_eq.1 near)) elems] at run
    exact plainCmd_taken h hos hod run
  · rintro rfl few dest
    subst hdst
    exact cpZ_taken h few dest
  · rintro rfl
    subst hsrc
    exact ⟨cpPf_tooLong h, cpPf_taken h⟩
  · subst hdst hsrc
    have run : exec i s = squareCopy i tr dl sl c d a b s := by
      obtain ⟨rfl, rfl⟩ | ⟨rfl, rfl⟩ := form
      · exact exec_cpSq dl sl c d a b s
      · exact exec_cpSqt dl sl c d a b s
    exact squareCopy_taken h hos hod run hcnt few hfmt format same (ends sl os (s.reg a) false (.inl ⟨rfl, rfl, rfl, rfl⟩))
      (ends dl od (s.reg d) true (.inr ⟨rfl, rfl, rfl, rfl⟩))
  · rintro n key rfl
    subst hdst hsrc
    exact ⟨cpFill_priv h, fun lvl ctl few dest source mine => cpFill_taken h lvl ctl few dest source mine⟩

end Sys2Proof.Machine
end

section
/-! 05 R112, R115, R118, R125-R128: waiting for copies, and the pieces of one-row copies. -/
namespace Sys2Proof.Machine

section
variable {s : State} {c : CReg} {d a : SReg}

/-! ### Waits for a counter (05 R126, R127) -/

theorem onSt_onSt (s : State) (f g : Strand → Strand) : (s.onSt f).onSt g = s.onSt fun x => g (f x) := by
  have twice (x : StrandId) : (s.tile.modStrand x f).modStrand x g = s.tile.modStrand x fun y => g (f y) := by cases x <;> rfl
  rw [State.onSt, State.cur, onSt_tile_lastIssued]
  exact congrArg (fun t => { s with tile := t }) (twice s.tile.lastIssued)

/-- The wait goes on below the number it waits for: the value, or ISSUE where that is less, as it was at the first issue. -/
theorem waitCounter_eq {m : Nat} (new : s.st.sample = none → m = min (s.reg a).toNat (s.tile.ctr c).issue)
    (again : ∀ v, s.st.sample = some v → m = v.toNat) :
    s.waitCounter c a = if (s.tile.ctr c).done < m then
      .error (.wait (.retry .engine) (s.onSt fun x => { x with sample := some (BitVec.ofNat 64 m) })) else .ok m := by
  unfold State.waitCounter
  cases e : s.st.sample with
  | none => rw [new e]
  | some v => rw [again v e]

theorem hit_false {k : Counter} {m : Nat} (h : k.err.valid = false ∨ m < k.err.num) : k.hit m = false := by
  obtain h | h := h
  · simp [Counter.hit, h]
  · simp [Counter.hit, h]

theorem hit_true {k : Counter} {m : Nat} (valid : k.err.valid = true) (h : k.err.num ≤ m) : k.hit m = true := by
  simp [Counter.hit, valid, h]

section
variable {m : Nat} (new : s.st.sample = none → m = min (s.reg a).toNat (s.tile.ctr c).issue) (again : ∀ v, s.st.sample = some v → m = v.toNat)
include new again

/-- `cp.wait` waits, raises the failure up to its number, or goes on. -/
theorem cpWait_eq (h : Issues (.cpWait c a) s) : exec (.cpWait c a) s = .next (if (s.tile.ctr c).done < m then
      s.onSt fun x => { x with sample := some (BitVec.ofNat 64 m), wait := some (.retry .engine) }
    else if (s.tile.ctr c).hit m then (s.takeErr c).takeTrap ((s.tile.ctr c).err.req c) else s.retire) := by
  rw [exec_cpWait, execCpWait, h.run, waitCounter_eq new again]
  by_cases below : (s.tile.ctr c).done < m
  · rw [if_pos below, if_pos below]
    exact congrArg Host.Outcome.next ((finish_wait h.budget _ _).trans (onSt_onSt s _ _))
  · rw [if_neg below, if_neg below]
    change Host.Outcome.next (finish s (if (s.tile.ctr c).hit m then .error (.trap ((s.tile.ctr c).err.req c) (s.takeErr c)) else .ok s)) = _
    split
    · rfl
    · rw [finish_ok h.budget]

/-- `cp.waitq` waits, answers the failure up to its number and clears it, or answers 0. -/
theorem cpWaitq_eq (h : Issues (.cpWaitq d c a) s) : exec (.cpWaitq d c a) s = .next (if (s.tile.ctr c).done < m then
      s.onSt fun x => { x with sample := some (BitVec.ofNat 64 m), wait := some (.retry .engine) }
    else if (s.tile.ctr c).hit m then ((s.takeErr c).setReg d (s.tile.ctr c).err.word).retire else (s.setReg d 0).retire) := by
  rw [exec_cpWaitq, execCpWaitq, h.run, waitCounter_eq new again]
  by_cases below : (s.tile.ctr c).done < m
  · rw [if_pos below, if_pos below]
    exact congrArg Host.Outcome.next ((finish_wait h.budget _ _).trans (onSt_onSt s _ _))
  · rw [if_neg below, if_neg below]
    change Host.Outcome.next (finish s (if (s.tile.ctr c).hit m then .ok ((s.takeErr c).setReg d (s.tile.ctr c).err.word)
      else .ok (s.setReg d 0))) = _
    split <;> rw [finish_ok h.budget]

end

/-! ### What is read of a counter (05 R127) -/

theorem takeErr_ctr (r : CReg) : (s.takeErr c).tile.ctr r =
    if r = c then { s.tile.ctr c with err := { (s.tile.ctr c).err with valid := false } } else s.tile.ctr r :=
  modCtr_ctr s.tile c r fun k => { k with err := { k.err with valid := false } }

theorem takeErr_reg (r : SReg) : (s.takeErr c).reg r = s.reg r := by
  refine reg_eq_of_regs ?_ r
  have strands (x : StrandId) : (s.takeErr c).tile.strand x = s.tile.strand x := by cases x <;> rfl
  exact congrArg Strand.regs (strands s.tile.lastIssued)

/-- A word that reads into a register changes that register and goes on. -/
theorem setReg_retire_reg (v : DW) (r : SReg) : (s.setReg d v).retire.reg r = if r = d ∧ d ≠ 0 then v else s.reg r := by
  rw [reg_eq_of_regs (State.retire_st_regs _), setReg_reg]
  rfl

theorem setReg_retire_ctr (v : DW) (r : CReg) : (s.setReg d v).retire.tile.ctr r = s.tile.ctr r :=
  ctr_congr (by simp) r

theorem setReg_retire_frame (v : DW) : SameVectors s (s.setReg d v).retire ∧ SameContexts s (s.setReg d v).retire ∧
    SameTileControl s (s.setReg d v).retire ∧ SameBytes s (s.setReg d v).retire := by
  refine ⟨sameVectors_of_tile (by simp) (by simp), ?_, ⟨?_, ?_, ?_, ?_, ?_, ?_, ?_⟩, sameBytes_of_eq ?_ ?_ ?_⟩
  all_goals simp [SameContexts]

/-- The state in which `cp.rdc` has read a counter: selector 3 has cleared its ERR. -/
def State.counterRead (s : State) (c : CReg) (sel : BitVec 2) : State := if sel = 3 then s.takeErr c else s

/-- `cp.rdc` reads DONE, ISSUE or ERR. -/
theorem cpRdc_reads {sel : BitVec 2} (h : Issues (.cpRdc d c sel) s) : exec (.cpRdc d c sel) s =
    .next ((s.counterRead c sel).setReg d (if sel = 0 then BitVec.ofNat 64 (s.tile.ctr c).done
      else if sel = 1 then BitVec.ofNat 64 (s.tile.ctr c).issue else (s.tile.ctr c).err.word)).retire := by
  rw [exec_cpRdc, execCpRdc]
  refine run_ok h ?_
  obtain rfl | rfl | rfl | rfl : sel = 0 ∨ sel = 1 ∨ sel = 2 ∨ sel = 3 := by bv_omega
  all_goals rfl

theorem counterRead_reg (sel : BitVec 2) (r : SReg) : (s.counterRead c sel).reg r = s.reg r := by
  unfold State.counterRead
  split
  · exact takeErr_reg r
  · rfl

theorem counterRead_ctr (sel : BitVec 2) (r : CReg) : (s.counterRead c sel).tile.ctr r =
    if r = c ∧ sel = 3 then { s.tile.ctr c with err := { (s.tile.ctr c).err with valid := false } } else s.tile.ctr r := by
  unfold State.counterRead
  by_cases clears : sel = 3
  · simp only [clears, if_true, and_true, takeErr_ctr]
  · simp only [clears, if_false, and_false]

theorem counterRead_frame (sel : BitVec 2) (v : DW) : SameVectors s ((s.counterRead c sel).setReg d v).retire ∧
    SameContexts s ((s.counterRead c sel).setReg d v).retire ∧ SameTileControl s ((s.counterRead c sel).setReg d v).retire ∧
    SameBytes s ((s.counterRead c sel).setReg d v).retire := by
  unfold State.counterRead
  split
  · exact setReg_retire_frame (s := s.takeErr c) v
  · exact setReg_retire_frame v

/-! ### The commands in flight (05 R112, R125, R128) -/

/-- A command leaves those in flight, and its context takes its flags. -/
def State.closeCopy (s : State) (k : Nat) (w : WainCmd) : State :=
  s.onTile fun t => { t.modCtx w.xc.ctx (fun x => { x with flags := x.flags ||| w.flags }) with wain := dropAt k t.wain }

section
variable {k : Nat} {w : WainCmd} (hk : s.input.k = k) (hw : s.tile.wain[k]? = some w)
include hk hw

theorem wainCommandStart_starts (waits : w.started = false) (free : s.tile.copyFree w = true) :
    exec .wainCommandStart s = .next (s.modWain k fun w => { w with started := true }) := by
  subst hk
  rw [exec_wainCommandStart, execWainCommandStart, hw]
  simp only [waits, free]
  rfl

theorem wainCommandStart_waits (busy : s.tile.copyFree w = false) : exec .wainCommandStart s = .next s := by
  subst hk
  rw [exec_wainCommandStart, execWainCommandStart, hw]
  simp only [busy, Bool.not_false, Bool.or_true, if_true]
  rfl

theorem wainCommandComplete_waits (more : w.done.length < w.pieces) : exec .wainCommandComplete s = .next s := by
  subst hk
  rw [exec_wainCommandComplete, execWainCommandComplete, hw]
  simp only [more, if_true]
  rfl

theorem wainCommandComplete_completes (ended : w.pieces ≤ w.done.length) : exec .wainCommandComplete s =
    .next ((s.closeCopy k w).completeNum (s.closeCopy k w).tile.ltn w.ctr w.num) := by
  subst hk
  rw [exec_wainCommandComplete, execWainCommandComplete, hw]
  simp only [Nat.not_lt.2 ended, if_false]
  rfl

/-- A piece of a plain or zeroing copy that is on. -/
theorem wainTransfer_plain (started : w.started = true) (open' : w.done.contains s.input.j = false) (piece : s.input.j < w.pieces)
    (stages : w.stages = []) (moves : s.input.j < w.moves) (form : w.form = .plain ∨ w.form = .zero) :
    exec .wainTransfer s = .next (s.plainPiece k w s.input.j) := by
  subst hk
  have on : (!w.started || w.done.contains s.input.j || decide (w.pieces ≤ s.input.j) || w.stages.contains (s.input.j, .paged)) = false := by
    rw [started, open', decide_eq_false (Nat.not_le.2 piece), stages]
    rfl
  rw [exec_wainTransfer, execWainTransfer, hw]
  dsimp only
  rw [on, if_neg Bool.false_ne_true, if_neg (Nat.not_le.2 moves)]
  obtain form | form := form <;> rw [form] <;> rfl

end

theorem modWain_getElem? {k : Nat} {w : WainCmd} (hw : s.tile.wain[k]? = some w) (f : WainCmd → WainCmd) :
    (s.modWain k f).tile.wain[k]? = some (f w) := by
  simp [State.modWain, modAt_eq_modify, hw]

/-! ### One piece of a one-row copy (05 R115, R118) -/

/-- Where no byte is left out the bytes are written as one run. -/
theorem keepRuns_whole {skip : Nat → Bool} (b : Byte) (bs : List Byte) (a : Nat)
    (h : ∀ x, a ≤ x → x < a + (bs.length + 1) → skip x = false) :
    keepRuns skip a (b :: bs) = [(a, b :: bs)] := by
  induction bs generalizing a b with
  | nil => simp [keepRuns, h a (Nat.le_refl a) (by omega)]
  | cons c cs ih =>
    have rest := ih c (a + 1) fun x lo hi => h x (by omega) (by simp only [List.length_cons] at hi ⊢; omega)
    have kept : skip a = false := h a (Nat.le_refl a) (by omega)
    rw [keepRuns, rest, kept]
    simp

theorem dstWrite_local {w : WainCmd} (near : w.dl = true) (x : Nat) (bs : List Byte) :
    s.dstWrite w [(x, bs)] = (.ok (), s.engineStore x bs) := by
  simp [State.dstWrite, near]

section
variable {w : WainCmd} {q off n : Nat}

theorem pieceAt_one (rows : w.rows = 1) (form : w.form = .plain ∨ w.form = .zero) (inside : q < w.rowPieces 0)
    (span : pieceSpan (w.cuts 0).1 (w.cuts 0).2 w.rowLen q = some (off, n)) : w.pieceAt q = some (0, off, n) := by
  have one : w.locate w.rows 0 q = some (0, q) := by rw [rows]; exact if_pos inside
  have raw : w.form ≠ .convert := by obtain form | form := form <;> simp [form]
  simp [WainCmd.pieceAt, one, raw, span]

theorem plainPiece_moves {k : Nat} {da : Nat} {bs : List Byte} (form : w.form = .plain ∨ w.form = .zero)
    (place : w.pieceAt q = some (0, off, n)) (near : w.dl = true) (hda : (rowAddr w.dst w.dStride 0 + BitVec.ofNat 64 off).toNat = da)
    (source : (if w.form = .zero then ((.ok (List.replicate n 0) : Io (List Byte)), s)
      else s.srcRead w (rowAddr w.src w.sStride 0 + BitVec.ofNat 64 off) n) = (.ok bs, s))
    (some' : bs ≠ []) (quiet : ∀ x, da ≤ x → x < da + bs.length → w.skips 0 x = false) :
    s.plainPiece k w q = (s.engineStore da bs).pieceDone k q := by
  have fetch : w.form ≠ .prefetch := by obtain form | form := form <;> simp [form]
  obtain ⟨b, cs, rfl⟩ := List.exists_cons_of_ne_nil some'
  unfold State.plainPiece
  rw [place]
  dsimp only
  rw [if_neg fetch, source, hda]
  dsimp only
  rw [keepRuns_whole b cs da quiet, dstWrite_local near]

/-- A piece whose bytes go to the scratchpad is over, and no other byte has changed. -/
theorem pieceDone_store {k da : Nat} {bs : List Byte} (hw : s.tile.wain[k]? = some w) (wf : s.tile.spad.wf = true) :
    (∀ x, ((s.engineStore da bs).pieceDone k q).tile.spad.read x =
      if da ≤ x ∧ x < da + bs.length then bs.getD (x - da) 0 else s.tile.spad.read x) ∧
    (∃ v : WainCmd, ((s.engineStore da bs).pieceDone k q).tile.wain[k]? = some v ∧ v.done.contains q = true) ∧
    ((s.engineStore da bs).pieceDone k q).mem = s.mem ∧ ∀ r, ((s.engineStore da bs).pieceDone k q).reg r = s.reg r := by
  refine ⟨fun x => Memory.read_writeBytes da x bs wf, ⟨_, modWain_getElem? (s := s.engineStore da bs) hw _, ?_⟩, rfl, reg_eq_of_regs ?_⟩
  · simp [mem_insertNat]
  · have strands (x : StrandId) : ((s.engineStore da bs).pieceDone k q).tile.strand x = s.tile.strand x := by cases x <;> rfl
    exact congrArg Strand.regs (strands s.tile.lastIssued)

theorem rowAddr_one {x : DW} {o : Nat} (h : x.toNat + o < 2 ^ 64) : (rowAddr x 0 0 + BitVec.ofNat 64 o).toNat = x.toNat + o := by
  have base : rowAddr x 0 0 = x := by simp [rowAddr]
  rw [base]
  bv_omega

theorem rowsRange_one (sp : Space) (x : DW) (n : Nat) : rowsRange sp x 0 1 n = { space := sp, lo := x.toNat, hi := x.toNat + n } := by
  simp [rowsRange]
  omega

/-- A one-row copy leaves out no byte that lies outside its source range. -/
theorem skips_one (rows : w.rows = 1) {x : Nat} (apart : ∀ y ∈ w.reads, x < y.lo ∨ y.hi ≤ x) : w.skips 0 x = false := by
  simp only [WainCmd.skips, rows, ne_eq, not_true_eq_false, decide_false, Bool.false_and, Bool.or_false, List.any_eq_false, List.any_eq_true,
    Bool.and_eq_true, decide_eq_true_eq]
  rintro z - ⟨y, hy, ⟨-, lo⟩, hi⟩
  have := apart y hy
  omega

theorem srcRead_local {x : DW} (near : w.sl = true) (good : s.tile.spadBad = []) :
    s.srcRead w x n = (.ok (s.tile.readSpad x.toNat n), s) := by
  simp [State.srcRead, near, good, wordsBad]

/-- The bytes that a piece of a one-row copy moves to its `n` bytes from `off` of the row: those of its source, or zeros. -/
def State.pieceBytes (s : State) (w : WainCmd) (off n : Nat) : List Byte :=
  if w.form = .zero then List.replicate n 0 else s.tile.readSpad (w.src.toNat + off) n

theorem pieceBytes_length : (s.pieceBytes w off n).length = n := by
  unfold State.pieceBytes
  split <;> simp [Tile.readSpad, Memory.readBytes_eq]

theorem pieceBytes_getD {i : Nat} (h : i < n) :
    (s.pieceBytes w off n).getD i 0 = if w.form = .zero then 0 else s.tile.spad.read (w.src.toNat + (off + i)) := by
  unfold State.pieceBytes
  split
  · simp
  · simp [Tile.readSpad, Memory.readBytes_eq, h, Nat.add_assoc]

/-- The source bytes of a piece of a one-row copy within the scratchpad. -/
theorem pieceBytes_source (stride : w.sStride = 0) (span : off + n ≤ w.rowLen)
    (source : w.form = .plain ∧ w.sl = true ∧ w.src.toNat + w.rowLen ≤ 2 ^ 20 ∧ s.tile.spadBad = [] ∨ w.form = .zero) :
    (if w.form = .zero then ((.ok (List.replicate n 0) : Io (List Byte)), s)
      else s.srcRead w (rowAddr w.src w.sStride 0 + BitVec.ofNat 64 off) n) = (.ok (s.pieceBytes w off n), s) := by
  unfold State.pieceBytes
  obtain ⟨form, near, inside, good⟩ | form := source
  · rw [form, if_neg (by decide), if_neg (by decide), srcRead_local near good, stride, rowAddr_one (by omega)]
  · rw [form, if_pos rfl, if_pos rfl]

end

end

/-- A context of a tile after a change of one. -/
theorem modCtx_ctxs (t : Tile) (c : BitVec 2) (f : Ctx → Ctx) (i : Fin 4) :
    (t.modCtx c f).ctxs[i] = if i.val = c.toNat then f t.ctxs[i] else t.ctxs[i] := by
  simp only [Tile.modCtx, Fin.getElem_fin, Vector.getElem_set]
  by_cases h : i.val = c.toNat
  · simp only [h, if_true]
  · rw [if_neg h, if_neg (Ne.symm h)]

section
variable {s : State} {k : Nat} {w : WainCmd} (hk : s.input.k = k) (hw : s.tile.wain[k]? = some w)
include hk hw

/-- One piece of a plain copy between two local ends that do not meet, or of a local zeroing copy, of one row. -/
theorem wainTransfer_oneRow {q off n : Nat} (hq : s.input.j = q) (started : w.started = true) (near : w.dl = true) (rows : w.rows = 1)
    (inside : q < w.rowPieces 0) (moves : q < w.moves) (piece : q < w.pieces) (open' : w.done.contains q = false) (stages : w.stages = [])
    (dStride : w.dStride = 0) (sStride : w.sStride = 0) (span : pieceSpan (w.cuts 0).1 (w.cuts 0).2 w.rowLen q = some (off, n))
    (dest : w.dst.toNat + w.rowLen ≤ 2 ^ 20)
    (source : w.form = .plain ∧ w.sl = true ∧ w.src.toNat + w.rowLen ≤ 2 ^ 20 ∧ s.tile.spadBad = [] ∨ w.form = .zero)
    (apart : ∀ y ∈ w.reads, w.dst.toNat + w.rowLen ≤ y.lo ∨ y.hi ≤ w.dst.toNat) :
    exec .wainTransfer s = .next ((s.engineStore (w.dst.toNat + off) (s.pieceBytes w off n)).pieceDone k q) := by
  subst hq
  obtain ⟨some', fits⟩ := pieceSpan_bounds span
  have form : w.form = .plain ∨ w.form = .zero := source.imp_left And.left
  have da : (rowAddr w.dst w.dStride 0 + BitVec.ofNat 64 off).toNat = w.dst.toNat + off := by rw [dStride, rowAddr_one (by omega)]
  have bytes : s.pieceBytes w off n ≠ [] := List.ne_nil_of_length_pos (by rw [pieceBytes_length]; exact some')
  rw [wainTransfer_plain hk hw started open' piece stages moves form,
    plainPiece_moves form (pieceAt_one rows form inside span) near da (pieceBytes_source sStride fits source) bytes]
  intro x lo hi
  rw [pieceBytes_length] at hi
  refine skips_one rows fun y hy => (apart y hy).imp (fun _ => ?_) fun _ => ?_ <;> omega

/-- A copy whose pieces are all over leaves the commands in flight; its context takes its flags, and its counter its number. -/
theorem wainCommandComplete_effect (ended : w.pieces ≤ w.done.length) (triggers : s.tile.triggers = []) :
    ∃ u : State, exec .wainCommandComplete s = .next u ∧ u.tile.wain = dropAt k s.tile.wain ∧
      (∀ x : Fin 4, u.tile.ctxs[x] =
        if x.val = w.xc.ctx.toNat then { s.tile.ctxs[x] with flags := s.tile.ctxs[x].flags ||| w.flags } else s.tile.ctxs[x]) ∧
      u.tile.ctr w.ctr = (s.tile.ctr w.ctr).complete w.num ∧ SameBytes s u := by
  obtain ⟨m, x, complete, -⟩ := completeNum_eq (s := s.closeCopy k w) w.ctr w.num triggers
  refine ⟨_, (wainCommandComplete_completes hk hw ended).trans (congrArg Host.Outcome.next complete), ?_, fun i => ?_, ?_,
    sameBytes_of_eq ?_ ?_ ?_⟩
  · rfl
  · exact modCtx_ctxs s.tile w.xc.ctx (fun x => { x with flags := x.flags ||| w.flags }) i
  · exact (modCtr_ctr s.tile w.ctr w.ctr fun c => c.complete w.num).trans (if_pos rfl)
  · rfl
  · rfl
  · rfl

end

/-- Settles O38: the waits by the counter's state, what is read of it, the start, one piece of a one-row copy, and the completion. -/
theorem copyWaitsAndTransfers : Obligations.CopyWaitsAndTransfers := by
  refine ⟨?waits, ?commands⟩
  case waits =>
    rintro s c d a sel k m rfl new again
    refine ⟨fun below => ⟨fun h => ?_, fun h => ?_⟩, fun done good => ⟨fun h => ?_, fun h => ?_⟩,
      fun done valid first => ⟨fun h => ?_, fun h => ?_⟩, fun h => ?_⟩
    · rw [cpWait_eq new again h, if_pos below]
    · rw [cpWaitq_eq new again h, if_pos below]
    · rw [cpWait_eq new again h, if_neg (Nat.not_lt.2 done), hit_false good]
      rfl
    · rw [cpWaitq_eq new again h, if_neg (Nat.not_lt.2 done), hit_false good]
      rfl
    · rw [cpWait_eq new again h, if_neg (Nat.not_lt.2 done), if_pos (hit_true valid first)]
      rfl
    · rw [cpWaitq_eq new again h, if_neg (Nat.not_lt.2 done), if_pos (hit_true valid first)]
      refine ⟨_, rfl, ?_, fun r => ?_, fun r hr => ?_, (setReg_retire_frame _).2.2.2⟩
      · rw [setReg_retire_ctr, takeErr_ctr, if_pos rfl]
      · rw [setReg_retire_reg, takeErr_reg]
      · rw [setReg_retire_ctr, takeErr_ctr, if_neg hr]
    · refine ⟨_, cpRdc_reads h, fun r => ?_, ?_, ?_, ?_, fun r hr => ?_, counterRead_frame sel _⟩
      · rw [setReg_retire_reg, counterRead_reg]
      · rw [setReg_retire_ctr, counterRead_ctr]
        by_cases clears : sel = 3
        · rw [if_pos ⟨rfl, clears⟩, if_pos clears]
        · rw [if_neg fun h => clears h.2, if_neg clears]
      · rw [setReg_retire_ctr, counterRead_ctr]
        split_ifs <;> rfl
      · rw [setReg_retire_ctr, counterRead_ctr]
        split_ifs <;> rfl
      · rw [setReg_retire_ctr, counterRead_ctr, if_neg fun same => hr same.1]
  case commands =>
    intro s k w hk hw
    refine ⟨fun waits free => ?_, wainCommandStart_waits hk hw, ?_, wainTransfer_idle hk hw,
      wainCommandComplete_waits hk hw, fun ended none => ?_⟩
    · exact ⟨_, wainCommandStart_starts hk hw waits free, modWain_getElem? hw _, sameBytes_of_eq rfl rfl rfl⟩
    · intro q off n started near rows hq inside moves piece open' stages dStride sStride wf span dest kind
      have source : w.form = .plain ∧ w.sl = true ∧ w.src.toNat + w.rowLen ≤ 2 ^ 20 ∧ s.tile.spadBad = [] ∨ w.form = .zero :=
        kind.imp (fun ⟨form, near, inside, good, _⟩ => ⟨form, near, inside, good⟩) And.left
      have apart : ∀ y ∈ w.reads, w.dst.toNat + w.rowLen ≤ y.lo ∨ y.hi ≤ w.dst.toNat := by
        obtain ⟨-, -, -, -, reads, -, apart⟩ | ⟨-, reads⟩ := kind
        · rw [reads, rowsRange_one]
          simpa using apart.symm
        · simp [reads]
      obtain ⟨bytes, finished, mem, regs⟩ := pieceDone_store (q := q) (da := w.dst.toNat + off) (bs := s.pieceBytes w off n) hw wf
      refine ⟨_, wainTransfer_oneRow hk hw hq started near rows inside moves piece open' stages dStride sStride span dest source apart,
        fun x => ?_, finished, mem, regs⟩
      rw [bytes, pieceBytes_length]
      split
      · next within =>
        rw [pieceBytes_getD (by omega), show off + (x - (w.dst.toNat + off)) = x - w.dst.toNat by omega]
      · rfl
    · obtain ⟨u, run, wain, ctxs, ctr, bytes⟩ := wainCommandComplete_effect hk hw ended none
      exact ⟨u, run, wain, ctxs, fun ahead next => by rw [ctr, Counter.complete_next ahead next], bytes⟩

end Sys2Proof.Machine
end

section
/-! 00 R4, 06 R131, R140-R146: the numbers that bytes of memory hold, and what loads and stores of the scratchpad read and leave. -/
namespace Sys2Proof.Machine

/-! ### Numbers in memory (00 R4) -/

theorem pow_256 (n : Nat) : 256 ^ n = 2 ^ (8 * n) := by
  rw [Nat.pow_mul]

theorem ofLe_append (xs ys : List Byte) : ofLe (xs ++ ys) = ofLe xs + 256 ^ xs.length * ofLe ys := by
  induction xs with
  | nil => simp [ofLe]
  | cons x xs ih =>
    rw [List.cons_append, ofLe, ofLe, ih, List.length_cons, Nat.pow_succ']
    ring

theorem ofLe_lt (bs : List Byte) : ofLe bs < 256 ^ bs.length := by
  induction bs with
  | nil => simp [ofLe]
  | cons b bs ih =>
    rw [ofLe, List.length_cons, Nat.pow_succ]
    omega

namespace Memory
variable {m : Memory}

theorem readBytes_length (m : Memory) (a n : Nat) : (m.readBytes a n).length = n := by simp [readBytes_eq]

theorem readLe_lt (m : Memory) (a n : Nat) : m.readLe a n < 2 ^ (8 * n) := by
  have := ofLe_lt (m.readBytes a n)
  rwa [readBytes_length, pow_256] at this

theorem readLe_congr {k : Memory} {a b n : Nat} (h : ∀ i, i < n → m.read (a + i) = k.read (b + i)) : m.readLe a n = k.readLe b n := by
  rw [readLe, readLe, readBytes_eq, readBytes_eq, List.map_congr_left fun i hi => h i (List.mem_range.1 hi)]

theorem readLe_add (m : Memory) (a i n : Nat) : m.readLe a (i + n) = m.readLe a i + 2 ^ (8 * i) * m.readLe (a + i) n := by
  have split : m.readBytes a (i + n) = m.readBytes a i ++ m.readBytes (a + i) n := by
    simp only [readBytes_eq, List.range_add, List.map_append, List.map_map, Function.comp_def, Nat.add_assoc]
  rw [readLe, split, ofLe_append, readBytes_length, pow_256]
  rfl

/-- A part of a number in memory is the number that its own bytes hold. -/
theorem bitsOf_readLe (m : Memory) (a : Nat) {i k n : Nat} (h : i + k ≤ n) : bitsOf (m.readLe a n) (8 * i) (8 * k) = m.readLe (a + i) k := by
  obtain ⟨r, rfl⟩ := Nat.exists_eq_add_of_le h
  have low := readLe_lt m a i
  have mid := readLe_lt m (a + i) k
  rw [Nat.add_assoc, readLe_add, readLe_add, bitsOf, Nat.add_mul_div_left _ _ (Nat.two_pow_pos _), Nat.div_eq_of_lt low, Nat.zero_add,
    Nat.add_mul_mod_self_left, Nat.mod_eq_of_lt mid]

/-- The bytes from an address on are those of a list. -/
def Holds (m : Memory) (a : Nat) (bs : List Byte) : Prop := ∀ i, i < bs.length → m.read (a + i) = bs.getD i 0

theorem holds_writeBytes (a : Nat) (bs : List Byte) (wf : m.wf = true) : (m.writeBytes a bs).Holds a bs := fun i hi => by
  rw [read_writeBytes _ _ _ wf, if_pos (by omega), Nat.add_sub_cancel_left]

/-- Bytes that hold a number. -/
theorem Holds.readLe {a n v : Nat} (h : m.Holds a (leBytes n v)) : m.readLe a n = v % 2 ^ (8 * n) := by
  have bytes : m.readBytes a n = leBytes n v := by
    refine List.ext_getElem (by rw [readBytes_length, leBytes_length]) fun i hi hj => ?_
    simpa [readBytes_eq, hj] using h i hj
  rw [Memory.readLe, bytes, ofLe_leBytes, pow_256]

end Memory

/-! ### What a strand sees of its own stores (06 R141, 12 R276) -/

theorem laidOver_length (a : Nat) (bs : List Byte) (b : Nat) (cs : List Byte) : (laidOver a bs b cs).length = bs.length := by
  simp [laidOver]

theorem getD_laidOver {a i : Nat} {bs : List Byte} {b : Nat} {cs : List Byte} (hi : i < bs.length) (lo : b ≤ a + i)
    (hc : a + i < b + cs.length) : (laidOver a bs b cs).getD i 0 = cs.getD (a + i - b) 0 := by
  have hc : a + i - b < cs.length := by omega
  simp [laidOver, hi, lo, hc]

/-- Bytes laid over by those that memory holds leave these as they are. -/
theorem Memory.Holds.writeBytes_laidOver {m : Memory} {b : Nat} {cs : List Byte} (h : m.Holds b cs) (wf : m.wf = true) (a : Nat)
    (bs : List Byte) : (m.writeBytes a (laidOver a bs b cs)).Holds b cs := by
  intro i hi
  rw [Memory.read_writeBytes _ _ _ wf, laidOver_length]
  split
  · next within =>
    obtain ⟨k, hk⟩ := Nat.exists_eq_add_of_le within.1
    rw [hk, Nat.add_sub_cancel_left, getD_laidOver (by omega) (by omega) (by omega), ← hk, Nat.add_sub_cancel_left]
  · exact h i hi

/-- A strand sees what it has stored. -/
theorem seenBy_storeBy (t : Tile) (st : StrandId) (a : Nat) (bs : List Byte) (wf : t.spad.wf = true) :
    ((t.storeBy st a bs).seenBy st).Holds a bs := by
  have views (l : List EarlyWord) : ∀ m : Memory, m.wf = true → m.Holds a bs →
      ((l.map fun e => if e.strand = st then e.write a bs else e).foldl
        (fun m e => if e.strand = st then m.writeBytes (8 * e.word) e.view else m) m).Holds a bs := by
    induction l with
    | nil => exact fun m _ h => h
    | cons e l ih =>
      intro m wf h
      rw [List.map_cons, List.foldl_cons]
      by_cases own : e.strand = st
      · rw [if_pos own, if_pos (show (e.write a bs).strand = st from own)]
        exact ih _ (Memory.wf_writeBytes _ _ wf) (h.writeBytes_laidOver wf _ _)
      · rw [if_neg own, if_neg own]
        exact ih m wf h
  exact views t.early _ (Memory.wf_writeBytes a bs wf) (Memory.holds_writeBytes a bs wf)

theorem retire_seen (s : State) : s.retire.seen = s.seen := by simp [State.seen, Tile.seenBy]

theorem storeLocal_seen {s : State} (a : Nat) (bs : List Byte) (wf : s.tile.spad.wf = true) : (s.storeLocal a bs).seen.Holds a bs :=
  seenBy_storeBy s.tile s.cur a bs wf

/-! ### What an access leaves alone -/

@[simp] theorem retire_reg (s : State) (r : SReg) : s.retire.reg r = s.reg r := reg_eq_of_regs (by simp) r

@[simp] theorem retire_vreg (s : State) (r : VReg) : s.retire.vreg r = s.vreg r := by
  simp only [State.vreg, State.retire_tile_v]

@[simp] theorem retire_kreg (s : State) (r : KReg) : s.retire.kreg r = s.kreg r := by
  simp only [State.kreg, State.retire_tile_k]

theorem StoreFrame.refl (s : State) : StoreFrame s s := by simp [StoreFrame, SameVectors, SameContexts, SameSpecial, SameControl]

theorem StoreFrame.storeLocal {s t : State} (h : StoreFrame s t) (a : Nat) (bs : List Byte) : StoreFrame s (t.storeLocal a bs) := by
  obtain ⟨regs, vectors, ctxs, special, mem, acc⟩ := h
  refine ⟨fun r => (reg_eq_of_regs (by simp) r).trans (regs r), vectors, ctxs, ?_, mem, acc⟩
  simpa [SameSpecial, SameControl] using special

theorem StoreFrame.retire {s t : State} (h : StoreFrame s t) : StoreFrame s t.retire := by
  simpa [StoreFrame, SameVectors, SameContexts, SameSpecial, SameControl] using h

theorem vectorFrame_setV (s : State) (d : VReg) (v : VWord) : VectorFrame d s (s.setV d v) := by
  refine ⟨fun r hr => ?_, fun r => rfl, fun r => reg_eq_of_regs (by rw [setV_st]) r, ?_, sameBytes_of_eq rfl rfl rfl⟩
  · rw [setV_vreg, if_neg hr]
  · simp [SameSpecial, SameControl]

theorem VectorFrame.orFlags {d : VReg} {s t : State} (h : VectorFrame d s t) (n : Nat) (f : Flags) : VectorFrame d s (t.orFlags n f) := by
  obtain ⟨v, k, regs, special, bytes⟩ := h
  refine ⟨v, k, fun r => (reg_eq_of_regs (by simp) r).trans (regs r), ?_, bytes⟩
  simpa [SameSpecial, SameControl] using special

theorem VectorFrame.retire {d : VReg} {s t : State} (h : VectorFrame d s t) : VectorFrame d s t.retire := by
  simpa [VectorFrame, SameSpecial, SameControl, SameBytes] using h

end Sys2Proof.Machine
end

section
/-! 06 R131, R140, 16 R350, R361, R362: the checks of a local access, and what stops the scalar loads and stores. -/
namespace Sys2Proof.Machine

/-! ### One access: its check and its words (06 R131, 16 R350) -/

section
variable {s : State} {a : DW} {n : Nat} {wr : Bool}

/-- An access that its check passes goes on. -/
theorem localCheck_passed {α : Type} (ok : LocalOk s a n wr) (f : Unit → Except Stop α) : (s.localCheck a n wr >>= f) = f () := by
  rw [localCheck_ok ok]
  rfl

/-- An access that its check refuses traps, whatever it was to do. -/
theorem finish_refused (bad : ¬ LocalOk s a n wr) (f : Unit → Exec) :
    finish s (s.localCheck a n wr >>= f) = s.takeTrap { cause := localCause a n, addr := a } := by
  rw [localCheck_bad bad]
  rfl

/-- A word of the bytes has an uncorrectable error. -/
theorem wordsBad_yes {a : Nat} (pos : 0 < n) (bad : ¬ Readable s a n) : wordsBad s.tile.spadBad a n = true := by
  simp only [Readable, not_forall] at bad
  obtain ⟨w, hw, meets⟩ := bad
  rw [wordsBad, Bool.and_eq_true, List.any_eq_true]
  refine ⟨by simp; omega, w, hw, ?_⟩
  simp only [wordsBad.overlaps8, Bool.and_eq_true, decide_eq_true_eq]
  omega

theorem loadLocal_readable {α : Type} (good : Readable s a.toNat n) (f : List Byte → Except Stop α) :
    (s.loadLocal a.toNat n >>= f) = f (s.seen.readBytes a.toNat n) := by
  rw [State.loadLocal, wordsBad_no good]
  rfl

theorem finish_unreadable (pos : 0 < n) (bad : ¬ Readable s a.toNat n) (f : List Byte → Exec) :
    finish s (s.loadLocal a.toNat n >>= f) = s.takeTrap { cause := .uncorr, addr := a, localSrc := true } := by
  rw [State.loadLocal, wordsBad_yes pos bad, BitVec.ofNat_toNat, BitVec.setWidth_eq]
  rfl

end

/-! ### The scalar forms (06 R140) -/

/-- The address that an operand of a MEM form names. -/
theorem memAddr_of {s : State} {base : SReg} {k : Nat} {off : BitVec k} {m a : DW} {n : Nat} (hm : SignedImm s off m)
    (ha : a = s.reg base + m * BitVec.ofNat 64 n) : s.memAddr base off n = a :=
  (memAddr_eq hm n).trans ha.symm

section
variable {s : State} {sz : BitVec 2} {d base : SReg} {off : BitVec 11} {m a : DW} {n : Nat} (hm : SignedImm s off m) (hn : n = 2 ^ sz.toNat)
  (ha : a = s.reg base + m * BitVec.ofNat 64 n)
include hm hn ha

theorem scalarLoad_eq {i : Instr} {f : Nat → Nat → DW} (h : Issues i s) : scalarLoad i sz d base off f s = .next (finish s (do
    s.localCheck a n false
    let bs ← s.loadLocal a.toNat n
    .ok (s.setReg d (f n (ofLe bs))))) := by
  rw [scalarLoad, h.run, ← memAddr_of hm ha, hn]

theorem st_eq (h : Issues (.st sz d base off) s) : exec (.st sz d base off) s = .next (finish s (do
    s.localCheck a n true
    .ok (s.storeLocal a.toNat (leBytes n (s.reg d).toNat)))) := by
  rw [exec_st, execSt, h.run, ← memAddr_of hm ha, hn]

theorem stK_eq (h : Issues (.stK sz d base off) s) : exec (.stK sz d base off) s = .next (finish s (do
    s.localCheck a n true
    if 64 ≤ s.stagedCount then s.trapAt .qfault a
    else .ok (s.onAct fun x => { x with staged := x.staged ++ [{ addr := a.toNat, size := n, data := s.reg d }] }))) := by
  rw [exec_stK, execStK, h.run, ← memAddr_of hm ha, hn]

theorem scalarLoad_refused {i : Instr} {f : Nat → Nat → DW} (h : Issues i s) (bad : ¬ LocalOk s a n false) :
    scalarLoad i sz d base off f s = .next (s.takeTrap { cause := localCause a n, addr := a }) := by
  rw [scalarLoad_eq hm hn ha h, finish_refused bad]

theorem scalarLoad_unreadable {i : Instr} {f : Nat → Nat → DW} (h : Issues i s) (ok : LocalOk s a n false) (bad : ¬ Readable s a.toNat n) :
    scalarLoad i sz d base off f s = .next (s.takeTrap { cause := .uncorr, addr := a, localSrc := true }) := by
  rw [scalarLoad_eq hm hn ha h, localCheck_passed ok, finish_unreadable (hn ▸ Nat.two_pow_pos _) bad]

end

theorem ldN_load (sz : BitVec 2) (d base : SReg) (off : BitVec 11) (s : State) :
    exec (.ldN sz d base off) s = scalarLoad (.ldN sz d base off) sz d base off (fun _ v => BitVec.ofNat 64 v) s := rfl

theorem ldI_load {sz : BitVec 2} (narrow : sz ≠ 3) (d base : SReg) (off : BitVec 11) (s : State) : exec (.ldI sz d base off) s =
    scalarLoad (.ldI sz d base off) sz d base off (fun n v => BitVec.ofInt 64 (signed (8 * n) v)) s := by
  rw [exec_ldI, execLdI, if_neg narrow]

theorem ldI_doubleword {d base : SReg} {off : BitVec 11} {s : State} (h : Issues (.ldI 3 d base off) s) :
    exec (.ldI 3 d base off) s = .next (s.takeTrap (raise .ill)) := by
  rw [exec_ldI, execLdI, if_pos rfl]
  exact run_trap h rfl

/-- Settles O13: LocalCheck comes first in every form, then the words that a load consumes; a sign-extending load of 8 bytes is ILL. -/
theorem localAccessTraps : Obligations.LocalAccessTraps := by
  intro s sz d base off m a n hm hn ha
  refine ⟨fun bad => ⟨fun h => ?_, fun h narrow => ?_⟩, fun bad => ⟨fun h => ?_, fun h => ?_⟩,
    fun ok bad => ⟨fun h => ?_, fun h narrow => ?_⟩, ldI_doubleword⟩
  · rw [ldN_load, scalarLoad_refused hm hn ha h bad]
  · rw [ldI_load narrow, scalarLoad_refused hm hn ha h bad]
  · rw [st_eq hm hn ha h, finish_refused bad]
  · rw [stK_eq hm hn ha h, finish_refused bad]
  · rw [ldN_load, scalarLoad_unreadable hm hn ha h ok bad]
  · rw [ldI_load narrow, scalarLoad_unreadable hm hn ha h ok bad]

end Sys2Proof.Machine
end

section
/-! 06 R131, R140-R146, 12 R276: what loads, stores, staged stores, gathers and scatters move, and what they leave alone. -/
namespace Sys2Proof.Machine

/-! ### Scalar forms (06 R140-R142) -/

theorem signed_toInt {w : Nat} (pos : 0 < w) (x : Nat) : signed w x = (BitVec.ofNat w x).toInt := by
  have half : 2 ^ w = 2 * 2 ^ (w - 1) := by rw [← Nat.pow_succ', Nat.succ_eq_add_one, Nat.sub_add_cancel pos]
  rw [BitVec.toInt_eq_toNat_cond, BitVec.toNat_ofNat, signed]
  exact if_congr (by omega) rfl rfl

section
variable {s : State} {sz : BitVec 2} {d base : SReg} {off : BitVec 11} {m a : DW} {n : Nat} (hm : SignedImm s off m) (hn : n = 2 ^ sz.toNat)
  (ha : a = s.reg base + m * BitVec.ofNat 64 n)
include hm hn ha

theorem scalarLoad_loads {i : Instr} {f : Nat → Nat → DW} (h : Issues i s) (ok : LocalOk s a n false) (good : Readable s a.toNat n) :
    ScalarResult (scalarLoad i sz d base off f s) s d (f n (s.seen.readLe a.toNat n)) := by
  refine scalarResult_of_setReg h ?_
  dsimp only
  rw [← hn, memAddr_of hm ha, localCheck_passed ok, loadLocal_readable good]
  rfl

theorem st_stores (h : Issues (.st sz d base off) s) (ok : LocalOk s a n true) :
    exec (.st sz d base off) s = .next (s.storeLocal a.toNat (leBytes n (s.reg d).toNat)).retire := by
  rw [st_eq hm hn ha h, localCheck_passed ok, finish_ok h.budget]

/-- The entry that a staged store appends to the commit buffer. -/
theorem stK_stages {x : Activation} (h : Issues (.stK sz d base off) s) (ok : LocalOk s a n true) (hx : s.tile.act = some x)
    (room : x.staged.length < 64) : exec (.stK sz d base off) s = .next
      (s.onAct fun x => { x with staged := x.staged ++ [{ addr := a.toNat, size := n, data := s.reg d }] }).retire := by
  rw [stK_eq hm hn ha h, localCheck_passed ok, if_neg (by simp [State.stagedCount, hx]; omega), finish_ok h.budget]

theorem stK_full {x : Activation} (h : Issues (.stK sz d base off) s) (ok : LocalOk s a n true) (hx : s.tile.act = some x)
    (full : 64 ≤ x.staged.length) : exec (.stK sz d base off) s = .next (s.takeTrap { cause := .qfault, addr := a }) := by
  rw [stK_eq hm hn ha h, localCheck_passed ok, if_pos (by simpa [State.stagedCount, hx] using full)]
  rfl

end

theorem onAct_retire_act {s : State} {x : Activation} (hx : s.tile.act = some x) (f : Activation → Activation) :
    (s.onAct f).retire.tile.act = some (f x) := by
  simp [State.onAct, hx]

theorem storeFrame_onAct (s : State) (f : Activation → Activation) : StoreFrame s (s.onAct f) := by
  have strand : (s.onAct f).st = s.st := by
    unfold State.st State.cur
    cases e : s.tile.lastIssued <;> simp [State.onAct, Tile.strand, e]
  refine ⟨fun r => reg_eq_of_regs (by rw [strand]) r, ⟨fun r => rfl, fun r => rfl⟩, rfl, ?_, fun r => rfl, fun r => rfl⟩
  simp only [SameSpecial, SameControl, strand]
  simp [State.onAct]

/-! ### Stores of several elements (06 R145, R146) -/

/-- Values of n bytes are stored one after another, each at its own address. -/
def State.storeEach (s : State) (addr : Nat → Nat) (n : Nat) (val : Nat → Nat) (es : List Nat) : State :=
  es.foldl (fun t e => t.storeLocal (addr e) (leBytes n (val e))) s

section
variable {addr val : Nat → Nat} {n : Nat} {es : List Nat}

theorem StoreFrame.storeEach {s t : State} (h : StoreFrame s t) : StoreFrame s (t.storeEach addr n val es) := by
  induction es generalizing t with
  | nil => exact h
  | cons e es ih => exact ih (h.storeLocal _ _)

theorem read_storeLocal {s : State} (wf : s.tile.spad.wf = true) {a v b : Nat} (apart : b < a ∨ a + n ≤ b) :
    (s.storeLocal a (leBytes n v)).tile.spad.read b = s.tile.spad.read b := by
  rw [storeLocal_spad, Memory.read_writeBytes _ _ _ wf, if_neg (by rw [leBytes_length]; omega)]

/-- A byte that no element holds stays. -/
theorem read_storeEach {s : State} (wf : s.tile.spad.wf = true) {b : Nat} (apart : ∀ e ∈ es, b < addr e ∨ addr e + n ≤ b) :
    (s.storeEach addr n val es).tile.spad.read b = s.tile.spad.read b := by
  induction es generalizing s with
  | nil => rfl
  | cons e es ih =>
    refine (ih (Memory.wf_writeBytes _ _ wf) fun f hf => apart f (List.mem_cons_of_mem e hf)).trans ?_
    exact read_storeLocal wf (apart e List.mem_cons_self)

theorem readLe_storeEach_apart {s : State} (wf : s.tile.spad.wf = true) {b : Nat} (apart : ∀ e ∈ es, b + n ≤ addr e ∨ addr e + n ≤ b) :
    (s.storeEach addr n val es).tile.spad.readLe b n = s.tile.spad.readLe b n :=
  Memory.readLe_congr fun j hj => read_storeEach wf fun e he => by have := apart e he; omega

/-- An element that no later one meets is what memory holds at its address. -/
theorem readLe_storeEach {s : State} (wf : s.tile.spad.wf = true) (rising : es.Pairwise (· < ·)) {e : Nat} (he : e ∈ es)
    (later : ∀ f ∈ es, e < f → addr e + n ≤ addr f ∨ addr f + n ≤ addr e) :
    (s.storeEach addr n val es).tile.spad.readLe (addr e) n = val e % 2 ^ (8 * n) := by
  induction es generalizing s with
  | nil => cases he
  | cons x es ih =>
    obtain ⟨first, rising⟩ := List.pairwise_cons.1 rising
    have wf' : (s.storeLocal (addr x) (leBytes n (val x))).tile.spad.wf = true := Memory.wf_writeBytes _ _ wf
    obtain rfl | he := List.mem_cons.1 he
    · refine (readLe_storeEach_apart wf' fun f hf => later f (List.mem_cons_of_mem e hf) (first f hf)).trans ?_
      exact (Memory.holds_writeBytes _ _ wf).readLe
    · exact ih wf' rising he fun f hf => later f (List.mem_cons_of_mem x hf)

/-- What the elements that a mask selects, stored one after another, leave: each is there unless a later one meets it. -/
theorem stored_elements {s : State} (wf : s.tile.spad.wf = true) {c : Nat} {p : Nat → Bool} {t : State}
    (ht : t = (s.storeEach addr n val ((List.range c).filter p)).retire) :
    (∀ e, e < c → p e = true → (∀ f, e < f → f < c → p f = true → addr e + n ≤ addr f ∨ addr f + n ≤ addr e) →
      t.tile.spad.readLe (addr e) n = val e % 2 ^ (8 * n)) ∧
    (∀ b, (∀ e, e < c → p e = true → b < addr e ∨ addr e + n ≤ b) → t.tile.spad.read b = s.tile.spad.read b) ∧ StoreFrame s t := by
  subst ht
  rw [State.retire_tile_spad]
  have selected {e : Nat} : e ∈ (List.range c).filter p ↔ e < c ∧ p e = true := by rw [List.mem_filter, List.mem_range]
  refine ⟨fun e he on later => ?_, fun b apart => ?_, (StoreFrame.refl s).storeEach.retire⟩
  · refine readLe_storeEach wf (List.pairwise_lt_range.filter _) (selected.2 ⟨he, on⟩) fun f hf lt => ?_
    exact later f lt (selected.1 hf).1 (selected.1 hf).2
  · exact read_storeEach wf fun e he => apart e (selected.1 he).1 (selected.1 he).2

end

/-! ### Vector forms (06 R144, R145) -/

/-- The mask bit of an element of 4 or 8 bytes is its own. -/
theorem maskBit_own {n : Nat} (hn : n = 4 ∨ n = 8) (k : BitVec 32) {e : Nat} (he : e < 128 / n) : maskBit (8 * n) k e = k.getLsbD e := by
  obtain rfl | rfl := hn
  · simp [maskBit]
  · simp [maskBit]
    omega

theorem filter_maskBit {n : Nat} (hn : n = 4 ∨ n = 8) (k : BitVec 32) :
    (List.range (128 / n)).filter (maskBit (8 * n) k) = (List.range (128 / n)).filter k.getLsbD :=
  List.filter_congr fun _ he => maskBit_own hn k (List.mem_range.1 he)

section
variable {s : State} {d : VReg} {base : SReg} {k : KReg} {m a : DW} (ha : a = s.reg base + m * 128)
include ha

theorem vld_loads {off : BitVec 11} (hm : SignedImm s off m) (h : Issues (.vld d base off) s) (ok : LocalOk s a 128 false)
    (good : Readable s a.toNat 128) :
    exec (.vld d base off) s = .next (s.setV d (BitVec.ofNat 1024 (s.seen.readLe a.toNat 128))).retire := by
  rw [exec_vld, execVld]
  refine run_ok h ?_
  dsimp only
  rw [memAddr_of hm ha, localCheck_passed ok, loadLocal_readable good]
  rfl

theorem vldM_loads {off : BitVec 8} (hm : SignedImm s off m) (h : Issues (.vldM d base off k) s) (ok : LocalOk s a 128 false)
    (good : Readable s a.toNat 128) : exec (.vldM d base off k) s = .next
      (s.setV d (vMasked 32 (s.kreg k) (s.vreg d) (vElem 32 (BitVec.ofNat 1024 (s.seen.readLe a.toNat 128))))).retire := by
  rw [exec_vldM, execVldM]
  refine run_ok h ?_
  dsimp only
  rw [memAddr_of hm ha, localCheck_passed ok, loadLocal_readable good]
  rfl

theorem vst_stores {off : BitVec 11} (hm : SignedImm s off m) (h : Issues (.vst d base off) s) (ok : LocalOk s a 128 true) :
    exec (.vst d base off) s = .next (s.storeLocal a.toNat (leBytes 128 (s.vreg d).toNat)).retire := by
  rw [exec_vst, execVst]
  refine run_ok h ?_
  dsimp only
  rw [memAddr_of hm ha, localCheck_passed ok]
  rfl

theorem vstM_stores {off : BitVec 8} (hm : SignedImm s off m) (h : Issues (.vstM d base off k) s) (ok : LocalOk s a 128 true) :
    exec (.vstM d base off k) s = .next (s.storeEach (fun e => a.toNat + 4 * e) 4 (vElem 32 (s.vreg d))
      ((List.range 32).filter (s.kreg k).getLsbD)).retire := by
  rw [exec_vstM, execVstM]
  refine run_ok h ?_
  dsimp only
  rw [memAddr_of hm ha, localCheck_passed ok, ← filter_maskBit (n := 4) (.inl rfl), State.storeEach, List.foldl_filter]

end

theorem vElem_readLe (m : Memory) (a : Nat) {e : Nat} (he : e < 32) :
    vElem 32 (BitVec.ofNat 1024 (m.readLe a 128)) e = m.readLe (a + 4 * e) 4 := by
  have small := m.readLe_lt a 128
  have part := m.bitsOf_readLe a (show 4 * e + 4 ≤ 128 by omega)
  rw [show 8 * 128 = 1024 from rfl] at small
  rw [show 8 * (4 * e) = 32 * e by omega] at part
  rw [vElem, BitVec.toNat_ofNat, Nat.mod_eq_of_lt small, part]

/-! ### Gathers and scatters (06 R146) -/

section
variable {s : State} {n : Nat} {i : Instr} {d : VReg} {base : SReg} {idx : VReg} {k : KReg} {sc : BitVec 3}

theorem gatherCheck_passed {wr : Bool} {es : List Nat}
    (ok : ∀ e ∈ es, maskBit (8 * n) (s.kreg k) e = true → LocalOk s (s.gatherAddr base idx sc e) n wr) :
    s.gatherCheck base idx k sc n wr es = .ok () := by
  induction es with
  | nil => rfl
  | cons e es ih =>
    have rest := ih fun f hf => ok f (List.mem_cons_of_mem e hf)
    rw [State.gatherCheck, rest]
    split
    · next active => rw [localCheck_ok (ok e List.mem_cons_self active)]
    · rfl

variable (hn : n = 4 ∨ n = 8) (h : Issues i s)
include hn h

theorem gather_loads (ok : ∀ e, e < 128 / n → (s.kreg k).getLsbD e = true →
      LocalOk s (s.gatherAddr base idx sc e) n false ∧ Readable s (s.gatherAddr base idx sc e).toNat n) :
    gather i n d base idx k sc s = .next (s.setV d (vMasked (8 * n) (s.kreg k) (s.vreg d) fun e =>
      s.seen.readLe (s.gatherAddr base idx sc e).toNat n)).retire := by
  have sound : ((List.range (128 / n)).filter (s.kreg k).getLsbD).find?
      (fun e => wordsBad s.tile.spadBad (s.gatherAddr base idx sc e).toNat n) = none := by
    refine List.find?_eq_none.2 fun e he => ?_
    obtain ⟨he, active⟩ := List.mem_filter.1 he
    simp [wordsBad_no (ok e (List.mem_range.1 he) active).2]
  refine run_ok h ?_
  dsimp only
  rw [filter_maskBit hn, sound, gatherCheck_passed fun e he active => ?_]
  · rfl
  · have he := List.mem_range.1 he
    exact (ok e he (maskBit_own hn _ he ▸ active)).1

theorem scatter_stores (ok : ∀ e, e < 128 / n → (s.kreg k).getLsbD e = true → LocalOk s (s.gatherAddr base idx sc e) n true) :
    scatter i n d base idx k sc s = .next (s.storeEach (fun e => (s.gatherAddr base idx sc e).toNat) n (vElem (8 * n) (s.vreg d))
      ((List.range (128 / n)).filter (s.kreg k).getLsbD)).retire := by
  refine run_ok h ?_
  rw [filter_maskBit hn, gatherCheck_passed fun e he active => ?_]
  · rfl
  · have he := List.mem_range.1 he
    exact ok e he (maskBit_own hn _ he ▸ active)

end

/-- Two accesses at different multiples of their size do not meet. -/
theorem aligned_apart {x y n : Nat} (hx : x % n = 0) (hy : y % n = 0) (ne : x ≠ y) : x + n ≤ y ∨ y + n ≤ x := by
  obtain ⟨p, rfl⟩ := Nat.dvd_of_mod_eq_zero hx
  obtain ⟨q, rfl⟩ := Nat.dvd_of_mod_eq_zero hy
  obtain lt | rfl | lt := lt_trichotomy p q
  · exact .inl (Nat.mul_le_mul_left n lt)
  · exact absurd rfl ne
  · exact .inr (Nat.mul_le_mul_left n lt)

/-! ### The obligation -/

/-- What a store of one number leaves. -/
theorem stored_number {s : State} (wf : s.tile.spad.wf = true) {a n v : Nat} {t : State} (ht : t = (s.storeLocal a (leBytes n v)).retire) :
    t.tile.spad.readLe a n = v % 2 ^ (8 * n) ∧ t.seen.readLe a n = v % 2 ^ (8 * n) ∧
    (∀ b, b < a ∨ a + n ≤ b → t.tile.spad.read b = s.tile.spad.read b) ∧ StoreFrame s t := by
  subst ht
  rw [retire_seen, State.retire_tile_spad]
  exact ⟨(Memory.holds_writeBytes _ _ wf).readLe, (storeLocal_seen _ _ wf).readLe, fun b => read_storeLocal wf,
    ((StoreFrame.refl s).storeLocal _ _).retire⟩

/-- What a load of a vector register leaves. -/
theorem loaded_vector {s : State} {d : VReg} {v : VWord} {t : State} (ht : t = (s.setV d v).retire) :
    t.vreg d = v ∧ SameContexts s t ∧ VectorFrame d s t := by
  subst ht
  refine ⟨?_, State.retire_tile_ctxs _, (vectorFrame_setV s d v).retire⟩
  rw [retire_vreg, setV_vreg, if_pos rfl]

/-- Settles O14: each form's state after it, read off by the laws of reading after writing. -/
theorem loadsAndStores : Obligations.LoadsAndStores := by
  refine ⟨?scalar, ?vector, ?gathers⟩
  case scalar =>
    intro s sz d base off m a n hm hn ha
    refine ⟨fun ok good => ⟨fun h => ?_, fun h narrow => ?_⟩, fun quiet => ?_,
      fun ok wf => ⟨fun h => ?_, fun h x hx => ⟨fun room => ?_, ?_⟩⟩⟩
    · rw [ldN_load]
      exact scalarLoad_loads hm hn ha h ok good
    · rw [ldI_load narrow, BitVec.signExtend, ← signed_toInt (Nat.mul_pos (by decide) (hn ▸ Nat.two_pow_pos _))]
      exact scalarLoad_loads hm hn ha h ok good
    · rw [State.seen, Tile.seenBy, quiet]
      rfl
    · rw [pow_256]
      exact ⟨_, st_stores hm hn ha h ok, stored_number wf rfl⟩
    · obtain ⟨regs, vectors, ctxs, special, mem, acc⟩ := (storeFrame_onAct s fun x =>
        { x with staged := x.staged ++ [{ addr := a.toNat, size := n, data := s.reg d }] }).retire
      exact ⟨_, stK_stages hm hn ha h ok hx room, onAct_retire_act hx _, ⟨mem, fun b => by rw [State.retire_tile_spad]; rfl, acc⟩,
        regs, vectors, ctxs, special⟩
    · exact stK_full hm hn ha h ok hx
  case vector =>
    intro s d base off off8 k m m8 a am ha ham wf
    refine ⟨fun hm h ok good => ?_, fun hm h ok good => ?_, fun hm h ok => ?_, fun hm h ok => ?_⟩
    · exact ⟨_, vld_loads ha hm h ok good, loaded_vector rfl⟩
    · obtain ⟨value, frame⟩ := loaded_vector rfl
      refine ⟨_, vldM_loads ham hm h ok good, fun e he => ?_, frame⟩
      rw [value, vElem_vMasked _ _ _ _ _ he, Nat.mod_eq_of_lt (vElem_lt _ _ _), vElem_readLe _ _ he, maskBit_own (n := 4) (.inl rfl) _ he]
    · obtain ⟨value, -, frame⟩ := stored_number wf rfl
      refine ⟨_, vst_stores ha hm h ok, ?_, frame⟩
      rw [value, show 8 * 128 = 1024 from rfl, Nat.mod_eq_of_lt (s.vreg d).isLt]
    · obtain ⟨value, stays, frame⟩ := stored_elements wf rfl
      refine ⟨_, vstM_stores ham hm h ok, fun e he => ?_, fun b apart => stays b fun e he _ => by omega, frame⟩
      split
      · next active => exact (value e he active fun f lt _ _ => by omega).trans (Nat.mod_eq_of_lt (vElem_lt _ _ _))
      · next idle =>
        refine Memory.readLe_congr fun j hj => stays _ fun f _ active => ?_
        have ne : f ≠ e := fun same => idle (same ▸ active)
        omega
  case gathers =>
    intro s n i d base idx k sc adr hadr h wf
    obtain rfl : adr = s.gatherAddr base idx sc := funext hadr
    refine ⟨fun form ok => ?_, fun form ok => ?_⟩
    · have size : n = 4 ∨ n = 8 := form.imp And.left And.left
      have exec_i : exec i s = gather i n d base idx k sc s := by obtain ⟨rfl, rfl⟩ | ⟨rfl, rfl⟩ := form <;> rfl
      obtain ⟨value, frame⟩ := loaded_vector rfl
      refine ⟨_, exec_i.trans (gather_loads size h ok), fun e he => ?_, frame⟩
      rw [value, vElem_vMasked _ _ _ _ _ (by obtain rfl | rfl := size <;> exact he), maskBit_own size _ he,
        Nat.mod_eq_of_lt (Memory.readLe_lt _ _ _)]
    · have size : n = 4 ∨ n = 8 := form.imp And.left And.left
      have exec_i : exec i s = scatter i n d base idx k sc s := by obtain ⟨rfl, rfl⟩ | ⟨rfl, rfl⟩ := form <;> rfl
      obtain ⟨value, stays⟩ := stored_elements wf rfl
      refine ⟨_, exec_i.trans (scatter_stores size h ok), fun e he on last => ?_, stays⟩
      refine (value e he on fun f lt hf fon => ?_).trans (Nat.mod_eq_of_lt (vElem_lt _ _ _))
      exact aligned_apart (ok e he on).1 (ok f hf fon).1 fun same => last f lt hf fon (BitVec.eq_of_toNat_eq same.symm)

end Sys2Proof.Machine
end

section
/-! 06 R136, R147, 16 R350: the sources of decoded loads, their values and their traps. -/
namespace Sys2Proof.Machine

/-! ### Codes in planes (06 R136) -/

theorem bitOf_testBit (x i : Nat) : bitOf x i = x.testBit i := by
  rw [Nat.testBit_eq_decide_div_mod_eq, bitOf, beq_eq_decide]

/-- A number is the code of a column when its bits, highest first, are those of the column in each plane. -/
theorem codeOfPlanes_of_bits {ws : List Nat} {c code : Nat} (small : code < 2 ^ ws.length)
    (bits : ∀ j, j < ws.length → code.testBit (ws.length - 1 - j) = (ws.getD j 0).testBit c) : codeOfPlanes ws c = code := by
  induction ws using List.reverseRecOn generalizing code with
  | nil => exact (Nat.lt_one_iff.1 small).symm
  | append_singleton ws w ih =>
    rw [List.length_append, List.length_singleton] at small bits
    have low : code.testBit 0 = w.testBit c := by simpa using bits ws.length (by omega)
    have high : codeOfPlanes ws c = code / 2 := by
      refine ih (by omega) fun j hj => ?_
      rw [Nat.testBit_div_two, show ws.length - 1 - j + 1 = ws.length + 1 - 1 - j by omega, bits j (by omega),
        List.getD_append _ _ _ _ hj]
    rw [codeOfPlanes] at high ⊢
    rw [List.foldl_append, high, List.foldl_cons, List.foldl_nil, bitOf_testBit, ← low, Nat.testBit_zero]
    simp only [decide_eq_true_eq]
    split <;> omega

theorem codeOfPlanes_planeRow {m : Memory} {fmt bank slot row c code : Nat} (small : code < 2 ^ bankWidth fmt)
    (bits : ∀ j, j < bankWidth fmt → code.testBit (bankWidth fmt - 1 - j) = (m.readLe (planeWord fmt bank slot j row) 4).testBit c) :
    codeOfPlanes (m.planeRow fmt bank slot row) c = code := by
  have planes : (m.planeRow fmt bank slot row).length = bankWidth fmt := by rw [Memory.planeRow, List.length_map, List.length_range]
  refine codeOfPlanes_of_bits (by rwa [planes]) fun j hj => ?_
  rw [planes] at hj ⊢
  rw [bits j hj]
  simp [Memory.planeRow, hj]

/-! ### Sources (06 R147) -/

theorem bankWidth_pos {fmt : Nat} (h : fmt < 16) : 0 < bankWidth fmt := by
  interval_cases fmt <;> decide

section
variable {t : Tile} {a cnt fmt bw : Nat} (hfmt : fmt = bankFmt (t.bank (bankOf a))) (hbw : bw = bankWidth fmt)
include hfmt hbw

/-- The source in a linear bank, or what stops the load there. -/
theorem decodeSrc_linear (linear : bankPlane (t.bank (bankOf a)) = false) {len : Nat} (hlen : len = (bw * cnt + 7) / 8) :
    t.decodeSrc a cnt = if isSquareFmt fmt = true then .error .bankfmt
      else if a % 65536 % ((bw + 7) / 8) ≠ 0 then .error .align
      else if 65536 < a % 65536 + len then .error .bankfmt
      else .ok { ranges := [(a, len)], codes := codesOfBytes bw cnt (t.readSpad a len), header := 0, row := 0, col := 0 } := by
  subst hlen hbw hfmt
  rw [Tile.decodeSrc, linear]
  rfl

/-- The source in a plane-major bank, or what stops the load there. -/
theorem decodeSrc_plane (plane : bankPlane (t.bank (bankOf a)) = true) {slot row h : Nat} (hslot : slot = a % 65536 / (128 * bw))
    (hrow : row = a % 65536 % (128 * bw) / 4) (hh : h = a % 65536 % 4 / 2) :
    t.decodeSrc a cnt = if 32 ≤ row ∨ a % 65536 % 2 ≠ 0 ∨ (cnt = 32 ∧ h ≠ 0) then .error .align
      else if slotCount fmt ≤ slot then .error .prot
      else .ok { ranges := (List.range bw).map (fun j => (planeWord fmt (bankOf a) slot j row + 2 * h, cnt / 8)) ++
                   (if fmt = 13 ∨ fmt = 14 then [(sideAddr fmt (bankOf a) slot, 64)] else [])
                 codes := (List.range cnt).map fun c => codeOfPlanes (t.spad.planeRow fmt (bankOf a) slot row) (16 * h + c)
                 header := if fmt = 13 ∨ fmt = 14 then t.spad.readLe (sideAddr fmt (bankOf a) slot) 64 else 0
                 row := row, col := 16 * h } := by
  have four : a % 65536 % (128 * bw) % 4 = a % 65536 % 4 := Nat.mod_mod_of_dvd _ ⟨32 * bw, by omega⟩
  have two : a % 65536 % (128 * bw) % 2 = a % 65536 % 2 := Nat.mod_mod_of_dvd _ ⟨64 * bw, by omega⟩
  subst hslot hrow hh hbw hfmt
  rw [Tile.decodeSrc, plane]
  simp only [Bool.not_true, Bool.false_eq_true, if_false, slotBytes, four, two]

end

/-! ### The load (06 R147) -/

/-- The square formats that have a plane-major layout have a header (06 R136). -/
theorem headed_of_square {fmt : Nat} (square : isSquareFmt fmt = true) (aic : fmt ≠ 15) : fmt = 13 ∨ fmt = 14 := by
  simp only [isSquareFmt, Bool.and_eq_true, decide_eq_true_eq] at square
  omega

/-- The places of a slot that are no row or half row, by the width of the elements. -/
theorem misplaced_iff {w o row h : Nat} (wide : w = 32 ∨ w = 64) (hh : h = o % 4 / 2) :
    32 ≤ row ∨ o % 2 ≠ 0 ∨ (1024 / w = 32 ∧ h ≠ 0) ↔ 32 ≤ row ∨ o % 2 = 1 ∨ (w = 32 ∧ h = 1) := by
  obtain rfl | rfl := wide <;> omega

/-- The tile as the loads of the issuing strand see it. -/
def State.seenTile (s : State) : Tile := { s.tile with spad := s.seen }

/-- What a decoded load gives for a code at a place of its source. -/
def DecodeSrc.value (x : DecodeSrc) (fmt g e code : Nat) : Nat × Flags :=
  if isSquareFmt fmt = true then cvtFromVal (squareValue fmt x.header x.row (x.col + e) code) g .near else cvtElem fmt g .near code

section
variable {s : State} {i : Instr} {g w : Nat} {d : VReg} {base : SReg} {off : BitVec 11} {m a : DW} (hm : SignedImm s off m)
  (ha : a = s.reg base + m)

include hm ha in
theorem memAddr_byte : s.memAddr base off 1 = a := memAddr_of hm (ha.trans (congrArg (s.reg base + ·) (BitVec.mul_one m).symm))

variable (h : Issues i s) (ok : LocalOk s a 1 false)
include hm ha h ok

theorem decodedLoad_stopped {c : Cause} (src : s.seenTile.decodeSrc a.toNat (1024 / w) = .error c) :
    decodedLoad i g w d base off s = .next (s.takeTrap { cause := c, addr := a }) := by
  refine run_trap h ?_
  dsimp only
  rw [memAddr_byte hm ha, localCheck_passed ok, ← State.seenTile, src]
  rfl

theorem decodedLoad_unreadable {x : DecodeSrc} (src : s.seenTile.decodeSrc a.toNat (1024 / w) = .ok x)
    {b n : Nat} (hr : (b, n) ∈ x.ranges) (pos : 0 < n) (bad : ¬ Readable s b n) :
    decodedLoad i g w d base off s = .next (s.takeTrap { cause := .uncorr, addr := a, localSrc := true }) := by
  refine run_trap h ?_
  dsimp only
  rw [memAddr_byte hm ha, localCheck_passed ok, ← State.seenTile, src]
  dsimp only
  rw [if_pos (List.any_eq_true.2 ⟨(b, n), hr, wordsBad_yes pos bad⟩)]

theorem decodedLoad_decodes {x : DecodeSrc} (src : s.seenTile.decodeSrc a.toNat (1024 / w) = .ok x)
    (good : ∀ r ∈ x.ranges, Readable s r.1 r.2) {fmt : Nat} (hfmt : fmt = bankFmt (s.tile.bank (bankOf a.toNat))) {code : Nat → Nat}
    (codes : x.codes = (List.range (1024 / w)).map code) {f : Nat → Nat × Flags} (hf : ∀ e, f e = x.value fmt g e (code e)) :
    decodedLoad i g w d base off s = .next ((s.setV d (vBuild w (1024 / w) fun e => (f e).1)).orFlags 6
      ((List.range (1024 / w)).foldl (fun y e => y ||| (f e).2) 0)).retire := by
  have sound : (x.ranges.any fun r => wordsBad s.tile.spadBad r.1 r.2) = false :=
    List.any_eq_false.2 fun r hr => by rw [wordsBad_no (good r hr)]; decide
  have values : (x.codes.zipIdx.map fun p => x.value fmt g p.2 p.1) = (List.range (1024 / w)).map f := by
    refine List.ext_getElem (by simp [codes]) fun e _ _ => ?_
    simp [codes, hf]
  refine run_ok h ?_
  dsimp only
  rw [memAddr_byte hm ha, localCheck_passed ok, ← State.seenTile, src]
  dsimp only
  rw [if_neg (by rw [sound]; decide), ← hfmt]
  change Except.ok ((s.setV d (BitVec.ofNat 1024 (packList w ((x.codes.zipIdx.map fun p => x.value fmt g p.2 p.1).map Prod.fst)))).orFlags 6
    ((x.codes.zipIdx.map fun p => x.value fmt g p.2 p.1).foldl (fun f r => f ||| r.2) 0)) = _
  rw [values, List.map_map, List.foldl_map]
  rfl

end

@[simp] theorem orFlags_vreg (s : State) (n : Nat) (f : Flags) (r : VReg) : (s.orFlags n f).vreg r = s.vreg r := rfl

/-- What a decoded load of readable words leaves. -/
theorem decoded_result {s : State} {w : Nat} {d : VReg} {f : Nat → Nat × Flags} {fl : Flags} {t : State}
    (ht : t = ((s.setV d (vBuild w (1024 / w) fun e => (f e).1)).orFlags 6 fl).retire) :
    (∀ e, e < 1024 / w → vElem w (t.vreg d) e = (f e).1 % 2 ^ w) ∧ OnlyFlags fl s t ∧ VectorFrame d s t := by
  subst ht
  refine ⟨fun e he => ?_, ⟨6, ?_⟩, ((vectorFrame_setV s d _).orFlags _ _).retire⟩
  · rw [retire_vreg, orFlags_vreg, setV_vreg, if_pos rfl, vElem_vBuild _ _ _ _ (Nat.mul_div_le 1024 w) he]
  · rw [State.retire_tile_ctxs, State.orFlags, State.onCx, setV_st]
    rfl

/-- Settles O15: what stops the load in a linear and in a plane-major bank, in the order of the checks, and the values of a source that is
readable. -/
theorem decodedLoads : Obligations.DecodedLoads := by
  intro s i g w cnt fmt bw bank o len d base off m a done hm ha h ok hbank ho hfmt hbw hcnt hlen form hdone
  obtain rfl : bank = bankOf a.toNat := by
    have := ok.2.1
    rw [bankOf]
    omega
  subst ho hcnt
  have load : exec i s = decodedLoad i g w d base off s := by obtain ⟨rfl, rfl, rfl⟩ | ⟨rfl, rfl, rfl⟩ := form <;> rfl
  have wide : w = 32 ∨ w = 64 := form.imp (fun f => f.2.1) fun f => f.2.1
  rw [load] at hdone ⊢
  refine ⟨fun linear => ?linear, fun plane aic slot row col hslot hrow hcol => ?plane⟩
  case linear =>
    have src := decodeSrc_linear (t := s.seenTile) (cnt := 1024 / w) hfmt hbw linear hlen
    refine ⟨fun square => ?_, fun square between => ?_, fun square start past => ?_,
      fun square start within => ⟨fun bad => ?_, fun good => ?_⟩⟩
    · exact decodedLoad_stopped hm ha h ok (src.trans (if_pos square))
    · exact decodedLoad_stopped hm ha h ok (by rw [src, square, if_neg (by decide), if_pos between])
    · exact decodedLoad_stopped hm ha h ok (by rw [src, square, if_neg (by decide), if_neg (not_not.2 start), if_pos past])
    all_goals rw [square, if_neg (by decide), if_neg (not_not.2 start), if_neg (Nat.not_lt.2 within)] at src
    · have pos : 0 < len := by
        have := Nat.mul_pos (hbw ▸ hfmt ▸ bankWidth_pos (bankFmt_lt _) : 0 < bw) (show 0 < 1024 / w by obtain rfl | rfl := wide <;> decide)
        omega
      exact decodedLoad_unreadable hm ha h ok src (List.mem_singleton_self _) pos bad
    · refine (hdone _).2 ⟨_, decodedLoad_decodes hm ha h ok src (fun r hr => ?_) hfmt rfl fun e => ?_, decoded_result rfl⟩
      · rwa [List.mem_singleton.1 hr]
      · rw [DecodeSrc.value, square, if_neg (by decide)]
        rfl
  case plane =>
    have src := decodeSrc_plane (t := s.seenTile) (cnt := 1024 / w) hfmt hbw plane hslot hrow hcol
    have place := misplaced_iff (row := row) wide hcol
    refine ⟨fun misplaced => ?_, fun rows even half beyond => ?_, fun rows even half inside => ⟨?_, ?_⟩⟩
    · exact decodedLoad_stopped hm ha h ok (src.trans (if_pos (place.2 misplaced)))
    all_goals rw [if_neg (by rw [place]; omega)] at src
    · exact decodedLoad_stopped hm ha h ok (src.trans (if_pos beyond))
    all_goals
      rw [if_neg (Nat.not_le.2 inside)] at src
      subst hbw
    · have half : 0 < 1024 / w / 8 := by obtain rfl | rfl := wide <;> decide
      rintro (⟨j, hj, bad⟩ | ⟨square, bad⟩)
      · exact decodedLoad_unreadable hm ha h ok src (List.mem_append_left _ (List.mem_map_of_mem (List.mem_range.2 hj))) half bad
      · exact decodedLoad_unreadable hm ha h ok src (List.mem_append_right _ (by rw [if_pos square]; exact List.mem_singleton_self _))
          (by decide) bad
    · intro good side code bits
      refine (hdone _).2 ⟨_, decodedLoad_decodes hm ha h ok src (fun r hr => ?_) hfmt (code := code) ?_ fun e => ?_, decoded_result rfl⟩
      · obtain hr | hr := List.mem_append.1 hr
        · obtain ⟨j, hj, rfl⟩ := List.mem_map.1 hr
          exact good j (List.mem_range.1 hj)
        · split at hr
          · next square => exact List.mem_singleton.1 hr ▸ side square
          · cases hr
      · refine List.map_congr_left fun e he => ?_
        obtain ⟨small, planes⟩ := bits e (List.mem_range.1 he)
        exact codeOfPlanes_planeRow small planes
      · by_cases square : isSquareFmt fmt = true
        · simp only [DecodeSrc.value, if_pos square, if_pos (headed_of_square square aic), State.seenTile]
        · simp only [DecodeSrc.value, if_neg square]

end Sys2Proof.Machine
end

section
/-! 08 R178-R184: masked operations on vector registers, and the integer and floating-point arithmetic. -/
namespace Sys2Proof.Machine

/-! ### What a masked operation leaves (08 R178, R180) -/

/-- Flags that a test turns off for some elements are the flags of the others. -/
theorem foldl_flags_filter (p : Nat → Bool) (f : Nat → Flags) (l : List Nat) :
    l.foldl (fun x e => x ||| if p e then f e else 0) 0 = (l.filter p).foldl (fun x e => x ||| f e) 0 := by
  rw [List.foldl_filter]
  congr
  funext x e
  split
  · rfl
  · exact BitVec.or_zero

/-- A masked operation writes one register and raises the flags of its active elements. -/
theorem vApply_eq (s : State) (n w : Nat) (d : VReg) (k : KReg) (f : Nat → Nat × Flags) : s.vApply n w d k f =
    (s.setV d (vMasked w (s.kreg k) (s.vreg d) fun e => (f e).1)).orFlags n (activeFlags s w k fun e => (f e).2) := by
  rw [State.vApply, List.foldl_map, List.map_map, activeFlags, ← foldl_flags_filter]
  simp only [Function.comp_def, apply_ite Prod.fst, apply_ite Prod.snd]
  rfl

theorem OnlyFlags.of_orFlags {s u : State} (hctx : u.st.ctx = s.st.ctx) (hctxs : u.tile.ctxs = s.tile.ctxs) (n : Nat) (f : Flags) :
    OnlyFlags f s (u.orFlags n f) :=
  ⟨n, by simp only [State.orFlags, State.onCx, onTile_tile, Tile.modCtx, hctx, hctxs]⟩

theorem OnlyFlags.retire {f : Flags} {s t : State} (h : OnlyFlags f s t) : OnlyFlags f s t.retire := by
  simpa only [OnlyFlags, State.retire_tile_ctxs] using h

/-- An operation that raises no flag leaves the contexts as they are. -/
theorem OnlyFlags.sameContexts {s t : State} (h : OnlyFlags 0 s t) : SameContexts s t := by
  obtain ⟨n, h⟩ := h
  rw [SameContexts, h]
  simp only [if_true]
  exact Vector.set_getElem_self _

theorem activeFlags_zero (s : State) (w : Nat) (k : KReg) : activeFlags s w k (fun _ => 0) = 0 := by
  rw [activeFlags]
  induction (List.range (1024 / w)).filter fun e => maskBit w (s.kreg k) e with
  | nil => rfl
  | cons e es ih => exact ih

/-- A word whose body is a masked operation. -/
theorem vectorResult_of_vApply {i : Instr} {s : State} {n w : Nat} {d : VReg} {k : KReg} {f : Nat → Nat × Flags} {body : State → Exec}
    (h : Issues i s) (hb : body s = .ok (s.vApply n w d k f)) : VectorResult (run i s body) s w d k f := by
  refine ⟨_, run_ok h hb, ?_, ?_, fun e he => ?_⟩
  · rw [vApply_eq]
    exact ((vectorFrame_setV s d _).orFlags _ _).retire
  · rw [vApply_eq]
    exact (OnlyFlags.of_orFlags (by rw [setV_st]) rfl _ _).retire
  · rw [retire_vreg, vApply_elem _ _ _ _ _ _ _ he]

/-! ### Floating-point arithmetic (08 R182, R183) -/

section
variable {s : State} {ty : BitVec 1} {d a b : VReg} {k : KReg} {g : Fmt} {w : Nat}
  (hg : g = if ty = 0 then fp32 else fp64) (hw : w = if ty = 0 then 32 else 64)
include hg hw

theorem fpTy_sizes : fpTy ty = g ∧ g.width = w ∧ g.x + g.y = w - 1 := by
  subst hg hw
  rw [fpTy]
  split <;> exact ⟨rfl, rfl, rfl⟩

theorem fpOp_result {i : Instr} {f : Fmt → RMode → Nat → Nat → Nat → Nat × Flags} {v : Nat → Nat × Flags} (h : Issues i s)
    (hv : ∀ e, v e = f g s.rm (vElem w (s.vreg a) e) (vElem w (s.vreg b) e) (vElem w (s.vreg d) e)) :
    VectorResult (fpOp i ty d a b k f s) s w d k v := by
  obtain ⟨rfl, rfl, -⟩ := fpTy_sizes hg hw
  rw [funext hv]
  exact vectorResult_of_vApply h rfl

end

/-- Inverting the top bit of a code. -/
theorem xor_topBit {n x : Nat} (hx : x < 2 ^ (n + 1)) : x.xor (2 ^ n) = if x < 2 ^ n then x + 2 ^ n else x - 2 ^ n := by
  have pos := Nat.two_pow_pos n
  have parts := Nat.div_add_mod (x ^^^ 2 ^ n) (2 ^ n)
  rw [Nat.xor_div_two_pow, Nat.xor_mod_two_pow, Nat.div_self pos, Nat.mod_self, Nat.xor_zero] at parts
  change x ^^^ 2 ^ n = _
  split
  · next low =>
    rw [Nat.div_eq_of_lt low, Nat.mod_eq_of_lt low, Nat.zero_xor, Nat.mul_one] at parts
    omega
  · next high =>
    have top : x / 2 ^ n = 1 := Nat.div_eq_of_lt_le (by omega) (by omega)
    have rest := Nat.div_add_mod x (2 ^ n)
    rw [top, Nat.xor_self, Nat.mul_zero] at parts
    rw [top] at rest
    omega

theorem invalid_eq (g : Fmt) : invalid g = (g.nanCode, flNV) := by
  rw [invalid, nanWith, Fmt.signBit, if_neg Bool.false_ne_true, Nat.zero_add]

theorem isSig_of_isNan {v : FVal} (h : v.isNan = false) : v.isSig = false := by
  cases v with
  | nan => cases h
  | inf | fin => rfl

/-- A NaN beside another operand gives its sign (08 R179). -/
theorem fAdd_nan (g : Fmt) (rm : RMode) (p sg : Bool) (v : FVal) :
    fAdd g rm (.nan p sg) v = (g.signBit p + g.nanCode, flagIf (sg || v.isSig) flNV) := by
  have nan : nanResult g [.nan p sg, v] = some (nanWith g p, flagIf (sg || (v.isSig || false)) flNV) := rfl
  rw [Bool.or_false] at nan
  unfold fAdd
  rw [nan]
  rfl

/-- The exact sum of a value and its negative is zero (08 R179). -/
theorem fAdd_cancels (g : Fmt) (rm : RMode) (p : Bool) {m : Nat} (hm : 0 < m) (e : Int) :
    fAdd g rm (.fin p m e) (.fin (!p) m e) = (g.signBit (rm == .down), 0) := by
  have sum : addExact p m e (!p) m e = (0, e) := by cases p <;> simp [addExact, scaled]
  have split : ¬ (m = 0 ∧ m = 0 ∧ p = !p) := fun h => hm.ne' h.1
  change (if m = 0 ∧ m = 0 ∧ p = !p then _ else _) = _
  rw [if_neg split]
  change roundInt g rm (addExact p m e (!p) m e).1 (addExact p m e (!p) m e).2 false = _
  rw [sum]
  rfl

theorem fDiv_by_zero (g : Fmt) (rm : RMode) (p q : Bool) {m : Nat} (hm : 0 < m) (e : Int) :
    fDiv g rm (.fin p m e) (.fin q 0 e) = (g.signBit (p != q) + g.infCode, flDZ) := by
  change (if m = 0 then _ else _) = _
  rw [if_neg hm.ne']
  rfl

theorem fSqrt_negative (g : Fmt) (rm : RMode) {m : Nat} (hm : 0 < m) (e : Int) : fSqrt g rm (.fin true m e) = invalid g :=
  if_neg hm.ne'

/-- Settles O16: the operations are each one operation on floats under the mask; the special operands by the branches of the operation. -/
theorem vectorFloat : Obligations.VectorFloat := by
  refine ⟨?results, ?special⟩
  case results =>
    intro s ty d a b k g w x y z cx cy hg hw hcx hcy hx hy hz
    obtain rfl := funext hcx
    obtain rfl := funext hcy
    obtain rfl := funext hx
    obtain rfl := funext hy
    obtain rfl := funext hz
    simp only [exec_vaddFp, exec_vsubFp, exec_vmulFp, exec_vfma, exec_vfms, exec_vdiv, exec_vminFp, exec_vmaxFp, exec_vsqrt,
      exec_vrcp, exec_vrsq, exec_vabsFp, exec_vnegFp, execVaddFp, execVsubFp, execVmulFp, execVfma, execVfms, execVdiv, execVminFp,
      execVmaxFp, execVsqrt, execVrcp, execVrsq, execVabsFp, execVnegFp]
    refine ⟨fun h => fpOp_result hg hw h fun _ => rfl, fun h => fpOp_result hg hw h fun _ => rfl, fun h => fpOp_result hg hw h fun _ => rfl,
      fun h => fpOp_result hg hw h fun _ => rfl, fun h => fpOp_result hg hw h fun _ => rfl, fun h => fpOp_result hg hw h fun _ => rfl,
      fun h => fpOp_result hg hw h fun _ => rfl, fun h => fpOp_result hg hw h fun _ => rfl, fun h => fpOp_result hg hw h fun _ => rfl,
      fun h => fpOp_result hg hw h fun _ => rfl, fun h => fpOp_result hg hw h fun _ => rfl, fun h => ?abs, fun h => ?neg⟩
    all_goals obtain ⟨-, -, size⟩ := fpTy_sizes hg hw
    case abs => exact fpOp_result hg hw h fun _ => by rw [size]
    case neg =>
      have pos : w - 1 + 1 = w := by subst hw; split <;> rfl
      exact fpOp_result hg hw h fun e => by rw [size, xor_topBit (pos ▸ vElem_lt w _ e)]
  case special =>
    intro g rm v p q n m e hm
    simp only [← invalid_eq]
    refine ⟨fun hv => ?_, fun hv => ?_, ?_, ?_, ?_, rfl, rfl, rfl, rfl, fDiv_by_zero g rm p q hm e, fAdd_cancels g rm p hm e, rfl,
      fSqrt_negative g rm hm e, rfl⟩
    · rw [fAdd_nan, isSig_of_isNan hv]
      rfl
    · rw [fAdd_nan, isSig_of_isNan hv]
      rfl
    · exact fAdd_nan g rm p false (.nan q false)
    · cases p <;> rfl
    · exact if_pos rfl

/-! ### Integer arithmetic (08 R184) -/

theorem wrap_eq (w : Nat) (x : Int) : wrap w x = (BitVec.ofInt w x).toNat := by
  rw [wrap, BitVec.toNat_ofInt]

section
variable {s : State} {es : BitVec 2} {sg : BitVec 1} {d a b : VReg} {k : KReg} {w : Nat}
  (form : (es = 0 ∧ w = 32) ∨ (es = 1 ∧ w = 64) ∨ (es = 2 ∧ w = 16) ∨ (es = 3 ∧ w = 8))

include form in
theorem intWidth_of_form : intWidth es = w ∧ 0 < w := by
  obtain ⟨rfl, rfl⟩ | ⟨rfl, rfl⟩ | ⟨rfl, rfl⟩ | ⟨rfl, rfl⟩ := form <;> decide

include form in
theorem intOp_result {i : Instr} {f : Nat → Bool → Nat → Nat → Nat × Flags} {v : Nat → Nat × Flags} (h : Issues i s)
    (hv : ∀ e, v e = f w (sg == 1) (vElem w (s.vreg a) e) (vElem w (s.vreg b) e)) :
    VectorResult (intOp i es sg d a b k f s) s w d k v := by
  obtain ⟨rfl, -⟩ := intWidth_of_form form
  rw [funext hv]
  exact vectorResult_of_vApply h rfl

theorem elemInt_eq (pos : 0 < w) (x : Nat) : elemInt w (sg == 1) x = if sg = 1 then (BitVec.ofNat w x).toInt else x := by
  rw [elemInt, signed_toInt pos]
  simp only [beq_iff_eq]

/-- Saturation holds a value between the bounds of its type and raises SAT where it changes (08 R184). -/
theorem satInt_eq {lo hi : Int} (hlo : lo = if sg = 1 then -2 ^ (w - 1) else 0)
    (hhi : hi = if sg = 1 then 2 ^ (w - 1) - 1 else 2 ^ w - 1) (v : Int) :
    satInt w (sg == 1) v = ((BitVec.ofInt w (max lo (min hi v))).toNat, if lo ≤ v ∧ v ≤ hi then 0 else flSAT) := by
  have order : lo ≤ hi := by
    have p := Int.pow_pos (n := 2) (m := w - 1) (by decide)
    have q := Int.pow_pos (n := 2) (m := w) (by decide)
    subst hlo hhi
    split <;> omega
  have range : intRange w (sg == 1) = (lo, hi) := by
    subst hlo hhi
    simp only [intRange, beq_iff_eq]
    split <;> simp
  have clamp : clampInt lo hi v = max lo (min hi v) := by
    rw [clampInt]
    split_ifs <;> omega
  rw [satInt, range]
  dsimp only
  rw [clamp, wrap_eq, flagIf]
  congr 1
  by_cases inside : lo ≤ v ∧ v ≤ hi
  · rw [if_pos inside, if_neg (by simp; omega)]
  · rw [if_neg inside, if_pos (by simp; omega)]

end

/-- Settles O17: each operation is one on the elements' integers under the mask, with the wrapped or the saturated result. -/
theorem vectorInteger : Obligations.VectorInteger := by
  intro s es sg d a b k w x y xi yi lo hi sat form hx hy hxi hyi hlo hhi hsat
  obtain ⟨-, pos⟩ := intWidth_of_form form
  obtain rfl := funext hx
  obtain rfl := funext hy
  replace hxi (e) : xi e = elemInt w (sg == 1) (vElem w (s.vreg a) e) := (hxi e).trans (elemInt_eq pos _).symm
  replace hyi (e) : yi e = elemInt w (sg == 1) (vElem w (s.vreg b) e) := (hyi e).trans (elemInt_eq pos _).symm
  replace hsat (v) : sat v = satInt w (sg == 1) v := (hsat v).trans (satInt_eq hlo hhi v).symm
  obtain rfl := funext hxi
  obtain rfl := funext hyi
  obtain rfl := funext hsat
  simp only [exec_vaddInt, exec_vsubInt, exec_vadds, exec_vsubs, exec_vmulInt, exec_vmulh, exec_vminInt, exec_vmaxInt, exec_vand,
      exec_vor, exec_vxor, exec_vshl, exec_vshr, exec_vabsInt, execVaddInt, execVsubInt, execVadds, execVsubs, execVmulInt, execVmulh,
      execVminInt, execVmaxInt, execVand, execVor, execVxor, execVshl, execVshr, execVabsInt]
  refine ⟨fun h => intOp_result form h fun _ => rfl, fun h => intOp_result form h fun _ => rfl, fun h => intOp_result form h fun _ => rfl,
    fun h => intOp_result form h fun _ => rfl, fun h => intOp_result form h fun _ => rfl, fun h => ?mulh,
    fun h => intOp_result form h fun _ => rfl, fun h => intOp_result form h fun _ => rfl, fun h => intOp_result form h fun _ => rfl,
    fun h => intOp_result form h fun _ => rfl, fun h => intOp_result form h fun _ => rfl, fun h => intOp_result form h fun _ => rfl,
    fun h => ?shr, fun signed h => ?abs⟩
  case mulh => exact intOp_result form h fun _ => by simp [wrap_eq]
  case shr => exact intOp_result form h fun _ => by simp [wrap_eq]
  case abs =>
    subst signed
    exact intOp_result form h fun _ => rfl

end Sys2Proof.Machine
end

section
/-! 08 R186-R190, 07 R165: conversions, logarithms, exponentials and random vectors. -/
namespace Sys2Proof.Machine

/-! ### The generator (07 R165) -/

theorem philoxC_lt (t : Tile) : t.philoxC < 2 ^ 128 := by
  have low := t.phCtrl.isLt
  have high := t.phCtrh.isLt
  rw [Tile.philoxC]
  omega

section
variable (t : Tile) (c : Nat)

theorem setPhiloxC_philoxC : (t.setPhiloxC c).philoxC = c % 2 ^ 128 := by
  simp only [Tile.setPhiloxC, Tile.philoxC, BitVec.toNat_ofNat]
  omega

theorem setPhiloxC_strand (i : StrandId) : (t.setPhiloxC c).strand i = t.strand i := by
  cases i <;> rfl

end

/-- The state with the generator set. -/
def State.setPhiloxC (s : State) (c : Nat) : State := { s with tile := s.tile.setPhiloxC c }

theorem drew_eq (s : State) (n : Nat) : s.drew n = s.setPhiloxC (advance s.tile.philoxC n) := rfl

section
variable (s : State) (c : Nat)

theorem setPhiloxC_st : (s.setPhiloxC c).st = s.st := setPhiloxC_strand s.tile c s.tile.lastIssued

theorem setPhiloxC_vreg (r : VReg) : (s.setPhiloxC c).vreg r = s.vreg r := rfl

theorem setPhiloxC_ctxs : (s.setPhiloxC c).tile.ctxs = s.tile.ctxs := rfl

end

/-- An instruction that draws nothing leaves the generator as it is. -/
theorem VectorFrame.drawFrame {d : VReg} {s t : State} (h : VectorFrame d s t) : DrawFrame d 0 s t := by
  obtain ⟨v, k, regs, ⟨control, low, high⟩, bytes⟩ := h
  refine ⟨v, k, regs, control, bytes, ?_⟩
  rw [Nat.add_zero, Nat.mod_eq_of_lt (philoxC_lt _), Tile.philoxC, low, high, Tile.philoxC]

theorem OnlyFlags.setPhiloxC {f : Flags} {s t : State} (h : OnlyFlags f s t) (c : Nat) : OnlyFlags f s (t.setPhiloxC c) := by
  simpa only [OnlyFlags, setPhiloxC_ctxs] using h

/-- An instruction that sets the generator changes nothing else of the frame. -/
theorem VectorFrame.setPhiloxC {d : VReg} {n c : Nat} {s t : State} (h : VectorFrame d s t)
    (hc : c % 2 ^ 128 = (s.tile.philoxC + n) % 2 ^ 128) : DrawFrame d n s (t.setPhiloxC c) := by
  obtain ⟨v, k, regs, ⟨control, -, -⟩, bytes⟩ := h
  refine ⟨v, k, fun r => (reg_eq_of_regs (by rw [setPhiloxC_st]) r).trans (regs r), ?_, bytes, (setPhiloxC_philoxC t.tile c).trans hc⟩
  simp only [SameControl, setPhiloxC_st]
  exact control

/-- An instruction that draws n words advances the generator by the counter values that hold them. -/
theorem VectorFrame.drew {d : VReg} {s t : State} (h : VectorFrame d s t) (n : Nat) : DrawFrame d ((n + 3) / 4) s (t.drew n) := by
  have ⟨_, _, _, ⟨_, low, high⟩, _⟩ := h
  rw [drew_eq]
  refine h.setPhiloxC ?_
  rw [advance, Nat.mod_mod, Tile.philoxC, low, high, ← Tile.philoxC]

theorem DrawFrame.retire {d : VReg} {n : Nat} {s t : State} (h : DrawFrame d n s t) : DrawFrame d n s t.retire := by
  simpa [DrawFrame, SameControl, SameBytes, Tile.philoxC] using h

/-! ### Conversions (08 R186) -/

theorem cvtWidth_cases (c : BitVec 4) : cvtWidth c.toNat = 64 ∨ cvtWidth c.toNat ≤ 32 := by
  revert c
  decide

/-- The state after a conversion, before it draws. -/
def State.converted (s : State) (d : VReg) (w n : Nat) (c : Nat → Nat × Flags) : State :=
  (s.setV d (vBuild w n fun e => (c e).1)).orFlags 3 ((List.range n).foldl (fun x e => x ||| (c e).2) 0)

section
variable {s : State} {g f : BitVec 4} {d a : VReg} {n : Nat} {drawn : Bool} {c : Nat → Nat × Flags}

/-- What a conversion writes, and the flags it raises. -/
theorem converted_result {w : Nat} (fits : w * n ≤ 1024) :
    (∀ e, e < n → vElem w ((s.converted d w n c).vreg d) e = (c e).1 % 2 ^ w) ∧ ((s.converted d w n c).vreg d).toNat < 2 ^ (n * w) ∧
    OnlyFlags ((List.range n).foldl (fun x e => x ||| (c e).2) 0) s (s.converted d w n c) ∧ VectorFrame d s (s.converted d w n c) := by
  have value : (s.converted d w n c).vreg d = vBuild w n fun e => (c e).1 := by
    rw [State.converted, orFlags_vreg, setV_vreg, if_pos rfl]
  rw [value]
  refine ⟨fun e he => vElem_vBuild _ _ _ _ fits he, ?_, .of_orFlags (by rw [setV_st]) rfl _ _, (vectorFrame_setV s d _).orFlags _ _⟩
  have small := packList_lt w ((List.range n).map fun e => (c e).1)
  rw [List.length_map, List.length_range, Nat.mul_comm] at small
  exact Nat.lt_of_le_of_lt (Nat.mod_le _ _) small

variable (h : Issues (.vcvt g f d a) s)
include h

theorem vcvt_ill (ill : g = 15 ∨ f = 15) : exec (.vcvt g f d a) s = .next (s.takeTrap (raise .ill)) := by
  rw [exec_vcvt, execVcvt]
  exact run_trap h (if_pos ill)

variable (hn : n = if cvtWidth f.toNat = 64 ∨ cvtWidth g.toNat = 64 then 16 else 32)
  (hdrawn : drawn = (s.sto && (fmtOf f.toNat).isSome && (fmtOf g.toNat).isSome && f != g)) (hg : g ≠ 15) (hf : f ≠ 15)
include hdrawn hg hf

theorem vcvt_waits (draws : drawn = true) (busy : s.tile.drawing = true) :
    exec (.vcvt g f d a) s = .next (s.onSt fun x => { x with wait := some (.retry .engine) }) := by
  rw [exec_vcvt, execVcvt]
  refine run_wait h ?_
  dsimp only
  rw [if_neg (not_or.2 ⟨hg, hf⟩), ← hdrawn, draws, busy]
  rfl

include hn

theorem vcvt_converts (free : drawn = false ∨ s.tile.drawing = false)
    (hc : ∀ e, c e = cvtOne f.toNat g.toNat s.rm (if drawn then some (s.draw e) else none) (vElem (cvtWidth f.toNat) (s.vreg a) e)) :
    exec (.vcvt g f d a) s = .next (if drawn then (s.converted d (cvtWidth g.toNat) n c).drew n
      else s.converted d (cvtWidth g.toNat) n c).retire := by
  have go : (drawn && s.tile.drawing) = false := by obtain free | free := free <;> simp [free]
  obtain rfl := funext hc
  rw [exec_vcvt, execVcvt]
  refine run_ok h ?_
  dsimp only
  rw [if_neg (not_or.2 ⟨hg, hf⟩), ← hdrawn, ← hn, go, List.foldl_map, List.map_map]
  rfl

end

/-! ### Random vectors (08 R189) -/

section
variable {s : State} {i : Instr} {d : VReg} {k : KReg} {f : Nat → Nat} (h : Issues i s)
include h

theorem randomOp_draws (free : s.tile.drawing = false) : ∃ t : State, randomOp i d k f s = .next t ∧
    (∀ e, e < 32 → vElem 32 (t.vreg d) e = if (s.kreg k).getLsbD e then f (s.draw e) % 2 ^ 32 else vElem 32 (s.vreg d) e) ∧
    SameContexts s t ∧ DrawFrame d 8 s t := by
  have body : randomOp i d k f s = .next ((s.vApply 3 32 d k fun e => (f (s.draw e), 0)).drew 32).retire :=
    run_ok h (if_neg (by rw [free]; exact Bool.false_ne_true))
  have words : (32 + 3) / 4 = 8 := rfl
  refine ⟨_, body, fun e he => ?_, ?_, ?_⟩
  · rw [retire_vreg, drew_eq, setPhiloxC_vreg, vApply_elem _ _ _ _ _ _ _ he, maskBit_own (n := 4) (.inl rfl) _ he]
  · rw [SameContexts, State.retire_tile_ctxs, drew_eq, setPhiloxC_ctxs, vApply_eq, activeFlags_zero]
    exact OnlyFlags.sameContexts (.of_orFlags (by rw [setV_st]) rfl _ _)
  · rw [vApply_eq, ← words]
    exact (((vectorFrame_setV s d _).orFlags _ _).drew 32).retire

theorem randomOp_waits (busy : s.tile.drawing = true) :
    randomOp i d k f s = .next (s.onSt fun x => { x with wait := some (.retry .engine) }) :=
  run_wait h (if_pos busy)

end

/-- Settles O18: the conversion by whether it is ILL, draws and must wait; the functions under the mask; the draws of a random vector. -/
theorem conversionsAndRandom : Obligations.ConversionsAndRandom := by
  intro s g f d a k n drawn hn hdrawn
  simp only [exec_vlog2, exec_vexp2, exec_vrand, exec_vrandF32, execVlog2, execVexp2, execVrand, execVrandF32]
  refine ⟨vcvt_ill, fun h hg hf free => ?convert, fun h hg hf => vcvt_waits h hdrawn hg hf, fun h => vectorResult_of_vApply h rfl,
    fun h => vectorResult_of_vApply h rfl, fun h => randomOp_draws h, fun h => randomOp_draws h,
    fun busy => ⟨fun h => randomOp_waits h busy, fun h => randomOp_waits h busy⟩⟩
  case convert =>
    have sizes : n = 16 ∨ n = 32 := by rw [hn]; split <;> simp
    have fits : cvtWidth g.toNat * n ≤ 1024 := by
      obtain wide | narrow := cvtWidth_cases g
      · rw [hn, if_pos (.inr wide), wide]
      · obtain rfl | rfl := sizes <;> omega
    obtain ⟨c, hc⟩ : ∃ c : Nat → Nat × Flags, ∀ e, c e = cvtOne f.toNat g.toNat s.rm (if drawn then some (s.draw e) else none)
      (vElem (cvtWidth f.toNat) (s.vreg a) e) := ⟨_, fun _ => rfl⟩
    obtain ⟨elems, small, flags, frame⟩ := converted_result (s := s) (d := d) (c := c) fits
    simp only [← hc, vcvt_converts h hn hdrawn hg hf free hc]
    refine ⟨_, rfl, ?_⟩
    cases drawn with
    | false =>
      rw [if_neg Bool.false_ne_true, if_neg Bool.false_ne_true, retire_vreg]
      exact ⟨elems, small, flags.retire, frame.drawFrame.retire⟩
    | true =>
      have words : (n + 3) / 4 = n / 4 := by omega
      have draws := (frame.drew n).retire
      rw [words, drew_eq] at draws
      rw [if_pos rfl, if_pos rfl, retire_vreg, drew_eq, setPhiloxC_vreg]
      exact ⟨elems, small, (flags.setPhiloxC _).retire, draws⟩

end Sys2Proof.Machine
end

section
/-! 08 R185, R193: the order of floats, and the vector comparisons. -/
namespace Sys2Proof.Machine

/-! ### The order of floats (08 R183, R185) -/

/-- The number that a finite value stands for. -/
def finVal (n : Bool) (m : Nat) (e : Int) : ℚ := (if n then -1 else 1) * (m * 2 ^ e)

theorem scaled_eq (n : Bool) (m : Nat) {e q : Int} (h : q ≤ e) : (scaled n m e q : ℚ) * 2 ^ q = finVal n m e := by
  have split : (2 : ℚ) ^ e = 2 ^ (e - q).toNat * 2 ^ q := by
    rw [← zpow_natCast, Int.toNat_of_nonneg (by omega), ← zpow_add₀ two_ne_zero, Int.sub_add_cancel]
  rw [finVal, split]
  cases n <;> simp [scaled, mul_assoc]

theorem finVal_zero (n : Bool) (e : Int) : finVal n 0 e = 0 := by simp [finVal]

/-- Finite values are ordered as numbers, and −0 is below +0 where zeros are told apart. -/
theorem fLess_fin (zeros n1 n2 : Bool) (m1 m2 : Nat) (e1 e2 : Int) : fLess zeros (.fin n1 m1 e1) (.fin n2 m2 e2) = true ↔
    finVal n1 m1 e1 < finVal n2 m2 e2 ∨ (m1 = 0 ∧ m2 = 0 ∧ zeros = true ∧ n1 = true ∧ n2 = false) := by
  by_cases zero : m1 = 0 ∧ m2 = 0
  · obtain ⟨rfl, rfl⟩ := zero
    simp [fLess, finVal_zero, and_assoc]
  · have pos : (0 : ℚ) < 2 ^ min e1 e2 := zpow_pos two_pos _
    rw [← scaled_eq n1 m1 (min_le_left e1 e2), ← scaled_eq n2 m2 (min_le_right e1 e2), mul_lt_mul_iff_left₀ pos, Int.cast_lt, ← and_assoc,
      or_iff_left fun h => zero h.1, fLess, if_neg zero, decide_eq_true_eq]

/-- Nothing is below itself. -/
theorem fLess_irrefl (v : FVal) : fLess true v v = false := by
  cases v with
  | nan => rfl
  | inf n => cases n <;> rfl
  | fin n m e =>
    rw [← Bool.not_eq_true, fLess_fin]
    rintro (less | ⟨-, -, -, neg, pos⟩)
    · exact lt_irrefl _ less
    · rw [neg] at pos
      cases pos

/-- Nothing is below −∞. -/
theorem fLess_negInf (x : FVal) : fLess true x (.inf true) = false := by
  cases x with
  | inf a => exact Bool.and_false a
  | nan | fin => rfl

/-- Nothing is above +∞. -/
theorem posInf_fLess (z : FVal) : fLess true (.inf false) z = false := by
  cases z <;> rfl

theorem fLess_fin_trans {n1 n2 n3 : Bool} {m1 m2 m3 : Nat} {e1 e2 e3 : Int} (h : fLess true (.fin n1 m1 e1) (.fin n2 m2 e2) = true)
    (h' : fLess true (.fin n2 m2 e2) (.fin n3 m3 e3) = true) : fLess true (.fin n1 m1 e1) (.fin n3 m3 e3) = true := by
  rw [fLess_fin] at h h' ⊢
  obtain less | ⟨rfl, rfl, -, neg, pos⟩ := h <;> obtain less' | ⟨zero, rfl, -, neg', pos'⟩ := h'
  · exact .inl (less.trans less')
  · subst zero
    rw [finVal_zero] at less ⊢
    exact .inl less
  · rw [finVal_zero] at less' ⊢
    exact .inl less'
  · rw [pos] at neg'
    cases neg'

/-- −∞ is below whatever something else than an infinity is below. -/
theorem fLess_inf_of_fLess {a : Bool} {y z : FVal} (h : a = true) (h' : fLess true y z = true) (hy : ∀ b, y ≠ .inf b) :
    fLess true (.inf a) z = true := by
  cases z with
  | inf c =>
    cases y with
    | inf b => exact absurd rfl (hy b)
    | nan | fin => exact Bool.and_eq_true_iff.2 ⟨h, h'⟩
  | nan | fin => exact h

theorem fLess_trans {x y z : FVal} (h : fLess true x y = true) (h' : fLess true y z = true) : fLess true x z = true := by
  cases y with
  | nan =>
    cases x with
    | inf => exact fLess_inf_of_fLess h h' nofun
    | nan | fin => cases h
  | inf b =>
    cases b with
    | true =>
      rw [fLess_negInf] at h
      cases h
    | false =>
      rw [posInf_fLess] at h'
      cases h'
  | fin =>
    cases x with
    | nan => cases h
    | inf => exact fLess_inf_of_fLess h h' nofun
    | fin =>
      cases z with
      | nan => cases h'
      | inf => exact h'
      | fin => exact fLess_fin_trans h h'

/-- Finite values over one power of two are ordered by their integers. -/
theorem fLess_scaled (n1 n2 : Bool) (m1 m2 i j : Nat) (e : Int) : fLess false (.fin n1 m1 (e + i)) (.fin n2 m2 (e + j)) =
    decide ((if n1 then -1 else 1) * ((m1 * 2 ^ i : Nat) : Int) < (if n2 then -1 else 1) * ((m2 * 2 ^ j : Nat) : Int)) := by
  have value (n : Bool) (m i : Nat) : finVal n m (e + i) = (((if n then -1 else 1) * ((m * 2 ^ i : Nat) : Int) : Int) : ℚ) * 2 ^ e := by
    rw [finVal, zpow_add₀ two_ne_zero, zpow_natCast]
    push_cast
    ring
  rw [Bool.eq_iff_iff, fLess_fin, value, value, mul_lt_mul_iff_left₀ (zpow_pos two_pos e), Int.cast_lt, decide_eq_true_eq]
  simp

/-! ### One element of a compare (08 R185) -/

theorem cmpElem_int {c : VCond} {ty : BitVec 3} {w x y : Nat} {p q : Int} (int : ty = 2 ∨ ty = 3 ∨ ty = 4 ∨ ty = 5) (hc : c ≠ .un)
    (hw : w = if ty = 1 ∨ ty = 4 ∨ ty = 5 then 64 else 32) (hp : p = if ty = 2 ∨ ty = 4 then (BitVec.ofNat w x).toInt else x)
    (hq : q = if ty = 2 ∨ ty = 4 then (BitVec.ofNat w y).toInt else y) :
    cmpElem c ty x y = (if c = .eq then decide (p = q) else if c = .ne then decide (p ≠ q) else if c = .lt then decide (p < q)
      else decide (p ≤ q), 0) := by
  have elem : cmpElem c ty x y = (cmpInt c p q, 0) := by
    subst hw hp hq
    obtain rfl | rfl | rfl | rfl := int <;> simp [cmpElem, signed_toInt]
  rw [elem]
  cases c with
  | un => exact absurd rfl hc
  | eq | ne | lt | le => simp [cmpInt]

theorem cmpElem_float {c : VCond} {ty : BitVec 3} {g : Fmt} {x y : Nat} (float : ty = 0 ∨ ty = 1) (hg : g = if ty = 0 then fp32 else fp64) :
    cmpElem c ty x y = cmpFloat c (decodeFmt g x) (decodeFmt g y) := by
  subst hg
  obtain rfl | rfl := float <;> rfl

/-- A comparison of floats by the order and by what is a NaN. -/
theorem cmpFloat_eq (c : VCond) (u v : FVal) {un lt gt : Bool} (hun : un = (u.isNan || v.isNan)) (hlt : lt = fLess false u v)
    (hgt : gt = fLess false v u) : cmpFloat c u v =
      (if c = .eq then !un && !lt && !gt else if c = .ne then un || lt || gt else if c = .lt then !un && lt
        else if c = .le then !un && (lt || !gt) else un,
       if (if c = .lt ∨ c = .le then un else u.isSig || v.isSig) = true then flNV else 0) := by
  simp only [cmpFloat, ← hun, ← hlt, ← hgt, flagIf]
  clear hun hlt hgt
  cases c with
  | eq | lt | un => simp
  | ne => simp [Bool.or_assoc]
  | le => revert un lt gt; simp

/-! ### The instruction (08 R185) -/

/-- The types that a compare offers. -/
theorem cmpTyOk_iff {c : VCond} {ty : BitVec 3} : cmpTyOk c ty = true ↔ ty.toNat < 6 ∧ (c = .un → ty.toNat < 2) := by
  rw [cmpTyOk, Bool.and_eq_true, Bool.or_eq_true, bne_iff_ne, decide_eq_true_eq, decide_eq_true_eq, or_iff_not_imp_left, not_not]

/-- The bits that a compare writes (08 R185). -/
def compareBits (w : Nat) (m : BitVec 32) (f : Nat → Bool × Flags) : BitVec 32 :=
  BitVec.ofNat 32 (packList 1 ((List.range (1024 / w)).map fun e => if maskBit w m e && (f e).1 then 1 else 0))

/-- The mask bit of an element of 32 or 64 bits is its own. -/
theorem maskBit_wide {w : Nat} (hw : w = 32 ∨ w = 64) (m : BitVec 32) {e : Nat} (he : e < 1024 / w) : maskBit w m e = m.getLsbD e := by
  obtain rfl | rfl := hw
  · exact maskBit_own (n := 4) (.inl rfl) m he
  · exact maskBit_own (n := 8) (.inr rfl) m he

theorem compareBits_getLsbD {w : Nat} (hw : w = 32 ∨ w = 64) (m : BitVec 32) (f : Nat → Bool × Flags) {e : Nat} (he : e < 32) :
    (compareBits w m f).getLsbD e = (decide (e < 1024 / w) && m.getLsbD e && (f e).1) := by
  have bit := bitsOf_packList 1 e ((List.range (1024 / w)).map fun e => if maskBit w m e && (f e).1 then 1 else 0)
  rw [bitsOf, Nat.one_mul, Nat.pow_one] at bit
  rw [compareBits, BitVec.getLsbD_ofNat, decide_eq_true he, Bool.true_and, ← bitOf_testBit, bitOf, bit]
  by_cases inside : e < 1024 / w
  · rw [← maskBit_wide hw m inside]
    simp only [List.getD_eq_getElem?_getD, List.getElem?_map, List.getElem?_range inside, Option.map_some, Option.getD_some, decide_eq_true inside]
    rw [Bool.true_and]
    cases maskBit w m e && (f e).1 <;> rfl
  · simp [inside]

section
variable {s : State} {i : Instr} {c : VCond} {ty : BitVec 3} {d : KReg} {a b : VReg} {k : KReg} (h : Issues i s)
include h

theorem compareOp_ill (ill : d = 0 ∨ 6 ≤ ty.toNat ∨ (c = .un ∧ 2 ≤ ty.toNat)) :
    compareOp i c ty d a b k s = .next (s.takeTrap (raise .ill)) := by
  refine run_trap h (if_pos ?_)
  rw [Bool.or_eq_true, Bool.not_eq_true', beq_iff_eq, ← Bool.not_eq_true, cmpTyOk_iff]
  obtain zero | wide | ⟨un, int⟩ := ill
  · exact .inr zero
  · exact .inl fun ok => absurd ok.1 (Nat.not_lt.2 wide)
  · exact .inl fun ok => absurd (ok.2 un) (Nat.not_lt.2 int)

/-- A compare whose type it offers writes its mask and raises the flags of the active elements. -/
theorem compareOp_compares (hd : d ≠ 0) (ok : cmpTyOk c ty = true) {f : Nat → Bool × Flags} {w : Nat} (hw : w = cmpWidth ty)
    (hf : ∀ e, f e = cmpElem c ty (vElem w (s.vreg a) e) (vElem w (s.vreg b) e)) : compareOp i c ty d a b k s = .next
      ((s.setK d (compareBits w (s.kreg k) f)).orFlags 2 (activeFlags s w k fun e => (f e).2)).retire := by
  have values (e) : (if (if maskBit w (s.kreg k) e then f e else (false, 0)).1 then 1 else 0) =
      if maskBit w (s.kreg k) e && (f e).1 then 1 else 0 := by
    cases maskBit w (s.kreg k) e <;> rfl
  refine run_ok h ?_
  rw [if_neg (by rw [ok, beq_false_of_ne hd]; exact Bool.false_ne_true)]
  dsimp only
  rw [← hw]
  simp only [← hf]
  rw [List.foldl_map, List.map_map, activeFlags, ← foldl_flags_filter]
  simp only [Function.comp_def, apply_ite Prod.snd, values]
  rfl

end

/-- What an instruction that writes a mask keeps. -/
theorem setK_keeps (s : State) (d : KReg) (v : BitVec 32) : (∀ r, (s.setK d v).vreg r = s.vreg r) ∧
    (∀ r, (s.setK d v).reg r = s.reg r) ∧ SameSpecial s (s.setK d v) ∧ SameBytes s (s.setK d v) :=
  ⟨fun r => by simp only [State.vreg, setK_tile_v], fun r => reg_eq_of_regs (by rw [setK_st]) r,
    by simp [SameSpecial, SameControl], sameBytes_of_eq (by simp) (by simp) (by simp)⟩

/-- The state after a compare. -/
theorem compared_result {s : State} {d : KReg} {v : BitVec 32} {f : Flags} {t : State} (ht : t = ((s.setK d v).orFlags 2 f).retire) :
    (∀ r, t.kreg r = if r = d ∧ d ≠ 0 then v else s.kreg r) ∧ OnlyFlags f s t ∧ (∀ r, t.vreg r = s.vreg r) ∧ (∀ r, t.reg r = s.reg r) ∧
    SameSpecial s t ∧ SameBytes s t := by
  obtain ⟨vectors, regs, -, -⟩ := setK_keeps s d v
  subst ht
  refine ⟨fun r => ?_, (OnlyFlags.of_orFlags (by rw [setK_st]) (setK_tile_ctxs _ _ _) _ _).retire, fun r => ?_, fun r => ?_, ?_, ?_⟩
  · rw [retire_kreg]
    exact setK_kreg s d r v
  · rw [retire_vreg, orFlags_vreg, vectors]
  · rw [retire_reg]
    exact (reg_eq_of_regs (by simp) r).trans (regs r)
  · simp [SameSpecial, SameControl]
  · simp [SameBytes]

/-- Settles O21: a compare is ILL or writes what its elements give; the order of floats is that of the numbers they stand for. -/
theorem vectorCompares : Obligations.VectorCompares := by
  refine ⟨?compares, fun n1 n2 m1 m2 i j e => ⟨fLess_scaled n1 n2 m1 m2 i j e, rfl, rfl, rfl⟩⟩
  intro s i c ty d a b k w g x y u v p q un lt gt writes form hw hx hy h hwrites
  have compare : exec i s = compareOp i c ty d a b k s := by
    obtain ⟨rfl, rfl⟩ | ⟨rfl, rfl⟩ | ⟨rfl, rfl⟩ | ⟨rfl, rfl⟩ | ⟨rfl, rfl⟩ := form <;> rfl
  have wide : w = 32 ∨ w = 64 := by rw [hw]; split <;> simp
  have result {f : Nat → Bool × Flags} (hd : d ≠ 0) (ok : cmpTyOk c ty = true) (hf : ∀ e, f e = cmpElem c ty (x e) (y e)) :
      writes f := by
    refine (hwrites f).2 ⟨_, compare.trans (compareOp_compares h hd ok hw (f := f) fun e => by rw [hf, hx, hy]), ?_⟩
    obtain ⟨masks, flags, keeps⟩ := compared_result rfl
    refine ⟨fun e he => ?_, flags, fun r hr => by rw [masks, if_neg fun h => hr h.1], keeps⟩
    rw [masks, if_pos ⟨rfl, hd⟩, compareBits_getLsbD wide _ _ he]
  rw [compare]
  refine ⟨compareOp_ill h, fun hd int hc hp hq => ?_, fun hd float hg hu hv hun hlt hgt => ?_⟩
  · refine result hd ?_ fun e => (cmpElem_int int hc hw (hp e) (hq e)).symm
    exact cmpTyOk_iff.2 ⟨by obtain rfl | rfl | rfl | rfl := int <;> decide, fun un => absurd un hc⟩
  · refine result hd ?_ fun e => ?_
    · have narrow : ty.toNat < 2 := by obtain rfl | rfl := float <;> decide
      exact cmpTyOk_iff.2 ⟨by omega, fun _ => narrow⟩
    · rw [cmpElem_float float hg, ← hu, ← hv]
      exact (cmpFloat_eq c _ _ (hun e) (hlt e) (hgt e)).symm

end Sys2Proof.Machine
end

section
/-! 08 R191-R193: sums and extrema over the active elements. -/
namespace Sys2Proof.Machine

/-! ### The extreme candidate (08 R193) -/

theorem beyond_true (ty : BitVec 3) (x y : Nat) : beyond true ty x y = beyond false ty y x := rfl

theorem beyond_trans {mx : Bool} {ty : BitVec 3} {x y z : Nat} (h : beyond mx ty x y = true) (h' : beyond mx ty y z = true) :
    beyond mx ty x z = true := by
  have less {x y z : Nat} (h : beyond false ty x y = true) (h' : beyond false ty y z = true) : beyond false ty x z = true := by
    simp only [beyond, Bool.false_eq_true, if_false] at h h' ⊢
    generalize ty.toNat = n at h h' ⊢
    match n with
    | 0 | 1 => exact fLess_trans h h'
    | 2 => exact decide_eq_true ((of_decide_eq_true h).trans (of_decide_eq_true h'))
    | n + 3 => exact decide_eq_true ((of_decide_eq_true h).trans (of_decide_eq_true h'))
  cases mx with
  | false => exact less h h'
  | true => exact less h' h

theorem beyond_irrefl (mx : Bool) (ty : BitVec 3) (x : Nat) : beyond mx ty x x = false := by
  have less : beyond false ty x x = false := by
    simp only [beyond, Bool.false_eq_true, if_false]
    generalize ty.toNat = n
    match n with
    | 0 | 1 => exact fLess_irrefl _
    | 2 => exact decide_eq_false (lt_irrefl _)
    | n + 3 => exact decide_eq_false (lt_irrefl _)
  cases mx <;> exact less

/-- A value with its index, none of them a NaN or the index of nothing (08 R193). -/
def Admissible (ty : BitVec 3) (p : Nat × Nat) : Prop := p.2 ≠ 0xFFFFFFFF ∧ (redNan ty p.1).1 = false

/-- The better of the running result and an element. -/
def extremeStep (mx : Bool) (ty : BitVec 3) (o : Option (Nat × Nat)) (p : Nat × Nat) : Option (Nat × Nat) :=
  if (redNan ty p.1).1 ∨ p.2 = 0xFFFFFFFF then o
  else match o with
    | none => some p
    | some (y, j) => if beyond mx ty p.1 y ∨ (p.1 = y ∧ p.2 < j) then some p else o

/-- The extreme one of some candidates, with the lowest index among equals, or none where there is none. -/
def Extreme (mx : Bool) (ty : BitVec 3) (cand : Nat × Nat → Prop) : Option (Nat × Nat) → Prop
  | none => ∀ p, ¬ cand p
  | some p => cand p ∧ ∀ q, cand q → beyond mx ty q.1 p.1 = false ∧ (q.1 = p.1 → p.2 ≤ q.2)

section
variable {mx : Bool} {ty : BitVec 3} {cand : Nat × Nat → Prop} {o : Option (Nat × Nat)} {p : Nat × Nat}

theorem Extreme.congr {c : Nat × Nat → Prop} (h : Extreme mx ty cand o) (same : ∀ q, c q ↔ cand q) : Extreme mx ty c o := by
  obtain rfl : c = cand := funext fun q => propext (same q)
  exact h

/-- A candidate that is beyond the extreme one, or equal to it with a lower index, takes its place. -/
theorem Extreme.replace {b : Nat × Nat} (h : Extreme mx ty cand (some b)) (better : beyond mx ty p.1 b.1 = true ∨ (p.1 = b.1 ∧ p.2 < b.2)) :
    Extreme mx ty (fun q => cand q ∨ q = p) (some p) := by
  obtain ⟨-, extreme⟩ := h
  refine ⟨.inr rfl, ?_⟩
  rintro q (hq | rfl)
  · obtain ⟨notBeyond, lowest⟩ := extreme q hq
    obtain further | ⟨same, lower⟩ := better
    · refine ⟨Bool.eq_false_iff.2 fun b => ?_, fun same => ?_⟩
      · rw [beyond_trans b further] at notBeyond
        cases notBeyond
      · rw [same, further] at notBeyond
        cases notBeyond
    · rw [same]
      exact ⟨notBeyond, fun e => lower.le.trans (lowest e)⟩
  · exact ⟨beyond_irrefl mx ty _, fun _ => Nat.le_refl _⟩

/-- A candidate that is neither beyond the extreme one nor equal to it with a lower index leaves it. -/
theorem Extreme.keep {b : Nat × Nat} (h : Extreme mx ty cand (some b)) (worse : ¬ (beyond mx ty p.1 b.1 = true ∨ (p.1 = b.1 ∧ p.2 < b.2))) :
    Extreme mx ty (fun q => cand q ∨ q = p) (some b) := by
  obtain ⟨mem, extreme⟩ := h
  refine ⟨.inl mem, ?_⟩
  rintro q (hq | rfl)
  · exact extreme q hq
  · rw [not_or] at worse
    exact ⟨Bool.eq_false_iff.2 worse.1, fun same => Nat.le_of_not_lt fun lower => worse.2 ⟨same, lower⟩⟩

theorem Extreme.step (h : Extreme mx ty cand o) (p : Nat × Nat) :
    Extreme mx ty (fun q => cand q ∨ (Admissible ty q ∧ q = p)) (extremeStep mx ty o p) := by
  unfold extremeStep
  split
  · next out =>
    refine h.congr fun q => or_iff_left ?_
    rintro ⟨⟨index, number⟩, rfl⟩
    rw [number] at out
    exact out.elim Bool.false_ne_true index
  · next admitted =>
    rw [not_or, Bool.not_eq_true] at admitted
    have same (q : Nat × Nat) : (cand q ∨ (Admissible ty q ∧ q = p)) ↔ (cand q ∨ q = p) :=
      or_congr_right ⟨And.right, fun e => ⟨e ▸ ⟨admitted.2, admitted.1⟩, e⟩⟩
    refine Extreme.congr ?_ same
    match o with
    | none => exact ⟨.inr rfl, by
        rintro q (hq | rfl)
        · exact absurd hq (h q)
        · exact ⟨beyond_irrefl mx ty _, fun _ => Nat.le_refl _⟩⟩
    | some (y, j) =>
      dsimp only
      split
      · next ahead => exact h.replace ahead
      · next behind => exact h.keep behind

theorem Extreme.foldl (h : Extreme mx ty cand o) (xs : List (Nat × Nat)) :
    Extreme mx ty (fun q => cand q ∨ (Admissible ty q ∧ q ∈ xs)) (xs.foldl (extremeStep mx ty) o) := by
  induction xs generalizing cand o with
  | nil => exact h.congr fun q => by simp
  | cons x xs ih => exact (ih (h.step x)).congr fun q => by rw [List.mem_cons, and_or_left, or_assoc]

end

/-! ### The active elements (08 R191) -/

theorem redWidth_cases (ty : BitVec 3) : redWidth ty = 32 ∨ redWidth ty = 64 := by
  rw [redWidth]
  split <;> simp

theorem activeElems_eq (s : State) {w : Nat} (hw : w = 32 ∨ w = 64) (a : VReg) (k : KReg) :
    s.activeElems w a k = ((List.range (1024 / w)).filter (s.kreg k).getLsbD).map fun e => (e, vElem w (s.vreg a) e) := by
  rw [State.activeElems, List.filter_congr fun e he => maskBit_wide hw (s.kreg k) (List.mem_range.1 he)]

/-! ### The instructions (08 R192, R193) -/

theorem foldl_add_eq_sum (f : Nat → Int) (l : List Nat) : l.foldl (fun v x => v + f x) 0 = (l.map f).sum := by
  rw [List.sum_eq_foldl, List.foldl_map]

section
variable {s : State} {ty : BitVec 3} {d : SReg} {a : VReg} {k : KReg} {w : Nat} {act : List Nat} (hw : w = if ty = 1 then 64 else 32)
  (hact : act = (List.range (1024 / w)).filter (s.kreg k).getLsbD)

theorem vsum_ill (h : Issues (.vsum ty d a k) s) (ill : 4 ≤ ty.toNat) : exec (.vsum ty d a k) s = .next (s.takeTrap (raise .ill)) := by
  rw [exec_vsum, execVsum]
  exact run_trap h (if_pos ill)

include hw hact

theorem activeValues : (s.activeElems (redWidth ty) a k).map Prod.snd = act.map (vElem w (s.vreg a)) := by
  have width : redWidth ty = w := hw.symm
  rw [activeElems_eq s (redWidth_cases ty), width, ← hact, List.map_map]
  rfl

theorem vsum_int (h : Issues (.vsum ty d a k) s) (int : ty = 2 ∨ ty = 3) : ScalarResult (exec (.vsum ty d a k) s) s d
    (BitVec.ofInt 64 ((act.map (vElem w (s.vreg a))).map (elemInt 32 (ty == 2))).sum) := by
  rw [exec_vsum, execVsum]
  refine scalarResult_of_setReg h ?_
  dsimp only
  rw [activeValues (a := a) hw hact, foldl_add_eq_sum]
  obtain rfl | rfl := int <;> rfl

theorem vsum_float (h : Issues (.vsum ty d a k) s) (float : ty = 0 ∨ ty = 1) {g : Fmt} (hg : g = if ty = 0 then fp32 else fp64) {r : Nat × Flags}
    (hr : r = floatSum g s.rm (act.map fun e => decodeFmt g (vElem w (s.vreg a) e))) :
    exec (.vsum ty d a k) s = .next ((s.setReg d (BitVec.ofNat 64 r.1)).orFlags 6 r.2).retire := by
  have narrow : ty.toNat < 2 := by obtain rfl | rfl := float <;> decide
  rw [exec_vsum, execVsum]
  refine run_ok h ?_
  dsimp only
  rw [activeValues (a := a) hw hact, if_neg (by omega), if_neg (by omega), List.map_map, ← hg]
  subst hr
  rfl

end

/-- What `vmaxi` and `vmini` write of the extreme candidate: its value, or the quiet NaN or 0 where there is none. -/
def extremeValue (ty : BitVec 3) : Option (Nat × Nat) → DW
  | none => if ty = 0 then 0x7FC00000 else if ty = 1 then 0x7FF8000000000000 else 0
  | some p => if ty = 2 then (BitVec.ofNat 32 p.1).signExtend 64 else BitVec.ofNat 64 p.1

/-- And its index. -/
def extremeIndex : Option (Nat × Nat) → Nat
  | none => 0xFFFFFFFF
  | some p => p.2

/-- The running result, where it is a candidate. -/
def runningResult (ty : BitVec 3) (p : Nat × Nat) : Option (Nat × Nat) :=
  if p.2 ≠ 0xFFFFFFFF ∧ !((redNan ty p.1).1) then some p else none

theorem extreme_runningResult (mx : Bool) (ty : BitVec 3) (p : Nat × Nat) : Extreme mx ty (fun q => Admissible ty q ∧ q = p) (runningResult ty p) := by
  have admissible : Admissible ty p ↔ p.2 ≠ 0xFFFFFFFF ∧ !((redNan ty p.1).1) := by rw [Admissible, Bool.not_eq_true']
  unfold runningResult
  split
  · next on =>
    refine ⟨⟨admissible.2 on, rfl⟩, ?_⟩
    rintro q ⟨-, rfl⟩
    exact ⟨beyond_irrefl mx ty _, fun _ => Nat.le_refl _⟩
  · next off =>
    rintro q ⟨on, rfl⟩
    exact off (admissible.1 on)

theorem redType_cases {ty : BitVec 3} (h : ty.toNat < 4) : ty = 0 ∨ ty = 1 ∨ ty = 2 ∨ ty = 3 := by
  revert ty
  decide

theorem flagIf_flNV (c : Bool) : (flagIf c flNV = flNV ∨ flagIf c flNV = 0) ∧ (flagIf c flNV = flNV ↔ c = true) := by
  cases c <;> decide

section
variable {s : State} {i : Instr} {mx : Bool} {ty : BitVec 3} {d : SReg} {a : VReg} {b : SReg} {k : KReg} (h : Issues i s)
include h

theorem extremeOp_ill (ill : d = 0 ∨ d = 31 ∨ 4 ≤ ty.toNat) : extremeOp i mx ty d a b k s = .next (s.takeTrap (raise .ill)) := by
  refine run_trap h (if_pos ?_)
  rw [Bool.or_eq_true, decide_eq_true_eq]
  obtain rfl | rfl | wide := ill
  · exact .inr rfl
  · exact .inr rfl
  · exact .inl wide

theorem extremeOp_answers {w : Nat} {act : List Nat} (hw : w = redWidth ty) (hact : act = (List.range (1024 / w)).filter (s.kreg k).getLsbD)
    (zero : d ≠ 0) (last : d ≠ 31) (narrow : ty.toNat < 4) {best : Option (Nat × Nat)}
    (hbest : best = (act.map fun e => (vElem w (s.vreg a) e, ((s.reg b).toNat + e) % 2 ^ 32)).foldl (extremeStep mx ty)
      (runningResult ty ((s.reg d).toNat % 2 ^ w, (s.reg (d + 1)).toNat % 2 ^ 32))) :
    extremeOp i mx ty d a b k s = .next
      ((s.orFlags 5 (flagIf (act.any fun e => (redNan ty (vElem w (s.vreg a) e)).2) flNV)).setPair d (extremeValue ty best)
        (BitVec.ofNat 64 (extremeIndex best))).retire := by
  have offered : (decide (4 ≤ ty.toNat) || !(pairDest d)) = false := by
    simp only [pairDest, decide_eq_false (Nat.not_le.2 narrow), decide_eq_true zero, decide_eq_true last, Bool.and_self, Bool.not_true, Bool.or_self]
  rw [List.foldl_map] at hbest
  refine run_ok h ?_
  rw [offered, if_neg Bool.false_ne_true]
  dsimp only
  rw [← hw, activeElems_eq s (hw ▸ redWidth_cases ty), ← hact, List.foldl_map, List.any_map]
  split
  · next nothing =>
    rw [show best = none from hbest.trans nothing]
    obtain rfl | rfl | rfl | rfl := redType_cases narrow <;> rfl
  · next v ix found =>
    rw [show best = some (v, ix) from hbest.trans found, extremeValue, BitVec.signExtend, ← signed_toInt (by decide)]
    rfl

end

/-- Settles O19: the sums by the fold over the active elements; the extrema by the invariant that a fold keeps the extreme candidate. -/
theorem reductions : Obligations.Reductions := by
  intro s ty d a b k mx i w act ix cand hw hact hix hcand form
  have extreme : exec i s = extremeOp i mx ty d a b k s := by obtain ⟨rfl, rfl⟩ | ⟨rfl, rfl⟩ := form <;> rfl
  obtain rfl := funext hix
  refine ⟨fun h => ⟨fun ht => ?signed, fun ht => ?unsigned, fun ht => ?f32, fun ht => ?f64, vsum_ill h⟩,
    fun h => ⟨fun ill => ?ill, fun zero last narrow => ?extreme⟩⟩
  case signed =>
    subst ht
    have width : w = 32 := hw
    subst width
    have values : (act.map (vElem 32 (s.vreg a))).map (elemInt 32 true) = act.map fun e => (BitVec.ofNat 32 (vElem 32 (s.vreg a) e)).toInt := by
      rw [List.map_map]
      exact List.map_congr_left fun e _ => signed_toInt (by decide) _
    exact values ▸ vsum_int hw hact h (.inl rfl)
  case unsigned =>
    subst ht
    have width : w = 32 := hw
    subst width
    rw [← BitVec.ofInt_natCast, Nat.cast_list_sum]
    exact vsum_int hw hact h (.inr rfl)
  case f32 =>
    subst ht
    have width : w = 32 := hw
    subst width
    exact ⟨_, rfl, vsum_float (g := fp32) hw hact h (.inl rfl) rfl rfl⟩
  case f64 =>
    subst ht
    have width : w = 64 := hw
    subst width
    exact ⟨_, rfl, vsum_float (g := fp64) hw hact h (.inr rfl) rfl rfl⟩
  case ill =>
    rw [extreme]
    exact extremeOp_ill h ill
  case extreme =>
    obtain ⟨best, hbest⟩ : ∃ best, best = (act.map fun e => (vElem w (s.vreg a) e, ((s.reg b).toNat + e) % 2 ^ 32)).foldl (extremeStep mx ty)
      (runningResult ty ((s.reg d).toNat % 2 ^ w, (s.reg (d + 1)).toNat % 2 ^ 32)) := ⟨_, rfl⟩
    have isExtreme : Extreme mx ty cand best := by
      rw [hbest]
      refine ((extreme_runningResult mx ty _).foldl _).congr fun q => ?_
      rw [hcand, ← and_assoc, ← and_or_left, or_comm, List.mem_map]
      simp only [eq_comm, Admissible]
    obtain ⟨either, raised⟩ := flagIf_flNV (act.any fun e => (redNan ty (vElem w (s.vreg a) e)).2)
    rw [List.any_eq_true] at raised
    refine ⟨_, _, _, extreme.trans (extremeOp_answers h hw hact zero last narrow hbest), either, raised, ?_⟩
    cases best with
    | none => exact .inr ⟨isExtreme, rfl, rfl⟩
    | some p => exact .inl ⟨p, isExtreme.1, rfl, rfl, isExtreme.2⟩

end Sys2Proof.Machine
end

section
/-! 08 R194, R195: permutes and moves of vectors, and the instructions on masks. -/
namespace Sys2Proof.Machine

/-! ### Counting the bits of a mask -/

theorem popCount_eq (n x : Nat) : popCount n x = ((List.range n).filter x.testBit).length := by
  induction n generalizing x with
  | zero => rfl
  | succ n ih =>
    have rest : ((List.range n).map Nat.succ).filter x.testBit = ((List.range n).filter (x / 2).testBit).map Nat.succ := by
      rw [List.filter_map]
      congr 1
      exact List.filter_congr fun i _ => Nat.testBit_succ x i
    rw [popCount, ih, List.range_succ_eq_map, List.filter_cons, rest, Nat.testBit_zero]
    obtain even | odd := Nat.mod_two_eq_zero_or_one x
    · simp [even]
    · simp [odd, Nat.add_comm]

theorem lowestOne_spec (n x : Nat) : lowestOne n x ≤ n ∧ (∀ i, i < lowestOne n x → x.testBit i = false) ∧
    (lowestOne n x < n → x.testBit (lowestOne n x) = true) := by
  induction n generalizing x with
  | zero => exact ⟨Nat.le_refl 0, fun i hi => absurd hi (Nat.not_lt_zero i), fun h => absurd h (Nat.lt_irrefl 0)⟩
  | succ n ih =>
    obtain ⟨le, below, here⟩ := ih (x / 2)
    rw [lowestOne]
    split
    · next odd => exact ⟨Nat.zero_le _, fun i hi => absurd hi (Nat.not_lt_zero i), fun _ => by simp [odd]⟩
    · next even =>
      rw [Nat.add_comm]
      refine ⟨Nat.succ_le_succ le, fun i hi => ?_, fun h => ?_⟩
      · cases i with
        | zero => simpa using even
        | succ i => exact (Nat.testBit_succ x i).trans (below i (Nat.lt_of_succ_lt_succ hi))
      · exact (Nat.testBit_succ x _).trans (here (Nat.lt_of_succ_lt_succ h))

/-! ### Words that write a vector register or a mask -/

section
variable {s : State} {i : Instr} (h : Issues i s)
include h

/-- A word that writes every element of a vector register. -/
theorem wholeVector_of_setV {w : Nat} {d : VReg} {f : Nat → Nat} {body : State → Exec}
    (hb : body s = .ok (s.setV d (vBuild w (1024 / w) f))) : WholeVector (run i s body) s w d f := by
  obtain ⟨value, ctxs, frame⟩ := loaded_vector (s := s) (d := d) rfl
  refine ⟨_, run_ok h hb, frame, ctxs, fun e he => ?_⟩
  rw [value, vElem_vBuild _ _ _ _ (Nat.mul_div_le 1024 w) he]

/-- A word whose body writes one mask. -/
theorem maskResult_of_setK {d : KReg} {v : BitVec 32} {body : State → Exec} (hb : body s = .ok (s.setK d v)) :
    MaskResult (run i s body) s d v := by
  obtain ⟨vectors, regs, -, -⟩ := setK_keeps s d v
  refine ⟨_, run_ok h hb, fun r => ?_, fun r => ?_, fun r => ?_, ?_, ?_, ?_⟩
  · rw [retire_kreg]
    exact setK_kreg s d r v
  · rw [retire_vreg, vectors]
  · rw [retire_reg, regs]
  · simp [SameContexts]
  · simp [SameSpecial, SameControl]
  · simp [SameBytes]

theorem selectOp_selects {w : Nat} (hw : w = 32 ∨ w = 64) {d a b : VReg} {k : KReg} : WholeVector (selectOp i w d a b k s) s w d fun e =>
    if (s.kreg k).getLsbD e then vElem w (s.vreg a) e else vElem w (s.vreg b) e := by
  have mask {e : Nat} (he : e < 1024 / w) := maskBit_wide hw (s.kreg k) he
  obtain ⟨t, next, frame, ctxs, elems⟩ := wholeVector_of_setV (d := d) (w := w) h (body := fun s => .ok (s.setV d (vBuild w (1024 / w) fun e =>
    if maskBit w (s.kreg k) e then vElem w (s.vreg a) e else vElem w (s.vreg b) e))) rfl
  exact ⟨t, next, frame, ctxs, fun e he => by simp only [elems e he, mask he]⟩

end

/-- Settles O20: each word by what its body writes, under the mask or whole; the counts of a mask's bits by induction on its width. -/
theorem permutesMovesAndMasks : Obligations.PermutesMovesAndMasks := by
  intro s d a b sd sa sb k l j n5 n4
  simp only [exec_vperm, exec_vrot, exec_vbcast32, exec_vbcast64, exec_vlane, exec_vmov32, exec_vmov64, exec_vins32, exec_vins64,
    exec_vsel32, exec_vsel64, exec_vext32, exec_vext64, exec_kand, exec_kor, exec_kxor, exec_kandn, exec_kset, exec_kget, exec_kpop,
    exec_kffs, execVperm, execVrot, execVbcast32, execVbcast64, execVlane, execVmov32, execVmov64, execVins32, execVins64, execVsel32,
    execVsel64, execVext32, execVext64, execKand, execKor, execKxor, execKandn, execKset, execKget, execKpop, execKffs, moveOp,
    maskOp, maskNum]
  refine ⟨fun h => vectorResult_of_vApply h rfl, fun h => vectorResult_of_vApply h rfl, fun h => vectorResult_of_vApply h rfl,
    fun h => vectorResult_of_vApply h rfl, fun h => vectorResult_of_vApply h rfl, fun h => vectorResult_of_vApply h rfl,
    fun h => vectorResult_of_vApply h rfl, fun h => wholeVector_of_setV h rfl, fun h => wholeVector_of_setV h rfl,
    fun h => selectOp_selects h (.inl rfl), fun h => selectOp_selects h (.inr rfl), fun h => scalarResult_of_setReg h rfl,
    fun h => scalarResult_of_setReg h rfl, rfl, fun h => maskResult_of_setK h rfl, fun h => maskResult_of_setK h rfl,
    fun h => maskResult_of_setK h rfl, fun h => maskResult_of_setK h rfl, fun h => maskResult_of_setK h rfl, fun h => ?get, fun h => ?pop,
    fun h => ?ffs⟩
  case get => exact scalarResult_of_setReg h (by simp)
  case pop => exact scalarResult_of_setReg h (by rw [popCount_eq]; rfl)
  case ffs => exact ⟨_, scalarResult_of_setReg h rfl, lowestOne_spec 32 (s.kreg k).toNat⟩

end Sys2Proof.Machine
end

section
/-! 09 R197, R198, R203-R218: the issue of thresher commands. -/
namespace Sys2Proof.Machine

section
variable {s : State} {c : CReg} {i : Instr} {draws : Bool} {k : ThrCmd}

/-! ### The common issue (09 R197, R198, R203) -/

/-- The command with its number, its place, its first step and its C0: those of the stop record where there is one (09 R203). -/
def State.numberedThr (s : State) (c : CReg) (draws : Bool) (k : ThrCmd) : ThrCmd :=
  let r := s.tile.stop.getD { k with ctr := c, num := (s.tile.ctr c).issue + 1 }
  { k with
    ctr := r.ctr, num := r.num, order := r.order, next := if s.st.mstepValid = true then s.st.mstep.toNat else 0, sto := draws,
    c0 := if draws = true then some (r.c0.getD (BitVec.ofNat 128 s.tile.philoxC)) else none }

/-- The counter gives a number where no stop record has one, issue order gives a place, and the command joins those in flight. -/
def State.numberThr (s : State) (c : CReg) (draws : Bool) (k : ThrCmd) : State :=
  s.onTile fun t =>
    { t with
      ctrs := if t.stop.isSome = true then t.ctrs else (t.modCtr c Counter.numbered).ctrs, stop := none,
      thresher := t.thresher ++ [s.numberedThr c draws k], orderNo := t.orderNo + 1 }

/-- What the issue of a command makes of its strand: it is held while the command has a step to do, and goes on otherwise (09 R198). -/
def ThrCmd.holds (k : ThrCmd) (x : Strand) : Strand :=
  if k.steps ≤ k.next then ({ x with mstep := 0, mstepValid := false } : Strand).retire
  else { x with mstep := 0, mstepValid := false, wait := some .thresher }

theorem holds_regs (x : Strand) : (k.holds x).regs = x.regs := by
  unfold ThrCmd.holds
  split
  · exact retire_regs _
  · rfl

/-- A command that need not wait for a drawing one is numbered, and holds its strand. -/
theorem finish_issueThr (h : Issues i s) (free : draws = true → s.tile.thresher.any ThrCmd.sto = false) :
    finish s (s.issueThr c draws k) = (s.numberThr c draws k).onSt (s.numberedThr c draws k).holds := by
  have room : (draws && s.tile.thresher.any ThrCmd.sto) = false := by
    rw [Bool.and_eq_false_imp]; exact free
  have tile : (s.onTile fun t =>
      { (if t.stop.isSome = true then t else t.modCtr c Counter.numbered) with
        stop := none, thresher := (if t.stop.isSome = true then t else t.modCtr c Counter.numbered).thresher ++ [s.numberedThr c draws k],
        orderNo := (if t.stop.isSome = true then t else t.modCtr c Counter.numbered).orderNo + 1 }) = s.numberThr c draws k := by
    unfold State.onTile State.numberThr
    dsimp only [State.onTile]
    cases s.tile.stop <;> rfl
  have body : s.issueThr c draws k =
      if k.steps ≤ (s.numberedThr c draws k).next then .ok ((s.numberThr c draws k).onSt fun x => { x with mstep := 0, mstepValid := false })
      else .error (.wait .thresher ((s.numberThr c draws k).onSt fun x => { x with mstep := 0, mstepValid := false })) := by
    rw [← tile]
    unfold State.issueThr
    rw [room]
    rfl
  rw [body]
  have same : (s.numberedThr c draws k).steps = k.steps := rfl
  by_cases past : k.steps ≤ (s.numberedThr c draws k).next
  · rw [if_pos past, finish_ok h.budget, State.retire, onSt_onSt]
    refine congrArg (State.onSt _) (funext fun x => ?_)
    rw [ThrCmd.holds, same, if_pos past]
  · rw [if_neg past, finish_wait h.budget, onSt_onSt]
    refine congrArg (State.onSt _) (funext fun x => ?_)
    rw [ThrCmd.holds, same, if_neg past]

theorem numberThr_ctr (r : CReg) : (s.numberThr c draws k).tile.ctr r =
    if s.tile.stop.isSome = true then s.tile.ctr r else if r = c then (s.tile.ctr c).numbered else s.tile.ctr r := by
  by_cases stopped : s.tile.stop.isSome = true
  · rw [if_pos stopped]; exact ctr_congr (if_pos stopped) r
  · rw [if_neg stopped, ← modCtr_ctr s.tile c r]; exact ctr_congr (if_neg stopped) r

theorem numberThr_st : (s.numberThr c draws k).st = s.st := by
  have strands (x : StrandId) : (s.numberThr c draws k).tile.strand x = s.tile.strand x := by cases x <;> rfl
  exact strands s.tile.lastIssued

/-- A word whose checks have passed issues its command. -/
theorem thrIssued_of_issueThr (h : Issues i s) (fresh : k.c0 = none ∧ k.order = s.tile.orderNo)
    (free : draws = true → s.tile.thresher.any ThrCmd.sto = false)
    (run : exec i s = .next (finish s (s.issueThr c draws k))) :
    ThrIssued (exec i s) s c k.op k.z k.f64 draws k.acc k.steps k.addrA k.addrB k.addrD := by
  obtain ⟨noC0, place⟩ := fresh
  rw [finish_issueThr h free] at run
  generalize hu : (s.numberThr c draws k).onSt (s.numberedThr c draws k).holds = u at run
  have st : u.st = (s.numberedThr c draws k).holds s.st := by rw [← hu, onSt_st, numberThr_st]
  have ctr (r : CReg) : u.tile.ctr r = (s.numberThr c draws k).tile.ctr r := by rw [← hu]; exact ctr_congr (onSt_tile_ctrs _ _) r
  refine ⟨u, s.numberedThr c draws k, run, ?_, rfl, rfl, rfl, rfl, rfl, rfl, rfl, rfl, rfl, rfl, ?_, fun fresh => ⟨?_, ?_, ?_, ?_, ?_, fun r hr => ?_⟩,
    fun r stopped => ⟨?_, ?_, ?_, ?_⟩, ?_, ?_, fun more => ?_, fun past => ?_, fun r => ?_, ?_⟩
  · rw [← hu, onSt_tile_thresher]; rfl
  · dsimp only [State.numberedThr]
    cases s.tile.stop with
    | none => rw [Option.getD_none, noC0]; rfl
    | some r => rfl
  · rw [State.numberedThr, fresh]; rfl
  · rw [State.numberedThr, fresh]; rfl
  · rw [State.numberedThr, fresh]; exact place
  · rw [ctr, numberThr_ctr, fresh, if_neg nofun, if_pos rfl]; rfl
  · rw [ctr, numberThr_ctr, fresh, if_neg nofun, if_pos rfl]; rfl
  · rw [ctr, numberThr_ctr, fresh, if_neg nofun, if_neg hr]
  · rw [State.numberedThr, stopped]; rfl
  · rw [State.numberedThr, stopped]; rfl
  · rw [State.numberedThr, stopped]; rfl
  · rw [← hu, onSt_tile_ctrs]; exact if_pos (by rw [stopped]; rfl)
  · rw [← hu, onSt_tile_stop]; rfl
  · rw [← hu, onSt_tile_orderNo]; rfl
  · rw [st, ThrCmd.holds]; exact if_neg (Nat.not_le.2 more)
  · rw [st, ThrCmd.holds]; exact if_pos past
  · exact reg_eq_of_regs (by rw [st, holds_regs]) r
  · subst hu
    refine ⟨sameVectors_of_tile (onSt_tile_v _ _) (onSt_tile_k _ _), onSt_tile_ctxs _ _, ⟨?_, ?_, ?_, ?_, ?_, ?_, ?_⟩,
      sameBytes_of_eq rfl (onSt_tile_spad _ _) (onSt_tile_acc _ _)⟩
    · exact onSt_tile_bfmt _ _
    · exact onSt_tile_phKey _ _
    · exact onSt_tile_phCtrl _ _
    · exact onSt_tile_phCtrh _ _
    · exact onSt_tile_tags _ _
    · exact onSt_tile_regions0 _ _
    · exact onSt_tile_regions1 _ _

/-- A form that never draws issues its command. -/
theorem thrIssued_of_quiet (h : Issues i s) (fresh : k.c0 = none ∧ k.order = s.tile.orderNo)
    (run : exec i s = .next (finish s (s.issueThr c false k))) :
    ThrIssued (exec i s) s c k.op k.z k.f64 false k.acc k.steps k.addrA k.addrB k.addrD :=
  thrIssued_of_issueThr h fresh (fun drawn => absurd drawn Bool.false_ne_true) run

end

end Sys2Proof.Machine
end

section
/-! 09 R197, R203, R205, R207, R212, R214: what each thresher command checks where it issues. -/
namespace Sys2Proof.Machine

section
variable {s : State} {c : CReg} {i : Instr} {acc : AReg} {a b d : SReg} {f : BitVec 1} {n : Nat}

/-- A check that fails raises its cause, whatever would follow it. -/
theorem check_else {α : Type} {ok : Bool} (h : ok = false) {k : Cause} {g : Unit → Except Stop α} :
    (s.check ok k >>= g) = .error (.trap (raise k) s) := by
  rw [State.check, h]; rfl

/-! ### The checks that the forms share (09 R205, R214) -/

/-- An operand whose blocks lie in range lies in the scratchpad. -/
theorem inSpad_rangeOk {t : Tile} {v : DW} {lvl : BitVec 2} {wr : Bool} (h : (t.operand v.toNat).rangeOk t lvl n wr = true) :
    (decide (v.toNat < Config.spadSize) && (t.operand v.toNat).rangeOk t lvl n wr) = true := by
  have inside := h
  simp only [Operand.rangeOk, Bool.and_eq_true] at inside
  rw [h, Bool.and_true]
  exact inside.1.1

theorem sq4Ok_of {o : Operand} (h : o.fmt = 14 → s.tile.feat.getLsbD 2 = true) : s.sq4Ok o = true := by
  by_cases four : o.fmt = 14
  · simp only [State.sq4Ok, h four, Bool.or_true]
  · simp only [State.sq4Ok, bne_iff_ne.2 four, Bool.true_or]

/-- The formats of square operands, sq4 where its feature is present. -/
theorem square_checks {o : Operand} (h : o.fmt = 13 ∨ o.fmt = 15 ∨ o.fmt = 14 ∧ s.tile.feat.getLsbD 2 = true) :
    s.sq4Ok o = true ∧ isSquareFmt o.fmt = true := by
  obtain h | h | ⟨h, on⟩ := h
  · exact ⟨sq4Ok_of (by omega), by rw [h]; rfl⟩
  · exact ⟨sq4Ok_of (by omega), by rw [h]; rfl⟩
  · exact ⟨sq4Ok_of fun _ => on, by rw [h]; rfl⟩

/-- The accumulators of a form lie in the file and in the context's mask, a pair of them from an even one (09 R212, R214). -/
abbrev AccRoom (s : State) (f : BitVec 1) (acc : AReg) (n : Nat) : Prop :=
  (f = 1 → acc.toNat % 2 = 0) ∧ acc.toNat + (if f = 1 then 2 * n else n) ≤ 16 ∧
    ∀ k, k < (if f = 1 then 2 * n else n) → s.cx.accMask.getLsbD (acc.toNat + k) = true

theorem accAllowed_run {m : Nat} (h : ∀ k, k < m → s.cx.accMask.getLsbD (acc.toNat + k) = true) :
    s.accAllowed ((List.range m).map (· + acc.toNat)) = true := by
  simp only [State.accAllowed, List.all_eq_true, List.forall_mem_map, List.mem_range]
  exact fun k hk => by rw [Nat.add_comm]; exact h k hk

theorem AccRoom.checks (h : AccRoom s f acc n) :
    pairOk f acc = true ∧ accRunOk f acc.toNat n = true ∧ s.accAllowed (accTiles f acc.toNat n) = true := by
  obtain ⟨even, fits, mine⟩ := h
  refine ⟨?_, decide_eq_true fits, accAllowed_run mine⟩
  obtain rfl | rfl : f = 0 ∨ f = 1 := by bv_omega
  · rfl
  · simp [pairOk, even rfl]

/-- A count register passes where its count does and no bit is set that its form does not give a meaning. -/
theorem countOk_of {v : DW} {extra : Nat → Bool} (n0 : 1 ≤ v.toNat % 32) (n16 : v.toNat % 32 ≤ 16)
    (clear : ∀ k, 5 ≤ k → k < 64 → extra k = false → v.toNat.testBit k = false) : countOk v extra = true ∧ countN v = v.toNat % 32 := by
  have count : bitsOf v.toNat 0 5 = v.toNat % 32 := by simp [bitsOf]
  refine ⟨?_, count⟩
  simp only [countOk, count, decide_eq_true n0, decide_eq_true n16, Bool.true_and, List.all_eq_true, List.mem_range, Bool.or_eq_true,
    Bool.not_eq_true']
  intro k hk
  cases e : extra (k + 5) with
  | true => exact .inl rfl
  | false => exact .inr (clear (k + 5) (by omega) (by omega) e)

theorem countOk_plain (hn : (s.reg b).toNat = n) (n0 : 1 ≤ n) (n16 : n ≤ 16) :
    countOk (s.reg b) (fun _ => false) = true ∧ countN (s.reg b) = n := by
  subst hn
  have small : (s.reg b).toNat % 32 = (s.reg b).toNat := by omega
  rw [← small] at n0 n16
  obtain ⟨ok, count⟩ := countOk_of (v := s.reg b) (extra := fun _ => false) n0 n16 fun k low _ _ =>
    Nat.testBit_lt_two_pow (lt_of_lt_of_le (by omega) (Nat.pow_le_pow_right (by omega) low))
  exact ⟨ok, count.trans small⟩

/-- The count register of `sq.align` holds ET above its count (09 R217). -/
theorem countOk_align {et : Nat} (hn : (s.reg b).toNat = n + et * 2 ^ 8) (small : et < 2 ^ 8) (n0 : 1 ≤ n) (n16 : n ≤ 16) :
    countOk (s.reg b) (fun k => decide (8 ≤ k) && decide (k < 16)) = true ∧ countN (s.reg b) = n := by
  have count : (s.reg b).toNat % 32 = n := by omega
  obtain ⟨ok, eq⟩ := countOk_of (v := s.reg b) (extra := fun k => decide (8 ≤ k) && decide (k < 16)) (by omega) (by omega)
    fun k low high plain => by
      obtain below | above : k < 8 ∨ 16 ≤ k := by
        simp only [Bool.and_eq_false_iff, decide_eq_false_iff_not] at plain
        omega
      · have byte : (s.reg b).toNat % 2 ^ 8 = n := by omega
        have bit := Nat.testBit_mod_two_pow (s.reg b).toNat 8 k
        rw [byte, decide_eq_true below, Bool.true_and] at bit
        rw [← bit]
        exact Nat.testBit_lt_two_pow (lt_of_lt_of_le (by omega) (Nat.pow_le_pow_right (by omega) low))
      · exact Nat.testBit_lt_two_pow (lt_of_lt_of_le (by omega) (Nat.pow_le_pow_right (by omega) above))
  exact ⟨ok, eq.trans count⟩

/-! ### `mma` (09 R207-R209) -/

/-- What `mma` checks of its operands once its accumulators are the context's, and its issue. -/
def State.mmaOperands (s : State) (c : CReg) (tr z f64 : Bool) (acc n : Nat) (va vb ctl : DW) : Exec := do
  s.check (f64 || (decide (7 ≤ (s.tile.operand va.toNat).fmt) && decide ((s.tile.operand va.toNat).fmt ≤ 14))) .bankfmt
  s.check (f64 || (decide (7 ≤ (s.tile.operand vb.toNat).fmt) && decide ((s.tile.operand vb.toNat).fmt ≤ 14))) .bankfmt
  s.checkAt (s.tile.operand va.toNat).aligned .align va
  s.checkAt (s.tile.operand vb.toNat).aligned .align vb
  s.checkAt (decide (va.toNat < Config.spadSize) && (s.tile.operand va.toNat).rangeOk s.tile s.st.lvl n false) .prot va
  s.checkAt (decide (vb.toNat < Config.spadSize) && (s.tile.operand vb.toNat).rangeOk s.tile s.st.lvl n false) .prot vb
  s.issueThr c false { s.thrCmd (.mma tr) f64 acc n va vb 0 ctl with z := z }

/-- The formats of the operands of an `mma`: both fp64, or both plain or square formats of at most 32 bits (09 R207). -/
abbrev MmaFormats (s : State) (f64 : Bool) (oa ob : Operand) : Prop :=
  f64 = true ∧ oa.fmt = 6 ∧ ob.fmt = 6 ∧ s.tile.feat.getLsbD 1 = true ∨
    f64 = false ∧ 7 ≤ oa.fmt ∧ oa.fmt ≤ 14 ∧ 7 ≤ ob.fmt ∧ ob.fmt ≤ 14 ∧
      (oa.fmt = 14 ∨ ob.fmt = 14 → s.tile.feat.getLsbD 2 = true)

theorem MmaFormats.checks {f64 : Bool} {oa ob : Operand} (h : MmaFormats s f64 oa ob) :
    (oa.fmt == 6 && ob.fmt == 6) = f64 ∧ (s.sq4Ok oa && s.sq4Ok ob && (!f64 || s.tile.feat.getLsbD 1)) = true ∧
      (f64 || (decide (7 ≤ oa.fmt) && decide (oa.fmt ≤ 14))) = true ∧ (f64 || (decide (7 ≤ ob.fmt) && decide (ob.fmt ≤ 14))) = true := by
  obtain ⟨rfl, ha, hb, on⟩ | ⟨rfl, a7, a14, b7, b14, on⟩ := h
  · simp [ha, hb, on, State.sq4Ok]
  · have plain : (oa.fmt == 6) = false := beq_eq_false_iff_ne.2 (by omega)
    simp [plain, a7, a14, b7, b14, sq4Ok_of fun four => on (.inl four), sq4Ok_of fun four => on (.inr four)]

/-- The control register of an `mma`: 1 to 64 steps, at most 53 planes, every other bit 0 (09 R208). -/
abbrev MmaCtl (ctl : DW) (n : Nat) : Prop :=
  n = ctl.toNat % 2 ^ 7 ∧ 1 ≤ n ∧ n ≤ 64 ∧ ctl.toNat < 2 ^ 14 ∧ ctl.toNat / 2 ^ 7 % 2 = 0 ∧ ctl.toNat / 2 ^ 8 ≤ 53

theorem MmaCtl.checks {ctl : DW} (h : MmaCtl ctl n) : bitsOf ctl.toNat 0 7 = n ∧
    (decide (1 ≤ n) && decide (n ≤ 64) && decide (bitsOf ctl.toNat 8 6 ≤ 53) && decide (bitsOf ctl.toNat 7 1 = 0) &&
      decide (ctl.toNat < 2 ^ 14)) = true := by
  obtain ⟨rfl, n0, n64, high, seven, planes⟩ := h
  refine ⟨by simp [bitsOf], ?_⟩
  have q : bitsOf ctl.toNat 8 6 ≤ 53 := (Nat.mod_le _ _).trans planes
  have reserved : bitsOf ctl.toNat 7 1 = 0 := seven
  simp only [decide_eq_true n0, decide_eq_true n64, decide_eq_true q, decide_eq_true reserved, decide_eq_true high, Bool.and_self]

variable {e : SReg} {tr z f64 : Bool}

/-- An `mma` whose formats and control register pass comes to the check of its accumulators, and then to its operands. -/
theorem mma_body (h : Issues i s)
    (form : (i = .mma acc a b e c ∧ tr = false ∧ z = false) ∨ (i = .mmaZ acc a b e c ∧ tr = false ∧ z = true) ∨
      (i = .mmaT acc a b e c ∧ tr = true ∧ z = false) ∨ (i = .mmaTZ acc a b e c ∧ tr = true ∧ z = true))
    (formats : MmaFormats s f64 (s.tile.operand (s.reg a).toNat) (s.tile.operand (s.reg b).toNat)) (even : f64 = true → acc.toNat % 2 = 0)
    (ctl : MmaCtl (s.reg e) n) :
    exec i s = .next (finish s (s.check (s.accAllowed (if f64 = true then [acc.toNat, acc.toNat + 1] else [acc.toNat])) .prot >>= fun _ =>
      s.mmaOperands c tr z f64 acc.toNat n (s.reg a) (s.reg b) (s.reg e))) := by
  have op : exec i s = mmaOp i tr z acc a b e c s := by
    obtain ⟨rfl, rfl, rfl⟩ | ⟨rfl, rfl, rfl⟩ | ⟨rfl, rfl, rfl⟩ | ⟨rfl, rfl, rfl⟩ := form <;> rfl
  obtain ⟨wide, features, -, -⟩ := formats.checks
  obtain ⟨steps, fields⟩ := ctl.checks
  have pair : (!f64 || acc.toNat % 2 == 0) = true := by
    cases f64 with
    | false => rfl
    | true => simp [even rfl]
  rw [op, mmaOp, h.run]
  dsimp only
  rw [wide, steps]
  refine congrArg (fun r => Host.Outcome.next (finish s r)) ?_
  exact (check_then features).trans ((check_then pair).trans ((check_then fields).trans rfl))

theorem mmaOperands_issues (formats : MmaFormats s f64 (s.tile.operand (s.reg a).toNat) (s.tile.operand (s.reg b).toNat))
    (alignedA : (s.tile.operand (s.reg a).toNat).aligned = true) (alignedB : (s.tile.operand (s.reg b).toNat).aligned = true)
    (rangeA : (s.tile.operand (s.reg a).toNat).rangeOk s.tile s.st.lvl n false = true)
    (rangeB : (s.tile.operand (s.reg b).toNat).rangeOk s.tile s.st.lvl n false = true) (ctl : DW) :
    s.mmaOperands c tr z f64 acc.toNat n (s.reg a) (s.reg b) ctl =
      s.issueThr c false { s.thrCmd (.mma tr) f64 acc.toNat n (s.reg a) (s.reg b) 0 ctl with z := z } := by
  obtain ⟨-, -, fa, fb⟩ := formats.checks
  exact (check_then fa).trans ((check_then fb).trans ((checkAt_then alignedA).trans ((checkAt_then alignedB).trans
    ((checkAt_then (inSpad_rangeOk rangeA)).trans (checkAt_then (inSpad_rangeOk rangeB))))))

/-! ### The other forms (09 R212-R218) -/

theorem accZero_tooMany {n5 : BitVec 5} (h : Issues (.accZero acc n5 c) s) (many : 15 < acc.toNat + n5.toNat) :
    exec (.accZero acc n5 c) s = .next (s.takeTrap (raise .ill)) := by
  rw [exec_accZero, execAccZero]
  exact run_trap h (check_else (decide_eq_false (Nat.not_le.2 many)))

theorem accZero_issues {n5 : BitVec 5} (h : Issues (.accZero acc n5 c) s) (few : acc.toNat + n5.toNat ≤ 15)
    (mine : ∀ k, k ≤ n5.toNat → s.cx.accMask.getLsbD (acc.toNat + k) = true) :
    exec (.accZero acc n5 c) s =
      .next (finish s (s.issueThr c false (s.thrCmd .accZero false acc.toNat (n5.toNat + 1) 0 0 0 0))) := by
  rw [exec_accZero, execAccZero, h.run]
  exact congrArg (fun r => Host.Outcome.next (finish s r))
    ((check_then (decide_eq_true few)).trans (check_then (accAllowed_run fun k hk => mine k (Nat.lt_succ_iff.1 hk))))

/-- The raw moves: `acc.ld` reads the scratchpad, `acc.st` writes it. -/
theorem rawMove_issues (h : Issues i s) (form : (i = .accLd acc d c ∧ z = false) ∨ (i = .accSt d acc c ∧ z = true))
    (mine : s.cx.accMask.getLsbD acc.toNat = true) (line : (s.reg d).toNat % 64 = 0) (inside : (s.reg d).toNat < 2 ^ 20)
    (bank : (s.reg d).toNat % 2 ^ 16 + 4096 ≤ 2 ^ 16) (region : s.tile.regionOk s.st.lvl (s.reg d).toNat 4096 z = true) :
    exec i s = .next (finish s (s.issueThr c false (s.thrCmd (if z = true then .accSt else .accLd) false acc.toNat 1
      (if z = true then 0 else s.reg d) 0 (if z = true then s.reg d else 0) 0))) := by
  have allowed : s.accAllowed [acc.toNat] = true := by simpa [State.accAllowed] using mine
  have place : (decide ((s.reg d).toNat < Config.spadSize) && decide ((s.reg d).toNat % 65536 + 4096 ≤ 65536) &&
      s.tile.regionOk s.st.lvl (s.reg d).toNat 4096 z) = true := by
    rw [region, Bool.and_true, Bool.and_eq_true]
    exact ⟨decide_eq_true inside, decide_eq_true bank⟩
  have raw : s.rawTileCheck (s.reg d) z = .ok () := (checkAt_then (beq_iff_eq.2 line)).trans (checkAt_of place _ _)
  obtain ⟨rfl, rfl⟩ | ⟨rfl, rfl⟩ := form
  · rw [exec_accLd, execAccLd, h.run, check_of allowed, raw]
    rfl
  · rw [exec_accSt, execAccSt, h.run, check_of allowed, raw]
    rfl

theorem accCvt_issues (h : Issues (.accCvt f d acc c) s) (room : AccRoom s f acc 1)
    (plain : isSquareFmt (s.tile.operand (s.reg d).toNat).fmt = false) (aligned : (s.tile.operand (s.reg d).toNat).aligned = true)
    (range : (s.tile.operand (s.reg d).toNat).rangeOk s.tile s.st.lvl 1 true = true) :
    exec (.accCvt f d acc c) s = .next (finish s (s.issueThr c
      (s.sto && (fmtOf (s.tile.operand (s.reg d).toNat).fmt).isSome && (s.tile.operand (s.reg d).toNat).fmt != (if f = 1 then 6 else 7))
      (s.thrCmd .accCvt (f == 1) acc.toNat 1 0 0 (s.reg d) 0))) := by
  obtain ⟨pair, -, mine⟩ := room.checks
  rw [exec_accCvt, execAccCvt, h.run]
  exact congrArg (fun r => Host.Outcome.next (finish s r))
    ((check_then pair).trans ((check_then mine).trans ((check_then (by rw [plain]; rfl)).trans ((checkAt_then aligned).trans
      (checkAt_then (inSpad_rangeOk range))))))

theorem sqQuant_issues (h : Issues (.sqQuant f d acc a b c) s) (count : (s.reg b).toNat = n) (n0 : 1 ≤ n) (n16 : n ≤ 16)
    (ident : (s.reg a).toNat < 2 ^ 48) (room : AccRoom s f acc n)
    (format : (s.tile.operand (s.reg d).toNat).fmt = 13 ∨ (s.tile.operand (s.reg d).toNat).fmt = 14 ∧ s.tile.feat.getLsbD 2 = true)
    (aligned : (s.tile.operand (s.reg d).toNat).aligned = true)
    (range : (s.tile.operand (s.reg d).toNat).rangeOk s.tile s.st.lvl n true = true) :
    exec (.sqQuant f d acc a b c) s = .next (finish s (s.issueThr c s.sto
      (s.thrCmd .quant (f == 1) acc.toNat n 0 0 (s.reg d) (s.reg a)))) := by
  obtain ⟨pair, fits, mine⟩ := room.checks
  obtain ⟨countOk, countN⟩ := countOk_plain count n0 n16
  obtain ⟨four, -⟩ := square_checks (format.imp_right .inr)
  have fmt : ((s.tile.operand (s.reg d).toNat).fmt == 13 || (s.tile.operand (s.reg d).toNat).fmt == 14) = true := by
    rw [Bool.or_eq_true, beq_iff_eq, beq_iff_eq]
    exact format.imp_right And.left
  rw [exec_sqQuant, execSqQuant, h.run]
  dsimp only
  rw [countN]
  exact congrArg (fun r => Host.Outcome.next (finish s r))
    ((check_then (by rw [pair, fits]; rfl)).trans ((check_then four).trans ((check_then countOk).trans ((check_then (decide_eq_true ident)).trans
      ((check_then mine).trans ((check_then fmt).trans ((checkAt_then aligned).trans (checkAt_then (inSpad_rangeOk range)))))))))

theorem sqDeq_issues (h : Issues (.sqDeq f acc d b c) s) (count : (s.reg b).toNat = n) (n0 : 1 ≤ n) (n16 : n ≤ 16)
    (room : AccRoom s f acc n)
    (format : (s.tile.operand (s.reg d).toNat).fmt = 13 ∨ (s.tile.operand (s.reg d).toNat).fmt = 15 ∨
      (s.tile.operand (s.reg d).toNat).fmt = 14 ∧ s.tile.feat.getLsbD 2 = true)
    (aligned : (s.tile.operand (s.reg d).toNat).aligned = true)
    (range : (s.tile.operand (s.reg d).toNat).rangeOk s.tile s.st.lvl n false = true) :
    exec (.sqDeq f acc d b c) s = .next (finish s (s.issueThr c false (s.thrCmd .deq (f == 1) acc.toNat n (s.reg d) 0 0 0))) := by
  obtain ⟨pair, fits, mine⟩ := room.checks
  obtain ⟨countOk, countN⟩ := countOk_plain count n0 n16
  obtain ⟨four, square⟩ := square_checks format
  rw [exec_sqDeq, execSqDeq, h.run]
  dsimp only
  rw [countN]
  exact congrArg (fun r => Host.Outcome.next (finish s r))
    ((check_then (by rw [pair, fits]; rfl)).trans ((check_then four).trans ((check_then countOk).trans ((check_then mine).trans
      ((check_then square).trans ((checkAt_then aligned).trans (checkAt_then (inSpad_rangeOk range))))))))

theorem sqAlign_issues {et : Nat} (h : Issues (.sqAlign d a b c) s) (count : (s.reg b).toNat = n + et * 2 ^ 8) (small : et < 2 ^ 8)
    (n0 : 1 ≤ n) (n16 : n ≤ 16) (dest : (s.tile.operand (s.reg d).toNat).fmt = 15)
    (source : (s.tile.operand (s.reg a).toNat).fmt = 13 ∨ (s.tile.operand (s.reg a).toNat).fmt = 15 ∨
      (s.tile.operand (s.reg a).toNat).fmt = 14 ∧ s.tile.feat.getLsbD 2 = true)
    (alignedD : (s.tile.operand (s.reg d).toNat).aligned = true) (alignedA : (s.tile.operand (s.reg a).toNat).aligned = true)
    (rangeD : (s.tile.operand (s.reg d).toNat).rangeOk s.tile s.st.lvl n true = true)
    (rangeA : (s.tile.operand (s.reg a).toNat).rangeOk s.tile s.st.lvl n false = true) :
    exec (.sqAlign d a b c) s = .next (finish s (s.issueThr c false
      (s.thrCmd .align false 0 n (s.reg a) 0 (s.reg d) (s.reg b)))) := by
  obtain ⟨countOk, countN⟩ := countOk_align count small n0 n16
  obtain ⟨fourA, square⟩ := square_checks source
  obtain ⟨fourD, -⟩ := square_checks (s := s) (.inr (.inl dest))
  rw [exec_sqAlign, execSqAlign, h.run]
  dsimp only
  rw [countN]
  exact congrArg (fun r => Host.Outcome.next (finish s r))
    ((check_then (by rw [fourA, fourD]; rfl)).trans ((check_then countOk).trans ((check_then (beq_iff_eq.2 dest)).trans ((check_then square).trans
      ((checkAt_then alignedD).trans ((checkAt_then alignedA).trans ((checkAt_then (inSpad_rangeOk rangeD)).trans
        (checkAt_then (inSpad_rangeOk rangeA)))))))))

theorem sqScale_issues (h : Issues (.sqScale d a b c) s) (count : (s.reg b).toNat = n) (n0 : 1 ≤ n) (n16 : n ≤ 16)
    (format : (s.tile.operand (s.reg d).toNat).fmt = 13 ∨ (s.tile.operand (s.reg d).toNat).fmt = 15 ∨
      (s.tile.operand (s.reg d).toNat).fmt = 14 ∧ s.tile.feat.getLsbD 2 = true)
    (aligned : (s.tile.operand (s.reg d).toNat).aligned = true)
    (range : (s.tile.operand (s.reg d).toNat).rangeOk s.tile s.st.lvl n true = true) :
    exec (.sqScale d a b c) s = .next (finish s (s.issueThr c false (s.thrCmd .scale false 0 n 0 0 (s.reg d) (s.reg a)))) := by
  obtain ⟨countOk, countN⟩ := countOk_plain count n0 n16
  obtain ⟨four, square⟩ := square_checks format
  rw [exec_sqScale, execSqScale, h.run]
  dsimp only
  rw [countN]
  exact congrArg (fun r => Host.Outcome.next (finish s r))
    ((check_then four).trans ((check_then countOk).trans ((check_then square).trans ((checkAt_then aligned).trans
      (checkAt_then (inSpad_rangeOk range))))))

end

/-- Settles O34: each form comes by its checks to the common issue. -/
theorem thresherIssue : Obligations.ThresherIssue := by
  intro s i c acc a b d f n5 tr z f64 n oa ob od room h hoa hob hod hf hroom
  subst hoa hob hod
  have accRoom : room → AccRoom s f acc n := fun r => by simpa [AccRoom, hf] using hroom.1 r
  have wide : (f == 1) = f64 := by rw [hf, beq_eq_decide]
  refine ⟨fun ctl e form hctl formats hn n0 n64 top seven planes => ?_, ?_, fun form mine line inside bank region => ?_, ?_, ?_, ?_, ?_, ?_⟩
  · subst hctl
    have fields : MmaCtl (s.reg e) n := ⟨hn, n0, n64, top, seven, planes⟩
    refine ⟨fun none even => ?_, fun pair one alignedA alignedB rangeA rangeB => ?_⟩
    · rw [mma_body h form formats even fields, check_else]
      · rfl
      · cases f64 <;> simp [State.accAllowed, none]
    · have mine : s.accAllowed (if f64 = true then [acc.toNat, acc.toNat + 1] else [acc.toNat]) = true := by
        cases f64 with
        | false => simp [State.accAllowed, one]
        | true => simp [State.accAllowed, one, (pair rfl).2]
      have run := mma_body h form formats (fun w => (pair w).1) fields
      rw [check_then mine, mmaOperands_issues formats alignedA alignedB rangeA rangeB] at run
      exact thrIssued_of_quiet h ⟨rfl, rfl⟩ run
  · rintro rfl
    exact ⟨accZero_tooMany h, fun few mine => thrIssued_of_quiet h ⟨rfl, rfl⟩ (accZero_issues h few mine)⟩
  · exact thrIssued_of_quiet h ⟨rfl, rfl⟩ (rawMove_issues h form mine line inside bank region)
  · rintro draws rfl rfl r plain aligned range hdraws free
    have run := accCvt_issues h (accRoom r) plain aligned range
    have source : (if f = 1 then 6 else 7) = if f64 = true then 6 else 7 := by simp [hf]
    rw [source, ← hdraws, wide] at run
    exact thrIssued_of_issueThr h ⟨rfl, rfl⟩ free run
  · rintro rfl count n0 n16 ident r format aligned range free
    have run := sqQuant_issues h count n0 n16 ident (accRoom r) format aligned range
    rw [wide] at run
    exact thrIssued_of_issueThr h ⟨rfl, rfl⟩ free run
  · rintro rfl count n0 n16 r format aligned range
    have run := sqDeq_issues h count n0 n16 (accRoom r) format aligned range
    rw [wide] at run
    exact thrIssued_of_quiet h ⟨rfl, rfl⟩ run
  · rintro et rfl count small n0 n16 dest source alignedD alignedA rangeD rangeA
    exact thrIssued_of_quiet h ⟨rfl, rfl⟩ (sqAlign_issues h count small n0 n16 dest source alignedD alignedA rangeD rangeA)
  · rintro rfl count n0 n16 format aligned range
    exact thrIssued_of_quiet h ⟨rfl, rfl⟩ (sqScale_issues h count n0 n16 format aligned range)

end Sys2Proof.Machine
end

section
/-! 06 R136, R139, 07 R154, 09 R205: the fields of numbers, and the codes and headers that blocks of operands and accumulators hold. -/
namespace Sys2Proof.Machine

/-! ### Fields of numbers (07 R154) -/

theorem testBit_bitsOf (x lo n i : Nat) : (bitsOf x lo n).testBit i = (decide (i < n) && x.testBit (lo + i)) := by
  rw [bitsOf, Nat.testBit_mod_two_pow, Nat.testBit_div_two_pow, Nat.add_comm]

theorem bitsOf_lt (x lo n : Nat) : bitsOf x lo n < 2 ^ n := Nat.mod_lt _ (Nat.two_pow_pos n)

/-- A number is its bits below a field, the field, and its bits above. -/
theorem eq_low_field_high (x lo n : Nat) : x = x % 2 ^ lo + 2 ^ lo * (bitsOf x lo n + 2 ^ n * (x / 2 ^ (lo + n))) := by
  have low := Nat.mod_add_div x (2 ^ lo)
  have field := Nat.mod_add_div (x / 2 ^ lo) (2 ^ n)
  rw [Nat.div_div_eq_div_mul, ← Nat.pow_add] at field
  rw [bitsOf, field, low]

theorem setBits_eq (x lo n v : Nat) : setBits x lo n v = x % 2 ^ lo + 2 ^ lo * (v % 2 ^ n + 2 ^ n * (x / 2 ^ (lo + n))) := by
  have parts := eq_low_field_high x lo n
  generalize x / 2 ^ (lo + n) = high at parts
  generalize x % 2 ^ lo = low at parts
  rw [setBits]
  generalize bitsOf x lo n = field at parts ⊢
  rw [parts]
  simp only [Nat.mul_add]
  have := Nat.mul_comm (2 ^ lo) field
  have := Nat.mul_comm (2 ^ lo) (v % 2 ^ n)
  omega

/-- Setting a field replaces its bits and leaves the others. -/
theorem testBit_setBits (x lo n v i : Nat) :
    (setBits x lo n v).testBit i = if lo ≤ i ∧ i < lo + n then v.testBit (i - lo) else x.testBit i := by
  rw [setBits_eq, Nat.add_comm, Nat.testBit_two_pow_mul_add _ (Nat.mod_lt _ (Nat.two_pow_pos lo))]
  by_cases below : i < lo
  · rw [if_pos below, if_neg (by omega), Nat.testBit_mod_two_pow, decide_eq_true below, Bool.true_and]
  · rw [if_neg below, Nat.add_comm (v % 2 ^ n), Nat.testBit_two_pow_mul_add _ (Nat.mod_lt _ (Nat.two_pow_pos n))]
    by_cases inside : i - lo < n
    · rw [if_pos inside, if_pos (by omega), Nat.testBit_mod_two_pow, decide_eq_true inside, Bool.true_and]
    · rw [if_neg inside, if_neg (by omega), Nat.testBit_div_two_pow, show i - lo - n + (lo + n) = i by omega]

theorem bitsOf_setBits_self (x lo n v : Nat) : bitsOf (setBits x lo n v) lo n = v % 2 ^ n := by
  refine Nat.eq_of_testBit_eq fun i => ?_
  rw [testBit_bitsOf, testBit_setBits, Nat.testBit_mod_two_pow]
  by_cases h : i < n
  · rw [if_pos (by omega), Nat.add_sub_cancel_left]
  · simp [h]

/-- A field apart from the one that is set stays. -/
theorem bitsOf_setBits_apart {lo n lo' n' : Nat} (h : lo' + n' ≤ lo ∨ lo + n ≤ lo') (x v : Nat) :
    bitsOf (setBits x lo n v) lo' n' = bitsOf x lo' n' := by
  refine Nat.eq_of_testBit_eq fun i => ?_
  rw [testBit_bitsOf, testBit_setBits, testBit_bitsOf]
  by_cases inside : i < n'
  · rw [if_neg (by omega)]
  · simp [inside]

theorem setBits_lt {x lo n k : Nat} (h : x < 2 ^ k) (fits : lo + n ≤ k) (v : Nat) : setBits x lo n v < 2 ^ k := by
  refine Nat.lt_pow_two_of_testBit _ fun i hi => ?_
  rw [testBit_setBits, if_neg (by omega)]
  exact Nat.testBit_lt_two_pow (lt_of_lt_of_le h (Nat.pow_le_pow_right (by omega) hi))

theorem setBits_div {lo n k : Nat} (h : lo + n ≤ k) (x v : Nat) : setBits x lo n v / 2 ^ k = x / 2 ^ k := by
  refine Nat.eq_of_testBit_eq fun i => ?_
  rw [Nat.testBit_div_two_pow, Nat.testBit_div_two_pow, testBit_setBits, if_neg (by omega)]

theorem setBits_mod {lo n k : Nat} (h : k ≤ lo) (x v : Nat) : setBits x lo n v % 2 ^ k = x % 2 ^ k := by
  refine Nat.eq_of_testBit_eq fun i => ?_
  rw [Nat.testBit_mod_two_pow, Nat.testBit_mod_two_pow, testBit_setBits]
  by_cases inside : i < k
  · rw [if_neg (by omega)]
  · simp [inside]

/-! ### Lists by place -/

/-- A list made of runs of one length: an element is one of its run. -/
theorem getD_flatMap_range {α : Type} {f : Nat → List α} {len n i r : Nat} (each : ∀ j, (f j).length = len) (hi : i < n) (hr : r < len)
    (d : α) : ((List.range n).flatMap f).getD (len * i + r) d = (f i).getD r d := by
  have total (m : Nat) : ((List.range m).flatMap f).length = len * m := by
    induction m with
    | zero => simp
    | succ m ih => rw [List.range_succ, List.flatMap_append, List.length_append, ih]; simp [each, Nat.mul_succ]
  induction n with
  | zero => omega
  | succ n ih =>
    rw [List.range_succ, List.flatMap_append]
    obtain hi | rfl := Nat.lt_or_eq_of_le (Nat.lt_succ_iff.1 hi)
    · have before : len * i + r < len * n := lt_of_lt_of_le (by rw [Nat.mul_succ]; omega) (Nat.mul_le_mul_left len (Nat.succ_le_of_lt hi))
      rw [List.getD_append _ _ _ _ (by rw [total]; exact before), ih hi]
    · rw [List.getD_append_right _ _ _ _ (by rw [total]; omega), total, Nat.add_sub_cancel_left]
      simp

theorem length_flatMap_range {α : Type} {f : Nat → List α} {len : Nat} (each : ∀ j, (f j).length = len) (n : Nat) :
    ((List.range n).flatMap f).length = len * n := by
  rw [List.length_flatMap, List.map_congr_left fun j _ => each j]
  simp [Nat.mul_comm]

/-- Two lists of numbers of one length are equal where their elements are. -/
theorem eq_of_getD {xs ys : List Nat} (len : xs.length = ys.length) (h : ∀ p, p < xs.length → xs.getD p 0 = ys.getD p 0) : xs = ys := by
  refine List.ext_getElem len fun p hx hy => ?_
  simpa [hx, hy] using h p hx

theorem getD_map_mod (cs : List Nat) (m p : Nat) : (cs.map (· % m)).getD p 0 = cs.getD p 0 % m := by
  rw [← Nat.zero_mod m, List.getD_map]; simp

theorem getD_map_div (cs : List Nat) (m p : Nat) : (cs.map (· / m)).getD p 0 = cs.getD p 0 / m := by
  rw [← Nat.zero_div m, List.getD_map]; simp

theorem getD_range_map {α : Type} (f : Nat → α) {n p : Nat} (h : p < n) (d : α) : ((List.range n).map f).getD p d = f p := by
  simp [h]

theorem getD_zipWith {f : Nat → Nat → Nat} {xs ys : List Nat} {p : Nat} (hx : p < xs.length) (hy : p < ys.length) :
    (List.zipWith f xs ys).getD p 0 = f (xs.getD p 0) (ys.getD p 0) := by
  simp [List.getD_eq_getElem?_getD, hx, hy]

/-- What is made of each element of a list and its place. -/
theorem map_zipIdx_eq {α : Type} (cs : List Nat) (f : Nat × Nat → α) :
    cs.zipIdx.map f = (List.range cs.length).map fun p => f (cs.getD p 0, p) := by
  refine List.ext_getElem (by simp) fun p hx hy => ?_
  have h : p < cs.length := by simpa using hx
  simp [h]

/-! ### Packed codes (06 R136) -/

theorem bytesOfCodes_length {cs : List Nat} (w : Nat) (h : cs.length = 1024) : (bytesOfCodes w cs).length = 128 * w := by
  rw [bytesOfCodes, leBytes_length, h]
  omega

theorem codesOfBytes_length (w n : Nat) (bs : List Byte) : (codesOfBytes w n bs).length = n := by
  simp [codesOfBytes]

/-- The codes that packed bytes in memory hold. -/
theorem codesOfBytes_of_holds {m : Memory} {a w : Nat} {cs : List Nat} (h : m.Holds a (bytesOfCodes w cs)) (len : cs.length = 1024) :
    codesOfBytes w 1024 (m.readBytes a (128 * w)) = cs.map (· % 2 ^ w) := by
  have number : ofLe (m.readBytes a (128 * w)) = packList w cs := by
    have small := packList_lt w cs
    have bytes : (w * cs.length + 7) / 8 = 128 * w := by rw [len]; omega
    rw [bytesOfCodes, bytes] at h
    refine h.readLe.trans (Nat.mod_eq_of_lt ?_)
    rwa [len, show w * 1024 = 8 * (128 * w) by omega] at small
  refine eq_of_getD (by simp [codesOfBytes_length, len]) fun p hp => ?_
  rw [codesOfBytes_length] at hp
  rw [getD_map_mod, codesOfBytes, number, getD_range_map _ hp, bitsOf_packList]

/-! ### Codes in planes (06 R136) -/

theorem planeCodes_length (m : Memory) (fmt bank slot : Nat) : (m.planeCodes fmt bank slot).length = 1024 :=
  length_flatMap_range (len := 32) (fun _ => by simp) 32

/-- The bytes of plane j of a slot. -/
def planeRows (fmt : Nat) (cs : List Nat) (j : Nat) : List Byte :=
  (List.range 32).flatMap fun i =>
    leBytes 4 (packList 1 ((List.range 32).map fun c => if bitOf (cs.toArray.getD (32 * i + c) 0) (bankWidth fmt - 1 - j) then 1 else 0))

theorem planeRows_length (fmt : Nat) (cs : List Nat) (j : Nat) : (planeRows fmt cs j).length = 128 :=
  length_flatMap_range (len := 4) (fun _ => leBytes_length _ _) 32

theorem planeBytes_eq (fmt : Nat) (cs : List Nat) : planeBytes fmt cs = (List.range (bankWidth fmt)).flatMap (planeRows fmt cs) := rfl

theorem planeBytes_length (fmt : Nat) (cs : List Nat) : (planeBytes fmt cs).length = 128 * bankWidth fmt :=
  length_flatMap_range (planeRows_length fmt cs) _

/-- The bits of the word of a row in a plane. -/
theorem testBit_packBits (f : Nat → Bool) {c : Nat} (h : c < 32) :
    (packList 1 ((List.range 32).map fun c => if f c then 1 else 0)).testBit c = f c := by
  have bit := bitsOf_packList 1 c ((List.range 32).map fun c => if f c then 1 else 0)
  rw [getD_range_map _ h, Nat.one_mul] at bit
  have value : (packList 1 ((List.range 32).map fun c => if f c then 1 else 0) / 2 ^ c) % 2 = if f c then 1 else 0 := by
    refine bit.trans ?_
    cases f c <;> rfl
  rw [← bitOf_testBit, bitOf, value]
  cases f c <;> rfl

/-- The codes that a slot in memory holds. -/
theorem planeCodes_of_holds {m : Memory} {fmt bank slot : Nat} {cs : List Nat}
    (h : m.Holds (bank * 65536 + slot * slotBytes fmt) (planeBytes fmt cs)) (len : cs.length = 1024) :
    m.planeCodes fmt bank slot = cs.map (· % 2 ^ bankWidth fmt) := by
  refine eq_of_getD (by rw [planeCodes_length, List.length_map, len]) fun p hp => ?_
  rw [planeCodes_length] at hp
  have row : p / 32 < 32 := by omega
  have column : p % 32 < 32 := Nat.mod_lt p (by decide)
  have place : (m.planeCodes fmt bank slot).getD p 0 = codeOfPlanes (m.planeRow fmt bank slot (p / 32)) (p % 32) := by
    rw [Memory.planeCodes, ← Nat.div_add_mod p 32, getD_flatMap_range (fun _ => by simp) row column, getD_range_map _ column]
    simp only [Nat.div_add_mod]
  rw [place, getD_map_mod]
  refine codeOfPlanes_planeRow (Nat.mod_lt _ (Nat.two_pow_pos _)) fun j hj => ?_
  have word : m.Holds (planeWord fmt bank slot j (p / 32)) (leBytes 4 (packList 1 ((List.range 32).map fun c =>
      if bitOf (cs.toArray.getD (32 * (p / 32) + c) 0) (bankWidth fmt - 1 - j) then 1 else 0))) := by
    intro r hr
    rw [leBytes_length] at hr
    have byte := h (128 * j + (4 * (p / 32) + r)) (by rw [planeBytes_length]; omega)
    rw [planeBytes_eq, getD_flatMap_range (planeRows_length fmt cs) hj (by omega), planeRows,
      getD_flatMap_range (fun _ => leBytes_length _ _) row hr] at byte
    exact (congrArg m.read (by simp only [planeWord, Nat.add_assoc])).trans byte
  have small : packList 1 ((List.range 32).map fun c =>
      if bitOf (cs.toArray.getD (32 * (p / 32) + c) 0) (bankWidth fmt - 1 - j) then 1 else 0) < 2 ^ (8 * 4) := by
    simpa using packList_lt 1 ((List.range 32).map fun c =>
      if bitOf (cs.toArray.getD (32 * (p / 32) + c) 0) (bankWidth fmt - 1 - j) then 1 else 0)
  rw [word.readLe, Nat.mod_eq_of_lt small, testBit_packBits _ column, bitOf_testBit, Nat.testBit_mod_two_pow, Nat.div_add_mod]
  simp [show bankWidth fmt - 1 - j < bankWidth fmt by omega]

end Sys2Proof.Machine
end

section
/-! 06 R136, R139, 09 R205: what the blocks of an operand and the accumulators hold, and what writing them leaves alone. -/
namespace Sys2Proof.Machine

/-! ### Blocks of operands (09 R205) -/

/-- Where the payload of a block begins. -/
def Operand.payload (o : Operand) (b : Nat) : Nat :=
  if o.plane = true then o.addr b else o.addr b + if isSquareFmt o.fmt = true then 64 else 0

/-- The bytes of the payload that has given codes. -/
def Operand.bytes (o : Operand) (cs : List Nat) : List Byte :=
  if o.plane = true then planeBytes o.fmt cs else bytesOfCodes (bankWidth o.fmt) cs

theorem linearBytes_eq (fmt : Nat) : linearBytes fmt = (if isSquareFmt fmt = true then 64 else 0) + 128 * bankWidth fmt := by
  unfold linearBytes
  split
  · next square =>
    have formats : fmt = 13 ∨ fmt = 14 ∨ fmt = 15 := by
      simp only [isSquareFmt, Bool.and_eq_true, decide_eq_true_eq] at square
      omega
    obtain rfl | rfl | rfl := formats <;> rfl
  · rw [Nat.zero_add]

section
variable {o : Operand} {t : Tile} {b n x : Nat} {cs : List Nat}

theorem putCodes_eq : o.putCodes t b cs = t.writeSpad (o.payload b) (o.bytes cs) := by
  unfold Operand.putCodes Operand.payload Operand.bytes
  cases o.plane <;> rfl

theorem bytes_length (len : cs.length = 1024) : (o.bytes cs).length = 128 * bankWidth o.fmt := by
  unfold Operand.bytes
  split
  · exact planeBytes_length _ _
  · exact bytesOfCodes_length _ len

theorem codes_length : (o.codes t b).length = 1024 := by
  unfold Operand.codes
  split
  · exact planeCodes_length _ _ _ _
  · exact codesOfBytes_length _ _ _

/-- The codes and the header of a block are those of the scratchpad's bytes. -/
theorem codes_congr {u : Tile} (h : u.spad = t.spad) : o.codes u b = o.codes t b := by
  simp only [Operand.codes, Tile.readSpad, h]

theorem header_congr {u : Tile} (h : u.spad = t.spad) : o.header u b = o.header t b := by
  simp only [Operand.header, h]

/-- A block of a plane-major operand is a slot of its bank. -/
theorem addr_plane (plane : o.plane = true) (placed : Placed o n) (b : Nat) :
    o.addr b = o.bank * 65536 + o.slot b * slotBytes o.fmt := by
  obtain ⟨inside, aligned, -⟩ := placed
  rw [Operand.aligned, if_pos plane, decide_eq_true_eq] at aligned
  have slot := Nat.div_mul_cancel (Nat.dvd_of_mod_eq_zero aligned)
  rw [Operand.addr, if_pos plane, Operand.slot, Nat.add_mul, slot, Operand.bank, bankOf]
  omega

theorem codes_of_holds (placed : Placed o n) (len : cs.length = 1024) (h : t.spad.Holds (o.payload b) (o.bytes cs)) :
    o.codes t b = cs.map (· % 2 ^ bankWidth o.fmt) := by
  unfold Operand.payload Operand.bytes at h
  unfold Operand.codes
  by_cases plane : o.plane = true
  · rw [if_pos plane, if_pos plane, addr_plane plane placed] at h
    rw [if_pos plane]
    exact planeCodes_of_holds h len
  · rw [if_neg plane, if_neg plane] at h
    rw [if_neg plane]
    exact codesOfBytes_of_holds h len

theorem header_of_holds (square : isSquareFmt o.fmt = true) (small : x < 2 ^ (8 * 64))
    (h : t.spad.Holds (o.headerAddr b) (leBytes 64 x)) : o.header t b = x := by
  rw [Operand.header, if_pos square, h.readLe, Nat.mod_eq_of_lt small]

theorem header_lt : o.header t b < 2 ^ (8 * 64) := by
  by_cases square : isSquareFmt o.fmt = true
  · rw [Operand.header, if_pos square]
    exact Memory.readLe_lt t.spad (o.headerAddr b) 64
  · rw [Operand.header, if_neg square]
    positivity

/-- A number of n bits fits in more of them. -/
theorem lt_two_pow_mono {n m : Nat} (h : x < 2 ^ n) (hn : n ≤ m) : x < 2 ^ m :=
  lt_of_lt_of_le h (Nat.pow_le_pow_right Nat.two_pos hn)

/-- What lies outside the ranges of a block lies outside its payload. -/
theorem outside_payload {a : Nat} (h : ∀ r ∈ o.ranges b, a < r.lo ∨ r.hi ≤ a) :
    a < o.payload b ∨ o.payload b + 128 * bankWidth o.fmt ≤ a := by
  unfold Operand.ranges at h
  unfold Operand.payload
  by_cases plane : o.plane = true
  · rw [if_pos plane] at h ⊢
    exact h _ (List.mem_cons_self ..)
  · rw [if_neg plane] at h ⊢
    have block := h _ (List.mem_cons_self ..)
    simp only [locRange, linearBytes_eq] at block
    omega

theorem outside_header {a : Nat} (square : isSquareFmt o.fmt = true) (h : ∀ r ∈ o.ranges b, a < r.lo ∨ r.hi ≤ a) :
    a < o.headerAddr b ∨ o.headerAddr b + 64 ≤ a := by
  unfold Operand.ranges at h
  by_cases plane : o.plane = true
  · rw [if_pos plane, if_pos square] at h
    exact h _ (List.mem_cons_of_mem _ (List.mem_cons_self ..))
  · rw [if_neg plane] at h
    have block := h _ (List.mem_cons_self ..)
    simp only [locRange, linearBytes_eq, if_pos square] at block
    rw [Operand.headerAddr, if_neg plane]
    omega

/-- The slots of a bank of squares end below the headers that are kept at the bank's end (06 R136). -/
theorem slots_below_headers {fmt : Nat} (h : fmt = 13 ∨ fmt = 14) : slotCount fmt * (slotBytes fmt + 64) ≤ 65536 := by
  obtain rfl | rfl := h <;> decide

/-- The header of a block is no part of its payload. -/
theorem header_apart (square : isSquareFmt o.fmt = true) (side : o.plane = true → o.fmt ≠ 15) (placed : Placed o n) (hb : b < n) :
    o.headerAddr b + 64 ≤ o.payload b ∨ o.payload b + 128 * bankWidth o.fmt ≤ o.headerAddr b := by
  by_cases plane : o.plane = true
  · have format := headed_of_square square (side plane)
    have fits := placed.2.2
    rw [Operand.fits, if_pos plane, decide_eq_true_eq] at fits
    have below : (o.slot b + 1) * slotBytes o.fmt ≤ slotCount o.fmt * slotBytes o.fmt :=
      Nat.mul_le_mul_right _ (by simp only [Operand.slot] at fits ⊢; omega)
    have headers := slots_below_headers format
    refine .inr ?_
    rw [Operand.payload, if_pos plane, Operand.headerAddr, if_pos plane, sideAddr, addr_plane plane placed]
    change _ + slotBytes o.fmt ≤ _
    rw [Nat.add_mul, Nat.one_mul] at below
    rw [Nat.mul_add, Nat.mul_comm _ 64] at headers
    omega
  · exact .inl (by rw [Operand.payload, if_neg plane, if_pos square, Operand.headerAddr, if_neg plane])

theorem holds_apart {m : Memory} {a : Nat} {xs ys : List Byte} (wf : m.wf = true) (h : m.Holds a xs) {c : Nat}
    (apart : c + ys.length ≤ a ∨ a + xs.length ≤ c) : (m.writeBytes c ys).Holds a xs := fun i hi => by
  rw [Memory.read_writeBytes _ _ _ wf, if_neg (by omega)]
  exact h i hi

theorem putCodes_spad : (o.putCodes t b cs).spad = t.spad.writeBytes (o.payload b) (o.bytes cs) := by
  rw [putCodes_eq]; rfl

theorem putHeader_spad : (o.putHeader t b x).spad = t.spad.writeBytes (o.headerAddr b) (leBytes 64 x) := by
  simp only [Operand.putHeader, Tile.writeSpad]

@[simp] theorem putCodes_acc : (o.putCodes t b cs).acc = t.acc := by
  rw [putCodes_eq, Tile.writeSpad]

@[simp] theorem putHeader_acc : (o.putHeader t b x).acc = t.acc := by
  simp only [Operand.putHeader, Tile.writeSpad]

theorem putCodes_wf (wf : t.spad.wf = true) : (o.putCodes t b cs).spad.wf = true := by
  rw [putCodes_spad]
  exact Memory.wf_writeBytes _ _ wf

/-! What a block reads as after its header has been written, after its payload has, and after both. -/

theorem header_putHeader (wf : t.spad.wf = true) (square : isSquareFmt o.fmt = true) (small : x < 2 ^ (8 * 64)) :
    o.header (o.putHeader t b x) b = x := by
  refine header_of_holds square small ?_
  rw [putHeader_spad]
  exact Memory.holds_writeBytes _ _ wf

theorem read_putHeader (wf : t.spad.wf = true) {a : Nat} (h : a < o.headerAddr b ∨ o.headerAddr b + 64 ≤ a) :
    (o.putHeader t b x).spad.read a = t.spad.read a := by
  rw [putHeader_spad, Memory.read_writeBytes _ _ _ wf, leBytes_length, if_neg (by omega)]

section
variable (wf : t.spad.wf = true) (len : cs.length = 1024)
include wf len

theorem codes_putCodes (placed : Placed o n) : o.codes (o.putCodes t b cs) b = cs.map (· % 2 ^ bankWidth o.fmt) := by
  refine codes_of_holds placed len ?_
  rw [putCodes_spad]
  exact Memory.holds_writeBytes _ _ wf

theorem codes_putRecord (placed : Placed o n) (square : isSquareFmt o.fmt = true) (side : o.plane = true → o.fmt ≠ 15) (hb : b < n) :
    o.codes (o.putHeader (o.putCodes t b cs) b x) b = cs.map (· % 2 ^ bankWidth o.fmt) := by
  have payload : (o.putCodes t b cs).spad.Holds (o.payload b) (o.bytes cs) := by
    rw [putCodes_spad]
    exact Memory.holds_writeBytes _ _ wf
  have apart := header_apart square side placed hb
  refine codes_of_holds placed len ?_
  rw [putHeader_spad]
  refine holds_apart (putCodes_wf wf) payload ?_
  rwa [bytes_length len, leBytes_length]

theorem read_putCodes {a : Nat} (h : ∀ r ∈ o.ranges b, a < r.lo ∨ r.hi ≤ a) : (o.putCodes t b cs).spad.read a = t.spad.read a := by
  have payload := outside_payload h
  rw [putCodes_spad, Memory.read_writeBytes _ _ _ wf, bytes_length len, if_neg (by omega)]

theorem read_putRecord (square : isSquareFmt o.fmt = true) {a : Nat} (h : ∀ r ∈ o.ranges b, a < r.lo ∨ r.hi ≤ a) :
    (o.putHeader (o.putCodes t b cs) b x).spad.read a = t.spad.read a :=
  (read_putHeader (putCodes_wf wf) (outside_header square h)).trans (read_putCodes wf len h)

end

end

/-! ### Accumulators (06 R139) -/

section
variable {t : Tile} {f64 : Bool} {n : Nat} {cs : List Nat}

theorem accCodes_congr {u : Tile} (h : u.acc = t.acc) : u.accCodes f64 n = t.accCodes f64 n := by
  simp only [Tile.accCodes, h]

/-- The words of one tile. -/
def Tile.accWords (t : Tile) (n : Nat) : List Nat := codesOfBytes 32 1024 (t.acc.readBytes (accAddr n) 4096)

theorem accWords_length : (t.accWords n).length = 1024 := by
  rw [Tile.accWords, codesOfBytes_length]

theorem accCodes_single : t.accCodes false n = t.accWords n := by
  rw [Tile.accCodes, Tile.accWords]
  exact if_neg Bool.false_ne_true

theorem accCodes_pair : t.accCodes true n = List.zipWith (fun a b => a + b * 2 ^ 32) (t.accWords n) (t.accWords (n + 1)) := by
  simp only [Tile.accCodes, if_true, Tile.accWords]

theorem accCodes_length : (t.accCodes f64 n).length = 1024 := by
  cases f64 with
  | false => rw [accCodes_single, accWords_length]
  | true => rw [accCodes_pair, List.length_zipWith, accWords_length, accWords_length, Nat.min_self]

/-- An element of a pair of tiles is made of the words of the two. -/
theorem accCodes_pair_getD {p : Nat} (hp : p < 1024) :
    (t.accCodes true n).getD p 0 = (t.accWords n).getD p 0 + (t.accWords (n + 1)).getD p 0 * 2 ^ 32 := by
  have low : p < (t.accWords n).length := hp.trans_eq accWords_length.symm
  have high : p < (t.accWords (n + 1)).length := hp.trans_eq accWords_length.symm
  rw [accCodes_pair, getD_zipWith low high]

theorem accWords_of_holds (h : t.acc.Holds (accAddr n) (bytesOfCodes 32 cs)) (len : cs.length = 1024) :
    t.accWords n = cs.map (· % 2 ^ 32) := by
  have codes := codesOfBytes_of_holds h len
  rwa [show 128 * 32 = 4096 from rfl] at codes

theorem writeAcc_acc (a : Nat) (bs : List Byte) : (t.writeAcc a bs).acc = t.acc.writeBytes a bs := rfl

@[simp] theorem putAcc_spad : (t.putAcc f64 n cs).spad = t.spad := by
  cases f64 <;> rfl

variable (wf : t.acc.wf = true) (len : cs.length = 1024)
include wf len

/-- The codes written to an accumulator are read back from it. -/
theorem accCodes_putAcc : (t.putAcc f64 n cs).accCodes f64 n = cs.map (· % 2 ^ (if f64 = true then 64 else 32)) := by
  have lengthLow : (cs.map (· % 2 ^ 32)).length = 1024 := by rwa [List.length_map]
  have lengthHigh : (cs.map (· / 2 ^ 32)).length = 1024 := by rwa [List.length_map]
  have first := Memory.holds_writeBytes (accAddr n) (bytesOfCodes 32 (cs.map (· % 2 ^ 32))) wf
  refine eq_of_getD (by rw [accCodes_length, List.length_map, len]) fun p hp => ?_
  rw [accCodes_length] at hp
  cases f64 with
  | false =>
    have low : (t.putAcc false n cs).accWords n = (cs.map (· % 2 ^ 32)).map (· % 2 ^ 32) := accWords_of_holds first lengthLow
    rw [accCodes_single, low, if_neg Bool.false_ne_true, getD_map_mod, getD_map_mod, Nat.mod_mod]
  | true =>
    have wf' := Memory.wf_writeBytes (accAddr n) (bytesOfCodes 32 (cs.map (· % 2 ^ 32))) wf
    have second := Memory.holds_writeBytes (accAddr (n + 1)) (bytesOfCodes 32 (cs.map (· / 2 ^ 32))) wf'
    have still := holds_apart (c := accAddr (n + 1)) (ys := bytesOfCodes 32 (cs.map (· / 2 ^ 32))) wf' first (.inr (by
      rw [bytesOfCodes_length _ lengthLow]; unfold accAddr; omega))
    have low : (t.putAcc true n cs).accWords n = (cs.map (· % 2 ^ 32)).map (· % 2 ^ 32) := accWords_of_holds still lengthLow
    have high : (t.putAcc true n cs).accWords (n + 1) = (cs.map (· / 2 ^ 32)).map (· % 2 ^ 32) := accWords_of_holds second lengthHigh
    rw [accCodes_pair_getD hp, low, high, if_pos rfl, getD_map_mod, getD_map_mod, getD_map_mod, getD_map_mod, getD_map_div]
    omega

/-- No byte of the accumulator store changes outside the tile, or the pair, that is written. -/
theorem read_putAcc {a : Nat} (h : a < 4096 * n ∨ 4096 * n + (if f64 = true then 8192 else 4096) ≤ a) :
    (t.putAcc f64 n cs).acc.read a = t.acc.read a := by
  have lengthLow : (bytesOfCodes 32 (cs.map (· % 2 ^ 32))).length = 4096 := bytesOfCodes_length 32 (by rwa [List.length_map])
  have lengthHigh : (bytesOfCodes 32 (cs.map (· / 2 ^ 32))).length = 4096 := bytesOfCodes_length 32 (by rwa [List.length_map])
  have first : (t.writeAcc (accAddr n) (bytesOfCodes 32 (cs.map (· % 2 ^ 32)))).acc.read a = t.acc.read a := by
    rw [writeAcc_acc, Memory.read_writeBytes _ _ _ wf, lengthLow, accAddr, if_neg]
    split at h <;> omega
  cases f64 with
  | false => exact first
  | true =>
    rw [if_pos rfl] at h
    refine Eq.trans ?_ first
    have second := Memory.read_writeBytes (accAddr (n + 1)) a (bytesOfCodes 32 (cs.map (· / 2 ^ 32)))
      (Memory.wf_writeBytes (accAddr n) (bytesOfCodes 32 (cs.map (· % 2 ^ 32))) wf)
    rw [lengthHigh, if_neg (by unfold accAddr; omega)] at second
    exact second

end

end Sys2Proof.Machine
end

section
/-! 09 R198, R199, R206-R218: what a step of a thresher command comes to, and what it leaves of its tile. -/
namespace Sys2Proof.Machine

/-! ### A step changes bytes and no more -/

/-- A tile with the scratchpad and the accumulator store of another. -/
def Tile.withBytes (t u : Tile) : Tile :=
  { t with spad := u.spad, early := u.early, spadBad := u.spadBad, acc := u.acc, accBad := u.accBad }

/-- A tile differs from another in its scratchpad and its accumulator store at most. -/
abbrev OnlyBytes (t u : Tile) : Prop := u = t.withBytes u

/-- What holds of the tile that a step leaves, where it is done. -/
inductive StepOut.Leaves (p : Tile → Prop) : StepOut → Prop
  | bad (c : Cause) (h expect found addr : Nat) : Leaves p (.bad c h expect found addr)
  | slip (h expect found addr : Nat) : Leaves p (.slip h expect found addr)
  | done {t : Tile} (holds : p t) (fl : Flags) (el : Option Nat) : Leaves p (.done t fl el)

section
variable {t u : Tile} {o : Operand} {c : ThrCmd} {b x : Nat} {cs : List Nat}

theorem onlyBytes_writeSpad (a : Nat) (bs : List Byte) : OnlyBytes t (t.writeSpad a bs) := rfl

theorem onlyBytes_writeAcc (a : Nat) (bs : List Byte) : OnlyBytes t (t.writeAcc a bs) := rfl

theorem OnlyBytes.writeSpad (h : OnlyBytes t u) (a : Nat) (bs : List Byte) : OnlyBytes t (u.writeSpad a bs) := by
  rw [OnlyBytes] at h
  rw [h]
  rfl

theorem onlyBytes_putCodes : OnlyBytes t (o.putCodes t b cs) := by
  rw [putCodes_eq]
  exact onlyBytes_writeSpad _ _

theorem onlyBytes_putRecord : OnlyBytes t (o.putHeader (o.putCodes t b cs) b x) :=
  onlyBytes_putCodes.writeSpad _ _

theorem onlyBytes_putAcc {f64 : Bool} : OnlyBytes t (t.putAcc f64 b cs) := by
  cases f64 <;> rfl

/-- A block whose residue is wrong is no step done. -/
theorem blockBroken_leaves {p : Tile → Prop} {y : StepOut} {h : Nat} (broken : blockBroken o h cs b = some y) : y.Leaves p := by
  unfold blockBroken at broken
  split at broken
  · cases broken; exact .bad ..
  · cases broken

theorem mmaStep_onlyBytes {tr : Bool} : (mmaStep t c tr).Leaves (OnlyBytes t) := by
  unfold mmaStep
  dsimp only
  split
  · next broken => exact blockBroken_leaves broken
  · next broken => exact blockBroken_leaves broken
  · exact .done onlyBytes_putAcc ..

theorem accCvtStep_onlyBytes : (accCvtStep t c).Leaves (OnlyBytes t) := by
  unfold accCvtStep
  exact .done onlyBytes_putCodes ..

theorem elemOf_toArray (i j : Nat) : elemOf cs.toArray i j = cs.getD (32 * i + j) 0 := by
  simp [elemOf]

/-- The square that a step of `sq.quant` makes of its accumulator: header without identity, codes, flags (07 R160-R163). -/
def ThrCmd.quantised (t : Tile) (c : ThrCmd) : Nat × List Nat × Flags :=
  squareQuant (t.operand c.addrD.toNat).fmt
    (fun i j => decodeFmt (if c.f64 then fp64 else fp32)
      ((t.accCodes c.f64 (c.acc + (if c.f64 then 2 * c.next else c.next))).getD (32 * i + j) 0))
    (c.c0.map fun v => fun p => draw t.phKey.toNat v.toNat (1024 * c.next + p))

/-- The header of a quantised square, with the chunk and the tensor that the command gives (09 R215). -/
def ThrCmd.quantHeader (c : ThrCmd) (h : Nat) : Nat :=
  setBits (setBits h 192 24 (bitsOf c.ctl.toNat 0 24 + c.next)) 216 24 (bitsOf c.ctl.toNat 24 24)

theorem quantStep_eq {h : Nat} {codes : List Nat} {fl : Flags} (q : c.quantised t = (h, codes, fl)) : quantStep t c =
    .done ((t.operand c.addrD.toNat).putHeader ((t.operand c.addrD.toNat).putCodes t c.next codes) c.next (c.quantHeader h)) fl none := by
  unfold ThrCmd.quantised at q
  unfold quantStep
  simp only [elemOf_toArray]
  rw [q]
  rfl

theorem quantStep_onlyBytes : (quantStep t c).Leaves (OnlyBytes t) := by
  rcases q : c.quantised t with ⟨h, codes, fl⟩
  rw [quantStep_eq q]
  exact .done onlyBytes_putRecord ..

theorem scaleStep_onlyBytes : (scaleStep t c).Leaves (OnlyBytes t) := by
  unfold scaleStep Operand.putHeader
  exact .done (onlyBytes_writeSpad _ _) ..

theorem deqStep_onlyBytes : (deqStep t c).Leaves (OnlyBytes t) := by
  unfold deqStep
  dsimp only
  split
  · next broken => exact blockBroken_leaves broken
  · exact .done onlyBytes_putAcc ..

/-- The integer that `sq.align` makes of an element before it aligns it, at the natural exponent of its square (07 R169). -/
def alignSource (fmt h e p code : Nat) : Int × Flags :=
  if fmt = 15 then (signed 32 code, 0) else toAic (squareValue fmt h (p / 32) (p % 32) code) e

/-- The element that `sq.align` writes, its remainder, and its flags (07 R170). -/
def alignElem (fmt h e sh : Nat) (q : Nat × Nat) : (Int × Int) × Flags :=
  (alignAic (alignSource fmt h e q.2 q.1).1 sh,
    (alignSource fmt h e q.2 q.1).2 ||| flagIf (decide ((alignAic (alignSource fmt h e q.2 q.1).1 sh).2 ≠ 0)) flAicLoss)

/-- The elements of the block that a step of `sq.align` reads. -/
def ThrCmd.alignElems (t : Tile) (c : ThrCmd) : List ((Int × Int) × Flags) :=
  let o := t.operand c.addrA.toNat
  let h := o.header t c.next
  let e := (naturalExp o.fmt h).1
  (o.codes t c.next).zipIdx.map (alignElem o.fmt h e (c.el.getD (alignExp t c) - e))

/-- The header of an aligned block, without its tag. -/
def alignHeader (el h : Nat) : Nat := el + 15 * 2 ^ 16 + hChunk h * 2 ^ 192 + hTensor h * 2 ^ 216

/-- The tag of an aligned block: the source's, with the new residue and hop 0, where the source has one (10 R224). -/
def alignTag (tag found : Nat) : Nat := if tag = 0 then 0 else setBits (setBits tag 0 31 found) 47 6 0

/-- The block that a step of `sq.align` writes. -/
def ThrCmd.aligned (t : Tile) (c : ThrCmd) : StepOut :=
  let o := t.operand c.addrA.toNat
  let od := t.operand c.addrD.toNat
  let h := o.header t c.next
  let el := c.el.getD (alignExp t c)
  let out := (c.alignElems t).map fun r => wrap 32 r.1.1
  .done (od.putHeader (od.putCodes t c.next out) c.next
      (alignHeader el h + alignTag (hTag h) (residueOf 15 (alignHeader el h) out) * 2 ^ 256))
    ((naturalExp o.fmt h).2 ||| (c.alignElems t).foldl (fun a r => a ||| r.2) 0) (some el)

/-- A step of `sq.align` finds its source broken, finds its own arithmetic wrong, or writes the aligned block. -/
theorem alignStep_cases : (∃ y, blockBroken (t.operand c.addrA.toNat) ((t.operand c.addrA.toNat).header t c.next)
      ((t.operand c.addrA.toNat).codes t c.next) c.next = some y ∧ alignStep t c = y) ∨
    (∃ h e f a, alignStep t c = .slip h e f a) ∨ alignStep t c = c.aligned t := by
  unfold alignStep
  dsimp only
  generalize broken : blockBroken (t.operand c.addrA.toNat) ((t.operand c.addrA.toNat).header t c.next)
      ((t.operand c.addrA.toNat).codes t c.next) c.next = y
  cases y with
  | some y => exact .inl ⟨y, rfl, rfl⟩
  | none => exact .inr ((ite_eq_or_eq ..).imp (fun slip => ⟨_, _, _, _, slip⟩) id)

theorem alignStep_onlyBytes : (alignStep t c).Leaves (OnlyBytes t) := by
  obtain ⟨y, broken, eq⟩ | ⟨h, e, f, a, eq⟩ | eq := alignStep_cases (t := t) (c := c)
  · rw [eq]; exact blockBroken_leaves broken
  · rw [eq]; exact .slip ..
  · rw [eq]; exact .done onlyBytes_putRecord ..

/-- What a step comes to where nothing that it reads holds an uncorrectable word. -/
def ThrCmd.perform (t : Tile) (c : ThrCmd) : StepOut :=
  match c.op with
  | .mma tr => mmaStep t c tr
  | .accZero => .done (t.writeAcc (accAddr (c.acc + c.next)) (List.replicate 4096 0)) 0 none
  | .accLd => .done (t.writeAcc (accAddr c.acc) (t.readSpad c.addrA.toNat 4096)) 0 none
  | .accSt => .done (t.writeSpad c.addrD.toNat (t.acc.readBytes (accAddr c.acc) 4096)) 0 none
  | .accCvt => accCvtStep t c
  | .quant => quantStep t c
  | .deq => deqStep t c
  | .align => alignStep t c
  | .scale => scaleStep t c

theorem perform_onlyBytes : (c.perform t).Leaves (OnlyBytes t) := by
  unfold ThrCmd.perform
  split
  · exact mmaStep_onlyBytes
  · exact .done (onlyBytes_writeAcc _ _) ..
  · exact .done (onlyBytes_writeAcc _ _) ..
  · exact .done (onlyBytes_writeSpad _ _) ..
  · exact accCvtStep_onlyBytes
  · exact quantStep_onlyBytes
  · exact deqStep_onlyBytes
  · exact alignStep_onlyBytes
  · exact scaleStep_onlyBytes

/-- The accumulators that a step reads hold an uncorrectable word. -/
def ThrCmd.accSpoils (t : Tile) (c : ThrCmd) : Bool :=
  match c.readsAcc with
  | some n => t.accSpoilt c.f64 n
  | none => false

theorem step_eq : c.step t = match (c.reads t c.next).find? fun r => t.rangesBad [r] with
    | some r => .bad .uncorr 0 0 0 r.lo
    | none => if c.accSpoils t = true then .bad .uncorr 0 0 0 0 else c.perform t := rfl

theorem step_onlyBytes {fl : Flags} {el : Option Nat} (done : c.step t = .done u fl el) : OnlyBytes t u := by
  have leaves : (c.step t).Leaves (OnlyBytes t) := by
    rw [step_eq]
    split
    · exact .bad ..
    · split
      · exact .bad ..
      · exact perform_onlyBytes
  rw [done] at leaves
  cases leaves with
  | done holds => exact holds

/-- A step that reads sound words is performed. -/
theorem step_of_sound (reads : t.rangesBad (c.reads t c.next) = false) (acc : t.accBad = []) : c.step t = c.perform t := by
  have words : ((c.reads t c.next).find? fun r => t.rangesBad [r]) = none := by
    rw [List.find?_eq_none]
    intro r hr bad
    simp only [Tile.rangesBad, List.any_eq_false] at reads
    simp only [Tile.rangesBad, List.any_cons, List.any_nil, Bool.or_false] at bad
    exact reads r hr bad
  have store : c.accSpoils t = false := by
    unfold ThrCmd.accSpoils
    split
    · simp [Tile.accSpoilt, wordsBad, acc]
    · rfl
  rw [step_eq, words, store]
  rfl

/-- The first range that holds an uncorrectable word stops the step (09 R201). -/
theorem step_uncorr {r : Range} (bad : ((c.reads t c.next).find? fun r => t.rangesBad [r]) = some r) :
    c.step t = .bad .uncorr 0 0 0 r.lo := by
  rw [step_eq, bad]

end

/-! ### The state after a step (09 R198, R199) -/

/-- A command after a step. -/
def ThrCmd.after (c : ThrCmd) (fl : Flags) (el : Option Nat) : ThrCmd :=
  { c with next := c.next + 1, flags := c.flags ||| fl, el := el }

/-- The tile that a step leaves becomes that of the package, and the strand goes on after the last step. -/
def State.stepped (s : State) (k : Nat) (t : Tile) (c : ThrCmd) : State :=
  if c.next = c.steps then ({ s with tile := t.putCmd k c } : State).releaseMain else { s with tile := t.putCmd k c }

section
variable {s : State} {k : Nat} {c : ThrCmd}

/-- The command that holds the strand is one of those in flight and has a step to do. -/
theorem stepping_spec {t : Tile} (h : t.stepping = some (k, c)) : t.thresher[k]? = some c ∧ c.next < c.steps := by
  unfold Tile.stepping at h
  rw [Option.map_eq_some_iff] at h
  obtain ⟨⟨d, j⟩, found, eq⟩ := h
  obtain ⟨rfl, rfl⟩ := Prod.mk.inj eq
  exact ⟨List.mem_zipIdx_iff_getElem?.1 (List.mem_of_find?_eq_some found), by simpa using List.find?_some found⟩

/-- Where a strand goes on, only its main strand changes, and its registers stay. -/
theorem releaseMain_eq (s : State) : ∃ m : Strand, s.releaseMain = { s with tile := { s.tile with main := m } } ∧
    m.regs = s.tile.main.regs := by
  unfold State.releaseMain State.onTile
  dsimp only
  split
  · exact ⟨_, rfl, retire_regs _⟩
  · exact ⟨_, rfl, rfl⟩

theorem stepped_eq (t : Tile) : ∃ m : Strand, s.stepped k t c = { s with tile := { t.putCmd k c with main := m } } ∧
    m.regs = t.main.regs := by
  unfold State.stepped
  split
  · exact releaseMain_eq _
  · exact ⟨_, rfl, rfl⟩

/-- The strand goes on after the last step, and stays as it is before. -/
theorem stepped_main (t : Tile) : (c.next < c.steps → (s.stepped k t c).tile.main = t.main) ∧
    (c.next = c.steps → t.main.wait = some .thresher → (s.stepped k t c).tile.main = t.main.retire) := by
  unfold State.stepped
  refine ⟨fun more => ?_, fun last held => ?_⟩
  · rw [if_neg (Nat.ne_of_lt more)]; rfl
  · have held' : (t.putCmd k c).main.wait = some .thresher := held
    rw [if_pos last, State.releaseMain, State.onTile]
    simp only [held', if_true]
    rfl

theorem retire_wait (x : Strand) : x.retire.wait = none := by
  unfold Strand.retire
  dsimp only
  split <;> rfl

variable (stepping : s.tile.stepping = some (k, c))
include stepping

theorem thresherStep_waits (busy : s.tile.stepConflicts c c.next ≠ []) : exec .thresherStep s = .next s := by
  rw [exec_thresherStep, execThresherStep, stepping]
  simp [event, busy]

variable (free : s.tile.stepConflicts c c.next = [])
include free

/-- A bad operand ends the activation with its cause at the step (09 R201, R206). -/
theorem thresherStep_bad {f : Cause} {h e x a : Nat} (bad : c.step s.tile = .bad f h e x a) : exec .thresherStep s =
    .next ((if f == .sheaf then s.localRecord h e x a else s).trapStrand s.tile.ltn .main
      { cause := f, addr := BitVec.ofNat 64 a, localSrc := f == .uncorr, step := some (BitVec.ofNat 16 c.next) } c.unit c.word) := by
  rw [exec_thresherStep, execThresherStep, stepping]
  simp only [event, free, List.isEmpty_nil, Bool.not_true, Bool.false_eq_true, if_false, bad, State.stepFails]
  cases f <;> rfl

variable (units : s.input.j = 0)
include units

theorem thresherStep_done {t : Tile} {fl : Flags} {el : Option Nat} (done : c.step s.tile = .done t fl el) :
    exec .thresherStep s = .next (s.stepped k t (c.after fl el)) := by
  rw [exec_thresherStep, execThresherStep, stepping]
  simp only [event, free, List.isEmpty_nil, Bool.not_true, Bool.false_eq_true, if_false, done, units, if_true]
  rfl

/-- A step that is done, by the bytes that it leaves. -/
theorem stepDone_of_done {t : Tile} {fl : Flags} {el : Option Nat} {p : State → ThrCmd → Prop} (done : c.step s.tile = .done t fl el)
    (hp : ∀ u : State, u.tile.spad = t.spad → u.tile.acc = t.acc → p u (c.after fl el)) : StepDone s k c fl p := by
  have only := step_onlyBytes done
  obtain ⟨m, eq, regs⟩ := stepped_eq (s := s) (k := k) (c := c.after fl el) t
  have run := thresherStep_done stepping free units done
  rw [eq] at run
  refine ⟨_, c.after fl el, run, ?_, rfl, rfl, rfl, fun r => reg_eq_of_regs ?_ r, ?_, ?_, hp _ rfl rfl⟩
  · rw [only]
    exact (congrArg (·[k]?) (modAt_eq_modify (fun _ => c.after fl el) k s.tile.thresher)).trans (by simp [(stepping_spec stepping).1])
  · rw [only] at regs ⊢
    unfold State.st State.cur
    change (Tile.strand _ s.tile.lastIssued).regs = _
    cases s.tile.lastIssued with
    | main => exact regs
    | handler => rfl
  · rw [only]
    exact sameVectors_of_tile rfl rfl
  · rw [only]
    rfl

end

end Sys2Proof.Machine
end

section
/-! 07 R154-R172, 09 R213-R218, 10 R222: what a step of `acc.cvt` and of the square commands writes. -/
namespace Sys2Proof.Machine

/-! ### Results by place -/

section
variable {α : Type} {cs : List Nat}

theorem map_zipIdx_results {f : Nat × Nat → α} {r : Nat → α} (len : cs.length = 1024) (h : ∀ p, p < 1024 → f (cs.getD p 0, p) = r p) :
    cs.zipIdx.map f = (List.range 1024).map r := by
  rw [map_zipIdx_eq, len]
  exact List.map_congr_left fun p hp => h p (List.mem_range.1 hp)

theorem orAll_results (r : Nat → Nat × Flags) :
    orAll ((List.range 1024).map r) = (List.range 1024).foldl (fun x p => x ||| (r p).2) 0 := by
  rw [orAll, List.foldl_map]

theorem results_length (r : Nat → α) : ((List.range 1024).map r).length = 1024 := by
  rw [List.length_map, List.length_range]

/-- Flags are ORed from any start. -/
theorem foldl_or (g : α → Flags) (xs : List α) (z : Flags) : xs.foldl (fun a r => a ||| g r) z = z ||| xs.foldl (fun a r => a ||| g r) 0 := by
  induction xs generalizing z with
  | nil => simp
  | cons x xs ih => rw [List.foldl_cons, List.foldl_cons, ih, ih (0 ||| g x), BitVec.or_assoc]; simp

theorem flagIf_decide (p : Prop) [Decidable p] (f : Flags) : flagIf (decide p) f = if p then f else 0 := by
  by_cases h : p <;> simp [flagIf, h]

end

/-! ### Headers and tags (07 R154-R163, R172, 10 R222, R223) -/

theorem pack2_lt (f : Nat → Nat) : pack2 f < 2 ^ 64 := by
  have packed := packList_lt 2 ((List.range 32).map f)
  rwa [List.length_map, List.length_range] at packed

theorem specialOf_lt (fmt : Nat) (x : Nat → Nat → FVal) : (specialOf fmt x).1 < 2 ^ 8 := by
  unfold specialOf
  dsimp only
  split_ifs <;> decide

theorem clampInt_byte (x : Int) : 0 ≤ clampInt 0 255 x ∧ clampInt 0 255 x ≤ 255 := by
  unfold clampInt
  split_ifs <;> omega

theorem header_bound {e : Int} {sp fmt : Nat} (he : e ≤ 255) (hsp : sp < 2 ^ 8) (hfmt : fmt < 16) (f g : Nat → Nat) :
    e.toNat + sp * 2 ^ 8 + fmt * 2 ^ 16 + pack2 f * 2 ^ 64 + pack2 g * 2 ^ 128 < 2 ^ 192 := by
  have rows := pack2_lt f
  have columns := pack2_lt g
  omega

/-- A quantised square has a header without identity, and 1,024 codes. -/
theorem squareQuant_bounds {fmt h : Nat} {x : Nat → Nat → FVal} {u : Option (Nat → Nat)} {codes : List Nat} {fl : Flags}
    (format : fmt = 13 ∨ fmt = 14) (q : squareQuant fmt x u = (h, codes, fl)) : h < 2 ^ 192 ∧ codes.length = 1024 := by
  unfold squareQuant at q
  dsimp only at q
  obtain ⟨rfl, rest⟩ := Prod.mk.inj q
  obtain ⟨rfl, -⟩ := Prod.mk.inj rest
  refine ⟨header_bound ?_ (specialOf_lt fmt x) (by omega) _ _, by simp⟩
  split
  · decide
  · exact (clampInt_byte _).2

section
variable {h el : Nat}

theorem hChunk_lt : hChunk h < 2 ^ 24 := bitsOf_lt h 192 24
theorem hTensor_lt : hTensor h < 2 ^ 24 := bitsOf_lt h 216 24
theorem hTag_lt : hTag h < 2 ^ 64 := bitsOf_lt h 256 64

/-- The identity of a quantised square is the command's, the chunk counted on by the step (09 R215). -/
theorem quantHeader_spec {c : ThrCmd} (small : h < 2 ^ 192) :
    c.quantHeader h < 2 ^ 240 ∧ c.quantHeader h % 2 ^ 192 = h ∧ hChunk (c.quantHeader h) = (c.ctl.toNat + c.next) % 2 ^ 24 ∧
      hTensor (c.quantHeader h) = c.ctl.toNat / 2 ^ 24 % 2 ^ 24 := by
  have wide : h < 2 ^ 240 := lt_of_lt_of_le small (Nat.pow_le_pow_right (by decide) (by decide))
  unfold ThrCmd.quantHeader
  refine ⟨setBits_lt (setBits_lt wide (by decide) _) (by decide) _, ?_, ?_, ?_⟩
  · rw [setBits_mod (by decide), setBits_mod (by decide), Nat.mod_eq_of_lt small]
  · rw [hChunk, bitsOf_setBits_apart (.inl (by decide)), bitsOf_setBits_self, bitsOf, Nat.pow_zero, Nat.div_one, Nat.mod_add_mod]
  · rw [hTensor, bitsOf_setBits_self]
    exact Nat.mod_mod _ _

theorem residueOf_aic (g h : Nat) (cs : List Nat) : residueOf 15 g cs = residueOf 15 h cs := by
  have aligned (h i j code : Nat) : alignedInt 15 h i j code = signed 32 code := if_pos rfl
  have other : ¬(15 : Nat) = 14 := by decide
  simp only [residueOf, residue31, aligned, other, if_false]

theorem wrap_lt (w : Nat) (x : Int) : wrap w x < 2 ^ w := by
  have pos : (0 : Int) < ((2 ^ w : Nat) : Int) := by exact_mod_cast Nat.two_pow_pos w
  rw [wrap, Int.toNat_lt (Int.emod_nonneg _ pos.ne')]
  exact Int.emod_lt_of_pos _ pos

theorem residueOf_lt (fmt h : Nat) (cs : List Nat) : residueOf fmt h cs < 2 ^ 31 := by
  have below (x : Int) : (x % resP).toNat < 2 ^ 31 := by
    unfold resP
    omega
  exact below _

theorem alignHeader_lt (small : el < 2 ^ 8) : alignHeader el h < 2 ^ 256 := by
  have chunk := hChunk_lt (h := h)
  have tensor := hTensor_lt (h := h)
  unfold alignHeader
  omega

theorem alignTag_lt {tag found : Nat} (small : tag < 2 ^ 64) : alignTag tag found < 2 ^ 64 := by
  unfold alignTag
  split
  · decide
  · exact setBits_lt (setBits_lt small (by decide) _) (by decide) _

/-- A header is its first 32 bytes and its tag. -/
theorem header_parts {low tag : Nat} (hl : low < 2 ^ 256) (ht : tag < 2 ^ 64) :
    low + tag * 2 ^ 256 < 2 ^ (8 * 64) ∧ (low + tag * 2 ^ 256) % 2 ^ 256 = low ∧ hTag (low + tag * 2 ^ 256) = tag := by
  refine ⟨?_, ?_, ?_⟩
  · refine lt_two_pow_mono (n := 256 + 64) ?_ (by decide)
    rw [Nat.pow_add]
    omega
  · omega
  · rw [hTag, bitsOf]
    omega

/-- The tag of an aligned square is its source's, with the new residue and hop 0 (10 R224). -/
theorem alignTag_spec {tag found : Nat} (tagged : tag ≠ 0) (small : found < 2 ^ 31) :
    tagResidue (alignTag tag found) = found ∧ tagRoute (alignTag tag found) = tagRoute tag ∧ tagHop (alignTag tag found) = 0 ∧
      tagGen (alignTag tag found) = tagGen tag ∧ tagBad (alignTag tag found) = tagBad tag ∧
      tagPlain (alignTag tag found) = tagPlain tag := by
  unfold alignTag
  rw [if_neg tagged]
  refine ⟨?_, ?_, ?_, ?_, ?_, ?_⟩
  · rw [tagResidue, bitsOf_setBits_apart (.inl (by decide)), bitsOf_setBits_self, Nat.mod_eq_of_lt small]
  · rw [tagRoute, bitsOf_setBits_apart (.inl (by decide)), bitsOf_setBits_apart (.inr (by decide))]; rfl
  · rw [tagHop, bitsOf_setBits_self]; rfl
  · rw [tagGen, bitsOf_setBits_apart (.inr (by decide)), bitsOf_setBits_apart (.inr (by decide))]; rfl
  · rw [tagBad, bitOf_testBit, testBit_setBits, if_neg (by decide), testBit_setBits, if_neg (by decide), ← bitOf_testBit]; rfl
  · rw [tagPlain, bitOf_testBit, testBit_setBits, if_neg (by decide), testBit_setBits, if_neg (by decide), ← bitOf_testBit]; rfl

/-- ScaleE changes E alone, and saturates it (07 R172). -/
theorem scaleE_spec (h : Nat) (n : Int) : (hE (scaleE h n).1 : Int) = (if (hE h : Int) + n < 0 then 0 else if 255 < (hE h : Int) + n then 255
      else (hE h : Int) + n) ∧ (scaleE h n).1 / 2 ^ 8 = h / 2 ^ 8 ∧
    (scaleE h n).2 = if (hE h : Int) + n < 0 ∨ 255 < (hE h : Int) + n then flScaleSat else 0 := by
  refine ⟨?_, setBits_div (by decide) _ _, flagIf_decide _ _⟩
  have byte := clampInt_byte ((hE h : Int) + n)
  have e : hE (scaleE h n).1 = (clampInt 0 255 ((hE h : Int) + n)).toNat := by
    rw [hE, scaleE, bitsOf_setBits_self]
    omega
  rw [e, Int.toNat_of_nonneg byte.1]
  rfl

end

/-! ### The common exponent of `sq.align` (09 R217) -/

theorem le_foldl_max (f : Nat → Nat) (z n : Nat) : z ≤ (List.range n).foldl (fun m i => max m (f i)) z ∧
    ∀ i, i < n → f i ≤ (List.range n).foldl (fun m i => max m (f i)) z := by
  induction n with
  | zero => exact ⟨Nat.le_refl z, fun i hi => absurd hi (Nat.not_lt_zero i)⟩
  | succ n ih =>
    simp only [List.range_succ, List.foldl_append, List.foldl_cons, List.foldl_nil]
    refine ⟨le_max_of_le_left ih.1, fun i hi => ?_⟩
    obtain before | rfl := Nat.lt_or_eq_of_le (Nat.lt_succ_iff.1 hi)
    · exact le_max_of_le_left (ih.2 i before)
    · exact le_max_right _ _

theorem foldl_max_le {f : Nat → Nat} {z n top : Nat} (hz : z ≤ top) (hf : ∀ i, i < n → f i ≤ top) :
    (List.range n).foldl (fun m i => max m (f i)) z ≤ top := by
  induction n with
  | zero => exact hz
  | succ n ih =>
    simp only [List.range_succ, List.foldl_append, List.foldl_cons, List.foldl_nil]
    exact max_le (ih fun i hi => hf i (Nat.lt_succ_of_lt hi)) (hf n (Nat.lt_succ_self n))

/-- EL is the largest of ET and the sources' exponents. -/
theorem alignExp_eq {t : Tile} {c : ThrCmd} {o : Operand} {el : Nat} (ho : o = t.operand c.addrA.toNat) (et : c.ctl.toNat / 2 ^ 8 % 2 ^ 8 ≤ el)
    (sources : ∀ i, i < c.steps → (naturalExp o.fmt (o.header t i)).1 ≤ el)
    (hit : el = c.ctl.toNat / 2 ^ 8 % 2 ^ 8 ∨ ∃ i, i < c.steps ∧ (naturalExp o.fmt (o.header t i)).1 = el) : alignExp t c = el := by
  subst ho
  have least := le_foldl_max (fun i => (naturalExp (t.operand c.addrA.toNat).fmt ((t.operand c.addrA.toNat).header t i)).1)
    (bitsOf c.ctl.toNat 8 8) c.steps
  refine Nat.le_antisymm (foldl_max_le et sources) ?_
  obtain rfl | ⟨i, hi, rfl⟩ := hit
  · exact least.1
  · exact least.2 i hi

/-! ### The bytes that each step writes (09 R213-R218) -/

section
variable {t : Tile} {c : ThrCmd} {o : Operand}

theorem blockBroken_none {h b : Nat} {cs : List Nat} (sound : (isSquareFmt o.fmt && tagBroken o.fmt h cs) = false) :
    blockBroken o h cs b = none := by
  rw [blockBroken, sound]
  rfl

theorem accCvtStep_eq {r : Nat → Nat × Flags} (ho : o = t.operand c.addrD.toNat)
    (hr : ∀ p, r p = cvtOne (if c.f64 then 6 else 7) o.fmt .near (c.c0.map fun v => draw t.phKey.toNat v.toNat p)
      ((t.accCodes c.f64 c.acc).getD p 0)) :
    accCvtStep t c = .done (o.putCodes t 0 ((List.range 1024).map fun p => (r p).1))
      ((List.range 1024).foldl (fun x p => x ||| (r p).2) 0) none := by
  subst ho
  have results : ((t.accCodes c.f64 c.acc).zipIdx.map fun p => cvtOne (if c.f64 then 6 else 7) (t.operand c.addrD.toNat).fmt .near
      (c.word32 t p.2) p.1) = (List.range 1024).map r := map_zipIdx_results accCodes_length fun p _ => (hr p).symm
  unfold accCvtStep
  dsimp only
  rw [results, orAll_results, List.map_map]
  rfl

theorem deqStep_eq {r : Nat → Nat × Flags} {h m : Nat} (ho : o = t.operand c.addrA.toNat) (hh : h = o.header t c.next)
    (hm : m = c.acc + if c.f64 then 2 * c.next else c.next) (sound : tagBroken o.fmt h (o.codes t c.next) = false)
    (hr : ∀ p, r p = cvtFromVal (squareValue o.fmt h (p / 32) (p % 32) ((o.codes t c.next).getD p 0)) (if c.f64 then 6 else 7) .near) :
    deqStep t c = .done (t.putAcc c.f64 m ((List.range 1024).map fun p => (r p).1))
      ((List.range 1024).foldl (fun x p => x ||| (r p).2) 0) none := by
  subst ho hh hm
  have results : (((t.operand c.addrA.toNat).codes t c.next).zipIdx.map fun p => cvtFromVal (squareValue (t.operand c.addrA.toNat).fmt
      ((t.operand c.addrA.toNat).header t c.next) (p.2 / 32) (p.2 % 32) p.1) (if c.f64 then 6 else 7) .near) = (List.range 1024).map r :=
    map_zipIdx_results codes_length fun p _ => (hr p).symm
  unfold deqStep
  dsimp only
  rw [blockBroken_none (by rw [sound, Bool.and_false])]
  dsimp only
  rw [results, orAll_results, List.map_map]
  rfl

/-- The elements of an aligned block, and their flags. -/
theorem alignElems_eq {x : Nat → Int × Flags} {y : Nat → Int × Int} {h e el : Nat} (ho : o = t.operand c.addrA.toNat)
    (hh : h = o.header t c.next) (he : (naturalExp o.fmt h).1 = e) (hel : c.el.getD (alignExp t c) = el)
    (hx : ∀ p, x p = if o.fmt = 15 then (signed 32 ((o.codes t c.next).getD p 0), 0)
      else toAic (squareValue o.fmt h (p / 32) (p % 32) ((o.codes t c.next).getD p 0)) e)
    (hy : ∀ p, y p = alignAic (x p).1 (el - e)) :
    c.alignElems t = (List.range 1024).map fun p => (y p, (x p).2 ||| if (y p).2 = 0 then 0 else flAicLoss) := by
  subst ho hh he hel
  refine map_zipIdx_results codes_length fun p _ => ?_
  have source := (hx p).symm
  rw [hy p]
  unfold alignElem alignSource
  dsimp only
  rw [source, flagIf_decide]
  simp only [ne_eq, ite_not]

theorem scaleStep_eq (ho : o = t.operand c.addrD.toNat) : scaleStep t c =
    .done (o.putHeader t c.next (scaleE (o.header t c.next) c.ctl.toInt).1) (scaleE (o.header t c.next) c.ctl.toInt).2 none := by
  subst ho
  rfl

end

end Sys2Proof.Machine
end

section
/-! 09 R213-R218, 07 R154-R172, 10 R222: the steps of `acc.cvt` and of the square commands, as they leave the state. -/
namespace Sys2Proof.Machine

section
variable {s : State} {k : Nat} {c : ThrCmd} {oa od : Operand} {m : Nat}

/-- The next step of a command is one that reads sound words, waits for no copy, and whose arithmetic does not slip. -/
structure SoundStep (s : State) (k : Nat) (c : ThrCmd) : Prop where
  stepping : s.tile.stepping = some (k, c)
  free : s.tile.stepConflicts c c.next = []
  units : s.input.j = 0
  reads : s.tile.rangesBad (c.reads s.tile c.next) = false
  accBad : s.tile.accBad = []
  acc : s.tile.acc.wf = true
  spad : s.tile.spad.wf = true

variable (sound : SoundStep s k c)
include sound

theorem SoundStep.next_lt : c.next < c.steps := (stepping_spec sound.stepping).2

theorem SoundStep.step_eq : c.step s.tile = c.perform s.tile := step_of_sound sound.reads sound.accBad

/-- A sound step that is done leaves the bytes that it writes. -/
theorem SoundStep.stepDone {t : Tile} {fl : Flags} {el : Option Nat} {p : State → ThrCmd → Prop} (done : c.perform s.tile = .done t fl el)
    (hp : ∀ u : State, u.tile.spad = t.spad → u.tile.acc = t.acc → p u (c.after fl el)) : StepDone s k c fl p :=
  stepDone_of_done sound.stepping sound.free sound.units (sound.step_eq.trans done) hp

/-- A step that writes the codes of a block writes no other byte. -/
theorem SoundStep.codesWritten {u : State} {b n : Nat} {r : Nat → Nat} (placed : Placed od n)
    (spad : u.tile.spad = (od.putCodes s.tile b ((List.range 1024).map r)).spad)
    (acc : u.tile.acc = (od.putCodes s.tile b ((List.range 1024).map r)).acc) :
    (∀ p, p < 1024 → (od.codes u.tile b).getD p 0 = r p % 2 ^ bankWidth od.fmt) ∧ OnlyBlock s u od b := by
  refine ⟨fun p hp => ?_, ?_, fun a outside => ?_⟩
  · rw [codes_congr spad, codes_putCodes sound.spad (results_length r) placed, getD_map_mod, getD_range_map r hp]
  · rw [acc, putCodes_acc]
  · rw [spad, read_putCodes sound.spad (results_length r) outside]

/-- A step that writes the codes and the header of a block writes no other byte. -/
theorem SoundStep.recordWritten {u : State} {b n h : Nat} {cs : List Nat} (placed : Placed od n) (square : isSquareFmt od.fmt = true)
    (side : od.plane = true → od.fmt ≠ 15) (hb : b < n) (len : cs.length = 1024) (small : h < 2 ^ (8 * 64))
    (spad : u.tile.spad = (od.putHeader (od.putCodes s.tile b cs) b h).spad)
    (acc : u.tile.acc = (od.putHeader (od.putCodes s.tile b cs) b h).acc) :
    od.codes u.tile b = cs.map (· % 2 ^ bankWidth od.fmt) ∧ od.header u.tile b = h ∧ OnlyBlock s u od b := by
  refine ⟨?_, ?_, ?_, fun a outside => ?_⟩
  · rw [codes_congr spad, codes_putRecord sound.spad len placed square side hb]
  · rw [header_congr spad, header_putHeader (putCodes_wf sound.spad) square small]
  · rw [acc, putHeader_acc, putCodes_acc]
  · rw [spad, read_putRecord sound.spad len square outside]

/-- A step that writes an accumulator writes no other byte. -/
theorem SoundStep.accWritten {u : State} {r : Nat → Nat} (spad : u.tile.spad = (s.tile.putAcc c.f64 m ((List.range 1024).map r)).spad)
    (acc : u.tile.acc = (s.tile.putAcc c.f64 m ((List.range 1024).map r)).acc) :
    (∀ p, p < 1024 → (u.tile.accCodes c.f64 m).getD p 0 = r p % 2 ^ (if c.f64 then 64 else 32)) ∧ OnlyAcc s u c.f64 m := by
  refine ⟨fun p hp => ?_, ?_, fun a outside => ?_⟩
  · rw [accCodes_congr acc, accCodes_putAcc sound.acc (results_length r), getD_map_mod, getD_range_map r hp]
  · rw [spad, putAcc_spad]
  · rw [acc, read_putAcc sound.acc (results_length r) outside]

theorem accCvt_stepDone {r : Nat → Nat × Flags} (hod : od = s.tile.operand c.addrD.toNat) (op : c.op = .accCvt) (placed : Placed od 1)
    (hr : ∀ p, r p = cvtOne (if c.f64 then 6 else 7) od.fmt .near (c.c0.map fun v => draw s.tile.phKey.toNat v.toNat p)
      ((s.tile.accCodes c.f64 c.acc).getD p 0)) :
    StepDone s k c ((List.range 1024).foldl (fun x p => x ||| (r p).2) 0) fun u _ =>
      (∀ p, p < 1024 → (od.codes u.tile 0).getD p 0 = (r p).1 % 2 ^ bankWidth od.fmt) ∧ OnlyBlock s u od 0 := by
  refine sound.stepDone (el := none) ?_ fun u spad acc => sound.codesWritten placed spad acc
  rw [ThrCmd.perform, op]
  exact accCvtStep_eq hod hr

theorem quant_stepDone {h : Nat} {codes : List Nat} {f : Flags} (hod : od = s.tile.operand c.addrD.toNat) (op : c.op = .quant)
    (format : od.fmt = 13 ∨ od.fmt = 14) (placed : Placed od c.steps) (q : c.quantised s.tile = (h, codes, f)) :
    StepDone s k c f fun u _ =>
      (∀ p, p < 1024 → (od.codes u.tile c.next).getD p 0 = codes.getD p 0 % 2 ^ bankWidth od.fmt) ∧
      od.header u.tile c.next % 2 ^ 192 = h ∧ hChunk (od.header u.tile c.next) = (c.ctl.toNat + c.next) % 2 ^ 24 ∧
      hTensor (od.header u.tile c.next) = c.ctl.toNat / 2 ^ 24 % 2 ^ 24 ∧ od.header u.tile c.next / 2 ^ 240 = 0 ∧
      OnlyBlock s u od c.next := by
  subst hod
  obtain ⟨low, len⟩ := squareQuant_bounds format q
  obtain ⟨small, exponents, chunk, tensor⟩ := quantHeader_spec (c := c) low
  have fits : c.quantHeader h < 2 ^ (8 * 64) := lt_two_pow_mono small (by decide)
  obtain ⟨square, side⟩ : isSquareFmt (s.tile.operand c.addrD.toNat).fmt = true ∧ (s.tile.operand c.addrD.toNat).fmt ≠ 15 := by
    obtain e | e := format <;> rw [e] <;> decide
  refine sound.stepDone (t := (s.tile.operand c.addrD.toNat).putHeader ((s.tile.operand c.addrD.toNat).putCodes s.tile c.next codes) c.next
    (c.quantHeader h)) (el := none) ?_ fun u spad acc => ?_
  · rw [ThrCmd.perform, op]
    exact quantStep_eq q
  · obtain ⟨written, header, only⟩ := sound.recordWritten placed square (fun _ => side) sound.next_lt len fits spad acc
    rw [written, header]
    exact ⟨fun p _ => getD_map_mod _ _ _, exponents, chunk, tensor, Nat.div_eq_of_lt small, only⟩

theorem deq_stepDone {r : Nat → Nat × Flags} (hoa : oa = s.tile.operand c.addrA.toNat) (op : c.op = .deq)
    (hm : m = c.acc + if c.f64 then 2 * c.next else c.next)
    (tagged : tagBroken oa.fmt (oa.header s.tile c.next) (oa.codes s.tile c.next) = false)
    (hr : ∀ p, r p = cvtFromVal (squareValue oa.fmt (oa.header s.tile c.next) (p / 32) (p % 32) ((oa.codes s.tile c.next).getD p 0))
      (if c.f64 then 6 else 7) .near) :
    StepDone s k c ((List.range 1024).foldl (fun x p => x ||| (r p).2) 0) fun u _ =>
      (∀ p, p < 1024 → (u.tile.accCodes c.f64 m).getD p 0 = (r p).1 % 2 ^ (if c.f64 then 64 else 32)) ∧ OnlyAcc s u c.f64 m := by
  refine sound.stepDone (el := none) ?_ fun u spad acc => sound.accWritten spad acc
  rw [ThrCmd.perform, op]
  exact deqStep_eq hoa rfl hm tagged hr

/-- The step of `sq.align` that does not slip writes the aligned block. -/
theorem align_performs (hoa : oa = s.tile.operand c.addrA.toNat) (op : c.op = .align)
    (tagged : tagBroken oa.fmt (oa.header s.tile c.next) (oa.codes s.tile c.next) = false)
    (steady : ∀ h e f a, c.step s.tile ≠ .slip h e f a) : c.perform s.tile = c.aligned s.tile := by
  subst hoa
  have performs : c.perform s.tile = alignStep s.tile c := by rw [ThrCmd.perform, op]
  obtain ⟨y, broken, -⟩ | ⟨h, e, f, a, slip⟩ | eq := alignStep_cases (t := s.tile) (c := c)
  · rw [blockBroken_none (by rw [tagged, Bool.and_false])] at broken
    cases broken
  · exact absurd (sound.step_eq.trans (performs.trans slip)) (steady h e f a)
  · exact performs.trans eq

theorem align_stepDone {el e h : Nat} {f : Flags} {x : Nat → Int × Flags} {y : Nat → Int × Int} (hoa : oa = s.tile.operand c.addrA.toNat)
    (hod : od = s.tile.operand c.addrD.toNat) (op : c.op = .align) (format : od.fmt = 15) (linear : od.plane = false)
    (placed : Placed od c.steps) (hh : h = oa.header s.tile c.next) (natural : (e, f) = naturalExp oa.fmt h)
    (tagged : tagBroken oa.fmt h (oa.codes s.tile c.next) = false) (steady : ∀ h e f a, c.step s.tile ≠ .slip h e f a) (small : el < 2 ^ 8)
    (common : c.el.getD (alignExp s.tile c) = el)
    (hx : ∀ p, x p = if oa.fmt = 15 then (signed 32 ((oa.codes s.tile c.next).getD p 0), 0)
      else toAic (squareValue oa.fmt h (p / 32) (p % 32) ((oa.codes s.tile c.next).getD p 0)) e)
    (hy : ∀ p, y p = alignAic (x p).1 (el - e)) :
    StepDone s k c ((List.range 1024).foldl (fun a p => a ||| ((x p).2 ||| if (y p).2 = 0 then 0 else flAicLoss)) f) fun u v =>
      v.el = some el ∧ (∀ p, p < 1024 → (od.codes u.tile c.next).getD p 0 = wrap 32 (y p).1) ∧
      od.header u.tile c.next % 2 ^ 256 = el + 15 * 2 ^ 16 + hChunk h * 2 ^ 192 + hTensor h * 2 ^ 216 ∧
      (hTag h = 0 → hTag (od.header u.tile c.next) = 0) ∧
      (∀ g : Nat, hTag h ≠ 0 → g = hTag (od.header u.tile c.next) →
        tagResidue g = residueOf 15 (od.header u.tile c.next) (od.codes u.tile c.next) ∧ tagRoute g = tagRoute (hTag h) ∧ tagHop g = 0 ∧
        tagGen g = tagGen (hTag h) ∧ tagBad g = tagBad (hTag h) ∧ tagPlain g = tagPlain (hTag h)) ∧ OnlyBlock s u od c.next := by
  have performs := align_performs sound hoa op (by rw [← hh]; exact tagged) steady
  have elems := alignElems_eq hoa hh (congrArg Prod.fst natural).symm common hx hy
  subst hoa hod hh
  have written : ((c.alignElems s.tile).map fun r => wrap 32 r.1.1) = (List.range 1024).map fun p => wrap 32 (y p).1 := by
    rw [elems, List.map_map]; rfl
  have flags : ((naturalExp (s.tile.operand c.addrA.toNat).fmt ((s.tile.operand c.addrA.toNat).header s.tile c.next)).2 |||
      (c.alignElems s.tile).foldl (fun a r => a ||| r.2) 0) =
      (List.range 1024).foldl (fun a p => a ||| ((x p).2 ||| if (y p).2 = 0 then 0 else flAicLoss)) f := by
    rw [← natural, elems, List.foldl_map, ← foldl_or]
  rw [ThrCmd.aligned, common, written, flags] at performs
  refine sound.stepDone performs fun u spad acc => ?_
  have width : bankWidth (s.tile.operand c.addrD.toNat).fmt = 32 := by rw [format]; rfl
  have wide : ((List.range 1024).map fun p => wrap 32 (y p).1).map (· % 2 ^ 32) = (List.range 1024).map fun p => wrap 32 (y p).1 := by
    rw [List.map_map]
    exact List.map_congr_left fun p _ => Nat.mod_eq_of_lt (wrap_lt 32 _)
  obtain ⟨fits, low, tag⟩ := header_parts (alignHeader_lt (h := (s.tile.operand c.addrA.toNat).header s.tile c.next) small)
    (alignTag_lt (found := residueOf 15 (alignHeader el ((s.tile.operand c.addrA.toNat).header s.tile c.next))
      ((List.range 1024).map fun p => wrap 32 (y p).1)) (hTag_lt (h := (s.tile.operand c.addrA.toNat).header s.tile c.next)))
  obtain ⟨codes, header, only⟩ := sound.recordWritten placed (by rw [format]; rfl) (fun plane => absurd plane (by rw [linear]; decide))
    sound.next_lt (results_length _) fits spad acc
  rw [width, wide] at codes
  rw [codes, header, low, tag]
  refine ⟨rfl, fun p hp => getD_range_map _ hp 0, rfl, fun plain => if_pos plain, ?_, only⟩
  rintro g present rfl
  obtain ⟨residue, rest⟩ := alignTag_spec present (residueOf_lt 15 (alignHeader el ((s.tile.operand c.addrA.toNat).header s.tile c.next))
    ((List.range 1024).map fun p => wrap 32 (y p).1))
  exact ⟨residue.trans (residueOf_aic _ _ _), rest⟩

theorem scale_stepDone {e : Int} {h : Nat} (hod : od = s.tile.operand c.addrD.toNat) (op : c.op = .scale) (square : isSquareFmt od.fmt = true)
    (hh : h = od.header s.tile c.next) (he : e = (hE h : Int) + c.ctl.toInt) :
    StepDone s k c (if e < 0 ∨ 255 < e then flScaleSat else 0) fun u _ =>
      (hE (od.header u.tile c.next) : Int) = (if e < 0 then 0 else if 255 < e then 255 else e) ∧
      od.header u.tile c.next / 2 ^ 8 = h / 2 ^ 8 ∧ u.tile.acc = s.tile.acc ∧
      ∀ a, a < od.headerAddr c.next ∨ od.headerAddr c.next + 64 ≤ a → u.tile.spad.read a = s.tile.spad.read a := by
  subst he hh
  obtain ⟨exponent, rest, flags⟩ := scaleE_spec (od.header s.tile c.next) c.ctl.toInt
  rw [← flags]
  refine sound.stepDone (t := od.putHeader s.tile c.next (scaleE (od.header s.tile c.next) c.ctl.toInt).1) (el := none) ?_ fun u spad acc => ?_
  · rw [ThrCmd.perform, op]
    exact scaleStep_eq hod
  · have header : od.header u.tile c.next = (scaleE (od.header s.tile c.next) c.ctl.toInt).1 := by
      rw [header_congr spad]
      exact header_putHeader sound.spad square (setBits_lt header_lt (by decide) _)
    rw [header]
    exact ⟨exponent, rest, acc.trans putHeader_acc, fun a outside => by rw [spad, read_putHeader sound.spad outside]⟩

end

/-- Settles O36: each step's outcome, and the bytes that it writes read back. -/
theorem squareSteps : Obligations.SquareSteps := by
  intro s k c b m oa od stepping hb free units reads accBad accWf spadWf hoa hod hm
  subst hb
  have sound : SoundStep s k c := ⟨stepping, free, units, reads, accBad, accWf, spadWf⟩
  refine ⟨fun r op _ placed hr => accCvt_stepDone sound hod op placed hr, fun h codes f op format placed q => ?_,
    fun r op _ tagged hr => deq_stepDone sound hoa op hm tagged hr, fun el e h f x y op _ format linear placed hh natural tagged steady small
      common hx hy => ?_, fun e h op square _ hh he => scale_stepDone sound hod op square hh he⟩
  · subst hod hm
    exact quant_stepDone sound rfl op format placed q
  · refine align_stepDone sound hoa hod op format linear placed hh natural tagged steady small ?_ hx hy
    obtain known | ⟨unread, et, sources, hit⟩ := common
    · rw [known]; rfl
    · rw [unread, Option.getD_none]
      exact alignExp_eq hoa et sources hit

end Sys2Proof.Machine
end

section
/-! 09 R198, R209, R213: the steps of `mma`, of the zeroing and of the raw moves. -/
namespace Sys2Proof.Machine

/-! ### One step of `mma` (09 R209) -/

section
variable {t : Tile} {c : ThrCmd} {oa ob : Operand}

/-- The value of an element of an operand as it is read with q planes. -/
theorem blockValues_getD {o : Operand} {h q p : Nat} {cs : List Nat} {d : FVal} (len : cs.length = 1024) (hp : p < 1024) :
    (blockValues o h q cs).getD p d = operandValue o.fmt h q (p / 32) (p % 32) (cs.getD p 0) := by
  have values : cs.zipIdx.map (fun p => operandValue o.fmt h q (p.2 / 32) (p.2 % 32) p.1) =
      (List.range 1024).map fun p => operandValue o.fmt h q (p / 32) (p % 32) (cs.getD p 0) := map_zipIdx_results len fun _ _ => rfl
  rw [blockValues, values]
  simp [hp]

/-- Element (i, j) of an operand as it is read with q planes. -/
def Operand.value (o : Operand) (t : Tile) (b q i j : Nat) : FVal :=
  operandValue o.fmt (o.header t b) q i j ((o.codes t b).getD (32 * i + j) 0)

theorem blockValues_value {o : Operand} {b q i j : Nat} {d : FVal} (hi : i < 32) (hj : j < 32) :
    (blockValues o (o.header t b) q (o.codes t b)).getD (32 * i + j) d = o.value t b q i j := by
  rw [blockValues_getD codes_length (by omega), Operand.value, show (32 * i + j) / 32 = i by omega, show (32 * i + j) % 32 = j by omega]

/-- The products that a step of `mma` adds to element p of its accumulator. -/
def ThrCmd.products (t : Tile) (c : ThrCmd) (tr : Bool) (oa ob : Operand) (p : Nat) : List (FVal × Bool) :=
  (List.range 32).map fun r => exactMul
    (oa.value t c.next (bitsOf c.ctl.toNat 8 6) (if tr then r else p / 32) (if tr then p / 32 else r))
    (ob.value t c.next (bitsOf c.ctl.toNat 8 6) r (p % 32))

/-- The new code of element p of the accumulator, and the flags. -/
def ThrCmd.accumulated (t : Tile) (c : ThrCmd) (tr : Bool) (oa ob : Operand) (p : Nat) : Nat × Flags :=
  accumulateStep (if c.f64 then fp64 else fp32) (max (windowOf oa.fmt) (windowOf ob.fmt))
    (if c.z && c.next == 0 then 0 else (t.accCodes c.f64 c.acc).getD p 0) (c.products t tr oa ob p)

theorem mmaStep_eq {tr : Bool} (hoa : oa = t.operand c.addrA.toNat) (hob : ob = t.operand c.addrB.toNat)
    (taggedA : (isSquareFmt oa.fmt && tagBroken oa.fmt (oa.header t c.next) (oa.codes t c.next)) = false)
    (taggedB : (isSquareFmt ob.fmt && tagBroken ob.fmt (ob.header t c.next) (ob.codes t c.next)) = false) :
    mmaStep t c tr = .done (t.putAcc c.f64 c.acc ((List.range 1024).map fun p => (c.accumulated t tr oa ob p).1))
      (orAll ((List.range 1024).map (c.accumulated t tr oa ob))) none := by
  subst hoa hob
  have old : (if c.z && c.next == 0 then List.replicate 1024 0 else t.accCodes c.f64 c.acc).length = 1024 := by
    split
    · exact List.length_replicate
    · exact accCodes_length
  have results : mmaCodes (if c.f64 then fp64 else fp32)
      (max (windowOf (t.operand c.addrA.toNat).fmt) (windowOf (t.operand c.addrB.toNat).fmt)) tr
      (blockValues (t.operand c.addrA.toNat) ((t.operand c.addrA.toNat).header t c.next) (bitsOf c.ctl.toNat 8 6)
        ((t.operand c.addrA.toNat).codes t c.next))
      (blockValues (t.operand c.addrB.toNat) ((t.operand c.addrB.toNat).header t c.next) (bitsOf c.ctl.toNat 8 6)
        ((t.operand c.addrB.toNat).codes t c.next))
      (if c.z && c.next == 0 then List.replicate 1024 0 else t.accCodes c.f64 c.acc) =
      (List.range 1024).map (c.accumulated t tr (t.operand c.addrA.toNat) (t.operand c.addrB.toNat)) := by
    refine map_zipIdx_results old fun p hp => ?_
    have code : (if c.z && c.next == 0 then List.replicate 1024 0 else t.accCodes c.f64 c.acc).getD p 0 =
        if c.z && c.next == 0 then 0 else (t.accCodes c.f64 c.acc).getD p 0 := by
      split
      · rw [List.getD_replicate _ hp]
      · rfl
    have row : p / 32 < 32 := by omega
    have column : p % 32 < 32 := Nat.mod_lt p (by decide)
    unfold ThrCmd.accumulated ThrCmd.products
    dsimp only
    rw [code]
    refine congrArg (accumulateStep _ _ _) (List.map_congr_left fun r hr => ?_)
    have term := List.mem_range.1 hr
    rw [blockValues_value term column]
    cases tr with
    | true => simp only [if_true]; rw [blockValues_value term row]
    | false => simp only [Bool.false_eq_true, if_false]; rw [blockValues_value row term]
  unfold mmaStep
  dsimp only
  rw [blockBroken_none taggedA, blockBroken_none taggedB]
  dsimp only
  rw [results, List.map_map]
  rfl

end

/-! ### Zeroing and the raw moves (09 R213) -/

theorem writeAcc_spad {t : Tile} (a : Nat) (bs : List Byte) : (t.writeAcc a bs).spad = t.spad := rfl

theorem writeSpad_acc {t : Tile} (a : Nat) (bs : List Byte) : (t.writeSpad a bs).acc = t.acc := rfl

theorem getD_readBytes {m : Memory} {a n i : Nat} {d : Byte} (hi : i < n) : (m.readBytes a n).getD i d = m.read (a + i) := by
  rw [Memory.readBytes_eq, getD_range_map _ hi]

/-- A byte of the accumulator store after the 4096 bytes of a tile are written. -/
theorem read_writeAcc_block {t : Tile} {m a : Nat} {bs : List Byte} (wf : t.acc.wf = true) (len : bs.length = 4096) :
    (t.writeAcc (accAddr m) bs).acc.read a =
      if 4096 * m ≤ a ∧ a < 4096 * m + 4096 then bs.getD (a - 4096 * m) 0 else t.acc.read a := by
  rw [writeAcc_acc, Memory.read_writeBytes _ _ _ wf, len, accAddr, Nat.mul_comm]

section
variable {s : State} {k : Nat} {c : ThrCmd} (sound : SoundStep s k c)
include sound

theorem mma_stepDone {tr : Bool} {oa ob : Operand} (op : c.op = .mma tr) (hoa : oa = s.tile.operand c.addrA.toNat)
    (hob : ob = s.tile.operand c.addrB.toNat)
    (taggedA : (isSquareFmt oa.fmt && tagBroken oa.fmt (oa.header s.tile c.next) (oa.codes s.tile c.next)) = false)
    (taggedB : (isSquareFmt ob.fmt && tagBroken ob.fmt (ob.header s.tile c.next) (ob.codes s.tile c.next)) = false) :
    StepDone s k c (orAll ((List.range 1024).map (c.accumulated s.tile tr oa ob))) fun u _ =>
      (∀ p, p < 1024 → (u.tile.accCodes c.f64 c.acc).getD p 0 = (c.accumulated s.tile tr oa ob p).1 % 2 ^ (if c.f64 then 64 else 32)) ∧
        OnlyAcc s u c.f64 c.acc := by
  refine sound.stepDone (el := none) ?_ fun u spad acc => sound.accWritten spad acc
  rw [ThrCmd.perform, op]
  exact mmaStep_eq hoa hob taggedA taggedB

theorem accZero_stepDone (op : c.op = .accZero) : StepDone s k c 0 fun u _ => u.tile.spad = s.tile.spad ∧ ∀ a, u.tile.acc.read a =
    if 4096 * (c.acc + c.next) ≤ a ∧ a < 4096 * (c.acc + c.next) + 4096 then 0 else s.tile.acc.read a := by
  have done : c.perform s.tile = .done (s.tile.writeAcc (accAddr (c.acc + c.next)) (List.replicate 4096 0)) 0 none := by
    rw [ThrCmd.perform, op]
  refine sound.stepDone done fun u spad acc => ⟨spad.trans (writeAcc_spad _ _), fun a => ?_⟩
  rw [acc, read_writeAcc_block sound.acc List.length_replicate]
  refine ite_congr rfl (fun inside => ?_) fun _ => rfl
  rw [List.getD_replicate _ (by omega)]

theorem accLd_stepDone (op : c.op = .accLd) : StepDone s k c 0 fun u _ => u.tile.spad = s.tile.spad ∧ ∀ a, u.tile.acc.read a =
    if 4096 * c.acc ≤ a ∧ a < 4096 * c.acc + 4096 then s.tile.spad.read (c.addrA.toNat + (a - 4096 * c.acc)) else s.tile.acc.read a := by
  have done : c.perform s.tile = .done (s.tile.writeAcc (accAddr c.acc) (s.tile.readSpad c.addrA.toNat 4096)) 0 none := by
    rw [ThrCmd.perform, op]
  refine sound.stepDone done fun u spad acc => ⟨spad.trans (writeAcc_spad _ _), fun a => ?_⟩
  rw [acc, Tile.readSpad, read_writeAcc_block sound.acc (Memory.readBytes_length _ _ _)]
  refine ite_congr rfl (fun inside => ?_) fun _ => rfl
  rw [getD_readBytes (by omega)]

theorem accSt_stepDone (op : c.op = .accSt) : StepDone s k c 0 fun u _ => u.tile.acc = s.tile.acc ∧ ∀ a, u.tile.spad.read a =
    if c.addrD.toNat ≤ a ∧ a < c.addrD.toNat + 4096 then s.tile.acc.read (4096 * c.acc + (a - c.addrD.toNat)) else s.tile.spad.read a := by
  have done : c.perform s.tile = .done (s.tile.writeSpad c.addrD.toNat (s.tile.acc.readBytes (accAddr c.acc) 4096)) 0 none := by
    rw [ThrCmd.perform, op]
  refine sound.stepDone done fun u spad acc => ⟨acc.trans (writeSpad_acc _ _), fun a => ?_⟩
  rw [spad, Tile.writeSpad, Memory.read_writeBytes _ _ _ sound.spad, Memory.readBytes_length, accAddr, Nat.mul_comm]
  refine ite_congr rfl (fun inside => ?_) fun _ => rfl
  rw [getD_readBytes (by omega)]

end

end Sys2Proof.Machine
end

section
/-! 09 R198, R201, R202, 05 R125, R126: the stop of a thresher command, its completion, and a mismatch in its tail. -/
namespace Sys2Proof.Machine

/-! ### The next step in each case (09 R199, R201) -/

section
variable {s : State} {k : Nat} {c : ThrCmd}

theorem StepDone.run {f : Flags} {p : State → ThrCmd → Prop} (h : StepDone s k c f p) :
    ∃ (u : State) (v : ThrCmd), exec .thresherStep s = .next u ∧ u.mem = s.mem ∧ p u v := by
  obtain ⟨u, v, run, -, -, -, mem, -, -, -, hp⟩ := h
  exact ⟨u, v, run, mem, hp⟩

variable (stepping : s.tile.stepping = some (k, c))
include stepping

section
variable (free : s.tile.stepConflicts c c.next = [])
include free

/-- An uncorrectable word ends the activation with its first bad range's address. -/
theorem thresherStep_uncorr {r : Range} (bad : (c.reads s.tile c.next).find? (fun r => s.tile.rangesBad [r]) = some r) :
    exec .thresherStep s = .next (s.trapStrand s.tile.ltn .main
      { cause := .uncorr, addr := BitVec.ofNat 64 r.lo, localSrc := true, step := some (BitVec.ofNat 16 c.next) } c.unit c.word) := by
  have source : (Cause.uncorr == Cause.uncorr) = true := rfl
  rw [thresherStep_bad stepping free (step_uncorr bad), if_neg (by decide), source]

/-- A residue that is wrong ends the activation, and the record is local. -/
theorem thresherStep_sheaf {h e f a : Nat} (bad : c.step s.tile = .bad .sheaf h e f a) :
    exec .thresherStep s = .next ((s.localRecord h e f a).trapStrand s.tile.ltn .main
      { cause := .sheaf, addr := BitVec.ofNat 64 a, step := some (BitVec.ofNat 16 c.next) } c.unit c.word) := by
  have source : (Cause.sheaf == Cause.uncorr) = false := rfl
  rw [thresherStep_bad stepping free bad, if_pos (by decide), source]

end

/-- The main strand is held until the last step, and goes on after it. -/
theorem thresherStep_strand (free : s.tile.stepConflicts c c.next = []) (units : s.input.j = 0)
    (good : ∀ r e f h a, c.step s.tile ≠ .bad r e f h a) (steady : ∀ e f h a, c.step s.tile ≠ .slip e f h a) :
    ∃ u : State, exec .thresherStep s = .next u ∧ (c.next + 1 < c.steps → u.tile.main.wait = s.tile.main.wait) ∧
      (c.next + 1 = c.steps → s.tile.main.wait = some .thresher → u.tile.main.wait = none ∧ u.tile.main.pc = s.tile.main.retire.pc) := by
  cases out : c.step s.tile with
  | bad r e f h a => exact absurd out (good r e f h a)
  | slip e f h a => exact absurd out (steady e f h a)
  | done t fl el =>
    have main : t.main = s.tile.main := by rw [step_onlyBytes out]; rfl
    obtain ⟨held, released⟩ := stepped_main (s := s) (k := k) (c := c.after fl el) t
    rw [main] at held released
    refine ⟨_, thresherStep_done stepping free units out, fun more => congrArg Strand.wait (held more), fun last wait => ?_⟩
    rw [released last wait]
    exact ⟨retire_wait _, rfl⟩

/-- The state in which a command has stopped for a copy that waits on a page event (09 R202). -/
def State.stopped (s : State) (k : Nat) (c : ThrCmd) (p : PageWait) : State :=
  let u := s.onTile fun t =>
    { t.modCtx c.ctx fun x => { x with flags := x.flags ||| c.flags } with
      thresher := dropAt k t.thresher, stop := some c,
      main := { t.main with wait := some .page, mstep := BitVec.ofNat 16 c.next, mstepValid := true, epc := c.unit, fval := c.word } }
  { u with pageWaits := u.pageWaits ++ [{ p with agent := .joined .main }] }

theorem thresherStop_stops {w : WainCmd} {ws : List WainCmd} {p : PageWait} (conflicts : s.tile.stepConflicts c c.next = w :: ws)
    (waits : s.copyEvent w = some p) : exec .thresherStop s = .next (s.stopped k c p) := by
  have first : (s.tile.stepConflicts c c.next).findSome? s.copyEvent = some p := by rw [conflicts, List.findSome?_cons, waits]
  rw [exec_thresherStop, execThresherStop, stepping]
  dsimp only
  rw [first]
  rfl

end

/-! ### A number that completes (05 R125) -/

section
variable {s : State} (c : CReg) (n : Nat) (quiet : s.tile.triggers = [])
include quiet

/-- Where no trigger waits, a number that completes changes its counter, and wakes the tile where DONE moves. -/
theorem completeNum_wakes : s.completeNum s.tile.ltn c n = s.onTile (fun t => t.modCtr c fun k => k.complete n) ∨
    s.completeNum s.tile.ltn c n = s.onTile fun t => (t.modCtr c fun k => k.complete n).wake := by
  unfold State.completeNum
  rw [modTile_self]
  by_cases same : ((s.tile.modCtr c fun k => k.complete n).ctr c).done = (s.tile.ctr c).done
  · simp only [State.onTile, same, if_true]
    exact .inl (fireTriggers_none ((congrArg Tile.triggers (if_pos rfl)).trans quiet))
  · simp only [State.onTile, same, if_false]
    exact .inr (fireTriggers_none ((congrArg Tile.triggers (if_pos rfl)).trans quiet))

theorem completeNum_asyncFaults : (s.completeNum s.tile.ltn c n).tile.main.asyncFaults = s.tile.main.asyncFaults := by
  obtain eq | eq := completeNum_wakes c n quiet
  · rw [eq]; rfl
  · rw [eq]
    obtain same | retired := wake_strand (s.tile.modCtr c fun k => k.complete n) .main
    · exact congrArg Strand.asyncFaults same
    · exact (congrArg Strand.asyncFaults retired).trans (retire_asyncFaults _)

/-- A number that completes changes its own counter and, at most, ends what waits for it. -/
theorem completeNum_spec : (s.completeNum s.tile.ltn c n).tile.thresher = s.tile.thresher ∧
    (s.completeNum s.tile.ltn c n).tile.ctxs = s.tile.ctxs ∧ (s.completeNum s.tile.ltn c n).tile.philoxC = s.tile.philoxC ∧
    (∀ r, (s.completeNum s.tile.ltn c n).tile.ctr r = if r = c then (s.tile.ctr c).complete n else s.tile.ctr r) ∧
    SameBytes s (s.completeNum s.tile.ltn c n) := by
  obtain ⟨m, x, eq, -⟩ := completeNum_eq c n quiet
  rw [eq]
  exact ⟨rfl, rfl, rfl, fun r => modCtr_ctr s.tile c r fun k => k.complete n, sameBytes_of_eq rfl rfl rfl⟩

end

/-! ### Completion (09 R198) -/

/-- The tile with the flags and the draws of a command whose run lives (log 13). -/
def Tile.takeResults (t : Tile) (c : ThrCmd) : Tile :=
  if t.live c.owner then
    let u := t.modCtx c.ctx fun x => { x with flags := x.flags ||| c.flags }
    match c.c0 with
    | some v => u.setPhiloxC (advance v.toNat c.words)
    | none => u
  else t

/-- A tile with other thresher commands in flight. -/
def Tile.withThresher (t : Tile) (l : List ThrCmd) : Tile := { t with thresher := l }

section
variable (t : Tile) (c : ThrCmd)

/-- Taking over a command's results changes the contexts and the generator at most. -/
theorem takeResults_eq : ∃ cs lo hi, t.takeResults c = { t with ctxs := cs, phCtrl := lo, phCtrh := hi } := by
  unfold Tile.takeResults
  split
  · cases c.c0 with
    | some v => exact ⟨_, _, _, rfl⟩
    | none => exact ⟨_, _, _, rfl⟩
  · exact ⟨_, _, _, rfl⟩

theorem takeResults_withThresher (l : List ThrCmd) : (t.withThresher l).takeResults c = (t.takeResults c).withThresher l := by
  have lives : (t.withThresher l).live c.owner = t.live c.owner := rfl
  unfold Tile.takeResults
  rw [lives]
  split
  · cases c.c0 with
    | some v => rfl
    | none => rfl
  · rfl

variable {t c}

theorem takeResults_dead (dead : t.live c.owner = false) : t.takeResults c = t := by
  rw [Tile.takeResults, dead]; rfl

theorem takeResults_ctxs (live : t.live c.owner = true) (x : Fin 4) : (t.takeResults c).ctxs[x] =
    if x.val = c.ctx.toNat then { t.ctxs[x] with flags := t.ctxs[x].flags ||| c.flags } else t.ctxs[x] := by
  have ctxs : (t.takeResults c).ctxs = (t.modCtx c.ctx fun x => { x with flags := x.flags ||| c.flags }).ctxs := by
    rw [Tile.takeResults, live]
    cases c.c0 with
    | some v => rfl
    | none => rfl
  rw [ctxs, Tile.modCtx, Fin.getElem_fin, Vector.getElem_set]
  by_cases own : x.val = c.ctx.toNat
  · simp [own]
  · simp [own, Ne.symm own]

theorem takeResults_drew {v : BitVec 128} (drew : c.c0 = some v) (live : t.live c.owner = true) :
    (t.takeResults c).philoxC = (v.toNat + 256 * c.steps) % 2 ^ 128 := by
  have generator : (t.takeResults c).philoxC = advance v.toNat c.words % 2 ^ 128 := by
    rw [Tile.takeResults, live, drew]
    exact setPhiloxC_philoxC _ _
  rw [generator, advance, ThrCmd.words, Nat.mod_mod]
  congr 2
  omega

theorem takeResults_undrawn (undrawn : c.c0 = none) : (t.takeResults c).philoxC = t.philoxC := by
  rw [Tile.takeResults, undrawn]
  split
  · rfl
  · rfl

end

section
variable {s : State} {c : ThrCmd} {rest : List ThrCmd} (oldest : s.tile.thresher = c :: rest)
include oldest

/-- A command that has operands to read, or a mismatch to report, does not complete. -/
theorem complete_waits (early : c.next < c.steps ∨ c.fault.isSome = true) : exec .thresherCommandComplete s = .next s := by
  rw [exec_thresherCommandComplete, execThresherCommandComplete, oldest]
  simp only [early, if_true, event]

/-- The state with the oldest command gone and its results taken over. -/
def State.landed (s : State) (c : ThrCmd) (rest : List ThrCmd) : State :=
  s.onTile fun t => (t.withThresher rest).takeResults c

theorem complete_lands (read : c.next = c.steps) (sound : c.fault = none) :
    exec .thresherCommandComplete s = .next ((s.landed c rest).completeNum s.tile.ltn c.ctr c.num) := by
  rw [exec_thresherCommandComplete, execThresherCommandComplete, oldest]
  simp only [read, Nat.lt_irrefl, sound, Option.isSome_none, Bool.false_eq_true, or_self, if_false, event]
  rfl

/-- What the state is after the oldest command has completed. -/
theorem complete_results (quiet : s.tile.triggers = []) (read : c.next = c.steps) (sound : c.fault = none) :
    ∃ u : State, exec .thresherCommandComplete s = .next u ∧ u.tile.thresher = rest ∧ u.tile.ctxs = (s.tile.takeResults c).ctxs ∧
      u.tile.philoxC = (s.tile.takeResults c).philoxC ∧
      (∀ r, u.tile.ctr r = if r = c.ctr then (s.tile.ctr c.ctr).complete c.num else s.tile.ctr r) ∧ SameBytes s u := by
  have run := complete_lands oldest read sound
  obtain ⟨cs, lo, hi, eq⟩ := takeResults_eq s.tile c
  rw [State.landed, State.onTile, takeResults_withThresher, eq] at run
  rw [eq]
  exact ⟨_, run, completeNum_spec (s := s.onTile fun t => { t with thresher := rest, ctxs := cs, phCtrl := lo, phCtrh := hi })
    c.ctr c.num quiet⟩

/-! ### A mismatch in a tail (09 R201) -/

/-- The cause that a mismatch in a command's tail leaves for the main strand. -/
def ThrCmd.tailCause (c : ThrCmd) (f : Cause) (a : DW) : AsyncFault :=
  { cause := f, epc := c.unit, fval := c.word, addr := a, info := 0, step := some (BitVec.ofNat 16 (c.steps - 1)), localSrc := false }

/-- The main strand with a cause to raise at its next issue boundary; it waits for the thresher and for a retry no longer. -/
def Strand.blamed (m : Strand) (f : AsyncFault) : Strand :=
  { m with
    asyncFaults := m.asyncFaults ++ [f]
    wait := match m.wait with
      | some (.retry _) => none
      | some .thresher => none
      | x => x }

theorem tailFault_blames {f : Cause} {a : DW} (fault : c.fault = some (f, a)) (live : s.tile.live c.owner = true) :
    exec .tailFault s = .next ((s.onTile fun t => { t with thresher := rest, main := t.main.blamed (c.tailCause f a) }).completeNum
      s.tile.ltn c.ctr c.num) := by
  have first : (s.tile.thresher.zipIdx.find? fun p => p.1.fault.isSome) = some (c, 0) := by simp [oldest, fault]
  rw [exec_tailFault, execTailFault, first]
  simp only [fault, live, oldest, dropAt, Option.map_some, Option.getD_some, if_true, event, State.onTile]
  rfl

end

/-- The number that follows DONE becomes DONE as it completes. -/
theorem complete_done {k : Counter} {n : Nat} (ahead : k.ahead = []) (next : n = k.done + 1) : (k.complete n).done = n := by
  rw [Counter.complete_next ahead next]

/-- Settles O35: each step's outcome read back, the stop, and the two ways in which a command leaves the thresher. -/
theorem thresherStepsAndEnds : Obligations.ThresherStepsAndEnds := by
  refine ⟨fun s k c stepping => ⟨thresherStep_waits stepping, fun free units => ⟨fun r bad => ?uncorr, fun h e f a bad => ?sheaf,
    fun reads accBad accWf spadWf => ?sound⟩, fun w ws p conflicts waits => ?stop⟩,
    fun s c rest oldest quiet => ⟨complete_waits oldest, fun read whole => ?done, fun f a fault live => ?tail⟩⟩
  case uncorr => exact thresherStep_uncorr stepping free bad
  case sheaf => exact thresherStep_sheaf stepping free bad
  case sound =>
    have sound : SoundStep s k c := ⟨stepping, free, units, reads, accBad, accWf, spadWf⟩
    refine ⟨fun tr oa ob g op hoa hob taggedA taggedB hg => ?_, fun op => ?_, fun op => ?_, fun op => ?_,
      thresherStep_strand stepping free units⟩
    · subst hg
      obtain ⟨u, v, run, mem, codes, spad, rest⟩ := (mma_stepDone sound op hoa hob taggedA taggedB).run
      exact ⟨u, run, codes, rest, spad, mem⟩
    · obtain ⟨u, v, run, mem, spad, acc⟩ := (accZero_stepDone sound op).run
      exact ⟨u, run, spad, mem, acc⟩
    · obtain ⟨u, v, run, mem, spad, acc⟩ := (accLd_stepDone sound op).run
      exact ⟨u, run, spad, mem, acc⟩
    · obtain ⟨u, v, run, mem, acc, spad⟩ := (accSt_stepDone sound op).run
      exact ⟨u, run, acc, mem, spad⟩
  case stop =>
    exact ⟨_, thresherStop_stops stepping conflicts waits, rfl, rfl, rfl, rfl, rfl, rfl, rfl, sameBytes_of_eq rfl rfl rfl⟩
  case done =>
    obtain ⟨u, run, thresher, ctxs, philox, ctr, bytes⟩ := complete_results oldest quiet read whole
    refine ⟨u, run, thresher, fun live x => ?_, fun v drew live => philox.trans (takeResults_drew drew live),
      fun undrawn => philox.trans (takeResults_undrawn undrawn), fun dead => ?_, fun ahead next => ?_, fun r other => ?_, bytes⟩
    · rw [ctxs, takeResults_ctxs live]
    · rw [takeResults_dead dead] at ctxs philox
      exact ⟨ctxs, philox⟩
    · rw [ctr, if_pos rfl, complete_done ahead next]
    · rw [ctr, if_neg other]
  case tail =>
    have run := tailFault_blames oldest fault live
    have faults := completeNum_asyncFaults (s := s.onTile fun t => { t with thresher := rest, main := t.main.blamed (c.tailCause f a) })
      c.ctr c.num quiet
    obtain ⟨thresher, -, -, ctr, bytes⟩ :=
      completeNum_spec (s := s.onTile fun t => { t with thresher := rest, main := t.main.blamed (c.tailCause f a) }) c.ctr c.num quiet
    refine ⟨_, c.tailCause f a, run, thresher, faults, rfl, rfl, rfl, rfl, rfl, fun ahead next => ?_, bytes⟩
    exact (congrArg Counter.done ((ctr c.ctr).trans (if_pos rfl))).trans (complete_done ahead next)

end Sys2Proof.Machine
end

section
/-! 10 R222, R225-R227: the fields of tags, and records that travel: their headers, codes and residues under a changed tag. -/
namespace Sys2Proof.Machine

/-! ### Tags (10 R222) -/

section
variable {t : Nat}

theorem tagHop_tagSetHop (h : Nat) : tagHop (tagSetHop t h) = h % 2 ^ 6 := bitsOf_setBits_self t 47 6 h

@[simp] theorem tagResidue_tagSetHop (h : Nat) : tagResidue (tagSetHop t h) = tagResidue t := bitsOf_setBits_apart (.inl (by decide)) t h

@[simp] theorem tagGen_tagSetHop (h : Nat) : tagGen (tagSetHop t h) = tagGen t := bitsOf_setBits_apart (.inr (by decide)) t h

@[simp] theorem tagBad_tagSetHop (h : Nat) : tagBad (tagSetHop t h) = tagBad t := by
  simp [tagBad, bitOf_testBit, tagSetHop, testBit_setBits]

@[simp] theorem tagBad_tagSetBad : tagBad (tagSetBad t) = true := by simp [tagBad, bitOf_testBit, tagSetBad, testBit_setBits]

@[simp] theorem tagHop_tagSetBad : tagHop (tagSetBad t) = tagHop t := bitsOf_setBits_apart (.inl (by decide)) t 1

theorem ne_zero_of_tagBad (bad : tagBad t = true) : t ≠ 0 := by
  rintro rfl
  revert bad
  decide

theorem tagSetHop_lt (small : t < 2 ^ 64) (h : Nat) : tagSetHop t h < 2 ^ 64 := setBits_lt small (by decide) h

theorem tagSetBad_lt (small : t < 2 ^ 64) : tagSetBad t < 2 ^ 64 := setBits_lt small (by decide) 1

end

/-! ### Records that travel (10 R225-R227) -/

/-- Bytes are those of the number that they hold. -/
theorem leBytes_ofLe (bs : List Byte) : leBytes bs.length (ofLe bs) = bs := by
  induction bs with
  | nil => rfl
  | cons b bs ih =>
    have low : BitVec.ofNat 8 (b.toNat + 256 * ofLe bs) = b := BitVec.eq_of_toNat_eq (by rw [BitVec.toNat_ofNat]; omega)
    have high : (b.toNat + 256 * ofLe bs) / 256 = ofLe bs := by omega
    rw [List.length_cons, ofLe, leBytes, low, high, ih]

/-- No damage is done on the way. -/
theorem damaged_zero (j : Nat) (bs : List Byte) : damaged j 0 bs = bs := by
  unfold damaged
  dsimp only
  split
  · next inside =>
    have word : leBytes 8 (ofLe ((bs.drop (8 * j)).take 8)) = (bs.drop (8 * j)).take 8 := by
      have len : ((bs.drop (8 * j)).take 8).length = 8 := by rw [List.length_take, List.length_drop]; omega
      have bytes := leBytes_ofLe ((bs.drop (8 * j)).take 8)
      rwa [len] at bytes
    rw [show (0 : DW).toNat = 0 from rfl, Nat.xor_zero, word, List.append_assoc, ← List.drop_drop, List.take_append_drop, List.take_append_drop]
  · rfl

section
variable {bs : List Byte} {tag : Nat}

theorem recTag_lt (bs : List Byte) : recTag bs < 2 ^ 64 := hTag_lt

theorem recHeader_lt (bs : List Byte) : recHeader bs < 2 ^ (8 * 64) := by
  have bound := ofLe_lt (bs.take 64)
  rw [pow_256] at bound
  exact lt_two_pow_mono bound (Nat.mul_le_mul_left 8 (List.length_take_le 64 bs))

/-- A header in front of a payload. -/
theorem recHeader_append {h : Nat} (small : h < 2 ^ (8 * 64)) (payload : List Byte) : recHeader (leBytes 64 h ++ payload) = h := by
  rw [recHeader, List.take_left' (leBytes_length 64 h), ofLe_leBytes, pow_256, Nat.mod_eq_of_lt small]

theorem recFmt_aic (len : bs.length = 4160) : recFmt bs = 15 := by
  rw [recFmt, len]
  rfl

theorem recCodes_aic (len : bs.length = 4160) : recCodes bs = codesOfBytes 32 1024 (bs.drop 64) := by
  rw [recCodes, recFmt_aic len]
  rfl

theorem recCodes_length (bs : List Byte) : (recCodes bs).length = 1024 := codesOfBytes_length _ _ _

theorem recSetTag_length (room : 64 ≤ bs.length) (tag : Nat) : (recSetTag bs tag).length = bs.length := by
  rw [recSetTag, List.length_append, leBytes_length, List.length_drop]
  omega

theorem recHeader_recSetTag (bs : List Byte) (tag : Nat) : recHeader (recSetTag bs tag) = setBits (recHeader bs) 256 64 tag :=
  recHeader_append (setBits_lt (recHeader_lt bs) (by decide) tag) _

theorem recTag_recSetTag (small : tag < 2 ^ 64) (bs : List Byte) : recTag (recSetTag bs tag) = tag := by
  rw [recTag, recHeader_recSetTag, hTag, bitsOf_setBits_self, Nat.mod_eq_of_lt small]

/-- A changed tag leaves the payload as it is, and with it the residue (10 R223). -/
theorem recCodes_recSetTag (len : bs.length = 4160) (tag : Nat) : recCodes (recSetTag bs tag) = recCodes bs := by
  rw [recCodes_aic ((recSetTag_length (by omega) tag).trans len), recCodes_aic len, recSetTag, List.drop_left' (leBytes_length 64 _)]

theorem recResidue_recSetTag (len : bs.length = 4160) (tag : Nat) : recResidue (recSetTag bs tag) = recResidue bs := by
  rw [recResidue, recResidue, recFmt_aic ((recSetTag_length (by omega) tag).trans len), recFmt_aic len, recCodes_recSetTag len]
  exact residueOf_aic _ _ _

/-! A switch counts its hop in a tagged record, and leaves the rest (10 R227). -/

theorem bumpHop_eq (tagged : recTag bs ≠ 0) : bumpHop bs = recSetTag bs (tagSetHop (recTag bs) (tagHop (recTag bs) + 1)) := if_neg tagged

theorem recTag_bumpHop (tagged : recTag bs ≠ 0) : recTag (bumpHop bs) = tagSetHop (recTag bs) (tagHop (recTag bs) + 1) := by
  rw [bumpHop_eq tagged, recTag_recSetTag (tagSetHop_lt (recTag_lt bs) _)]

theorem tagHop_bumpHop (tagged : recTag bs ≠ 0) (below : tagHop (recTag bs) < 63) : tagHop (recTag (bumpHop bs)) = tagHop (recTag bs) + 1 := by
  rw [recTag_bumpHop tagged, tagHop_tagSetHop]
  omega

theorem tagBad_bumpHop (tagged : recTag bs ≠ 0) : tagBad (recTag (bumpHop bs)) = tagBad (recTag bs) := by
  rw [recTag_bumpHop tagged, tagBad_tagSetHop]

theorem bumpHop_length (room : 64 ≤ bs.length) : (bumpHop bs).length = bs.length := by
  unfold bumpHop
  split
  · rfl
  · exact recSetTag_length room _

theorem recCodes_bumpHop (len : bs.length = 4160) : recCodes (bumpHop bs) = recCodes bs := by
  unfold bumpHop
  split
  · rfl
  · exact recCodes_recSetTag len _

theorem recResidue_bumpHop (len : bs.length = 4160) : recResidue (bumpHop bs) = recResidue bs := by
  unfold bumpHop
  split
  · rfl
  · exact recResidue_recSetTag len _

end

/-! ### Checking points (10 R225, R226) -/

@[simp] theorem chargeRecord_records (s : State) (p : BitVec 5) (kind route l port : Nat) (bs : List Byte) (found addr : Nat) :
    (s.chargeRecord p kind route l port bs found addr).records.length = s.records.length + 1 := List.length_append

section
variable {s : State} {p : BitVec 5} {route l port : Nat} {bs : List Byte}

theorem checkRecord_agrees (agrees : recResidue bs = tagResidue (recTag bs)) : s.checkRecord p route l port bs = (s, bs) :=
  if_pos (.inr (.inr agrees))

theorem checkRecord_disagrees (tagged : recTag bs ≠ 0) (good : tagBad (recTag bs) = false) (broken : recResidue bs ≠ tagResidue (recTag bs)) :
    s.checkRecord p route l port bs =
      (s.chargeRecord p 1 route l port bs (recResidue bs) 0, recSetTag bs (tagSetBad (recTag bs))) := by
  simp [State.checkRecord, tagged, good, broken]

/-- A sound record below the hop limit passes a switch input as it is. -/
theorem checkInput_agrees (below : tagHop (recTag bs) < 63) (agrees : recResidue bs = tagResidue (recTag bs)) :
    s.checkInput p route l port bs = (s, bs) := by
  have limit : tagHop (recTag bs) ≠ 63 := by omega
  simp [State.checkInput, checkRecord_agrees agrees, limit]

/-- One that disagrees with its tag passes with BAD, and is charged once. -/
theorem checkInput_disagrees (tagged : recTag bs ≠ 0) (good : tagBad (recTag bs) = false) (broken : recResidue bs ≠ tagResidue (recTag bs)) :
    s.checkInput p route l port bs =
      (s.chargeRecord p 1 route l port bs (recResidue bs) 0, recSetTag bs (tagSetBad (recTag bs))) := by
  simp [State.checkInput, checkRecord_disagrees tagged good broken, recTag_recSetTag (tagSetBad_lt (recTag_lt bs))]

end

end Sys2Proof.Machine
end

section
/-! 10 R223, R239-R242: the sheaf instructions, over operands whose checks pass. -/
namespace Sys2Proof.Machine

/-! ### Bits of packed answers (10 R239) -/

theorem testBit_packFlags (p : Nat → Prop) [DecidablePred p] (n j : Nat) :
    (packList 1 ((List.range n).map fun c => if p c then 1 else 0)).testBit j = decide (j < n ∧ p j) := by
  have bit := bitsOf_packList 1 j ((List.range n).map fun c => if p c then 1 else 0)
  rw [Nat.one_mul] at bit
  rw [← bitOf_testBit, bitOf, show _ / 2 ^ j % 2 = _ from bit]
  by_cases inside : j < n
  · rw [getD_range_map _ inside]
    by_cases h : p j <;> simp [inside, h]
  · simp [inside]

/-! ### Headers and tags in place (10 R239) -/

section
variable {o : Operand} {t : Tile} {tag : Nat → Nat} {es : List Nat}

/-- The headers of an operand's blocks follow one another without meeting. -/
theorem headerAddr_rising (square : isSquareFmt o.fmt = true) {i j : Nat} (h : i < j) : o.headerAddr i + 64 ≤ o.headerAddr j := by
  unfold Operand.headerAddr
  split
  · unfold sideAddr Operand.slot
    omega
  · next linear =>
    have room : 64 ≤ linearBytes o.fmt := by rw [linearBytes_eq, if_pos square]; omega
    have blocks : (i + 1) * linearBytes o.fmt ≤ j * linearBytes o.fmt := Nat.mul_le_mul_right _ h
    rw [Operand.addr, Operand.addr, if_neg linear]
    rw [Nat.add_mul] at blocks
    omega

/-- Where the tag stands in the header of a block. -/
def Operand.tagAddr (o : Operand) (j : Nat) : Nat := o.headerAddr j + 32

/-- A tile with tags written into the headers of blocks. -/
def Tile.putTags (t : Tile) (o : Operand) (tag : Nat → Nat) (es : List Nat) : Tile :=
  es.foldl (fun t i => t.writeSpad (o.tagAddr i) (leBytes 8 (tag i))) t

theorem onlyBytes_putTags : OnlyBytes t (t.putTags o tag es) := by
  have kept : ∀ u, OnlyBytes t u → OnlyBytes t (u.putTags o tag es) := by
    induction es with
    | nil => exact fun u h => h
    | cons e es ih => exact fun u h => ih _ (h.writeSpad _ _)
  exact kept t rfl

/-- The scratchpad after the tags is that after stores of 8 bytes at their places. -/
theorem putTags_spad (s : State) (h : t.spad = s.tile.spad) : (t.putTags o tag es).spad = (s.storeEach o.tagAddr 8 tag es).tile.spad := by
  induction es generalizing t s with
  | nil => exact h
  | cons e es ih => exact ih _ (congrArg (fun m => Memory.writeBytes m (o.tagAddr e) (leBytes 8 (tag e))) h)

theorem readLe_putTags {s : State} (wf : s.tile.spad.wf = true) (square : isSquareFmt o.fmt = true) {n j : Nat} (hj : j < n)
    (small : tag j < 2 ^ 64) : (s.tile.putTags o tag (List.range n)).spad.readLe (o.tagAddr j) 8 = tag j := by
  rw [putTags_spad s rfl, readLe_storeEach wf List.pairwise_lt_range (List.mem_range.2 hj) fun f _ later => ?_]
  · exact Nat.mod_eq_of_lt small
  · have apart := headerAddr_rising square later
    simp only [Operand.tagAddr]
    omega

theorem read_putTags {s : State} (wf : s.tile.spad.wf = true) {n x : Nat}
    (outside : ∀ j, j < n → x < o.headerAddr j + 32 ∨ o.headerAddr j + 40 ≤ x) :
    (s.tile.putTags o tag (List.range n)).spad.read x = s.tile.spad.read x := by
  rw [putTags_spad s rfl]
  exact read_storeEach wf fun j hj => outside j (List.mem_range.1 hj)

end

theorem residue_lt (o : Operand) (t : Tile) (b : Nat) : o.residue t b < 2 ^ 31 := residueOf_lt _ _ _

theorem makeTag_lt {residue route gen : Nat} (h : residue < 2 ^ 31) (hr : route < 2 ^ 16) (hg : gen < 2 ^ 8) :
    makeTag residue route gen false < 2 ^ 64 := by
  simp only [makeTag, Bool.false_eq_true, if_false]
  omega

/-- A tile with the bytes of another, and with given retention entries. -/
def Tile.withSheaf (t u : Tile) (l : List Retention) : Tile := { t.withBytes u with retention := l }

/-- Bytes and retention entries apart, a word that writes one register leaves everything else as it was. -/
theorem setReg_withSheaf {s u : State} (t : Tile) (l : List Retention) (d : SReg) (v : DW)
    (hu : u = ((s.onTile fun _ => s.tile.withSheaf t l).setReg d v).retire) :
    (∀ r, u.reg r = if r = d ∧ d ≠ 0 then v else s.reg r) ∧ u.mem = s.mem ∧ u.tile.spad = t.spad ∧ u.tile.acc = t.acc ∧
      u.tile.retention = l ∧ SameVectors s u ∧ SameContexts s u ∧ SameSpecial s u := by
  subst hu
  have st : (s.onTile fun _ => s.tile.withSheaf t l).st = s.st := by
    simp only [State.st, State.cur, onTile_tile, Tile.withSheaf, Tile.withBytes]
    cases s.tile.lastIssued <;> rfl
  have special : SameSpecial s (s.onTile fun _ => s.tile.withSheaf t l) :=
    ⟨⟨rfl, rfl, congrArg Strand.cause st, congrArg Strand.epc st, congrArg Strand.fval st, congrArg Strand.mstep st,
      congrArg Strand.mstepValid st, congrArg Strand.lvl st, congrArg Strand.act st, congrArg Strand.ctx st, rfl, rfl, rfl, rfl⟩, rfl, rfl⟩
  refine ⟨fun r => ?_, by simp, ?_, ?_, ?_, sameVectors_of_tile ?_ ?_, ?_, by simpa [SameSpecial, SameControl] using special⟩
  · rw [setReg_retire_reg, reg_eq_of_regs (congrArg Strand.regs st)]
  all_goals simp [SameContexts, Tile.withSheaf, Tile.withBytes]

/-! ### What `sh.tag` and `sh.chk` check (10 R239) -/

/-- A sheaf operand of n blocks whose checks pass, over a quiet tile without damaged words. -/
structure SheafBlocks (s : State) (a b : SReg) (o : Operand) (n : Nat) : Prop where
  operand : o = s.tile.operand (s.reg a).toNat
  count : n = (s.reg b).toNat % 32
  pos : 1 ≤ n
  few : n ≤ 16
  reserved : (s.reg b).toNat / 32 % 8 = 0
  single : isSquareFmt o.fmt = true ∨ n = 1
  aligned : o.aligned = true
  range : o.rangeOk s.tile s.st.lvl n false = true
  thresher : s.tile.thresher = []
  wain : s.tile.wain = []
  sound : s.tile.spadBad = []

section
variable {s : State} {a b d : SReg} {o : Operand} {n : Nat}

theorem rangesBad_of_sound {t : Tile} (sound : t.spadBad = []) (rs : List Range) : t.rangesBad rs = false := by
  simp [Tile.rangesBad, sound, wordsBad_nil]

theorem SheafBlocks.checks (h : SheafBlocks s a b o n) {tags : Bool}
    (fields : (if tags then decide ((s.reg b).toNat < 2 ^ 32) else decide ((s.reg b).toNat < 2 ^ 8)) = true)
    (headers : tags = true → isSquareFmt o.fmt = true → ∀ j, j < n → s.tile.regionOk s.st.lvl (o.headerAddr j) 64 true = true) :
    s.sheafBlocks a b tags = .ok (o, n) := by
  have count : bitsOf (s.reg b).toNat 0 5 = n := by rw [bitsOf, Nat.pow_zero, Nat.div_one]; exact h.count.symm
  have reserved : bitsOf (s.reg b).toNat 5 3 = 0 := h.reserved
  have writable : (!(tags && isSquareFmt o.fmt) || (List.range n).all fun i => s.tile.regionOk s.st.lvl (o.headerAddr i) 64 true) = true := by
    by_cases written : tags = true ∧ isSquareFmt o.fmt = true
    · simpa [written] using headers written.1 written.2
    · simp only [Bool.or_eq_true, Bool.not_eq_true', Bool.and_eq_false_iff]
      exact .inl (by simpa [or_iff_not_imp_left] using written)
  have quiet : (!s.tile.thresher.isEmpty || s.tile.wain.any fun w => conflict ((List.range n).flatMap o.ranges)
      (if (tags && isSquareFmt o.fmt) = true then (List.range n).flatMap o.headerRange else []) w.reads w.writes) = false := by
    simp [h.thresher, h.wain]
  unfold State.sheafBlocks
  dsimp only
  rw [count, ← h.operand]
  refine (check_then ?_).trans ((check_then ?_).trans ((checkAt_then h.aligned).trans ((checkAt_then h.range).trans
    ((checkAt_then writable).trans ?_))))
  · simp only [h.pos, h.few, reserved, fields, decide_true, beq_self_eq_true, Bool.and_self]
  · simpa using h.single
  · rw [quiet, rangesBad_of_sound h.sound]
    rfl

/-- The tag that `sh.tag` makes for a block. -/
def Operand.sheafTag (o : Operand) (s : State) (b : SReg) (plain : Bool) (j : Nat) : Nat :=
  makeTag (o.residue s.tile j) ((s.reg b).toNat / 2 ^ 8 % 2 ^ 16) ((s.reg b).toNat / 2 ^ 24 % 2 ^ 8) plain

theorem sheafTag_lt (j : Nat) : o.sheafTag s b false j < 2 ^ 64 :=
  makeTag_lt (residue_lt o s.tile j) (Nat.mod_lt _ (by decide)) (Nat.mod_lt _ (by decide))

theorem shTag_plain (h : Issues (.shTag d a b) s) (blocks : SheafBlocks s a b o n) (fields : (s.reg b).toNat < 2 ^ 32)
    (plain : isSquareFmt o.fmt = false) : ScalarResult (exec (.shTag d a b) s) s d (BitVec.ofNat 64 (o.sheafTag s b true 0)) := by
  have one : n = 1 := blocks.single.resolve_left (by simp [plain])
  subst one
  rw [exec_shTag, execShTag]
  refine scalarResult_of_setReg h ?_
  rw [blocks.checks (tags := true) (decide_eq_true fields) fun _ square => absurd square (by simp [plain])]
  simp only [bind, Except.bind, plain]
  rfl

theorem shTag_square (h : Issues (.shTag d a b) s) (blocks : SheafBlocks s a b o n) (fields : (s.reg b).toNat < 2 ^ 32)
    (square : isSquareFmt o.fmt = true) (headers : ∀ j, j < n → s.tile.regionOk s.st.lvl (o.headerAddr j) 64 true = true) :
    exec (.shTag d a b) s = .next ((s.onTile fun _ => s.tile.putTags o (o.sheafTag s b false) (List.range n)).setReg d
      (BitVec.ofNat 64 (o.sheafTag s b false (n - 1)))).retire := by
  rw [exec_shTag, execShTag]
  refine run_ok h ?_
  rw [blocks.checks (tags := true) (decide_eq_true fields) fun _ _ => headers]
  simp only [bind, Except.bind, square]
  rfl

/-- The answer of `sh.chk` bit by bit: the untagged blocks from bit 16 on, the failing ones from bit 0 on. -/
theorem chkAnswer_eq (few : n ≤ 16) {tag res : Nat → Nat} {w : DW} (bits : ∀ j, j < 64 → w.getLsbD j =
      ((decide (16 ≤ j ∧ j < 16 + n) && (tag (j - 16) == 0)) ||
        (decide (j < n) && (tag j != 0) && (tagBad (tag j) || (tagResidue (tag j) != res j))))) :
    BitVec.ofNat 64 (packList 1 ((List.range n).map fun j => if tag j = 0 then 1 else 0) * 2 ^ 16 +
      packList 1 ((List.range n).map fun j => if tag j ≠ 0 ∧ (tagBad (tag j) ∨ tagResidue (tag j) ≠ res j) then 1 else 0)) = w := by
  have low : packList 1 ((List.range n).map fun j => if tag j ≠ 0 ∧ (tagBad (tag j) ∨ tagResidue (tag j) ≠ res j) then 1 else 0) < 2 ^ 16 :=
    lt_two_pow_mono (packList_lt 1 _) (by simpa using few)
  refine BitVec.eq_of_getLsbD_eq fun j hj => ?_
  rw [BitVec.getLsbD_ofNat, bits j hj, decide_eq_true hj, Bool.true_and, Nat.mul_comm, Nat.testBit_two_pow_mul_add _ low,
    testBit_packFlags, testBit_packFlags, Bool.eq_iff_iff]
  by_cases failing : j < 16
  · simp [failing, and_assoc]
  · have above : ¬ j < n := by omega
    simp [failing, above, Nat.le_of_not_lt failing, Nat.sub_lt_iff_lt_add' (Nat.le_of_not_lt failing)]

theorem shChk_answers (h : Issues (.shChk d a b) s) (blocks : SheafBlocks s a b o n) (fields : (s.reg b).toNat < 2 ^ 8) {w : DW} {tag : Nat → Nat}
    (tags : ∀ j, tag j = if isSquareFmt o.fmt then hTag (o.header s.tile j) else (s.reg d).toNat)
    (bits : ∀ j, j < 64 → w.getLsbD j = ((decide (16 ≤ j ∧ j < 16 + n) && (tag (j - 16) == 0)) ||
      (decide (j < n) && (tag j != 0) && (tagBad (tag j) || (tagResidue (tag j) != o.residue s.tile j))))) :
    ScalarResult (exec (.shChk d a b) s) s d w := by
  obtain rfl : tag = fun j => if isSquareFmt o.fmt then hTag (o.header s.tile j) else (s.reg d).toNat := funext tags
  rw [exec_shChk, execShChk]
  refine scalarResult_of_setReg h ?_
  rw [blocks.checks (tags := false) (decide_eq_true fields) fun tags => absurd tags (by decide)]
  exact congrArg (fun v => Except.ok (s.setReg d v)) (chkAnswer_eq blocks.few bits)

end

/-! ### `sh.red` (10 R240) -/

section
variable {s : State} {a b : SReg} {o : Operand} {t : Nat} {act : Activation}

/-- `sh.red` once its operand has passed its checks: the tag, the residue, the room, the send. -/
def State.launchRed (s : State) (a b : SReg) (o : Operand) (t : Nat) : Exec := do
  s.check (t != 0 && !(tagPlain t) && !(tagBad t) && tagRoute t != 0) .qfault
  if o.residue s.tile 0 ≠ tagResidue t then
    (s.localRecord (o.header s.tile 0) (tagResidue t) (o.residue s.tile 0) (s.reg a).toNat).trapAt .sheaf (s.reg a)
  else
    s.check (decide (s.tile.retention.length + s.redsBuffered < 32)) .qfault
    s.check (decide (s.outputCount < 32)) .qfault
    .ok (s.buffer (.red (s.reg a).toNat ((s.reg b).getLsbD 0)))

theorem shRed_options (h : Issues (.shRed a b) s) (options : 2 ≤ (s.reg b).toNat) :
    exec (.shRed a b) s = .next (s.takeTrap (raise .prot)) := by
  rw [exec_shRed, execShRed]
  exact run_trap h (check_else (decide_eq_false (by omega)))

theorem shRed_format (h : Issues (.shRed a b) s) (ho : o = s.tile.operand (s.reg a).toNat) (options : (s.reg b).toNat < 2)
    (format : o.plane = true ∨ o.fmt ≠ 15) : exec (.shRed a b) s = .next (s.takeTrap (raise .bankfmt)) := by
  subst ho
  rw [exec_shRed, execShRed]
  refine run_trap h ((check_then (decide_eq_true (by omega))).trans (check_else ?_))
  obtain plane | fmt := format
  · rw [plane]; rfl
  · rw [beq_false_of_ne fmt, Bool.and_false]

/-- The operand of a `sh.red` whose checks pass: one AIC32 record in a linear bank, none of whose words is damaged. -/
structure RedOperand (s : State) (a b : SReg) (o : Operand) : Prop where
  operand : o = s.tile.operand (s.reg a).toNat
  options : (s.reg b).toNat < 2
  linear : o.plane = false
  format : o.fmt = 15
  aligned : o.aligned = true
  range : o.rangeOk s.tile s.st.lvl 1 false = true
  sound : s.tile.spadBad = []

theorem RedOperand.launches (red : RedOperand s a b o) (h : Issues (.shRed a b) s) (ht : t = hTag (o.header s.tile 0)) :
    exec (.shRed a b) s = .next (finish s (s.launchRed a b o t)) := by
  obtain ⟨rfl, options, linear, format, aligned, range, sound⟩ := red
  subst ht
  rw [exec_shRed, execShRed, h.run]
  refine congrArg (fun r => Host.Outcome.next (finish s r)) ((check_then (decide_eq_true (by omega))).trans ((check_then ?_).trans
    ((checkAt_then aligned).trans ((checkAt_then range).trans ?_))))
  · rw [linear, format]; rfl
  · rw [rangesBad_of_sound sound]; rfl

/-- A tag with which a record may be sent. -/
def MaySend (t : Nat) : Prop := t ≠ 0 ∧ tagPlain t = false ∧ tagBad t = false ∧ tagRoute t ≠ 0

theorem launchRed_barred (barred : t = 0 ∨ tagPlain t = true ∨ tagBad t = true ∨ tagRoute t = 0) :
    s.launchRed a b o t = .error (.trap (raise .qfault) s) := by
  refine check_else ?_
  obtain h | h | h | h := barred <;> simp [h]

theorem MaySend.check (h : MaySend t) : (t != 0 && !(tagPlain t) && !(tagBad t) && tagRoute t != 0) = true := by
  obtain ⟨tagged, whole, good, routed⟩ := h
  simp [tagged, whole, good, routed]

theorem launchRed_disagrees (may : MaySend t) (broken : o.residue s.tile 0 ≠ tagResidue t) : s.launchRed a b o t = .error (.trap
    { cause := .sheaf, addr := s.reg a } (s.localRecord (o.header s.tile 0) (tagResidue t) (o.residue s.tile 0) (s.reg a).toNat)) :=
  (check_then may.check).trans (if_pos broken)

theorem launchRed_agrees (may : MaySend t) (agrees : o.residue s.tile 0 = tagResidue t) : s.launchRed a b o t = (do
    s.check (decide (s.tile.retention.length + s.redsBuffered < 32)) .qfault
    s.check (decide (s.outputCount < 32)) .qfault
    .ok (s.buffer (.red (s.reg a).toNat ((s.reg b).getLsbD 0)))) :=
  (check_then may.check).trans (if_neg (not_not.2 agrees))

/-! ### Buffered sends (10 R240, R241) -/

theorem outputCount_running (running : s.tile.act = some act) : s.outputCount = act.outputs.length := by
  rw [State.outputCount, running]
  rfl

theorem launchRed_full (may : MaySend t) (agrees : o.residue s.tile 0 = tagResidue t) (running : s.tile.act = some act)
    (full : 32 ≤ s.tile.retention.length + s.redsBuffered ∨ 32 ≤ act.outputs.length) :
    s.launchRed a b o t = .error (.trap (raise .qfault) s) := by
  rw [launchRed_agrees may agrees, outputCount_running running]
  by_cases held : 32 ≤ s.tile.retention.length + s.redsBuffered
  · exact check_else (decide_eq_false (Nat.not_lt.2 held))
  · exact (check_then (decide_eq_true (Nat.not_le.1 held))).trans (check_else (decide_eq_false (Nat.not_lt.2 (full.resolve_left held))))

theorem launchRed_sends (may : MaySend t) (agrees : o.residue s.tile 0 = tagResidue t) (running : s.tile.act = some act)
    (held : s.tile.retention.length + s.redsBuffered < 32) (room : act.outputs.length < 32) :
    s.launchRed a b o t = .ok (s.buffer (.red (s.reg a).toNat ((s.reg b).getLsbD 0))) := by
  rw [launchRed_agrees may agrees, outputCount_running running]
  exact (check_then (decide_eq_true held)).trans (check_then (decide_eq_true room))

/-- A word that buffers an output and does nothing else. -/
theorem buffer_retire (running : s.tile.act = some act) (out : Output) {u : State} (hu : u = (s.buffer out).retire) :
    u.tile.act = some { act with outputs := act.outputs ++ [out] } ∧ u.tile.retention = s.tile.retention ∧ u.tile.shSends = s.tile.shSends ∧
      (∀ r, u.reg r = s.reg r) ∧ SameVectors s u ∧ SameContexts s u ∧ SameSpecial s u ∧ SameBytes s u := by
  subst hu
  obtain ⟨regs, vectors, ctxs, special, mem, acc⟩ := (storeFrame_onAct s fun x => { x with outputs := x.outputs ++ [out] }).retire
  refine ⟨onAct_retire_act running _, ?_, ?_, regs, vectors, ctxs, special, mem, fun x => ?_, acc⟩
  · rw [State.retire_tile_retention]; rfl
  · rw [State.retire_tile_shSends]; rfl
  · rw [State.retire_tile_spad]; rfl

theorem getLsbD_zero_of_option {v : DW} (small : v.toNat < 2) : v.getLsbD 0 = (v.toNat == 1) := by
  rw [BitVec.getLsbD, Nat.testBit_zero, Nat.mod_eq_of_lt small]
  rfl

theorem shAck_barred (h : Issues (.shAck a b) s) (running : s.tile.act = some act)
    (barred : (s.reg b).toNat % 2 ^ 16 = 0 ∨ 32 ≤ act.outputs.length) : exec (.shAck a b) s = .next (s.takeTrap (raise .qfault)) := by
  rw [exec_shAck, execShAck]
  refine run_trap h ?_
  dsimp only
  rw [outputCount_running running, bitsOf, Nat.pow_zero, Nat.div_one]
  by_cases unrouted : (s.reg b).toNat % 2 ^ 16 = 0
  · exact check_else (by rw [unrouted]; rfl)
  · exact (check_then (bne_iff_ne.2 unrouted)).trans (check_else (decide_eq_false (Nat.not_lt.2 (barred.resolve_left unrouted))))

theorem shAck_buffers (h : Issues (.shAck a b) s) (running : s.tile.act = some act) (routed : (s.reg b).toNat % 2 ^ 16 ≠ 0)
    (room : act.outputs.length < 32) : exec (.shAck a b) s = .next (s.buffer (.ack ((s.reg a).extractLsb' 0 48)
      (BitVec.ofNat 16 (s.reg b).toNat) (BitVec.ofNat 8 ((s.reg b).toNat / 2 ^ 16)))).retire := by
  rw [exec_shAck, execShAck]
  refine run_ok h ?_
  dsimp only
  rw [outputCount_running running, bitsOf, Nat.pow_zero, Nat.div_one]
  refine (check_then (bne_iff_ne.2 routed)).trans ((check_then (decide_eq_true room)).trans ?_)
  have gen : BitVec.ofNat 8 (bitsOf (s.reg b).toNat 16 8) = BitVec.ofNat 8 ((s.reg b).toNat / 2 ^ 16) :=
    BitVec.eq_of_toNat_eq (by rw [BitVec.toNat_ofNat, BitVec.toNat_ofNat, bitsOf, Nat.mod_mod])
  rw [gen, BitVec.setWidth_eq_extractLsb' (by decide)]

/-! ### `sh.rel` (10 R242) -/

variable {d : SReg}

theorem shRel_unmatched (h : Issues (.shRel d a b) s)
    (unmatched : ∀ r ∈ s.tile.retention, r.is (s.reg a).toNat ((s.reg b).toNat / 2 ^ 16 % 2 ^ 8) = false) :
    ScalarResult (exec (.shRel d a b) s) s d 2 := by
  rw [exec_shRel, execShRel]
  refine scalarResult_of_setReg h ?_
  have found : (s.tile.retention.find? fun r => r.is (s.reg a).toNat (bitsOf (s.reg b).toNat 16 8)) = none :=
    List.find?_eq_none.2 fun r hr => Bool.eq_false_iff.1 (unmatched r hr)
  dsimp only
  rw [found]

theorem shRel_matched (h : Issues (.shRel d a b) s) {r : Retention}
    (found : (s.tile.retention.find? fun x => x.is (s.reg a).toNat ((s.reg b).toNat / 2 ^ 16 % 2 ^ 8)) = some r) :
    exec (.shRel d a b) s = .next ((s.onTile fun _ => s.tile.withSheaf s.tile (dropFirst (fun x => x.is (s.reg a).toNat
      ((s.reg b).toNat / 2 ^ 16 % 2 ^ 8)) s.tile.retention)).setReg d (if r.st = .acked then 1 else 0)).retire := by
  have found' : (s.tile.retention.find? fun x => x.is (s.reg a).toNat (bitsOf (s.reg b).toNat 16 8)) = some r := found
  rw [exec_shRel, execShRel]
  refine run_ok h ?_
  dsimp only
  rw [found']
  rfl

end

/-- Settles O47: per instruction, what its body comes to where its checks pass, and the frame of what it writes. -/
theorem sheafInstructions : Obligations.SheafInstructions := by
  rintro s i d a b o act n v issues ho rfl running
  refine ⟨fun count pos few reserved single aligned range thresher wain sound => ?blocks, ?red, ?ack, ?rel⟩
  case blocks =>
    have blocks : SheafBlocks s a b o n := ⟨ho, count, pos, few, reserved, single, aligned, range, thresher, wain, sound⟩
    refine ⟨?_, ?_⟩
    · rintro rfl fields wf
      refine ⟨shTag_plain issues blocks fields, fun square headers => ?_⟩
      have tags : s.tile.putTags o (o.sheafTag s b false) (List.range n) =
          s.tile.withSheaf (s.tile.putTags o (o.sheafTag s b false) (List.range n)) s.tile.retention := onlyBytes_putTags
      have run := shTag_square issues blocks fields square headers
      rw [tags] at run
      obtain ⟨regs, mem, spad, -, -, vectors, contexts, special⟩ := setReg_withSheaf _ _ _ _ rfl
      refine ⟨_, run, fun j hj => ?_, fun x outside => ?_, regs, mem, vectors, contexts, special⟩
      · rw [spad]
        exact readLe_putTags wf square hj (sheafTag_lt j)
      · rw [spad]
        exact read_putTags wf outside
    · rintro rfl fields w tag tags bits
      exact shChk_answers issues blocks fields tags bits
  case red =>
    rintro rfl sound
    refine ⟨shRed_options issues, shRed_format issues ho, fun t options linear format aligned range ht => ?_⟩
    rw [RedOperand.launches ⟨ho, options, linear, format, aligned, range, sound⟩ issues ht]
    refine ⟨fun barred => by rw [launchRed_barred barred, finish_trap], fun tagged whole good routed => ?_⟩
    have may : MaySend t := ⟨tagged, whole, good, routed⟩
    refine ⟨fun broken => ⟨_, by rw [launchRed_disagrees may broken, finish_trap], rfl⟩,
      fun agrees => ⟨fun full => ?_, fun held room => ?_⟩⟩
    · rw [launchRed_full may agrees running full, finish_trap]
    · rw [launchRed_sends may agrees running held room, finish_ok issues.budget, getLsbD_zero_of_option options]
      exact ⟨_, rfl, buffer_retire running _ rfl⟩
  case ack =>
    rintro rfl
    refine ⟨shAck_barred issues running, fun routed room => ⟨_, shAck_buffers issues running routed room, ?_⟩⟩
    obtain ⟨outputs, -, -, frame⟩ := buffer_retire running _ rfl
    exact ⟨outputs, frame⟩
  case rel =>
    rintro rfl
    refine ⟨shRel_unmatched issues, fun r found => ⟨_, shRel_matched issues found, ?_⟩⟩
    obtain ⟨regs, mem, spad, acc, retention, vectors, contexts, special⟩ := setReg_withSheaf _ _ _ _ rfl
    exact ⟨retention, regs, vectors, contexts, special, sameBytes_of_eq mem spad acc⟩

end Sys2Proof.Machine
end

section
/-! 10 R225-R231, R234: records that depart from their tile, pass a switch, and are delivered. -/
namespace Sys2Proof.Machine

/-! ### Departure (10 R225, R234) -/

/-- The retention entry of a send that departs. -/
def ShSend.entry (x : ShSend) (bs : List Byte) (st : RetState) : Retention :=
  { chunk := BitVec.ofNat 24 (hChunk (recHeader bs)), tensor := BitVec.ofNat 24 (hTensor (recHeader bs)), gen := BitVec.ofNat 8 (tagGen (recTag bs)),
    addr := x.addr, auto := x.auto, st := st }

/-- The packet in which a record with tag t leaves the tile at turn. -/
def State.sheafPacket (s : State) (t : Nat) (bs : List Byte) : Packet :=
  { switch := s.tile.ltn, port := 0, route := BitVec.ofNat 16 (tagRoute t), paddock := s.tile.paddock, dest := s.tile.ltn,
    sources := [s.gid s.tile.ltn], body := .sheaf bs }

/-- The oldest send has left the tile, and its entry is in the retention table. -/
def State.retains (s : State) (xs : List ShSend) (e : Retention) : State :=
  s.onTile fun t => { t with shSends := xs, retention := t.retention ++ [e] }

section
variable {s : State} {x : ShSend} {xs : List ShSend} {bs : List Byte}
variable (sends : s.tile.shSends = x :: xs) (first : x.resend = false) (sound : s.tile.spadBad = []) (record : bs = s.tile.readSpad x.addr 4160)
  (tagged : recTag bs ≠ 0) (good : tagBad (recTag bs) = false)
include sends first sound record tagged good

theorem departure_agrees (agrees : recResidue bs = tagResidue (recTag bs)) : exec .shRedDeparture s =
    .next { s.retains xs (x.entry bs .sent) with packets := s.packets ++ [s.sheafPacket (recTag bs) bs] } := by
  have tagged' : hTag (recHeader bs) ≠ 0 := tagged
  have good' : tagBad (hTag (recHeader bs)) = false := good
  have agrees' : recResidue bs = tagResidue (hTag (recHeader bs)) := agrees
  simp only [exec_shRedDeparture, execShRedDeparture, event, sends, ← record, sound, wordsBad_nil, first, tagged', good', agrees', Bool.false_eq_true,
    or_self, decide_false, bne_self_eq_false, Bool.and_false, if_false]
  rfl

theorem departure_disagrees (broken : recResidue bs ≠ tagResidue (recTag bs)) : exec .shRedDeparture s =
    .next { (s.retains xs (x.entry bs .failed)).chargeRecord s.tile.paddock 6 (tagRoute (recTag bs)) s.tile.ltn 0 bs (recResidue bs) x.addr with
      packets := s.packets ++ [s.sheafPacket (recTag bs) (recSetTag bs (tagSetBad (recTag bs)))] } := by
  have tagged' : hTag (recHeader bs) ≠ 0 := tagged
  have good' : tagBad (hTag (recHeader bs)) = false := good
  have broken' : (recResidue bs != tagResidue (hTag (recHeader bs))) = true := bne_iff_ne.2 broken
  simp only [exec_shRedDeparture, execShRedDeparture, event, sends, ← record, sound, wordsBad_nil, first, tagged', good', broken', Bool.false_eq_true,
    or_self, false_or, decide_false, Bool.not_false, Bool.and_self, if_true, if_false]
  rfl

end

/-! ### Ports (10 R227, R228) -/

section
variable {s : State} {p : Packet} {bs : List Byte} {r : RouteEntry} {k q : Nat}

/-- A record that leaves by a link goes to the next switch, with its hop counted. -/
theorem forward_link (lo : 1 ≤ q) (hi : q ≤ 4) : s.forward { p with body := .sheaf bs } [q] =
    { s with packets := s.packets ++
      [{ p with switch := (neighbour p.switch q).1, port := (neighbour p.switch q).2, body := .sheaf (bumpHop bs) }] } := by
  have links : q ≠ 0 ∧ q ≠ 5 := by omega
  exact (if_neg links.1).trans (if_neg links.2)

/-- A record that leaves by port 0 reaches the network interface of its tile. -/
theorem forward_local : s.forward { p with body := .sheaf bs } [0] = s.deliverRecord p.paddock p.route.toNat p.switch (bumpHop bs) := rfl

/-- A tile with one more record at its network interface. -/
def Tile.deliver (t : Tile) (ys : List Byte) : Tile := { t with delivered := t.delivered ++ [ys] }

/-- A sound record is delivered with HOP 0. -/
theorem deliverRecord_agrees {pk : BitVec 5} {route l : Nat} (good : tagBad (recTag bs) = false) (agrees : recResidue bs = tagResidue (recTag bs)) :
    s.deliverRecord pk route l bs = s.modTile l fun t => t.deliver (recSetTag bs (tagSetHop (recTag bs) 0)) := by
  simp [State.deliverRecord, checkRecord_agrees agrees, good, Tile.deliver]

theorem modTile_packets (s : State) (l : Nat) (f : Tile → Tile) : (s.modTile l f).packets = s.packets ∧ (s.modTile l f).records = s.records := by
  unfold State.modTile State.putTile
  split <;> exact ⟨rfl, rfl⟩

/-! ### A switch input (10 R225, R230) -/

/-- The network without the packet that arrives. -/
def State.taken (s : State) (k : Nat) : State := { s with packets := dropAt k s.packets }

section
variable {t : State} {ys : List Byte}
variable (hk : s.input.k = k) (packet : s.packets[k]? = some p) (body : p.body = .sheaf bs) (clean : s.input.bits = 0) (routed : p.route ≠ 0)
  (checked : (s.taken k).checkInput p.paddock p.route.toNat p.switch p.port bs = (t, ys)) (kept : t.routes = s.routes)
include hk packet body clean routed checked kept

/-- An undamaged record that its input has checked goes on by the one entry of its route, and is dropped without one. -/
theorem switchArrival_checked :
    (∀ r, s.routesFor p = [r] → r.red = false → exec .switchArrival s = .next (t.forward { p with body := .sheaf ys } (maskPorts r.outMask))) ∧
      (s.routesFor p = [] → exec .switchArrival s = .next (t.routeFault { p with body := .sheaf ys })) := by
  have unharmed : p.onRecord (damaged s.input.j s.input.bits) = p := by
    rw [Packet.onRecord, body, clean]
    simp only [PacketBody.record, damaged_zero, PacketBody.setRecord]
    rw [← body]
  have input : State.switchCheck { s with packets := dropAt k s.packets } p = (t, { p with body := .sheaf ys }) := by
    rw [State.taken] at checked
    simp only [State.switchCheck, body, PacketBody.record, PacketBody.setRecord, checked]
  have routes : t.routesFor { p with body := .sheaf ys } = s.routesFor p := by simp only [State.routesFor, kept]
  simp only [exec_switchArrival, execSwitchArrival, event, hk, packet, unharmed, input, routed, if_false, routes]
  constructor
  · intro r one plain
    rw [one]
    simp only [plain]
    rfl
  · intro unrouted
    rw [unrouted]
    rfl

end

/-- A record that agrees with its tag passes the input as it is; one that disagrees passes with BAD and is charged. In both cases the rest of
the network and the payload are as they were. -/
theorem checkInput_passes (len : bs.length = 4160) (tagged : recTag bs ≠ 0) (good : tagBad (recTag bs) = false)
    (below : tagHop (recTag bs) < 63) : ∃ (t : State) (ys : List Byte), s.checkInput p.paddock p.route.toNat p.switch p.port bs = (t, ys) ∧
      t.packets = s.packets ∧ t.routes = s.routes ∧ ys.length = 4160 ∧ recTag ys ≠ 0 ∧ tagHop (recTag ys) = tagHop (recTag bs) ∧
      recCodes ys = recCodes bs ∧ (recResidue bs = tagResidue (recTag bs) → t = s ∧ ys = bs) ∧
      (recResidue bs ≠ tagResidue (recTag bs) → tagBad (recTag ys) = true ∧ t.records.length = s.records.length + 1) := by
  by_cases agrees : recResidue bs = tagResidue (recTag bs)
  · exact ⟨s, bs, checkInput_agrees below agrees, rfl, rfl, len, tagged, rfl, rfl, fun _ => ⟨rfl, rfl⟩, fun broken => absurd agrees broken⟩
  · refine ⟨_, _, checkInput_disagrees tagged good agrees, rfl, rfl, (recSetTag_length (by omega) _).trans len, ?_⟩
    rw [recTag_recSetTag (tagSetBad_lt (recTag_lt bs))]
    exact ⟨ne_zero_of_tagBad tagBad_tagSetBad, tagHop_tagSetBad, recCodes_recSetTag len _, fun h => absurd h agrees,
      fun _ => ⟨tagBad_tagSetBad, chargeRecord_records ..⟩⟩

end

end Sys2Proof.Machine
end

section
/-! 10 R231-R236: the sums of reduction slots, and the messages that resend and acknowledge records. -/
namespace Sys2Proof.Machine

/-! ### Reduction (10 R231, R232) -/

/-- Integers added to the sums so far, element by element; the first begin them. -/
def addInts (acc xs : List Int) : List Int := if acc.isEmpty then xs else List.zipWith (· + ·) acc xs

theorem getD_foldl_addInts {n e : Nat} (he : e < n) {xss : List (List Int)} (len : ∀ xs ∈ xss, xs.length = n) :
    ∀ acc : List Int, acc.length = n → (xss.foldl addInts acc).length = n ∧
      (xss.foldl addInts acc).getD e 0 = acc.getD e 0 + (xss.map fun xs => xs.getD e 0).sum := by
  induction xss with
  | nil => exact fun acc h => ⟨h, by simp⟩
  | cons xs xss ih =>
    intro acc h
    have begun : ¬ acc.isEmpty = true := by
      rw [List.isEmpty_iff_length_eq_zero]
      omega
    have first := len xs List.mem_cons_self
    have here : (List.zipWith (· + ·) acc xs).getD e 0 = acc.getD e 0 + xs.getD e 0 := by
      simp [List.getD_eq_getElem?_getD, h, first, he]
    rw [List.foldl_cons, addInts, if_neg begun]
    obtain ⟨length, value⟩ := ih (fun ys hys => len ys (List.mem_cons_of_mem xs hys)) (List.zipWith (· + ·) acc xs)
      (by rw [List.length_zipWith, first, h, Nat.min_self])
    exact ⟨length, by rw [value, here, List.map_cons, List.sum_cons, add_assoc]⟩

/-- The codes of a record as signed integers. -/
def recInts (bs : List Byte) : List Int := (recCodes bs).map fun c => signed 32 c

theorem recInts_length (bs : List Byte) : (recInts bs).length = 1024 := by rw [recInts, List.length_map, recCodes_length]

/-- The exact sums of at least one record, element by element. -/
theorem getD_exactSums (bs : List Byte) (rs : List (List Byte)) {e : Nat} (he : e < 1024) : (exactSums (bs :: rs)).length = 1024 ∧
    (exactSums (bs :: rs)).getD e 0 = ((bs :: rs).map fun r => (recInts r).getD e 0).sum := by
  have sums : exactSums (bs :: rs) = (rs.map recInts).foldl addInts (recInts bs) := by
    rw [List.foldl_map, exactSums, List.foldl_cons]
    rfl
  have lengths : ∀ xs ∈ rs.map recInts, xs.length = 1024 := by
    simp only [List.mem_map]
    rintro xs ⟨r, -, rfl⟩
    exact recInts_length r
  obtain ⟨length, value⟩ := getD_foldl_addInts he lengths (recInts bs) (recInts_length bs)
  rw [sums, value]
  simp only [List.map_map, Function.comp_def, List.map_cons, List.sum_cons]
  exact ⟨length, trivial⟩

/-- A sum of two's complement fields wraps to the sum of their codes (07 R171). -/
theorem wrap_sum_signed (cs : List Nat) : wrap 32 (cs.map fun c => signed 32 c).sum = cs.sum % 2 ^ 32 := by
  have code (c : Nat) : signed 32 c ≡ (c : Int) [ZMOD 2 ^ 32] := by
    unfold signed Int.ModEq
    dsimp only
    split <;> omega
  have total : (cs.map fun c => signed 32 c).sum ≡ (cs.sum : Int) [ZMOD 2 ^ 32] := by
    induction cs with
    | nil => exact Int.ModEq.refl _
    | cons c cs ih =>
      rw [List.map_cons, List.sum_cons, List.sum_cons, Nat.cast_add]
      exact (code c).add ih
  unfold Int.ModEq at total
  rw [wrap]
  omega

/-- The codes of a slot's sum. -/
def RedSlot.sumCodes (x : RedSlot) : List Nat := (exactSums x.records).map (wrap 32)

theorem sumCodes_spec {x : RedSlot} (held : x.records ≠ []) {e : Nat} (he : e < 1024) : x.sumCodes.length = 1024 ∧
    x.sumCodes.getD e 0 = (x.records.map fun bs => (recCodes bs).getD e 0).sum % 2 ^ 32 := by
  obtain ⟨first, rest, records⟩ := List.exists_cons_of_ne_nil held
  obtain ⟨length, value⟩ := getD_exactSums first rest he
  have ints (bs : List Byte) : (recInts bs).getD e 0 = signed 32 ((recCodes bs).getD e 0) := by
    have zero : signed 32 0 = 0 := by decide
    have code := List.getD_map (n := e) (recCodes bs) 0 fun c => signed 32 c
    rwa [zero] at code
  have sum : ((exactSums (first :: rest)).map (wrap 32)).getD e 0 = wrap 32 ((exactSums (first :: rest)).getD e 0) :=
    List.getD_map _ 0 (wrap 32)
  rw [RedSlot.sumCodes, records, sum, value, ← wrap_sum_signed, List.map_map, List.length_map]
  simp only [ints, Function.comp_def]
  exact ⟨length, trivial⟩

section
variable {s : State} {x : RedSlot} {r : RouteEntry} {i : Nat × Packet} {is : List (Nat × Packet)} {j : Nat}

@[simp] theorem slotRecord_records (s : State) (x : RedSlot) (kind expect found : Nat) :
    (s.slotRecord x kind expect found).records.length = s.records.length + 1 := List.length_append

/-- Inputs of two exponents are not added. -/
theorem emitSum_differs (inputs : x.inputs = i :: is) {bits : DW}
    (differ : ∃ bs ∈ x.records, ∃ cs ∈ x.records, hE (recHeader bs) ≠ hE (recHeader cs)) :
    s.emitSum x r j bits = s.slotRecord x 10 0 0 := by
  obtain ⟨bs, hbs, cs, hcs, differ⟩ := differ
  obtain ⟨first, rest, records⟩ := List.exists_cons_of_ne_nil (List.ne_nil_of_mem hbs)
  unfold State.emitSum
  simp only [inputs, records]
  refine if_pos (List.any_eq_true.2 ?_)
  rw [records] at hbs hcs
  by_cases same : hE (recHeader bs) = hE (recHeader first)
  · exact ⟨cs, hcs, bne_iff_ne.2 fun h => differ (same.trans h.symm)⟩
  · exact ⟨bs, hbs, bne_iff_ne.2 same⟩

/-- Inputs of one exponent leave as one record, which holds their sums; a mismatch of the adder is a record more. -/
theorem emitSum_agrees (inputs : x.inputs = i :: is) (held : x.records ≠ [])
    (same : ∀ bs ∈ x.records, ∀ cs ∈ x.records, hE (recHeader bs) = hE (recHeader cs)) :
    ∃ (t : State) (h : Nat) (from' : List Nat), t.slots = s.slots ∧ t.packets = s.packets ∧ s.emitSum x r j 0 =
      t.forward { { i.2 with sources := from' } with body := .sheaf (leBytes 64 h ++ bytesOfCodes 32 x.sumCodes) } (maskPorts r.outMask) := by
  obtain ⟨first, rest, records⟩ := List.exists_cons_of_ne_nil held
  have equal : ((first :: rest).any fun bs => hE (recHeader bs) != hE (recHeader first)) = false := by
    rw [records] at same
    exact List.any_eq_false.2 fun bs hbs => by simpa using same bs hbs first List.mem_cons_self
  have codes : ((exactSums (first :: rest)).zipIdx.map fun p =>
      if p.2 = j then wrap 32 p.1 ^^^ (0 : DW).toNat % 2 ^ 32 else wrap 32 p.1) = x.sumCodes := by
    have undamaged (p : Int × Nat) : (if p.2 = j then wrap 32 p.1 ^^^ (0 : DW).toNat % 2 ^ 32 else wrap 32 p.1) = wrap 32 p.1 :=
      ite_eq_right_iff.2 fun _ => Nat.xor_zero _
    rw [RedSlot.sumCodes, records, List.map_congr_left fun p _ => undamaged p, ← List.zipIdx_map_fst 0 (exactSums (first :: rest)), List.map_map]
    simp
  unfold State.emitSum
  simp only [inputs, records, equal, codes, Bool.false_eq_true, if_false]
  refine ⟨_, _, _, ?_, ?_, rfl⟩
  all_goals
    split
    · rfl
    · rfl

end

/-- The codes of a record made of a header and packed codes. -/
theorem getD_recCodes_append {cs : List Nat} (len : cs.length = 1024) (h : Nat) {e : Nat} (he : e < 1024) :
    (leBytes 64 h ++ bytesOfCodes 32 cs).length = 4160 ∧ (recCodes (leBytes 64 h ++ bytesOfCodes 32 cs)).getD e 0 = cs.getD e 0 % 2 ^ 32 := by
  have bytes : (leBytes 64 h ++ bytesOfCodes 32 cs).length = 4160 := by rw [List.length_append, leBytes_length, bytesOfCodes_length 32 len]
  have small : packList 32 cs < 2 ^ (8 * ((32 * cs.length + 7) / 8)) := lt_two_pow_mono (packList_lt 32 cs) (by omega)
  refine ⟨bytes, ?_⟩
  rw [recCodes_aic bytes, List.drop_left' (leBytes_length 64 h), codesOfBytes, getD_range_map _ he, bytesOfCodes, ofLe_leBytes, pow_256,
    Nat.mod_eq_of_lt small, bitsOf_packList]

section
variable {s : State} {x : RedSlot} {r : RouteEntry} {i : Nat × Packet} {is : List (Nat × Packet)} {k q : Nat}

/-- The network without the slot at a place. -/
def State.freed (s : State) (k : Nat) : State := { s with slots := dropAt k s.slots }

variable (hk : s.input.k = k) (slot : s.slots[k]? = some x)
include hk slot

theorem redtimeout_eq (route : s.slotRoute x = some r) : exec .redtimeout s =
    .next (if s.tb.toNat < x.openedAt + 2 ^ 20 ∨ x.complete r = true then s else (s.freed k).slotRecord x 8 0 0) := by
  simp only [exec_redtimeout, execRedtimeout, event, hk, slot, route, Option.any_some, Bool.or_eq_true, decide_eq_true_eq]
  rfl

theorem reductionEmit_eq (route : s.slotRoute x = some r) : exec .reductionEmit s =
    .next (if x.complete r = true then (s.freed k).emitSum x r s.input.j s.input.bits else s) := by
  simp only [exec_reductionEmit, execReductionEmit, event, hk, slot, route]
  rfl

/-- A complete slot whose inputs have one exponent sends their sum by the route's one link. -/
theorem reductionEmit_sends (route : s.slotRoute x = some r) (inputs : x.inputs = i :: is) (held : x.records ≠ []) (complete : x.complete r = true)
    (same : ∀ bs ∈ x.records, ∀ cs ∈ x.records, hE (recHeader bs) = hE (recHeader cs)) (clean : s.input.bits = 0)
    (lo : 1 ≤ q) (hi : q ≤ 4) (link : maskPorts r.outMask = [q]) :
    ∃ (u : State) (p : Packet) (ys : List Byte), exec .reductionEmit s = .next u ∧ u.slots = dropAt k s.slots ∧ u.packets = s.packets ++ [p] ∧
      p.body = .sheaf ys ∧ p.switch = (neighbour i.2.switch q).1 ∧
      ∀ e, e < 1024 → (recCodes ys).getD e 0 = (x.records.map fun bs => (recCodes bs).getD e 0).sum % 2 ^ 32 := by
  obtain ⟨t, h, sources, slots, packets, sum⟩ := emitSum_agrees (s := s.freed k) (r := r) (j := s.input.j) inputs held same
  rw [link, forward_link lo hi] at sum
  have run := reductionEmit_eq hk slot route
  rw [if_pos complete, clean, sum] at run
  refine ⟨_, _, _, run, slots, congrArg (· ++ [_]) packets, rfl, rfl, fun e he => ?_⟩
  obtain ⟨length, value⟩ := sumCodes_spec held he
  obtain ⟨bytes, codes⟩ := getD_recCodes_append length h he
  rw [recCodes_bumpHop bytes, codes, value, Nat.mod_mod]

end

/-! ### Resend and ack (10 R235, R236) -/

/-- The tag under which a record is sent again. -/
def resendTag (tag gen : Nat) : Nat := tagSetHop (setBits tag 53 8 gen) 0

theorem resendTag_spec {tag gen : Nat} (small : tag < 2 ^ 64) (hg : gen < 2 ^ 8) : resendTag tag gen < 2 ^ 64 ∧
    tagGen (resendTag tag gen) = gen ∧ tagHop (resendTag tag gen) = 0 ∧ tagResidue (resendTag tag gen) = tagResidue tag := by
  unfold resendTag
  refine ⟨tagSetHop_lt (setBits_lt small (by decide) gen) 0, ?_, tagHop_tagSetHop 0, ?_⟩
  · rw [tagGen_tagSetHop, tagGen, bitsOf_setBits_self, Nat.mod_eq_of_lt hg]
  · rw [tagResidue_tagSetHop]
    exact bitsOf_setBits_apart (.inl (by decide)) tag gen

section
variable {s : State} {m : Msg} {n : Nat}

/-- A built-in message at the head of a mailbox whose tile runs no handler. -/
theorem builtin_head (idle : s.tile.handlerRun = none) (awake : s.tile.halted = false) (placed : s.tile.remapping = false)
    (running : s.halted = false) (head : s.tile.mailbox.head? = some m) (entry : m.entry = n) : s.builtin n = some m := by
  simp [State.builtin, State.headMsg, idle, awake, placed, running, head, entry]

theorem builtinLocal_waits (waits : s.strandWaits .handler 1 3 = true) : s.builtinLocal n = none := if_pos waits

theorem builtinLocal_runs (ready : s.strandWaits .handler 1 3 = false) (head : s.builtin n = some m) : s.builtinLocal n = some m := by
  rw [State.builtinLocal, ready]
  exact head

theorem sheafResend_waits (waits : s.strandWaits .handler 1 3 = true) : exec .sheafResend s = .next s := by
  rw [exec_sheafResend, execSheafResend, builtinLocal_waits waits]
  rfl

theorem sheafResend_gone (head : s.builtinLocal 13 = some m)
    (gone : ∀ r ∈ s.tile.retention, r.is (m.dw 0).toNat ((m.dw 0).toNat / 2 ^ 48 % 2 ^ 8) = false) :
    exec .sheafResend s = .next (s.rejectHead m 4) := by
  have found : (s.tile.retention.find? fun r => r.is (m.dw 0).toNat (bitsOf (m.dw 0).toNat 48 8)) = none :=
    List.find?_eq_none.2 fun r hr => Bool.eq_false_iff.1 (gone r hr)
  rw [exec_sheafResend, execSheafResend, head]
  dsimp only
  rw [found]
  rfl

theorem builtinWrite_spad (a : Nat) (bs : List Byte) : (s.builtinWrite a bs).tile.spad = s.tile.spad.writeBytes a bs := rfl

theorem builtinWrite_shSends (a : Nat) (bs : List Byte) : (s.builtinWrite a bs).tile.shSends = s.tile.shSends := rfl

/-- The record of a retention entry is tagged anew in place and sent again. -/
theorem sheafResend_sends {r : Retention} (head : s.builtinLocal 13 = some m) (wf : s.tile.spad.wf = true)
    (held : (s.tile.retention.find? fun x => x.is (m.dw 0).toNat ((m.dw 0).toNat / 2 ^ 48 % 2 ^ 8)) = some r) :
    ∃ u : State, exec .sheafResend s = .next u ∧ u.tile.mailbox = s.tile.mailbox.drop 1 ∧
      u.tile.spad.readLe (r.addr + 32) 8 = resendTag (s.tile.spad.readLe (r.addr + 32) 8) ((m.dw 0).toNat / 2 ^ 56) ∧
      (∀ x, x < r.addr + 32 ∨ r.addr + 40 ≤ x → u.tile.spad.read x = s.tile.spad.read x) ∧
      u.tile.shSends = s.tile.shSends ++ [{ addr := r.addr, auto := r.auto, resend := true }] := by
  have found : (s.tile.retention.find? fun x => x.is (m.dw 0).toNat (bitsOf (m.dw 0).toNat 48 8)) = some r := held
  have top : bitsOf (m.dw 0).toNat 56 8 = (m.dw 0).toNat / 2 ^ 56 := by
    have := (m.dw 0).isLt
    unfold bitsOf
    omega
  have gen : (m.dw 0).toNat / 2 ^ 56 < 2 ^ 8 := top ▸ bitsOf_lt _ 56 8
  have small := (resendTag_spec (Memory.readLe_lt s.tile.spad (r.addr + 32) 8) gen).1
  rw [exec_sheafResend, execSheafResend, head]
  dsimp only
  rw [found, top]
  refine ⟨_, rfl, rfl, ?_, fun x outside => ?_, congrArg (· ++ _) (builtinWrite_shSends _ _)⟩
  · rw [onTile_tile, builtinWrite_spad]
    exact ((Memory.holds_writeBytes _ _ wf).readLe).trans (Nat.mod_eq_of_lt small)
  · rw [onTile_tile, builtinWrite_spad]
    exact (Memory.read_writeBytes _ _ _ wf).trans (if_neg (by rw [leBytes_length]; omega))

theorem ackDelivery_marks (head : s.builtin 14 = some m) : ∃ u : State, exec .ackDelivery s = .next u ∧
    u.tile.mailbox = s.tile.mailbox.drop 1 ∧ SameBytes s u ∧ u.tile.retention =
      (s.tile.retention.filter fun r => !(r.is (m.dw 0).toNat ((m.dw 0).toNat / 2 ^ 48 % 2 ^ 8) && r.auto)).map fun r =>
        if r.is (m.dw 0).toNat ((m.dw 0).toNat / 2 ^ 48 % 2 ^ 8) then { r with st := .acked } else r := by
  rw [exec_ackDelivery, execAckDelivery, head]
  exact ⟨_, rfl, rfl, sameBytes_of_eq rfl rfl rfl, rfl⟩

end

/-- A sound record at its network interface: delivered there with HOP 0 and its payload. -/
theorem deliver_bumped {s : State} {pk : BitVec 5} {route l : Nat} {bs : List Byte} (len : bs.length = 4160) (tagged : recTag bs ≠ 0)
    (good : tagBad (recTag bs) = false) (agrees : recResidue bs = tagResidue (recTag bs)) :
    ∃ (u : State) (ys : List Byte), s.deliverRecord pk route l (bumpHop bs) = u ∧ u.packets = s.packets ∧ u.records = s.records ∧
      (u.getTile l).delivered = (s.getTile l).delivered ++ [ys] ∧ tagHop (recTag ys) = 0 ∧ recCodes ys = recCodes bs := by
  have good' : tagBad (recTag (bumpHop bs)) = false := (tagBad_bumpHop tagged).trans good
  have agrees' : recResidue (bumpHop bs) = tagResidue (recTag (bumpHop bs)) := by
    rw [recResidue_bumpHop len, recTag_bumpHop tagged, tagResidue_tagSetHop, agrees]
  have bumped : (bumpHop bs).length = 4160 := (bumpHop_length (by omega)).trans len
  obtain ⟨packets, records⟩ := modTile_packets s l fun t => t.deliver (recSetTag (bumpHop bs) (tagSetHop (recTag (bumpHop bs)) 0))
  refine ⟨_, recSetTag (bumpHop bs) (tagSetHop (recTag (bumpHop bs)) 0), deliverRecord_agrees good' agrees', packets, records, ?_, ?_,
    (recCodes_recSetTag bumped _).trans (recCodes_bumpHop len)⟩
  · exact congrArg Tile.delivered (getTile_modTile (f := fun t => t.deliver _) fun _ => rfl)
  · rw [recTag_recSetTag (tagSetHop_lt (recTag_lt _) 0), tagHop_tagSetHop, Nat.zero_mod]

/-- Settles O48: a record's way from its departure over the switches and through a reduction, and the messages that resend and acknowledge it. -/
theorem sheafNetwork : Obligations.SheafNetwork := by
  intro s k hk
  refine ⟨?departure, ?switch, ?reduction, ?messages⟩
  case departure =>
    rintro x xs bs t sends first sound record rfl tagged good
    have fields (st : RetState) : (x.entry bs st).gen.toNat = tagGen (recTag bs) ∧ (x.entry bs st).chunk.toNat = hChunk (recHeader bs) ∧
        (x.entry bs st).tensor.toNat = hTensor (recHeader bs) := by
      simp only [ShSend.entry, BitVec.toNat_ofNat]
      exact ⟨Nat.mod_eq_of_lt (bitsOf_lt _ 53 8), Nat.mod_eq_of_lt hChunk_lt, Nat.mod_eq_of_lt hTensor_lt⟩
    have route (ys : List Byte) : (s.sheafPacket (recTag bs) ys).route.toNat = tagRoute (recTag bs) :=
      (BitVec.toNat_ofNat ..).trans (Nat.mod_eq_of_lt (bitsOf_lt _ 31 16))
    by_cases agrees : recResidue bs = tagResidue (recTag bs)
    · obtain ⟨gen, chunk, tensor⟩ := fields .sent
      exact ⟨_, _, _, departure_agrees sends first sound record tagged good agrees, rfl, rfl, rfl, rfl, gen, chunk, tensor, rfl, rfl, rfl,
        route bs, rfl, fun _ => ⟨rfl, rfl, rfl⟩, fun broken => absurd agrees broken⟩
    · obtain ⟨gen, chunk, tensor⟩ := fields .failed
      refine ⟨_, _, _, departure_disagrees sends first sound record tagged good agrees, rfl, rfl, rfl, rfl, gen, chunk, tensor, rfl, rfl, rfl,
        route _, rfl, fun h => absurd h agrees, fun _ => ⟨rfl, fun ys body => ?_, chargeRecord_records ..⟩⟩
      obtain rfl := PacketBody.sheaf.inj body
      rw [recTag_recSetTag (tagSetBad_lt (recTag_lt bs)), tagBad_tagSetBad]
  case switch =>
    rintro p bs t r packet body clean len rfl tagged good below routed
    obtain ⟨t, ys, checked, packets, routes, len', tagged', hop, codes, sound, charged⟩ :=
      checkInput_passes (s := s.taken k) (p := p) len tagged good below
    obtain ⟨forwards, drops⟩ := switchArrival_checked hk packet body clean routed checked routes
    refine ⟨fun one plain => ⟨fun q lo hi link => ?_, fun home agrees => ?_⟩, fun unrouted agrees => ?_⟩
    · have run := forwards r one plain
      rw [link, forward_link lo hi] at run
      refine ⟨_, _, run, congrArg (· ++ [_]) packets, ?_, (recCodes_bumpHop len').trans codes, fun agrees => ?_, fun broken => ?_⟩
      · rw [tagHop_bumpHop tagged' (hop ▸ below), hop]
      · obtain ⟨rfl, rfl⟩ := sound agrees
        exact ⟨(tagBad_bumpHop tagged).trans good, rfl⟩
      · obtain ⟨bad, records⟩ := charged broken
        exact ⟨(tagBad_bumpHop tagged').trans bad, records⟩
    · obtain ⟨rfl, rfl⟩ := sound agrees
      have run := forwards r one plain
      rw [home, forward_local] at run
      obtain ⟨u, ys, delivery, packets, records, delivered, hop, codes⟩ :=
        deliver_bumped (s := s.taken k) (pk := p.paddock) (route := p.route.toNat) (l := p.switch) len tagged good agrees
      exact ⟨u, ys, run.trans (congrArg _ delivery), packets, delivered, hop, codes, records⟩
    · obtain ⟨rfl, rfl⟩ := sound agrees
      have fault : (s.taken k).routeFault { p with body := .sheaf ys } =
          (s.taken k).chargeRecord p.paddock 2 p.route.toNat p.switch p.port ys (recResidue ys) 0 := if_neg (by simp [good])
      exact ⟨_, (drops unrouted).trans (congrArg _ fault), rfl, chargeRecord_records ..⟩
  case reduction =>
    intro x r i is slot route inputs
    refine ⟨fun incomplete => ?_, fun complete bodies same clean q lo hi link => ?_, fun complete differ => ?_, fun early => ?_,
      fun late incomplete => ?_⟩
    · rw [reductionEmit_eq hk slot route, incomplete]
      rfl
    · obtain ⟨bs, body, -⟩ := bodies i (inputs ▸ List.mem_cons_self)
      have held : x.records ≠ [] := List.ne_nil_of_mem (a := bs) (List.mem_filterMap.2 ⟨i, inputs ▸ List.mem_cons_self, by rw [body]; rfl⟩)
      exact reductionEmit_sends hk slot route inputs held complete same clean lo hi link
    · refine ⟨(s.freed k).slotRecord x 10 0 0, ?_, rfl, rfl, slotRecord_records ..⟩
      rw [reductionEmit_eq hk slot route, if_pos complete, emitSum_differs inputs differ]
    · rw [redtimeout_eq hk slot route, if_pos early]
    · refine ⟨(s.freed k).slotRecord x 8 0 0, ?_, rfl, rfl, slotRecord_records ..⟩
      rw [redtimeout_eq hk slot route, if_neg (not_or.2 ⟨Nat.not_lt.2 late, by simp [incomplete]⟩)]
  case messages =>
    rintro m w idle awake placed running head rfl
    have builtin {n : Nat} (entry : m.entry = n) : s.builtin n = some m := builtin_head idle awake placed running head entry
    refine ⟨fun _ => sheafResend_waits, fun entry ready gone => ⟨_, sheafResend_gone (builtinLocal_runs ready (builtin entry)) gone, rfl, rfl,
      sameBytes_of_eq rfl rfl rfl⟩, fun r entry ready wf held => ?_, fun entry => ackDelivery_marks (builtin entry)⟩
    obtain ⟨u, run, mailbox, tag, bytes, sends⟩ := sheafResend_sends (builtinLocal_runs ready (builtin entry)) wf held
    have newGen : (m.dw 0).toNat / 2 ^ 56 < 2 ^ 8 := by
      have := (m.dw 0).isLt
      omega
    obtain ⟨-, gen, hop, residue⟩ := resendTag_spec (Memory.readLe_lt s.tile.spad (r.addr + 32) 8) newGen
    rw [← tag] at gen hop residue
    exact ⟨u, run, mailbox, gen, hop, residue, bytes, sends⟩

end Sys2Proof.Machine
end
